-- ==== Sys2Proof/Word.lean ====
section
/-! DEFINITION. The word types of the model: bytes, 32-bit register words (R5) and byte strings. -/

namespace Sys2Proof

/-- One byte of memory, of a frame or of a record. -/
abbrev Byte := BitVec 8

/-- One register of BAR0: all registers are 32 bits wide (R5). -/
abbrev Word := BitVec 32

/-- A byte string, lowest address (or first byte on the wire) first. -/
abbrev Bytes := List Byte

end Sys2Proof
end

