-- ==== Sys2Proof/Image.lean ====
section
/-! DEFINITION. The schedule image as plain data: what the manual says an image declares. The image's own byte layout is
Trosil's and is not in the manual, so an image is the record of its declarations (assumption 3). -/

namespace Sys2Proof

/-- A cadence (R46, R51); `compiledUs` is, by schedule, the time from its admission close to its compiled end (R69, R561), `engines`
the map-die engines whose objects its compiled work modifies (0 fusion, 1 track, 2 map, 3 solver, 4 search; R76), and
`privileged` whether it holds compiled work of a privileged stream (R568). -/
structure CadenceDecl where
  multiple : Nat
  phase : Nat
  settleUs : Nat
  compiledUs : List Nat
  engines : List Nat
  privileged : Bool
  deriving DecidableEq, Repr, Inhabited

/-- One use of a tile slot in the lantern plan (R149). -/
structure LanternUse where
  producer : Nat
  held : Bool
  units : List Nat
  cadence : Nat
  owner : Nat
  deriving DecidableEq, Repr, Inhabited

/-- The uses of one slot, in order (R149), by lantern index (R148). -/
structure SlotPlan where
  lantern : Nat
  uses : List LanternUse
  deriving DecidableEq, Repr, Inhabited

/-- A lendable window (R160): `memory` 0–3 packs, 4 + 4v + e line buffers; for each step of the period of the longest cadence
in which it occurs, its open and close instants in ns from the step edge; and the schedules that declare it (R163). -/
structure LendWindow where
  memory : Nat
  first : Nat
  last : Nat
  times : List (Nat × Nat × Nat)
  schedules : List Nat
  deriving DecidableEq, Repr, Inhabited

/-- The classes of objects (R461). -/
inductive ObjClass where
  | system | input | state | weights | cold | scratch | archive | host
  deriving DecidableEq, Repr, Inhabited

/-- The placement policies (R469). -/
inductive Policy where
  | pinT3 | hot | lend | stream | cold | archive
  deriving DecidableEq, Repr, Inhabited

/-- An object of the image (R460, R461): its address is `baseTile` × 32 KiB. -/
structure ObjectDecl where
  id : Nat
  cls : ObjClass
  policy : Policy
  tenant : Nat
  baseTile : Nat
  tiles : Nat
  init : Bytes
  deriving DecidableEq, Repr, Inhabited

/-- A tenant's tile quotas (R472). -/
structure Quota where
  tenant : Nat
  t2 : Nat
  t3 : Nat
  t4 : Nat
  deriving DecidableEq, Repr, Inhabited

/-- One segment of a function table (R119): FP32 origin and coefficients. -/
structure FnSegment where
  fn : Nat
  segment : Nat
  x0 : Nat
  c0 : Nat
  c1 : Nat
  c2 : Nat
  c3 : Nat
  deriving DecidableEq, Repr, Inhabited

/-- The anchors of a tensor, as recorded beside it (R110): of weight columns where `stride` is 0, else of rows of `stride` bytes,
which follow each other once for each slice of K. -/
structure AnchorTable where
  base : Nat
  bytes : Nat
  anchors : List Int
  stride : Nat
  deriving DecidableEq, Repr, Inhabited

/-- An output stream of the image (R40, R616): its function, tenant, record type and producing cadence, and the check
regions its `CONTESTED` flag depends on (R240). -/
structure OutputDecl where
  stream : Nat
  function : Nat
  tenant : Nat
  recordType : Nat
  cadence : Nat
  checkRegions : List Nat
  deriving DecidableEq, Repr, Inhabited

/-- What the image fixes for one stream of a tether (R441, R442, R452): `kind` 0 samples, 1 records, 2 images, 3 points;
`total` the frame size of images and points and the record size of records, with the image's width, height and planes (R169, R170); the cadences that
consume it; and its frame ring (R167). -/
structure TetherStream where
  slot : Nat
  stream : Nat
  kind : Nat
  elements : Nat
  format : Nat
  total : Nat
  width : Nat
  height : Nat
  planes : Nat
  cadences : List Nat
  ringEntries : Nat
  ringBase : Nat
  tenant : Nat
  deriving DecidableEq, Repr, Inhabited

/-- The alignment methods (R222). -/
inductive Method where
  | hold | linear | hermite | slerp
  deriving DecidableEq, Repr, Inhabited

/-- A fusion stream (R211); times in 2⁻¹⁶ ns. `kind` 0 sample, 1 record, 2 pose, 3 image; `fields` is the extraction:
byte offset and format (0 INT16, 1 INT32, 2 FP32, 3 FP64, big-endian). -/
structure StreamDecl where
  slot : Nat
  stream : Nat
  kind : Nat
  method : Method
  horizon : Nat
  period : Nat
  functions : List Nat
  privileged : Bool
  fields : List (Nat × Nat)
  ego : Option Nat
  deriving DecidableEq, Repr, Inhabited

/-- A declared pair of a check region (R238): metric, gate (FP32 bits) and the overlap cells of metric 2. -/
structure CheckPair where
  a : Nat
  b : Nat
  metric : Nat
  gate : Nat
  cells : List Nat
  deriving DecidableEq, Repr, Inhabited

/-- A check region (R238): its fusion streams and pairs, and the plant-grid cells (column + row · columns) that lie in it
(R233). -/
structure CheckRegion where
  streams : List Nat
  pairs : List CheckPair
  cells : List Nat
  deriving DecidableEq, Repr, Inhabited

/-- An ego entry (R225, R226); Q is the 6 × 6 process noise per second as FP64 bits, row-major. -/
structure EgoEntry where
  features : Bool
  lidar : Bool
  hypotheses : Nat
  reprojPx : Nat
  minInliers : Nat
  maxRms : Nat
  q : List Nat
  predDepth : Nat
  unit : Nat
  slot : Nat
  stream : Nat
  deriving DecidableEq, Repr, Inhabited

/-- The operations of a compiled FP64 sequence (R212, R253). -/
inductive FpOp where
  | add | sub | mul | div | sqrt | fma | neg | sin | cos | atan2 | log
  deriving DecidableEq, Repr, Inhabited

/-- One operation: it reads earlier values by index and appends its result. -/
structure FpStep where
  op : FpOp
  a : Nat
  b : Nat
  c : Nat
  deriving DecidableEq, Repr, Inhabited

/-- A compiled sequence of FP64 operations (R253): constants that stand after the inputs, the steps in order, and the
indices of the outputs. -/
structure FpProg where
  consts : List Nat
  steps : List FpStep
  outs : List Nat
  deriving DecidableEq, Repr, Inhabited

/-- A measurement kind of a motion model: h and its Jacobian, from the state (R253). -/
structure MeasureKind where
  m : Nat
  h : FpProg
  jac : FpProg
  deriving DecidableEq, Repr, Inhabited

/-- A motion model (R253). Inputs are the state, dt and the 16 private values; `f` gives the state and, where it gives
more, the private values; `init` reads a first measurement. `pos` are the indices of the position block. -/
structure MotionModel where
  n : Nat
  f : FpProg
  jac : FpProg
  q : FpProg
  init : FpProg
  kinds : List MeasureKind
  pos : List Nat
  deriving DecidableEq, Repr, Inhabited

/-- An object class (R253); FP64 bit patterns. -/
structure TrackClass where
  model : Nat
  ukf : Bool
  gate : Nat
  missCost : Nat
  newCost : Nat
  birth : Bool
  p0 : List Nat
  posLimit : Nat
  alpha : Nat
  beta : Nat
  kappa : Nat
  deriving DecidableEq, Repr, Inhabited

/-- An output stream of track lists (R267): its regions and the mask of states it reports. -/
structure TrackStream where
  stream : Nat
  regions : List Nat
  states : List Nat
  tenant : Nat
  deriving DecidableEq, Repr, Inhabited

/-- What the image declares for the track engine (R251–R253). `tables` are the two sets of track table tiles (R256). -/
structure TrackDecl where
  cadence : Nat
  regions : Nat
  models : List MotionModel
  classes : List TrackClass
  streams : List TrackStream
  tables : List Nat
  unit : Nat
  deriving DecidableEq, Repr, Inhabited

/-- A search collection (R330): its digest, distance program with the constants of `AFFINE` (R334), centroids and
weights as FP32 bit patterns, epoch source and merge cadence (`none`: the map's, R340, R344), capacities, tenant, the
digest of its snapshot, and the object that holds its lists. -/
structure CollDecl where
  digest : Bytes
  dim : Nat
  program : Nat
  affA : Nat
  affB : Nat
  centroids : List (List Nat)
  weights : List Nat
  source : Option Nat
  merge : Option Nat
  capacity : Nat
  awning : Nat
  tenant : Nat
  hostWrite : Bool
  snapshot : Option Bytes
  object : Nat
  deriving DecidableEq, Repr, Inhabited

/-- What the image declares for the solver (R317, R326): the mapping cadence, store sizes in MiB, its logical unit, the
lantern of the result status and the address of the solution entries. -/
structure SolverDecl where
  cadence : Nat
  factorMib : Nat
  contribMib : Nat
  unit : Nat
  resultLantern : Nat
  solutionBase : Nat
  deriving DecidableEq, Repr, Inhabited

/-- A pose slot (R278): the map epoch it was written at, the value (position and, for a keyframe, unit quaternion w, x,
y, z, FP64) and the standard deviations (FP32). -/
structure PoseSlot where
  epoch : Nat
  value : List Nat
  sd : List Nat
  deriving DecidableEq, Repr, Inhabited

/-- A keyframe record (R278). -/
structure Keyframe where
  id : Nat
  sensor : Nat
  flags : Nat
  stamp : Nat
  epochIn : Nat
  slotA : PoseSlot
  slotB : PoseSlot
  vectorId : Nat
  deriving DecidableEq, Repr, Inhabited

/-- A landmark record (R278). -/
structure Landmark where
  id : Nat
  flags : Nat
  epochIn : Nat
  epochDel : Nat
  slotA : PoseSlot
  slotB : PoseSlot
  desc : Bytes
  deriving DecidableEq, Repr, Inhabited

/-- A factor record (R279), with the values of its variables at its last linearisation (R297; empty before the first). -/
structure MapFactor where
  id : Nat
  type : Nat
  kernel : Nat
  flags : Nat
  varA : Nat
  varB : Nat
  epochIn : Nat
  epochDel : Nat
  z : List Nat
  sigma : List Nat
  kernelK : Nat
  linA : List Nat
  linB : List Nat
  deriving DecidableEq, Repr, Inhabited

/-- An output stream of map records (R300) and its sensors. -/
structure MapStream where
  stream : Nat
  sensors : List Nat
  tenant : Nat
  deriving DecidableEq, Repr, Inhabited

/-- What the image declares for the map engine: the mapping cadence, the capacities of R277, the base map (R280), the
engine's logical unit (R294), the keyframe collection and its lists to probe (0: all, R292), the kernel of closure
factors (R296), the submission buffer and the lantern of the submission header, the occurrences with the reorder flag
(R316), and the output streams (R300). -/
structure MapDecl where
  cadence : Nat
  kfCap : Nat
  lmCap : Nat
  facCap : Nat
  baseKfs : List Keyframe
  baseLms : List Landmark
  baseFacs : List MapFactor
  unit : Nat
  collection : Nat
  nprobe : Nat
  kernel : Nat
  kernelK : Nat
  deltaBase : Nat
  headerLantern : Nat
  reorderEvery : Nat
  reorderPhase : Nat
  streams : List MapStream
  deriving DecidableEq, Repr, Inhabited

/-- A channel entry (R363). `svRate` is the `smpRate` of a sampled-value channel and 0 for a Tether channel (R367);
`cadences` the consuming cadences; `tiles` pairs a consuming cadence with
the lanterns that its signal tiles take in order, one list for each groundsheet that `FLAGS` names (R381). -/
structure ChannelDecl where
  index : Nat
  slot : Nat
  stream : Nat
  element : Nat
  format : Nat
  inShift : Nat
  period : Nat
  svRate : Nat
  anchorTol : Nat
  preset : Nat
  stages : List Nat
  ratio : Nat
  scale : Nat
  acceptTest : Bool
  feedsFusion : Bool
  feedsCompute : Bool
  cadences : List Nat
  tiles : List (Nat × List Nat)
  deriving DecidableEq, Repr, Inhabited


/-- A schedule image. `bindings` pairs a heavy tether's slot with its vision cluster (R166); `projTable` is the ATAN
table: origin and four coefficients of each of 64 segments (R193); the grid's cell size and origin are FP32 (R26); `fusionUnit` is
the fusion engine's logical unit (R225);
`customFilters` are half-band filters 4 to 7 by number (R373), `resampler` the prototype h (R376); glint tiles go to
`glintLanterns` (R386);
`initRegs` are initial values of class S fields: offset, mask, value (R517). `blockWork` names the functions with compiled
work on a block: block, function and the cadence of that work (R38). -/
structure Image where
  id : Nat
  baseUs : Nat
  seed : Bytes
  cadences : List CadenceDecl
  schedules : List Nat
  initRegs : List (Nat × Nat × Nat)
  plan : List SlotPlan
  windows : List LendWindow
  objects : List ObjectDecl
  quotas : List Quota
  fnVersion : Nat
  fnTables : List FnSegment
  anchors : List AnchorTable
  outputs : List OutputDecl
  summaryStream : Nat
  glintStream : Nat
  tethers : List TetherStream
  streams : List StreamDecl
  checks : List CheckRegion
  egos : List EgoEntry
  fusionUnit : Nat
  fusionTables : Nat
  gridCols : Nat
  gridRows : Nat
  gridBf16 : Bool
  gridBase : Nat
  gridScales : List Nat
  statusBase : Nat
  vectorBase : List Nat
  privilegedBase : List Nat
  bindings : List (Nat × Nat)
  projVersion : Nat
  projTable : List (List Nat)
  gridCell : Nat
  gridEast : Nat
  gridNorth : Nat
  track : TrackDecl
  collections : List CollDecl
  solver : SolverDecl
  map : MapDecl
  channels : List ChannelDecl
  customFilters : List (Nat × List Int)
  resampler : List Int
  rsVersion : Nat
  glintLanterns : List Nat
  blockWork : List (Nat × Nat × Nat)
  deriving DecidableEq, Repr, Inhabited

/-- One record of the boot configuration block (R514). -/
inductive BootRecord where
  | register (offset mask value : Nat)
  | portAddr (port mac ip4 ip4Prefix ip6 ip6Prefix : Nat)
  | sizes (trailMib outMib poolMib archiveTiles : Nat)
  | quota (q : Quota)
  deriving DecidableEq, Repr, Inhabited

/-- What a slot component holds (R509). -/
inductive ComponentBody where
  | runtime (version : Nat)
  | bootConfig (records : List BootRecord)
  | image (img : Image) (start : Bool)
  deriving DecidableEq, Repr, Inhabited

/-- One component of a slot: its stored bytes, the digest and signature its table entry gives, and its contents. -/
structure Component where
  bytes : Bytes
  digest : Bytes
  sigR : Nat
  sigS : Nat
  body : ComponentBody
  deriving DecidableEq, Repr, Inhabited

/-- One slot of the flash with its manifest (R509). -/
structure Slot where
  committed : Bool
  slotSeq : Nat
  securityVersion : Nat
  manifest : Bytes
  sigR : Nat
  sigS : Nat
  components : List Component
  deriving DecidableEq, Repr, Inhabited

/-- One entry of the repair log (R485, R569): kind 0 array column, 1 guy-line lane group, 2 HBM3 row, 3 bank; the
region charged; the column, group or row repaired. -/
structure RepairEntry where
  kind : Nat
  region : Nat
  index : Nat
  deriving DecidableEq, Repr, Inhabited

/-- An X.509 certificate as the device reads it (R530): its encoding's size, serial, role in the organisational unit
(1 maker, 2 installer, 3 operator, 0 none), P-384 key, digitalSignature usage, and the signed part with its signature.
The parsing of the encoding is left out (assumption 7). -/
structure Cert where
  size : Nat
  serial : Bytes
  ou : Nat
  pub : Nat × Nat
  signUsage : Bool
  tbs : Bytes
  sigR : Nat
  sigS : Nat
  deriving DecidableEq, Repr, Inhabited

/-- A calibration entry (R194, R546) for a sensor, named by tether slot and stream; FP32 values as bit patterns. -/
structure Calibration where
  sensor : Nat
  model : Nat
  width : Nat
  height : Nat
  fx : Nat
  fy : Nat
  cx : Nat
  cy : Nat
  coeffs : List Nat
  thetaMax : Nat
  rot : List Nat
  trans : List Nat
  deriving DecidableEq, Repr, Inhabited

/-- A roster entry (R447). `kind` 0 Tether, 1 sampled values; `domain` is the domain of R213 class 4. -/
structure RosterEntry where
  slot : Nat
  kind : Nat
  heavy : Bool
  addr : Nat
  appid : Nat
  svid : Bytes
  key : Bytes
  rate : Nat
  burst : Nat
  pps : Nat
  burstPkts : Nat
  quota : Nat
  domain : Nat
  smpRate : Nat
  frameRate : Nat
  deriving DecidableEq, Repr, Inhabited

/-- A peg record (R274): FP64 coordinates and FP32 standard deviations as bit patterns. -/
structure Peg where
  peg : Nat
  flags : Nat
  pos : List Nat
  sigma : List Nat
  label : Bytes
  epochSet : Nat
  deriving DecidableEq, Repr, Inhabited

/-- The plant frame's geodetic datum (R273): FP64 bit patterns and the datum code. -/
structure Datum where
  lat : Nat
  lon : Nat
  height : Nat
  code : Nat
  deriving DecidableEq, Repr, Inhabited

/-- The items of a site store copy (R546). -/
structure SiteStore where
  seq : Nat
  root : Option Cert
  siteCert : Bytes
  configKey : Option (Nat × Nat)
  imageKeys : List (Nat × Nat)
  revoked : List Bytes
  calibrations : List Calibration
  roster : List RosterEntry
  pegs : List Peg
  datum : Option Datum
  deriving DecidableEq, Repr, Inhabited

/-- The flash (R508): whether its descriptor reads and selects 25 MHz, the repair log, the two slots and the site store
copies whose signatures verify. -/
structure Flash where
  descriptorOk : Bool
  ref25 : Bool
  repairLog : List RepairEntry
  slotA : Option Slot
  slotB : Option Slot
  siteA : Option SiteStore
  siteB : Option SiteStore
  deriving DecidableEq, Repr, Inhabited

end Sys2Proof
end

