-- ==== Sys2Proof/Syntax.lean ====
section
/-! DEFINITION. The commands of the device: one constructor of `Instr` per row of the opcode table, with the operands
the manual gives the command or, for an event from outside, what the event finds (assumption 6). -/

namespace Sys2Proof

/-- Who writes a register: host software over PCIe, or the runtime over the guy lines (R24, R397). -/
inductive Writer where
  | host | runtime
  deriving DecidableEq, Repr, Inhabited

/-- The answer to a bus read or write: data, an Unsupported Request completion (R5), or a plain completion. -/
inductive BusReply where
  | none
  | data (w : Nat)
  | bytes (bs : Bytes)
  | completed
  | unsupported
  deriving DecidableEq, Repr, Inhabited

/-- What `RESET_N`'s release finds on the board and in the part (R510, R511, R577): verdicts of the boot tests, the
regions whose power-on test fails, and the flash the board attaches (none: the one attached before). -/
structure BootInputs where
  pllLocks : Bool
  securityOk : Bool
  bootPathOk : Bool
  pair0Ok : Bool
  pair1Ok : Bool
  hbmTrains : Bool
  failing : List Nat
  flash : Option Flash
  pcieGen : Nat
  pcieWidth : Nat
  deriving DecidableEq, Repr, Inhabited

/-- What resets the host interface, apart from `PERST_N` (R493). -/
inductive HostResetCause where
  | hotReset | linkDown | functionLevelReset | d3hot | busMasterCleared
  deriving DecidableEq, Repr, Inhabited

/-- The header of a submission entry (R499) and whether the device can read a body placed in host memory (R501). -/
structure CmdHdr where
  ring : Fin 16
  tag : BitVec 32
  flags : BitVec 16
  tenant : BitVec 16
  bodyReadable : Bool
  deriving DecidableEq, Repr, Inhabited

/-- A submission entry whose opcode the device does not know (R501): its place in the ring, tag, opcode and flags. -/
structure UnknownEntry where
  place : Nat
  tag : BitVec 32
  opcode : BitVec 16
  flags : BitVec 16
  deriving DecidableEq, Repr, Inhabited

/-- A PTP message of a domain, parsed (R413); stamps in 2⁻¹⁶ ns, corrections in the same unit. `announce` carries
the grandmaster identity, UTC offset and whether the default data-set comparison selects this master. -/
inductive PtpMsg where
  | announce (gm utcOffset : Nat) (utcValid best : Bool)
  | sync (seq : Nat) (twoStep : Bool) (t1 : Nat) (corr : Int)
  | followUp (seq t1 : Nat) (corr : Int)
  | delayResp (seq t4 : Nat) (corr : Int)
  | pdelayReq (seq : Nat)
  | pdelayResp (seq : Nat) (twoStep : Bool) (t2 : Nat) (corr : Int)
  | pdelayRespFollowUp (seq t3 : Nat) (corr : Int)
  | malformed
  deriving DecidableEq, Repr, Inhabited

/-- A PTP measurement under way for one domain (R398): the Sync pair and the delay exchange, as far as known. -/
structure PtpExchange where
  domain : Nat
  syncSeq : Nat
  t1 : Option Nat
  t2 : Option Nat
  delaySeq : Nat
  t3 : Option Nat
  t4 : Option Nat
  pd2 : Option Nat
  pd3 : Option Nat
  corr : Int
  deriving DecidableEq, Repr, Inhabited

/-- A stall that has ended: cause and duration (R68, R481), the occurrence that waited, the tenant awaited and the dies
whose units waited (R588). -/
structure Stall where
  cause : Nat
  dies : List Nat
  cadence : Nat
  step : Nat
  tenant : Nat
  ns : Nat
  deriving DecidableEq, Repr, Inhabited

/-- A withdrawal under way (R480): the slots asked back, and its entry's header and the attachment it came in. -/
structure Withdrawal where
  slots : List Nat
  hdr : CmdHdr
  epoch : Nat
  deriving DecidableEq, Repr, Inhabited

/-- An error as hardware detects it (R555, R556): `occs` the uncommitted occurrences it affects as cadence and step;
`lost` the tiles of object space it destroyed (R163, R484, R565). -/
structure ErrorInfo where
  region : Nat
  kind : Nat
  cause : Nat
  address : Nat
  detail : Bytes
  occs : List (Nat × Nat)
  lost : List Nat
  deriving DecidableEq, Repr, Inhabited

/-- The verdict of a self-test of a region (R571): outcome 1 pass, 2 pass after repair, 3 fail; the repaired column or row. -/
structure BistVerdict where
  region : Nat
  outcome : Nat
  coverage : Nat
  durationUs : Nat
  firstFail : Nat
  deriving DecidableEq, Repr, Inhabited

/-- The cadence whose occurrence a compiled descriptor belongs to, and the descriptor's own address (R138). -/
structure DescCtx where
  cadence : Nat
  addr : Nat
  deriving DecidableEq, Repr, Inhabited

/-- The fields of an array descriptor but its opcode (R131). -/
structure ArrayDesc where
  ctx : DescCtx
  flags : BitVec 8
  unit : BitVec 16
  fmtA : BitVec 8
  fmtW : BitVec 8
  fmtOut : BitVec 8
  fn : BitVec 8
  m : BitVec 32
  k : BitVec 32
  n : BitVec 32
  pass : BitVec 32
  srcA : BitVec 64
  srcW : BitVec 64
  dst : BitVec 64
  param : BitVec 64
  wait : BitVec 16
  raise : BitVec 16
  check : BitVec 32
  deriving DecidableEq, Repr, Inhabited

/-- A STAGE descriptor with its gather (R98, R123): the source element of each element, none for an inserted zero; an empty one
is a plain move. -/
structure StageDesc where
  desc : ArrayDesc
  gather : List (Option Nat)
  deriving DecidableEq, Repr, Inhabited

/-- A tensor as an output record describes it (R135): format code, model and extents; its counts are the device's (R117). -/
structure TensorHead where
  format : Nat
  model : Nat
  dims : List Nat
  deriving DecidableEq, Repr, Inhabited

/-- What compiled work hands to an output record: a tensor (R135) and the address its data stand at; a forecast (R136) with its
first horizon point, the spacing of points, the first quantity and the quantile levels; or a fault classification (R137) by
asset and class, with the place of the tensor it was made from. -/
inductive ModelBody where
  | tensor (head : TensorHead) (addr : Nat)
  | forecast (head : TensorHead) (validFrom stepMs quantity : Nat) (quantiles : List Nat) (addr : Nat)
  | faults (classes addr bytes : Nat) (assets : List (Nat × List (Nat × Nat)))
  deriving DecidableEq, Repr, Inhabited

/-- An output that compiled work has produced for an output stream (R40): payload and confidence. -/
structure ModelOutput where
  stream : Nat
  body : ModelBody
  confidence : Nat
  deriving DecidableEq, Repr, Inhabited

/-- The instructions of the test access port (R545, IEEE 1149.1). -/
inductive JtagOp where
  | bypass | idcode | samplePreload | extest | clamp | debug | other
  deriving DecidableEq, Repr, Inhabited

/-- The destination of a tile move (R467). -/
inductive MoveTo where
  | t3 | t2 (memory tile : Nat) | t4
  deriving DecidableEq, Repr, Inhabited

/-- A critical command frame as received (R535) with its entry's header: `paramBytes` and `reserved` are the bytes at 0x18 and
0x1A, and `check` is the CHECK field, the keyed check or, for KEY_AGREE, r ‖ s. -/
structure CritFrame where
  hdr : CmdHdr
  role : BitVec 8
  version : BitVec 8
  opcode : BitVec 16
  keyId : BitVec 32
  counter : BitVec 64
  effectStep : BitVec 64
  paramBytes : BitVec 16
  reserved : BitVec 48
  params : Bytes
  check : Bytes
  deriving DecidableEq, Repr, Inhabited

/-- A bulk object (R536): the digest its reference gives and the bytes the device reads. -/
structure Bulk where
  digest : Bytes
  bytes : Bytes
  deriving DecidableEq, Repr, Inhabited

/-- One ASDU of a sampled-value frame (R365): samples by channel element with their quality. -/
structure Asdu where
  svid : Bytes
  smpCnt : Nat
  smpSynch : Nat
  samples : List (Int × Nat)
  deriving DecidableEq, Repr, Inhabited

/-- The kinds of frames a port receives (R428, R435, R365, R413). A Tether frame carries its source address and UDP
payload; a sampled-value frame its source MAC, APPID and ASDUs. -/
inductive FrameBody where
  | tether (src : Nat) (payload : Bytes)
  | sv (mac appid : Nat) (asdus : List Asdu)
  | arp | neighbour | echo | fragmented | other
  deriving DecidableEq, Repr, Inhabited

/-- The redundancy control trailer of a PRP frame (R430): source node, sequence number, LAN (0 A, 1 B). -/
structure PrpTrailer where
  mac : Nat
  seq : Nat
  lan : Nat
  deriving DecidableEq, Repr, Inhabited

/-- A frame arriving at a port: its VLAN tag, IP payload size and trailer. -/
structure RxFrame where
  vlan : Option Nat
  ipBytes : Nat
  prp : Option PrpTrailer
  body : FrameBody
  deriving DecidableEq, Repr, Inhabited

/-- What the image's compiled quality work writes for a fusion stream in a step (R234, R238): confidence and element
variances, FP32 bit patterns. -/
structure Quality where
  stream : Nat
  conf : Nat
  variances : List Nat
  deriving DecidableEq, Repr, Inhabited

/-- A feature match with a map landmark or a stereo depth (R225): its point in the plant frame (FP64) and its pixel (FP32). -/
structure EgoMatch where
  point : List Nat
  pixel : List Nat
  deriving DecidableEq, Repr, Inhabited

/-- What an ego-motion estimate reads (R225): the matches in ascending index of the feature list, the scan, and what the motion
model takes (an IMU's samples). -/
structure EgoInputs where
  matches_ : List EgoMatch
  scan : List Nat
  motion : List Nat
  deriving DecidableEq, Repr, Inhabited

/-- What the gates of a step take from compiled work (R238): the grid features of the streams by cell, and the learned scores by
region and pair. -/
structure GateInputs where
  maps : List (Nat × List (Nat × List Nat))
  scores : List (Nat × Nat × Nat)
  deriving DecidableEq, Repr, Inhabited

/-- The tether stream that a prediction field is for, and its direction (R172, R231). -/
structure FieldSource where
  slot : Nat
  stream : Nat
  backward : Bool
  deriving DecidableEq, Repr, Inhabited

/-- A unit at the work of a cadence (R149). -/
structure UnitWork where
  cadence : Fin 16
  unit : BitVec 16
  deriving DecidableEq, Repr, Inhabited

/-- The fields of a vision descriptor but its opcode (R201). `memW`, `memH` are the size of an image held in memory and
`memPoints` the points held there, which the compiled work knows; they are no part of the 64 bytes. -/
structure VisionDesc where
  ctx : DescCtx
  flags : BitVec 8
  unit : BitVec 16
  selA : BitVec 16
  selB : BitVec 16
  param : BitVec 64
  srcAddr : BitVec 64
  predAddr : BitVec 64
  dstAddr : BitVec 64
  dstRing : BitVec 32
  dstMode : BitVec 8
  levels : BitVec 8
  rsv : BitVec 16
  aux : BitVec 64
  wait : BitVec 16
  raise : BitVec 16
  check : BitVec 32
  memW : Nat
  memH : Nat
  memPoints : Nat
  deriving DecidableEq, Repr, Inhabited

/-- A compiled insert or delete of a collection (R341, R343): FP32 bit patterns. -/
inductive SearchItem where
  | insert (tag : BitVec 64) (vec : List Nat)
  | delete (id : BitVec 32)
  deriving DecidableEq, Repr, Inhabited

/-- The inserts and deletes of one compiled request (R341, R359), the unit that issues it and the lantern of its insert
status tile. -/
structure SearchOps where
  coll : Nat
  items : List SearchItem
  unit : BitVec 16
  status : BitVec 16
  deriving DecidableEq, Repr, Inhabited

/-- A keyframe or landmark that a factor of an insertion list names: by identifier, or by its place in the list (R281). -/
inductive VarRef where
  | old (id : Nat)
  | new (place : Nat)
  deriving DecidableEq, Repr, Inhabited

/-- The relative-pose factor a keyframe candidate brings (R282): FP32 bit patterns. -/
structure Odometry where
  z : List Nat
  sigma : List Nat
  kernel : Nat
  kernelK : Nat
  deriving DecidableEq, Repr, Inhabited

/-- A keyframe candidate (R281): ego entry of its sensor, frame stamp (compact time), initial pose (FP64), its standard
deviations and global descriptor (FP32), and whether it is marked for place recognition (R292). -/
structure KfCandidate where
  sensor : Nat
  stamp : Nat
  pose : List Nat
  sd : List Nat
  vector : List Nat
  odometry : Option Odometry
  place : Bool
  deriving DecidableEq, Repr, Inhabited

/-- A new landmark (R281): initial position (FP64), descriptor and the place of its observing candidate. -/
structure NewLandmark where
  pos : List Nat
  desc : Bytes
  observer : Nat
  deriving DecidableEq, Repr, Inhabited

/-- A new factor (R279, R281); `landmarkA` tells that the first variable is a landmark. -/
structure NewFactor where
  type : Nat
  kernel : Nat
  kernelK : Nat
  landmarkA : Bool
  a : VarRef
  b : VarRef
  z : List Nat
  sigma : List Nat
  deriving DecidableEq, Repr, Inhabited

/-- A deletion (R281). -/
inductive MapDelete where
  | landmark (id : Nat)
  | factor (id : Nat)
  deriving DecidableEq, Repr, Inhabited

/-- An insertion list (R281). -/
structure InsertList where
  deletes : List MapDelete
  keyframes : List KfCandidate
  landmarks : List NewLandmark
  factors : List NewFactor
  deriving DecidableEq, Repr, Inhabited

/-- What an occurrence may insert and delete (R281). -/
def InsertList.ok (l : InsertList) : Bool :=
  decide (l.keyframes.length ≤ 256 ∧ l.landmarks.length ≤ 65536 ∧ l.factors.length ≤ 262144 ∧ l.deletes.length ≤ 262144)


/-- The commands, one per row of the opcode table. -/
inductive Instr where
  | resetNAssert
  | resetNRelease (b : BootInputs)
  | runtimeReady
  | perstN
  | hostInterfaceReset (c : HostResetCause)
  | pcieLinkReturn (gen width : Nat)
  | timeInEdge (m : Fin 4) (quarter : Fin 8) (rising : Bool)
  | pllCheckWindow (devs : List Int)
  | clockTick (n : Nat)
  | incWrite (k : Fin 2) (w : Writer) (hi : Word)
  | domAdjWrite (k : Fin 2) (w : Writer) (hi : Word)
  | domStateWrite (k : Fin 2) (w : Writer) (state : Fin 4)
  | devSelSwitch
  | announceReceiptTimeout (k : Fin 2) (lanB : Bool)
  | autoReturn
  | ptpMessageReceive (port : Fin 4) (domain : BitVec 8) (quarter : Fin 8) (m : PtpMsg)
  | transmitStamp (port : Fin 4) (id : BitVec 16) (clock : Fin 3) (quarter : Fin 8)
  | toutArm (m : Fin 4)
  | toutPulse (m : Fin 4)
  | toutPulseEnd (m : Fin 4)
  | tinStampPop (m : Fin 4)
  | devTimeSample
  | domTimeSample (k : Fin 2)
  | delayReqTransmit (k : Fin 2)
  | runStart
  | stepEdge (q : List Quality)
  | admissionClose (k : Fin 16)
  | occurrenceCommit (k : Fin 16) (outs : List ModelOutput) (ops : List SearchOps)
  | stallAbort (k : Fin 16)
  | trailReadWrite (v : Word)
  | archiveReadWrite (v : Word)
  | outReadWrite (v : Word)
  | loadW (a : Fin 4) (d : ArrayDesc)
  | stream (a : Fin 4) (d : ArrayDesc)
  | drain (a : Fin 4) (d : ArrayDesc)
  | join (a : Fin 4) (d : ArrayDesc)
  | vec (a : Fin 4) (d : ArrayDesc)
  | reduce (a : Fin 4) (d : ArrayDesc)
  | gen (a : Fin 4) (d : ArrayDesc)
  | wait (a : Fin 4) (d : ArrayDesc)
  | raise (a : Fin 4) (d : ArrayDesc)
  | stage (a : Fin 4) (d : StageDesc)
  | arrayEnd (a : Fin 4) (d : ArrayDesc)
  | descriptorComplete (unit : UnitWork) (lantern : BitVec 16) (release : Bool)
  | lanternGrant (unit : BitVec 16) (lantern : BitVec 16)
  | lanternWatchdog (unit : BitVec 16) (lantern : BitVec 16)
  | lendableWindowOpen (i : Nat)
  | lendableWindowClose (i : Nat)
  | tileMoveComplete (tile : Nat) (to_ : MoveTo) (stall : Option Stall)
  | t4FetchComplete (tile : Nat) (data sidecar : Bytes) (stall : Option Stall)
  | windowGrant (h : CmdHdr) (ranges : List (Nat × Nat))
  | windowWithdraw (h : CmdHdr) (slots : List Nat)
  | windowWithdrawComplete
  | objAlloc (h : CmdHdr) (tiles : Nat)
  | objFree (h : CmdHdr) (id : BitVec 32)
  | hostAttach (h : CmdHdr) (addr size : Nat)
  | hostDetach (h : CmdHdr)
  | bar2Read (x : Nat) (n : Nat)
  | bar2Write (x : Nat) (data : Bytes)
  | sqDoorbell (r : Fin 16) (v : Word) (unknown : List UnknownEntry)
  | cqDoorbell (r : Fin 16) (v : Word)
  | ringEnable (r : Fin 16) (en : Bool)
  | ringReset (r : Fin 16)
  | unsupportedAccess (off : Nat) (write : Bool)
  | registerWrite (off : Nat) (v : Word) (w : Writer)
  | loReadLatch (off : Nat)
  | readClear (off : Nat)
  | tileQuery (hi : Word)
  | tenantViewSample
  | gsTagSample (g : Fin 3)
  | softRowRepairComplete (row : Nat)
  | errorDetect (e : ErrorInfo)
  | errorHandle
  | lockstepMismatch (pair : Fin 2)
  | dieHeartbeatLoss (die : Fin 4)
  | securityRetestComplete (pass : Bool)
  | bistComplete (v : BistVerdict)
  | bistCycleInterval
  | entropyHealthFail
  | jtagInstruction (j : JtagOp)
  | keyAgree (f : CritFrame) (chain : List Cert) (bulk : Bulk) (qh : Nat × Nat) (nh : Bytes) (reply : Nat)
  | keyRetire (f : CritFrame)
  | attest (f : CritFrame) (nonce : Bytes) (reply : Nat)
  | certRead (f : CritFrame) (reply : Nat)
  | deviceCertInstall (f : CritFrame) (bulk : Bulk) (chain : List Cert)
  | lcProvision (f : CritFrame)
  | lcService (f : CritFrame)
  | lcReturn (f : CritFrame)
  | lcEnd (f : CritFrame)
  | siteInstall (f : CritFrame) (bulk : Bulk) (root : Option Cert) (siteCert : Bytes) (revoked : List Bytes)
      (rootSig : Option (Nat × Nat)) (flashOk : Bool)
  | configKeySet (f : CritFrame) (key : Nat × Nat) (flashOk : Bool)
  | imageKeysSet (f : CritFrame) (keys : List (Nat × Nat)) (flashOk : Bool)
  | calibrationSet (f : CritFrame) (bulk : Bulk) (entries : List Calibration) (flashOk : Bool)
  | rosterSet (f : CritFrame) (bulk : Bulk) (entries : List RosterEntry) (flashOk : Bool)
  | pegSet (f : CritFrame) (bulk : Bulk) (pegs : List Peg) (flashOk : Bool)
  | datumSet (f : CritFrame) (d : Datum) (flashOk : Bool)
  | securityVersionRaise (f : CritFrame) (v : BitVec 32)
  | pipelineStart (f : CritFrame) (pipeline : BitVec 16)
  | pipelineStop (f : CritFrame) (pipeline : BitVec 16)
  | bistRun (f : CritFrame) (region : BitVec 16) (force : Bool)
  | bistAbort (f : CritFrame)
  | bistCycle (f : CritFrame) (interval : BitVec 32) (mask : BitVec 16)
  | bistFull (f : CritFrame)
  | repairLogRead (f : CritFrame) (reply : Nat)
  | repairLogClear (f : CritFrame)
  | imageStage (f : CritFrame) (bulks : List Bulk) (images : List Component) (config : Option Component)
      (seeds : List (Nat × Bytes)) (flashOk : Bool)
  | imageActivate (f : CritFrame) (n : BitVec 64)
  | runtimeStage (f : CritFrame) (bulk : Bulk) (rt : Component) (flashOk : Bool)
  | runtimeActivate (f : CritFrame) (n : BitVec 64)
  | standbyReloadComplete
  | portLinkChange (port : Fin 4) (up fecLock localFault remoteFault : Bool) (fecCorr fecUncorr : Nat)
  | frameIngress (port : Fin 4) (quarter : Fin 8) (f : RxFrame)
  | frameOther
  | prpSupervision
  | prpNodeAgeing (pair : Fin 2) (mac : Nat)
  | declare
  | data
  | ack (slot : Fin 4096)
  | statusReq
  | status (slot : Fin 4096)
  | timeReq (slot : Fin 4096) (quarter : Fin 8)
  | timeResp
  | close
  | livenessTimeout (slot : Fin 4096)
  | sessionCloseComplete (slot : Fin 4096)
  | delayQueueRelease (slot : Fin 4096)
  | sampledValueFrame
  | slotViewSample
  | gridFusion (maps : List (Nat × List (Nat × List Nat)))
  | consistencyGate (g : GateInputs)
  | ladderUpdate
  | egoEstimate (j : Nat) (matches_ : List EgoMatch) (scan motion : List Nat) (poses : List (Nat × Nat))
  | flowPredictionField (k : Fin 16) (dst : Nat) (f : FieldSource)
  | streamStatSample
  | flow (v : Fin 2) (d : VisionDesc)
  | stereo (v : Fin 2) (d : VisionDesc)
  | feature (v : Fin 2) (d : VisionDesc)
  | matchFeatures (v : Fin 2) (d : VisionDesc)
  | projRay (v : Fin 2) (d : VisionDesc)
  | projPlane (v : Fin 2) (d : VisionDesc)
  | projPtsImage (v : Fin 2) (d : VisionDesc)
  | projPtsGrid (v : Fin 2) (d : VisionDesc)
  | visionWait (v : Fin 2) (e : Fin 4) (d : VisionDesc)
  | visionRaise (v : Fin 2) (e : Fin 4) (d : VisionDesc)
  | visionEnd (v : Fin 2) (e : Fin 4) (d : VisionDesc)
  | trackEngineStep (lists : List (Nat × Nat))
  | trackRead (h : CmdHdr) (region : Option Nat) (id : BitVec 32) (reply : Nat) (idle : Bool)
  | trackPredict (h : CmdHdr) (id : BitVec 32) (time : BitVec 64) (reply : Nat) (idle : Bool)
  | trackViewSample
  | searchBatch (k : Fin 16) (req : Nat) (unit raise : BitVec 16) (out : Option Nat)
  | searchQuery (h : CmdHdr) (req : Bytes) (idle : Bool) (ns : Nat)
  | hostQueryDeadline
  | searchGet (h : CmdHdr) (coll : Nat) (id : BitVec 32) (reply : Nat) (idle : Bool)
  | searchExport (h : CmdHdr) (coll reply : Nat) (idle : Bool)
  | searchInsert (f : CritFrame) (coll dim : Nat) (bulk : Bulk) (items : List (Nat × List Nat)) (reply : Nat)
  | searchDelete (f : CritFrame) (coll : Nat) (bulk : Bulk) (ids : List Nat) (reply : Nat)
  | searchLoad (f : CritFrame) (coll : Nat) (bulk : Bulk)
  | backgroundMergeEnd (coll : Nat)
  | collViewSample
  | solverSubmission (count epoch : Nat) (reorder : Bool) (addr : Nat)
  | insertionList (l : InsertList)
  | merge
  | mapRead (h : CmdHdr) (kind : Nat) (epoch : BitVec 64) (first page : Nat) (args : List Nat) (reply : Nat) (idle : Bool)
  | chanViewSample
  | cntLatch (d : Fin 4) (k : Fin 64)
  | cntCfgWrite (d : Fin 4) (k : Fin 64) (v : Word)
  | cntClear (d : Fin 4) (hi : Word)
  deriving DecidableEq, Repr, Inhabited

end Sys2Proof
end

