-- ==== Sys2Proof/Config.lean ====
section
/-! DEFINITION. What the part fixes and the manual does not give, and the free values: constants without a body, so
that no proof can see what they are (assumptions 4 and 5). -/

namespace Sys2Proof.Config

/-- The n-th free value drawn in a run of the model: entropy draws and results the manual leaves open. -/
opaque freeNat : Nat → Nat

/-- The digest of the maker root public key held in the boot ROM (R526). -/
opaque makerRootDigest : Bytes

/-- The SHA-384 digest of the boot ROM contents (R548). -/
opaque romDigest : Bytes

/-- The maker keys that sign manifests and runtimes, as chained to the maker root (R509, R526). -/
opaque makerKey : Nat × Nat

/-- The SHA-384 digest of an image's model table (R548), whose layout the manual does not give. -/
opaque modelTableDigest : Nat → Bytes

/-- A certification request's encoding (R528) around the serial and public key. -/
opaque certRequest : Bytes → Nat × Nat → Bytes

/-- A value of a function table segment that an image does not carry (R119): function, segment, coefficient. -/
opaque tableEntry : Nat → Nat → Nat → Nat

/-- Sine, cosine, atan2 and the log₂ table on [1, 2) in FP64 (R212), by the image's table version: the image's tables. -/
opaque sin64 : Nat → Nat → Nat
opaque cos64 : Nat → Nat → Nat
opaque atan264 : Nat → Nat → Nat → Nat
opaque log2Mant64 : Nat → Nat → Nat

/-- The T3 frames with a stripe in an HBM3 row, and the bank group a row lies in (R464, R485): the row map of the stack
is not in the manual. -/
opaque rowFrames : Nat → List Nat
opaque rowBankGroup : Nat → Nat

/-- Bytes of the factor store that a supernode of `cols` columns and `rows` separator rows takes (R317), and the FP64
operations that a solve performs which refactors and enters such supernodes, or stops on a cause after some of them
(R326): the manual gives neither count. -/
opaque nodeBytes (cols rows : Nat) : Nat
opaque solveFlops (refactored entered : List (Nat × Nat)) (cause done : Nat) : Nat

/-- `VERIFY_CFG.HAMMING_MAX` (R293), which has no field in the register's table (R306). -/
opaque hammingMax : Nat

/-- An entry of a factor's JᵀWJ (upper triangle, row by row) and −JᵀWr after it (R310): factor record, linearisation
values of its variables, the sensor's calibration or the peg, index. The order of these operations is not in the
manual. -/
opaque factorEntry : Bytes → List Nat → List Nat → List Nat → Nat → Nat

/-- The condition number of a 6 × 6 normal matrix in FP64 (R295): its computation is not in the manual. -/
opaque conditionNumber : List Nat → Nat

/-- The numerics of ego-motion that the manual leaves (R225, R226): the predicted pose from the pose, the earlier ones, the stamp
and what the motion model reads; the roots of the minimal pose problem in the solver's order; and entry i of the normal matrix
(upper triangle) and right-hand side, for one match and for a pair of scans, with the residual RMS (FP32) of the latter. -/
opaque egoPredict (pose history : List Nat) (stamp : Nat) (motion : List Nat) : List Nat
opaque minimalPose (points pixels cal : List Nat) : List (List Nat)
opaque reprojEntry (pose point pixel cal : List Nat) (i : Nat) : Nat
opaque lidarEntry (pose scan before : List Nat) (i : Nat) : Nat
opaque lidarRms (pose scan before : List Nat) : Nat

/-- Which reduction REDUCE performs, which vector operation VEC performs when its function is none, and what GEN makes of
its words, by the descriptor's function, sub-pass and output format: the descriptor's table (R131) names no field for
these. -/
opaque reduceOp (fn pass : Nat) : Nat
opaque vectorOp (pass : Nat) : Nat
opaque genForm (fn fmtOut : Nat) : Nat

/-- What the manual leaves of the site store's bytes (R546): the version, the initialisation vector of a copy by its sequence
number, and the bodies of the keys, the revoked serials and the roster sealed under the storage key, by item type. -/
opaque siteVersion : Nat
opaque siteIv : Nat → Bytes
opaque siteBody (kind : Nat) (x : SiteStore) (storageKey : Option Bytes) : Bytes

/-- Per-part values (R524, R552, R613): the device serial, and the revisions of the silicon, of each die, of the package
and of the boot ROM. -/
opaque deviceSerial : Bytes
opaque siliconRev : Nat
opaque dieRev : Nat → Nat
opaque packageRev : Nat
opaque romRev : Nat


end Sys2Proof.Config
end

