-- ==== Sys2Proof/Machine/Bits.lean ====
section
/-! DEFINITION. Bit fields, byte strings and fixed-width arithmetic shared by the whole model (R4), and the sparse
maps in canonical form that hold registers and memory. -/

namespace Sys2Proof.Machine

/-- Bits [lo + width - 1 : lo] of a value (R4). -/
def bitsOf (v lo width : Nat) : Nat := (v >>> lo) % 2 ^ width

/-- `v` with bits [lo + width - 1 : lo] replaced by `x`. -/
def putBits (v lo width x : Nat) : Nat :=
  v - bitsOf v lo width * 2 ^ lo + (x % 2 ^ width) * 2 ^ lo

/-- Bit `n` of a value. -/
def bitAt (v n : Nat) : Bool := (v >>> n) % 2 == 1

/-- A Boolean as a bit. -/
def b2n (b : Bool) : Nat := if b then 1 else 0

/-- `n` bytes of `v`, least significant byte first (R4). -/
def leBytes : Nat → Nat → Bytes
  | 0, _ => []
  | n + 1, v => BitVec.ofNat 8 v :: leBytes n (v / 256)

/-- `n` bytes of `v`, most significant byte first (network frames, R4). -/
def beBytes (n v : Nat) : Bytes := (leBytes n v).reverse

/-- The value of bytes held least significant first. -/
def leVal : Bytes → Nat
  | [] => 0
  | b :: bs => b.toNat + 256 * leVal bs

/-- The value of bytes held most significant first. -/
def beVal (bs : Bytes) : Nat := bs.foldl (fun a b => a * 256 + b.toNat) 0

/-- `bs` cut or extended with zero bytes to length `n`. -/
def fitBytes (n : Nat) (bs : Bytes) : Bytes :=
  bs.take n ++ List.replicate (n - bs.length) 0

/-- `bs` zero-padded to a multiple of `m` bytes. -/
def padTo (m : Nat) (bs : Bytes) : Bytes :=
  bs ++ List.replicate ((m - bs.length % m) % m) 0

/-- `bs[off .. off+n-1]`. -/
def sliceBytes (off n : Nat) (bs : Bytes) : Bytes := (bs.drop off).take n

/-- Little-endian field of a byte string; bytes past its end read 0. -/
def leAt (bs : Bytes) (off n : Nat) : Nat := leVal (sliceBytes off n bs)

/-- Big-endian field of a byte string. -/
def beAt (bs : Bytes) (off n : Nat) : Nat := beVal (fitBytes n (sliceBytes off n bs))

/-- The signed value of a `w`-bit two's complement field. -/
def signedOf (w v : Nat) : Int :=
  let u := v % 2 ^ w
  if u < 2 ^ (w - 1) then (u : Int) else (u : Int) - (2 ^ w : Nat)

/-- A signed value as a `w`-bit two's complement field. -/
def ofSigned (w : Nat) (i : Int) : Nat := (i % ((2 ^ w : Nat) : Int)).toNat

/-- A signed value clamped to `w` bits. -/
def clampSigned (w : Nat) (i : Int) : Int :=
  let hi : Int := ((2 ^ (w - 1) : Nat) : Int)
  if i < -hi then -hi else if hi - 1 < i then hi - 1 else i

/-- A signed value clamped to the unsigned `w`-bit range. -/
def clampUnsigned (w : Nat) (i : Int) : Nat := min i.toNat (2 ^ w - 1)

/-- `x / 2 ^ n` rounded to nearest, ties to even. -/
def roundShiftEven (x : Int) (n : Nat) : Int :=
  if n = 0 then x
  else
    let q := x / ((2 ^ n : Nat) : Int)
    let r := x % ((2 ^ n : Nat) : Int)
    let h : Int := ((2 ^ (n - 1) : Nat) : Int)
    if r < h then q else if h < r then q + 1 else if q % 2 = 0 then q else q + 1

/-- `x / d` rounded to nearest, ties to even, for `d > 0`. -/
def roundDivEven (x : Int) (d : Nat) : Int :=
  let q := x / (d : Int)
  let r := x % (d : Int)
  if 2 * r < (d : Int) then q else if (d : Int) < 2 * r then q + 1 else if q % 2 = 0 then q else q + 1

/-- `x / d` truncated toward zero, for `d > 0`. -/
def truncDiv (x : Int) (d : Nat) : Int := Int.tdiv x d

/-- ⌊√n⌋ by bit trials from bit `k` down. -/
def isqrtFrom (n : Nat) : Nat → Nat → Nat
  | 0, r => r
  | k + 1, r =>
    let t := r + 2 ^ k
    isqrtFrom n k (if t * t ≤ n then t else r)

/-- ⌊√n⌋. -/
def isqrt (n : Nat) : Nat := isqrtFrom n (Nat.log2 n / 2 + 1) 0

/-- ⌈a / b⌉. -/
def ceilDiv (a b : Nat) : Nat := (a + b - 1) / b

/-- Whether bit positions given as a mask contain `k`. -/
def inMask (mask k : Nat) : Bool := bitAt mask k

/-- The mask of a list of bit positions. -/
def maskOf (ks : List Nat) : Nat := ks.foldl (fun m k => m ||| 2 ^ k) 0

/-- `xs` with element `i` replaced by `f` of it. -/
def modifyAt (xs : List α) (i : Nat) (f : α → α) : List α := xs.modify i f

/-- Insertion of `x` into a list that `le` sorts, after every element that stands before or level with it. -/
def insertSorted (le : α → α → Bool) (x : α) : List α → List α
  | [] => [x]
  | y :: ys => if le y x then y :: insertSorted le x ys else x :: y :: ys

/-- Insertion sort, stable. -/
def sortList (le : α → α → Bool) (xs : List α) : List α :=
  xs.foldl (fun acc x => insertSorted le x acc) []

/-- Lexicographic comparison of keys, as the manual's sort orders use it. -/
def lexLe : List Int → List Int → Bool
  | [], _ => true
  | _ :: _, [] => false
  | x :: xs, y :: ys => if x < y then true else if y < x then false else lexLe xs ys

/-- A key of a list of pairs, if present. -/
def lookupKey [BEq κ] (k : κ) : List (κ × α) → Option α
  | [] => none
  | (k', v) :: m => if k' == k then some v else lookupKey k m

/-- A list of pairs with the value at a key replaced or appended. -/
def putKey [BEq κ] (k : κ) (v : α) : List (κ × α) → List (κ × α)
  | [] => [(k, v)]
  | (k', v') :: m => if k' == k then (k, v) :: m else (k', v') :: putKey k v m

/-- A list of pairs without a key. -/
def dropKey [BEq κ] (k : κ) (m : List (κ × α)) : List (κ × α) := m.filter (fun p => !(p.1 == k))

/-- The value at an address of a sparse map whose unlisted addresses read as `d`. -/
def sparseGet (d : Nat → α) (a : Nat) : List (Nat × α) → α
  | [] => d a
  | (k, v) :: m => if k = a then v else sparseGet d a m

/-- A listed address put in its place among rising addresses. -/
def sparseInsert (a : Nat) (v : α) : List (Nat × α) → List (Nat × α)
  | [] => [(a, v)]
  | (k, w) :: m => if a < k then (a, v) :: (k, w) :: m else (k, w) :: sparseInsert a v m

/-- A sparse map after a write: an address is listed once, strictly rising addresses are kept, and an entry that equals
what an unlisted address reads as is not listed. -/
def sparseSet [DecidableEq α] (d : Nat → α) (a : Nat) (v : α) (m : List (Nat × α)) : List (Nat × α) :=
  let rest := m.filter (fun p => p.1 != a)
  if v = d a then rest else sparseInsert a v rest

/-- Every listed address is above `lo`, addresses strictly rise, and no entry equals the unlisted value. -/
def sparseWfFrom [DecidableEq α] (d : Nat → α) : Option Nat → List (Nat × α) → Bool
  | _, [] => true
  | lo, (k, v) :: m =>
    (match lo with | none => true | some l => decide (l < k)) && decide (v ≠ d k) && sparseWfFrom d (some k) m

/-- The canonical form of a sparse map. -/
def sparseWf [DecidableEq α] (d : Nat → α) (m : List (Nat × α)) : Bool := sparseWfFrom d none m

end Sys2Proof.Machine
end

