-- ==== Sys2Proof/Machine/Float.lean ====
section
/-! DEFINITION. Exact floating-point arithmetic: values are exact dyadic numbers, and every operation rounds once, to
nearest with ties to even, when its result is written in a format (R106, R113, R118). -/

namespace Sys2Proof.Machine

/-- A floating-point value: `fin neg m e` stands for (−1)^neg · m · 2^e. -/
inductive Flt where
  | nan
  | inf (neg : Bool)
  | fin (neg : Bool) (m : Nat) (e : Int)
  deriving DecidableEq, Repr

/-- A binary format: exponent bits, fraction bits, and whether it is E4M3, which has no infinity and whose only NaN
has every bit but the sign set (PRESUMED, assumption 2). -/
structure FloatFmt where
  ebits : Nat
  fbits : Nat
  noInf : Bool
  deriving DecidableEq, Repr

def fp64 : FloatFmt := ⟨11, 52, false⟩
def fp32 : FloatFmt := ⟨8, 23, false⟩
def bf16 : FloatFmt := ⟨8, 7, false⟩
def fp16 : FloatFmt := ⟨5, 10, false⟩
def e4m3 : FloatFmt := ⟨4, 3, true⟩
def e5m2 : FloatFmt := ⟨5, 2, false⟩

/-- Exponent bias. -/
def FloatFmt.bias (f : FloatFmt) : Nat := 2 ^ (f.ebits - 1) - 1

/-- Smallest normal exponent (R106). -/
def FloatFmt.emin (f : FloatFmt) : Int := 1 - (f.bias : Int)

/-- Largest exponent of a finite value. -/
def FloatFmt.emax (f : FloatFmt) : Int := if f.noInf then (f.bias : Int) + 1 else (f.bias : Int)

/-- Total width in bits. -/
def FloatFmt.width (f : FloatFmt) : Nat := 1 + f.ebits + f.fbits

/-- The magnitude bits of the largest finite value. -/
def FloatFmt.maxMag (f : FloatFmt) : Nat :=
  if f.noInf then 2 ^ (f.ebits + f.fbits) - 2 else (2 ^ f.ebits - 1) * 2 ^ f.fbits - 1

/-- The canonical NaN of a format (R113). -/
def FloatFmt.nanBits (f : FloatFmt) : Nat :=
  if f.noInf then 2 ^ (f.ebits + f.fbits) - 1 else (2 ^ f.ebits - 1) * 2 ^ f.fbits + 2 ^ (f.fbits - 1)

/-- The largest finite value with a sign. -/
def FloatFmt.maxBits (f : FloatFmt) (neg : Bool) : Nat := b2n neg * 2 ^ (f.ebits + f.fbits) + f.maxMag

/-- The infinity with a sign (the canonical NaN in a format without one). -/
def FloatFmt.infBits (f : FloatFmt) (neg : Bool) : Nat :=
  if f.noInf then f.nanBits else b2n neg * 2 ^ (f.ebits + f.fbits) + (2 ^ f.ebits - 1) * 2 ^ f.fbits

/-- The value a bit pattern stands for. -/
def fltOf (f : FloatFmt) (bits : Nat) : Flt :=
  let neg := bitAt bits (f.ebits + f.fbits)
  let ex := bitsOf bits f.fbits f.ebits
  let fr := bits % 2 ^ f.fbits
  if f.noInf then
    if ex = 2 ^ f.ebits - 1 ∧ fr = 2 ^ f.fbits - 1 then .nan
    else if ex = 0 then .fin neg fr (f.emin - f.fbits)
    else .fin neg (2 ^ f.fbits + fr) ((ex : Int) - f.bias - f.fbits)
  else if ex = 2 ^ f.ebits - 1 then (if fr = 0 then .inf neg else .nan)
  else if ex = 0 then .fin neg fr (f.emin - f.fbits)
  else .fin neg (2 ^ f.fbits + fr) ((ex : Int) - f.bias - f.fbits)

/-- What rounding a finite value into a format gives: its bits, or an overflow. -/
def roundFin (f : FloatFmt) (neg : Bool) (m : Nat) (e : Int) : Option Nat :=
  let sign := b2n neg * 2 ^ (f.ebits + f.fbits)
  if m = 0 then some sign
  else
    let lead : Int := (Nat.log2 m : Int) + e
    if f.emax < lead then none
    else
      let eq : Int := max lead f.emin
      let sh : Int := eq - f.fbits - e
      let q : Nat := if sh ≤ 0 then m * 2 ^ (-sh).toNat else (roundShiftEven (m : Int) sh.toNat).toNat
      let mag : Nat :=
        if q < 2 ^ f.fbits then q
        else (eq + f.bias).toNat * 2 ^ f.fbits + (q - 2 ^ f.fbits)
      if f.maxMag < mag then none else some (sign + mag)

/-- Rounding with infinities, as IEEE 754 gives. -/
def roundInf (f : FloatFmt) : Flt → Nat
  | .nan => f.nanBits
  | .inf neg => f.infBits neg
  | .fin neg m e => (roundFin f neg m e).getD (f.infBits neg)

/-- Rounding that never produces an infinity: the bits, and whether the result saturated (R113, R118). -/
def roundSat (f : FloatFmt) : Flt → Nat × Bool
  | .nan => (f.nanBits, false)
  | .inf neg => (f.maxBits neg, true)
  | .fin neg m e =>
    match roundFin f neg m e with
    | some b => (b, false)
    | none => (f.maxBits neg, true)

/-! Exact arithmetic on values. -/

def Flt.neg : Flt → Flt
  | .nan => .nan
  | .inf n => .inf (!n)
  | .fin n m e => .fin (!n) m e

def Flt.abs : Flt → Flt
  | .nan => .nan
  | .inf _ => .inf false
  | .fin _ m e => .fin false m e

def Flt.isNan : Flt → Bool
  | .nan => true
  | _ => false

def Flt.isFinite : Flt → Bool
  | .fin .. => true
  | _ => false

/-- The signed significand of a finite value at exponent `e' ≤ e`. -/
def signedAt (neg : Bool) (m : Nat) (e e' : Int) : Int :=
  let v : Int := ((m * 2 ^ (e - e').toNat : Nat) : Int)
  if neg then -v else v

/-- The exact sum; an exact zero of unlike signs is +0. -/
def Flt.add : Flt → Flt → Flt
  | .nan, _ => .nan
  | _, .nan => .nan
  | .inf a, .inf b => if a = b then .inf a else .nan
  | .inf a, _ => .inf a
  | _, .inf b => .inf b
  | .fin na ma ea, .fin nb mb eb =>
    let e := min ea eb
    let v := signedAt na ma ea e + signedAt nb mb eb e
    if v = 0 then .fin (na && nb) 0 e else .fin (decide (v < 0)) v.natAbs e

def Flt.sub (a b : Flt) : Flt := a.add b.neg

/-- The exact product. -/
def Flt.mul : Flt → Flt → Flt
  | .nan, _ => .nan
  | _, .nan => .nan
  | .inf a, .inf b => .inf (a != b)
  | .inf a, .fin b m _ => if m = 0 then .nan else .inf (a != b)
  | .fin b m _, .inf a => if m = 0 then .nan else .inf (a != b)
  | .fin na ma ea, .fin nb mb eb => .fin (na != nb) (ma * mb) (ea + eb)

/-- The quotient to 130 bits beyond the divisor's, with a sticky bit, which every later rounding reads right. -/
def Flt.div : Flt → Flt → Flt
  | .nan, _ => .nan
  | _, .nan => .nan
  | .inf _, .inf _ => .nan
  | .inf a, .fin b _ _ => .inf (a != b)
  | .fin a _ _, .inf b => .fin (a != b) 0 0
  | .fin na ma ea, .fin nb mb eb =>
    if mb = 0 then (if ma = 0 then .nan else .inf (na != nb))
    else
      let k := 130 + Nat.log2 mb
      let n := ma * 2 ^ k
      let q := n / mb
      .fin (na != nb) (2 * q + (if n % mb = 0 then 0 else 1)) (ea - eb - k - 1)

/-- The square root to at least 80 bits, with a sticky bit. -/
def Flt.sqrt : Flt → Flt
  | .nan => .nan
  | .inf false => .inf false
  | .inf true => .nan
  | .fin neg m e =>
    if m = 0 then .fin neg 0 e
    else if neg then .nan
    else
      let k : Nat := 160 + (if (e - 160) % 2 = 0 then 0 else 1)
      let n := m * 2 ^ k
      let r := isqrt n
      .fin false (2 * r + (if r * r = n then 0 else 1)) ((e - k) / 2 - 1)

/-- a < b; false when either is NaN. -/
def Flt.lt (a b : Flt) : Bool :=
  match a.sub b with
  | .nan =>
    match a, b with
    | .inf x, .inf y => x && !y
    | _, _ => false
  | .inf n => n
  | .fin n m _ => n && m != 0

def Flt.le (a b : Flt) : Bool := !a.isNan && !b.isNan && !(b.lt a)

/-- Numeric equality. -/
def Flt.eqv (a b : Flt) : Bool := a.le b && b.le a

/-- An integer, exactly. -/
def fltInt (i : Int) : Flt := .fin (decide (i < 0)) i.natAbs 0

/-- An integer scaled by a power of two, exactly. -/
def fltScaled (i : Int) (e : Int) : Flt := .fin (decide (i < 0)) i.natAbs e

/-- A finite value times 2^n, exactly. -/
def Flt.scale (a : Flt) (n : Int) : Flt :=
  match a with
  | .fin s m e => .fin s m (e + n)
  | x => x

/-- ⌊x⌋ of a finite value. -/
def Flt.floorInt : Flt → Int
  | .fin neg m e =>
    let v : Int := if neg then -(m : Int) else (m : Int)
    if 0 ≤ e then v * ((2 ^ e.toNat : Nat) : Int) else v / ((2 ^ (-e).toNat : Nat) : Int)
  | _ => 0

/-- The nearest integer, ties to even, of a finite value. -/
def Flt.roundInt : Flt → Int
  | .fin neg m e =>
    let v : Int := if neg then -(m : Int) else (m : Int)
    if 0 ≤ e then v * ((2 ^ e.toNat : Nat) : Int) else roundShiftEven v (-e).toNat
  | _ => 0

/-- The exponent and significand in [1, 2) of a finite non-zero magnitude. -/
def Flt.split (a : Flt) : Int × Flt :=
  match a with
  | .fin _ m e =>
    let l := Nat.log2 m
    ((l : Int) + e, .fin false m (-(l : Int)))
  | x => (0, x)

/-! Operations on bit patterns, rounding once, with IEEE infinities. -/

def fAdd (f : FloatFmt) (a b : Nat) : Nat := roundInf f ((fltOf f a).add (fltOf f b))
def fSub (f : FloatFmt) (a b : Nat) : Nat := roundInf f ((fltOf f a).sub (fltOf f b))
def fMul (f : FloatFmt) (a b : Nat) : Nat := roundInf f ((fltOf f a).mul (fltOf f b))
def fDiv (f : FloatFmt) (a b : Nat) : Nat := roundInf f ((fltOf f a).div (fltOf f b))
def fSqrt (f : FloatFmt) (a : Nat) : Nat := roundInf f (fltOf f a).sqrt
def fFma (f : FloatFmt) (a b c : Nat) : Nat := roundInf f (((fltOf f a).mul (fltOf f b)).add (fltOf f c))
def fNeg (f : FloatFmt) (a : Nat) : Nat := roundInf f (fltOf f a).neg
def fAbs (f : FloatFmt) (a : Nat) : Nat := roundInf f (fltOf f a).abs
def fLt (f : FloatFmt) (a b : Nat) : Bool := (fltOf f a).lt (fltOf f b)
def fLe (f : FloatFmt) (a b : Nat) : Bool := (fltOf f a).le (fltOf f b)
def fOfInt (f : FloatFmt) (i : Int) : Nat := roundInf f (fltInt i)
/-- Conversion between formats, rounded once. -/
def fConv (src dst : FloatFmt) (a : Nat) : Nat := roundInf dst (fltOf src a)

end Sys2Proof.Machine
end

