-- ==== Sys2Proof/Machine/Crypto.lean ====
section
/-! DEFINITION. The standard functions the manual names without restating them: SHA-384 (FIPS 180-4), HMAC (FIPS
198-1), AES-256 (FIPS 197), GCM (SP 800-38D), CRC-32 (the polynomial 0x04C11DB7, reflected), and ECDSA and ECDH on
P-384 (FIPS 186-4). PRESUMED: their content is taken from those standards, see assumption 1. -/

namespace Sys2Proof.Machine

/-! SHA-384. Its constants are the first 64 bits of the fractional parts of roots of primes: of the cube roots of the first 80
primes for the rounds, and of the square roots of the 9th to the 16th for the initial state. The eight working variables are kept
as two sequences of which each round adds one value: the pairs of the last four rounds, newest first, are (a, e), (b, f), (c, g)
and (d, h). -/

/-- The primes below 410. -/
def primes409 : List Nat :=
  (List.range' 2 408).filter (fun n => (List.range' 2 19).all (fun d => decide (n ≤ d) || n % d != 0))

/-- The largest `r` from `acc` on with `r ^ k ≤ n`, found in its lowest `bits` bits. -/
def rootBits (k n : Nat) : Nat → Nat → Nat
  | 0, acc => acc
  | b + 1, acc => rootBits k n b (if (acc + 2 ^ b) ^ k ≤ n then acc + 2 ^ b else acc)

/-- The first 64 bits of the fractional part of the `k`-th root of `p`. -/
def rootFraction (k p : Nat) : Nat := rootBits k (p * 2 ^ (64 * k)) 68 0 % 2 ^ 64

/-- The constant of each round. -/
def roundConstants : List Nat := primes409.map (rootFraction 3)

/-- The pairs of the initial state. -/
def sha384Start : List (Nat × Nat) :=
  let v := ((primes409.drop 8).take 8).map (rootFraction 2)
  List.zip (v.take 4) (v.drop 4)

/-- The exclusive or of two rotations to the right of a 64-bit word and a third term. -/
def turned (x m n t : Nat) : Nat :=
  let twice := x * (2 ^ 64 + 1)
  ((twice / 2 ^ m ^^^ twice / 2 ^ n) % 2 ^ 64) ^^^ t

/-- The word that follows sixteen words of the message schedule, oldest first. -/
def nextWord (w : List Nat) : Nat :=
  let x := w.getD 1 0
  let y := w.getD 14 0
  (w.getD 0 0 + w.getD 9 0 + turned x 1 8 (x / 2 ^ 7) + turned y 19 61 (y / 2 ^ 6)) % 2 ^ 64

/-- One round adds a pair to the four before it; `kw` is the sum of its constant and its word. -/
def shaStep (q : List (Nat × Nat)) (kw : Nat) : List (Nat × Nat) :=
  match q with
  | [p1, p2, p3, p4] =>
    let bits (x m : Nat) : Nat := x * (2 ^ 64 + 1) / 2 ^ m % 2 ^ 64
    let choice := p3.2 ^^^ (p1.2 &&& (p2.2 ^^^ p3.2))
    let most := (p1.1 &&& (p2.1 ||| p3.1)) ||| (p2.1 &&& p3.1)
    let t := p4.2 + kw + choice + turned p1.2 14 18 (bits p1.2 41)
    [((t + most + turned p1.1 28 34 (bits p1.1 39)) % 2 ^ 64, (p4.1 + t) % 2 ^ 64), p1, p2, p3]
  | _ => q

/-- The rounds of the constants `ks` on a window of sixteen schedule words. -/
def shaRounds : List Nat → List Nat → List (Nat × Nat) → List (Nat × Nat)
  | [], _, q => q
  | k :: ks, w, q => shaRounds ks (w.drop 1 ++ [nextWord w]) (shaStep q (k + w.headD 0))

/-- The state after one more 128-byte block. -/
def shaBlock (q : List (Nat × Nat)) (block : Bytes) : List (Nat × Nat) :=
  let w := (List.range 16).map (fun i => beVal (sliceBytes (8 * i) 8 block))
  (List.zip q (shaRounds roundConstants w q)).map (fun z => ((z.1.1 + z.2.1) % 2 ^ 64, (z.1.2 + z.2.2) % 2 ^ 64))

/-- The state after `n` blocks of a padded message. -/
def shaBlocks : Nat → Bytes → List (Nat × Nat) → List (Nat × Nat)
  | 0, _, q => q
  | n + 1, m, q => shaBlocks n (m.drop 128) (shaBlock q (m.take 128))

/-- A message with its final 1 bit, zeros and its length in 16 bytes: whole blocks. -/
def shaPadded (m : Bytes) : Bytes :=
  let body := m ++ [0x80]
  body ++ List.replicate ((240 - body.length % 128) % 128) 0 ++ beBytes 16 (8 * m.length)

/-- SHA-384: the first 48 bytes of the last state. -/
def sha384 (m : Bytes) : Bytes :=
  let p := shaPadded m
  let q := shaBlocks (p.length / 128) p sha384Start
  ((q.map Prod.fst ++ q.map Prod.snd).take 6).flatMap (beBytes 8)

/-- HMAC-SHA-384. -/
def hmac384 (key m : Bytes) : Bytes :=
  let k := fitBytes 128 (if key.length ≤ 128 then key else sha384 key)
  let o := k.map (fun b => b ^^^ 0x5C)
  let i := k.map (fun b => b ^^^ 0x36)
  sha384 (o ++ sha384 (i ++ m))

/-! AES-256. The S-box is computed from its definition in the field GF(2^8). -/

/-- Multiplication by x in GF(2^8) modulo 0x11B. -/
def gfDouble (a : Nat) : Nat := if a < 128 then 2 * a else (2 * a) ^^^ 0x11B

/-- Product in GF(2^8), over the low `n` bits of `b`. -/
def gfMulFrom : Nat → Nat → Nat → Nat
  | 0, _, _ => 0
  | n + 1, a, b => (if b % 2 = 1 then a else 0) ^^^ gfMulFrom n (gfDouble a) (b / 2)

def gfMul (a b : Nat) : Nat := gfMulFrom 8 a b

/-- The inverse in GF(2^8) as a^254; 0 maps to 0. -/
def gfInv (a : Nat) : Nat :=
  let a2 := gfMul a a
  let a4 := gfMul a2 a2
  let a8 := gfMul a4 a4
  let a16 := gfMul a8 a8
  let a32 := gfMul a16 a16
  let a64 := gfMul a32 a32
  let a128 := gfMul a64 a64
  gfMul a128 (gfMul a64 (gfMul a32 (gfMul a16 (gfMul a8 (gfMul a4 a2)))))

def rotl8 (x n : Nat) : Nat := ((x <<< n) ||| (x >>> (8 - n))) % 256

/-- The AES S-box. -/
def aesSub (a : Nat) : Nat :=
  let i := gfInv a
  i ^^^ rotl8 i 1 ^^^ rotl8 i 2 ^^^ rotl8 i 3 ^^^ rotl8 i 4 ^^^ 0x63

def rconFrom : Nat → Nat → Nat
  | 0, r => r
  | n + 1, r => rconFrom n (gfDouble r)

/-- The AES-256 key schedule: 60 words of 4 bytes, `ws` newest first. -/
def aesExpand : Nat → Nat → List (List Nat) → List (List Nat)
  | 0, _, ws => ws.reverse
  | n + 1, i, ws =>
    let prev := ws.headD []
    let t :=
      if i % 8 = 0 then
        match prev.map aesSub with
        | [a, b, c, d] => [b ^^^ rconFrom (i / 8 - 1) 1, c, d, a]
        | x => x
      else if i % 8 = 4 then prev.map aesSub
      else prev
    aesExpand n (i + 1) (List.zipWith (fun x y => x ^^^ y) (ws.getD 7 []) t :: ws)

/-- The key of 32 bytes as its schedule. -/
def aesSchedule (key : Bytes) : List (List Nat) :=
  let ks := (fitBytes 32 key).map BitVec.toNat
  let w := (List.range 8).map (fun i => (ks.drop (4 * i)).take 4)
  aesExpand 52 8 w.reverse

def aesAddKey (st : List Nat) (ws : List (List Nat)) : List Nat := List.zipWith (fun x y => x ^^^ y) st ws.flatten

/-- ShiftRows on the column-major state. -/
def aesShift (st : List Nat) : List Nat :=
  (List.range 16).map (fun i => st.getD ((i + 4 * (i % 4)) % 16) 0)

def aesMixColumn (c : List Nat) : List Nat :=
  match c with
  | [a, b, c, d] =>
    [gfMul 2 a ^^^ gfMul 3 b ^^^ c ^^^ d, a ^^^ gfMul 2 b ^^^ gfMul 3 c ^^^ d,
     a ^^^ b ^^^ gfMul 2 c ^^^ gfMul 3 d, gfMul 3 a ^^^ b ^^^ c ^^^ gfMul 2 d]
  | x => x

def aesMix (st : List Nat) : List Nat :=
  (List.range 4).flatMap (fun i => aesMixColumn ((st.drop (4 * i)).take 4))

/-- The 13 middle rounds and the last. -/
def aesRounds : Nat → List (List Nat) → List Nat → List Nat
  | 0, ws, st => aesAddKey (aesShift (st.map aesSub)) (ws.take 4)
  | n + 1, ws, st => aesRounds n (ws.drop 4) (aesAddKey (aesMix (aesShift (st.map aesSub))) (ws.take 4))

/-- AES-256 encryption of one 16-byte block. -/
def aes256 (key block : Bytes) : Bytes :=
  let ws := aesSchedule key
  let st := aesAddKey ((fitBytes 16 block).map BitVec.toNat) (ws.take 4)
  (aesRounds 13 (ws.drop 4) st).map (BitVec.ofNat 8)

/-! GCM. -/

/-- Product in GF(2^128) with GCM's bit order, most significant bit first. -/
def ghashMulFrom : Nat → Nat → Nat → Nat → Nat
  | 0, _, _, z => z
  | n + 1, x, v, z =>
    let z' := if bitAt x n then z ^^^ v else z
    let v' := if v % 2 = 1 then (v / 2) ^^^ (0xE1 <<< 120) else v / 2
    ghashMulFrom n x v' z'

def ghashMul (x y : Nat) : Nat := ghashMulFrom 128 x y 0

def ghashFrom (h : Nat) : Nat → Bytes → Nat → Nat
  | 0, _, y => y
  | n + 1, m, y => ghashFrom h n (m.drop 16) (ghashMul (y ^^^ beVal (m.take 16)) h)

/-- GHASH over a string of whole blocks. -/
def ghash (h : Nat) (m : Bytes) : Nat := ghashFrom h (m.length / 16) m 0

def gctrFrom (key iv : Bytes) : Nat → Nat → Bytes → Bytes
  | 0, _, _ => []
  | n + 1, c, m =>
    List.zipWith (fun a b => a ^^^ b) (m.take 16) (aes256 key (iv ++ beBytes 4 c)) ++ gctrFrom key iv n (c + 1) (m.drop 16)

/-- Counter-mode encryption (and decryption) with a 12-byte IV; the first data block uses counter 2. -/
def gcmCrypt (key iv data : Bytes) : Bytes := gctrFrom key iv (ceilDiv data.length 16) 2 data

/-- The 16-byte GCM tag over additional data and ciphertext. -/
def gcmTag (key iv aad ct : Bytes) : Bytes :=
  let h := beVal (aes256 key (List.replicate 16 0))
  let s := ghash h (padTo 16 aad ++ padTo 16 ct ++ beBytes 8 (8 * aad.length) ++ beBytes 8 (8 * ct.length))
  beBytes 16 (s ^^^ beVal (aes256 key (iv ++ beBytes 4 1)))

/-! CRC-32. -/

def crcStep : Nat → Nat → Nat
  | 0, c => c
  | n + 1, c => crcStep n (if c % 2 = 1 then (c / 2) ^^^ 0xEDB88320 else c / 2)

/-- CRC-32 (IEEE 802.3). -/
def crc32 (m : Bytes) : Nat :=
  0xFFFFFFFF ^^^ m.foldl (fun c b => crcStep 8 (c ^^^ b.toNat)) 0xFFFFFFFF

/-! P-384. -/

def p384P : Nat := 2 ^ 384 - 2 ^ 128 - 2 ^ 96 + 2 ^ 32 - 1
def p384N : Nat :=
  0xffffffffffffffffffffffffffffffffffffffffffffffffc7634d81f4372ddf581a0db248b0a77aecec196accc52973
def p384B : Nat :=
  0xb3312fa7e23ee7e4988e056be3f82d19181d9c6efe8141120314088f5013875ac656398d8a2ed19d2a85c8edd3ec2aef
def p384G : Nat × Nat :=
  (0xaa87ca22be8b05378eb1c71ef320ad746e1d3b628ba79b9859f741e082542a385502f25dbf55296c3a545e3872760ab7,
   0x3617de4a96262c6f5d9e98bf9292dc29f8f41dbd289a147ce9da3113b5f0b8c00a60b1ce1d7e819d7a431d7c90ea0e5f)

/-- `b ^ e mod m` over the low `k` bits of `e`. -/
def powModFrom (m : Nat) : Nat → Nat → Nat → Nat
  | 0, _, _ => 1 % m
  | k + 1, b, e => (if e % 2 = 1 then b else 1) * powModFrom m k (b * b % m) (e / 2) % m

/-- The inverse modulo a prime below 2^384 (0 maps to 0). -/
def invMod (m a : Nat) : Nat := powModFrom m 384 (a % m) (m - 2)

/-- A point of the curve; `none` is the point at infinity. -/
abbrev ECPoint := Option (Nat × Nat)

/-- Whether a pair is a point of the curve y² = x³ − 3x + b. -/
def p384OnCurve (q : Nat × Nat) : Bool :=
  decide (q.1 < p384P) && decide (q.2 < p384P) &&
    (q.2 * q.2 % p384P == (q.1 * q.1 % p384P * q.1 + (p384P - 3) * q.1 + p384B) % p384P)

/-- A point as (X, Y, Z) with x = X / Z² and y = Y / Z³; Z = 0 is the point at infinity. -/
abbrev ProjPoint := Nat × Nat × Nat

def projDouble (p : ProjPoint) : ProjPoint :=
  let yy := p.2.1 * p.2.1 % p384P
  let zz := p.2.2 * p.2.2 % p384P
  let s := 4 * p.1 * yy % p384P
  let m := 3 * (p.1 + p384P - zz) * (p.1 + zz) % p384P
  let x := (m * m + 2 * (p384P - s)) % p384P
  (x, (m * (s + p384P - x) + 8 * (p384P - yy) * yy) % p384P, 2 * p.2.1 * p.2.2 % p384P)

def projAdd (p q : ProjPoint) : ProjPoint :=
  if p.2.2 = 0 then q
  else if q.2.2 = 0 then p
  else
    let zp := p.2.2 * p.2.2 % p384P
    let zq := q.2.2 * q.2.2 % p384P
    let u := p.1 * zq % p384P
    let v := p.2.1 * (q.2.2 * zq % p384P) % p384P
    let h := (q.1 * zp + p384P - u) % p384P
    let r := (q.2.1 * (p.2.2 * zp % p384P) + p384P - v) % p384P
    if h = 0 then (if r = 0 then projDouble p else (1, 1, 0))
    else
      let hh := h * h % p384P
      let hhh := h * hh % p384P
      let w := u * hh % p384P
      let x := (r * r + (p384P - hhh) + 2 * (p384P - w)) % p384P
      (x, (r * (w + p384P - x) + (p384P - v) * hhh) % p384P, p.2.2 * q.2.2 * h % p384P)

def projOf : ECPoint → ProjPoint
  | some (x, y) => (x, y, 1)
  | none => (1, 1, 0)

def pointOf (p : ProjPoint) : ECPoint :=
  if p.2.2 = 0 then none
  else
    let i := invMod p384P p.2.2
    some (p.1 * (i * i % p384P) % p384P, p.2.1 * (i * i % p384P * i % p384P) % p384P)

/-- Scalar multiplication over the low `n` bits of `k`. -/
def projMulFrom : Nat → Nat → ProjPoint → ProjPoint
  | 0, _, _ => (1, 1, 0)
  | n + 1, k, p => projAdd (if k % 2 = 1 then p else (1, 1, 0)) (projMulFrom n (k / 2) (projDouble p))

def p384Mul (k : Nat) (p : ECPoint) : ECPoint := pointOf (projMulFrom 384 k (projOf p))

/-- ECDSA verification of a 48-byte digest. -/
def ecdsaVerify (pub : Nat × Nat) (digest : Bytes) (r s : Nat) : Bool :=
  p384OnCurve pub && decide (0 < r ∧ r < p384N ∧ 0 < s ∧ s < p384N) &&
    (let w := invMod p384N s
     let u1 := beVal digest * w % p384N
     let u2 := r * w % p384N
     match pointOf (projAdd (projMulFrom 384 u1 (projOf (some p384G))) (projMulFrom 384 u2 (projOf (some pub)))) with
     | none => false
     | some (x, _) => x % p384N == r)

/-- ECDSA signature of a 48-byte digest with private key `d` and per-signature secret `k`. -/
def ecdsaSign (d k : Nat) (digest : Bytes) : Nat × Nat :=
  match p384Mul k (some p384G) with
  | none => (0, 0)
  | some (x, _) =>
    let r := x % p384N
    (r, invMod p384N k * (beVal digest + r * d) % p384N)

/-- The public key of a private key. -/
def ecPublic (d : Nat) : Nat × Nat := (p384Mul d (some p384G)).getD (0, 0)

/-- The ECDH shared secret: the x coordinate, big-endian. -/
def ecdh (d : Nat) (peer : Nat × Nat) : Option Bytes :=
  if p384OnCurve peer then (p384Mul d (some peer)).map (fun q => beBytes 48 q.1) else none

end Sys2Proof.Machine
end

