-- ==== Sys2Proof/Machine/RegTable.lean ====
section
/-! DEFINITION. The register map of BAR0 (R35): one row per register or family of registers, with the columns of the
manual's register tables (R7, R9, R10, R12). -/

namespace Sys2Proof.Machine

/-- The access types of R7. -/
inductive Access where
  | rw | ro | w1c | wo | rc
  deriving DecidableEq, Repr

/-- The field classes: boot-static, step-latched and live (R9, R10, R12). -/
inductive RegClass where
  | bootStatic | stepLatched | live
  deriving DecidableEq, Repr

/-- One field of a register. -/
structure RegField where
  lo : Nat
  width : Nat
  access : Access
  cls : RegClass
  reset : Nat
  deriving DecidableEq, Repr

/-- Whether a register stands alone or is half of a 64-bit pair (R6). -/
inductive RegPart where
  | single | lo | hi
  deriving DecidableEq, Repr

/-- One register, or a family of registers at `base + i₁ · stride₁ + i₂ · stride₂ …`. -/
structure RegRow where
  name : String
  base : Nat
  insts : List (Nat × Nat)
  part : RegPart
  fields : List RegField
  deriving DecidableEq, Repr

/-- A single register. -/
def reg (name : String) (base : Nat) (insts : List (Nat × Nat)) (fields : List RegField) : List RegRow :=
  [⟨name, base, insts, .single, fields⟩]

/-- A 64-bit pair whose halves are one field each, with the low half's reset value. -/
def pair64 (name : String) (base : Nat) (insts : List (Nat × Nat)) (a : Access) (c : RegClass) (r : Nat := 0) :
    List RegRow :=
  [⟨name ++ "_LO", base, insts, .lo, [⟨0, 32, a, c, r % 2 ^ 32⟩]⟩,
   ⟨name ++ "_HI", base + 4, insts, .hi, [⟨0, 32, a, c, r / 2 ^ 32⟩]⟩]

def fRO (lo w : Nat) (r : Nat := 0) : RegField := ⟨lo, w, .ro, .live, r⟩
def fRW (lo w : Nat) (r : Nat := 0) : RegField := ⟨lo, w, .rw, .live, r⟩
def fS (lo w : Nat) (r : Nat := 0) : RegField := ⟨lo, w, .rw, .stepLatched, r⟩
def fB (lo w : Nat) (r : Nat := 0) : RegField := ⟨lo, w, .ro, .bootStatic, r⟩
def fBW (lo w : Nat) (r : Nat := 0) : RegField := ⟨lo, w, .rw, .bootStatic, r⟩
def fW1C (lo w : Nat) : RegField := ⟨lo, w, .w1c, .live, 0⟩
def fWO (lo w : Nat) : RegField := ⟨lo, w, .wo, .live, 0⟩
def fRC (lo w : Nat) (r : Nat := 0) : RegField := ⟨lo, w, .rc, .live, r⟩

/-- The common `<BLOCK>_STATUS` register (R38). -/
def statusFields : List RegField := [fRO 0 1, fRO 1 2, fRO 3 1, fRO 4 2, fRO 8 8]

/-- Steps and trail (R93). -/
def regsSteps : List RegRow :=
  pair64 "STEP_NUMBER" 0x10000 [] .ro .live ++ pair64 "RUN_ORIGIN" 0x10008 [] .ro .live ++
  reg "BASE_STEP" 0x10010 [] [fRO 0 20] ++ reg "LAG_LIMIT" 0x10014 [] [fS 0 4 1] ++
  pair64 "TRAIL_SEQ" 0x10018 [] .ro .live ++ pair64 "TRAIL_BASE" 0x10020 [] .ro .bootStatic ++
  reg "TRAIL_SIZE" 0x10028 [] [fB 0 16] ++ reg "TRAIL_WRITE" 0x1002C [] [fRO 0 32] ++
  reg "TRAIL_READ" 0x10030 [] [fRW 0 32] ++ reg "TRAIL_STATUS" 0x10034 [] [fRO 0 1, fRO 1 1] ++
  reg "CADENCE_CFG" 0x10100 [(16, 8)] [fRO 0 16, fRO 16 16] ++ reg "CADENCE_SETTLE" 0x10104 [(16, 8)] [fRO 0 23] ++
  pair64 "STALL_COUNT" 0x10210 [(7, 16)] .ro .live ++ pair64 "STALL_NS" 0x10218 [(7, 16)] .ro .live ++
  pair64 "LATE_COUNT" 0x10280 [] .ro .live ++ pair64 "SHED_COUNT" 0x10288 [] .ro .live ++
  pair64 "SKIP_COUNT" 0x10290 [] .ro .live ++ pair64 "REEXEC_COUNT" 0x10298 [] .ro .live

/-- The tensor arrays (R138). -/
def regsArray : List RegRow :=
  let n := [(4, 0x40000)]
  let b := 0x800000
  reg "ARRAY_STATUS" b n statusFields ++ reg "ARRAY_INFO" (b + 4) n [fRO 0 10 0x204, fRO 10 3] ++
  reg "ARRAY_COLMAP" (b + 8) [(4, 0x40000), (2, 4)] [fRO 0 10, fRO 15 1, fRO 16 10, fRO 31 1] ++
  pair64 "SAT_COUNT" (b + 0x10) n .ro .live ++ pair64 "NONFINITE_COUNT" (b + 0x18) n .ro .live ++
  pair64 "SEQ_PTR" (b + 0x20) n .ro .live ++ reg "SEQ_DESC_DONE" (b + 0x28) n [fRO 0 32] ++
  reg "FN_TABLE_VERSION" (b + 0x2C) n [fRO 0 16] ++ reg "ARRAY_CFG" (b + 0x30) n [fS 0 16 0xFFFF, fS 16 1] ++
  reg "ARRAY_EVENTS" (b + 0x34) n [fW1C 0 1, fW1C 1 1, fW1C 2 1] ++ pair64 "OPS_LAST_STEP" (b + 0x38) n .ro .live

/-- Groundsheets and lending (R164). -/
def regsGs : List RegRow :=
  let n := [(3, 0x10000)]
  let b := 0x700000
  reg "GS_INFO" b [(2, 0x10000)] [fRO 0 12 0x800, fRO 12 3 4] ++ reg "GS_INFO" (b + 0x20000) [] [fRO 0 12 0xC00, fRO 12 3 6] ++
  reg "GS_BANKMAP" (b + 4) n [fRO 0 6, fRO 6 6] ++ reg "GS_CFG" (b + 8) n [fS 0 16 0x2710, fS 16 1 1] ++
  reg "GS_EVENTS" (b + 0xC) n [fW1C 0 1, fW1C 1 1, fW1C 2 1, fW1C 3 1] ++
  pair64 "GS_CORR_COUNT" (b + 0x10) n .ro .live ++ reg "GS_LIT_COUNT" (b + 0x18) n [fRO 0 12] ++
  reg "GS_HOST_WRITES" (b + 0x1C) n [fRC 0 32] ++ reg "GS_TAG_SEL" (b + 0x20) n [fRW 0 12] ++
  reg "GS_TAG" (b + 0x24) [(3, 0x10000), (6, 4)] [fRO 0 32] ++
  reg "LEND_ACTIVE" 0x730000 [] [fRO 0 16] ++ reg "LEND_TILES" 0x730004 [] [fRO 0 16] ++
  pair64 "LEND_LOST" 0x730008 [] .ro .live

/-- The time engine (R424). -/
def regsTime : List RegRow :=
  let b := 0x300000
  let k := [(2, 0x80)]
  let n := [(4, 0x20)]
  let m := [(4, 0x40)]
  reg "TIME_STATUS" b [] statusFields ++
  reg "TIME_CFG" (b + 4) [] [fB 0 1, fRW 1 1 1, fRW 2 1 1, fRW 4 12 0x3C, fRW 16 8 0x32, fRW 24 1] ++
  reg "TIME_LIMITS" (b + 8) [] [fRW 0 16 0x64, fRW 16 16 0x3E8] ++
  reg "TIME_EVENTS" (b + 0xC) [] [fW1C 0 8] ++
  reg "DEV_SEL" (b + 0x10) [] [fRO 0 1, fRO 1 1, fRO 2 1, fWO 8 1, fRO 16 16] ++
  reg "DEV_TIME_0" (b + 0x14) [] [fRO 0 16] ++ reg "DEV_TIME_12" (b + 0x18) [(2, 4)] [fRO 0 32] ++
  reg "DEV_TIME_3" (b + 0x20) [] [fRO 0 16] ++ pair64 "RESIDUAL" (b + 0x24) [] .ro .live ++
  reg "DOM_CFG" (b + 0x100) k [fB 0 8, fB 8 2, fB 10 3, fB 13 1, fB 14 2, fB 16 1, fB 17 4 3, fB 21 1] ++
  reg "DOM_STATE" (b + 0x104) k [fRW 0 2, fRO 16 16] ++
  reg "DOM_TIME_0" (b + 0x108) k [fRO 0 16] ++ reg "DOM_TIME_12" (b + 0x10C) [(2, 0x80), (2, 4)] [fRO 0 32] ++
  reg "DOM_TIME_3" (b + 0x114) k [fRO 0 16] ++
  [⟨"INC_LO", b + 0x118, k, .lo, [fRW 0 32]⟩, ⟨"INC_HI", b + 0x11C, k, .hi, [fRW 0 16 0x200]⟩] ++
  pair64 "DOM_ADJ" (b + 0x120) k .wo .live ++ pair64 "DOM_OFFSET" (b + 0x128) k .ro .live ++
  pair64 "GM_ID" (b + 0x130) k .ro .live ++ reg "ANNOUNCE_AGE" (b + 0x138) k [fRO 0 24 0xFFFFFF] ++
  reg "DOM_UTC" (b + 0x13C) k [fRO 0 16, fRO 16 1] ++
  reg "PORT_LAT" (b + 0x200) [(4, 0x20), (3, 4)] [fB 0 32] ++
  reg "TXTS_STATUS" (b + 0x20C) n [fRO 0 7, fW1C 8 1] ++ reg "TXTS_LOST" (b + 0x210) n [fRC 0 32] ++
  reg "TOUT_CTL" (b + 0x300) m [fRW 0 1, fWO 1 1, fRW 2 2, fRW 4 1, fRO 8 1] ++
  reg "TOUT_START" (b + 0x304) [(4, 0x40), (4, 4)] [fRW 0 32] ++ pair64 "TOUT_PERIOD" (b + 0x314) m .rw .live ++
  reg "TOUT_WIDTH" (b + 0x31C) m [fRW 0 32] ++ reg "TOUT_MISSED" (b + 0x320) m [fRC 0 32] ++
  reg "TIN_CTL" (b + 0x400) m [fRW 0 1, fRW 1 2, fRW 3 2] ++ reg "TIN_DELAY" (b + 0x404) m [fRW 0 32] ++
  reg "TIN_STAMP_0" (b + 0x408) m [fRC 0 16, fRC 30 1, fRC 31 1] ++
  reg "TIN_STAMP" (b + 0x40C) [(4, 0x40), (3, 4)] [fRO 0 32] ++
  reg "TIN_STATUS" (b + 0x418) m [fRO 0 5, fW1C 8 1] ++ reg "TIN_LOST" (b + 0x41C) m [fRC 0 32]

/-- Memory tiers (R489). -/
def regsMemory : List RegRow :=
  let b := 0x600000
  reg "MEMORY_STATUS" b [] statusFields ++ reg "MEM_INFO" (b + 4) [] [fRO 0 20, fRO 20 6] ++
  reg "TIER_CFG" (b + 8) [] [fS 0 16 0x3E8, fRW 16 8 0x10, fRW 24 1] ++ reg "MEM_EVENTS" (b + 0xC) [] [fW1C 0 9] ++
  [⟨"BAR2_BASE_LO", b + 0x10, [], .lo, []⟩, ⟨"BAR2_BASE_HI", b + 0x14, [], .hi, [fRW 4 28]⟩] ++
  reg "PC_IN_SERVICE" (b + 0x18) [] [fRO 0 32] ++ reg "WINDOW_STATE" (b + 0x1C) [] [fRO 0 2, fRO 2 3, fRO 5 3, fRO 16 16] ++
  pair64 "WINDOW_BYTES" (b + 0x20) [] .ro .live ++ pair64 "T3_CORR" (b + 0x28) [] .ro .live ++
  reg "T3_UNCORR" (b + 0x30) [(5, 4)] [fRO 0 32] ++ reg "HOST_WRITES_DISCARDED" (b + 0x44) [(2, 4)] [fRC 0 32] ++
  reg "TENANT_SEL" (b + 0x4C) [] [fRW 0 16] ++ reg "TENANT_VIEW_01" (b + 0x50) [(2, 4)] [fRO 0 20, fRO 20 11] ++
  reg "TENANT_VIEW_2" (b + 0x58) [] [fRO 0 27] ++ reg "TENANT_VIEW_3" (b + 0x5C) [] [fRO 0 27, fRO 27 5] ++
  pair64 "TILE_QUERY" (b + 0x60) [] .rw .live ++
  reg "TILE_QUERY_RESULT" (b + 0x68) [] [fRO 0 3 7, fRO 3 1, fRO 4 1, fRO 5 1, fRO 6 26] ++
  reg "ARCHIVE_TILES" (b + 0x6C) [] [fB 0 32] ++ reg "ARCHIVE_WRITE" (b + 0x70) [] [fRO 0 32] ++
  reg "ARCHIVE_READ" (b + 0x74) [] [fRW 0 32]

/-- GLOBAL's first page and the HOST block (R524). The silicon revision is per part (assumption 4). -/
def regsHost : List RegRow :=
  let h := 0x100000
  let r := [(16, 0x40)]
  reg "GLOBAL_ID" 0 [] [fRO 0 16 0x6240, fRO 16 8] ++
  reg "BOOT_STATUS" 4 [] [fRO 0 4, fRO 4 1, fRO 8 4 7, fRO 12 4 7] ++
  reg "BOOT_UNUSABLE" 8 [] [fRO 0 4, fRO 4 8, fRO 12 8, fRO 20 4, fRO 24 1] ++
  reg "ACCESS_ERR" 0xC [] [fRO 0 24] ++ reg "ACCESS_ERR_COUNT" 0x10 [] [fRC 0 32] ++
  reg "RUNTIME_VERSION" 0x14 [] [fRO 0 32] ++ reg "IMAGE_ACTIVE" 0x18 [(2, 4)] [fRO 0 32] ++
  reg "UPDATE_STATUS" 0x20 [] [fRO 0 2, fRO 2 1, fRO 3 1] ++ pair64 "SWITCH_STEP" 0x24 [] .ro .live ++
  reg "PENDING_BLOCKS" 0x2C [] [fRO 0 19] ++
  reg "HOST_INFO" h [] [fRO 0 3, fRO 3 3, fRO 6 1, fRO 7 1] ++ reg "HOST_CFG" (h + 4) [] [fRW 0 4, fRW 4 1] ++
  reg "HOST_EVENTS" (h + 8) [] [fW1C 0 3] ++ pair64 "OUT_BASE" (h + 0x10) [] .ro .live ++
  reg "OUT_SIZE" (h + 0x18) [] [fRO 0 32] ++ reg "OUT_WRITE" (h + 0x1C) [] [fRO 0 32] ++
  reg "OUT_READ" (h + 0x20) [] [fRW 0 32] ++ pair64 "OUT_DISCARDED" (h + 0x24) [] .ro .live ++
  reg "OUTBUF" (h + 0x2C) [] [fB 0 16, fRO 16 16] ++
  pair64 "SQ_BASE" (h + 0x1000) r .rw .live ++ pair64 "CQ_BASE" (h + 0x1008) r .rw .live ++
  reg "RING_SIZE" (h + 0x1010) r [fRW 0 4 4, fRW 4 4 4] ++ reg "RING_CTL" (h + 0x1014) r [fRW 0 1, fWO 1 1] ++
  reg "RING_STATUS" (h + 0x1018) r [fRO 0 1, fRO 1 1, fRO 8 8, fRO 16 16] ++
  reg "RING_HEADS" (h + 0x101C) r [fRO 0 16, fRO 16 16]

/-- Faults and self-test (R579). -/
def regsFault : List RegRow :=
  let b := 0xE00000
  reg "FAULT_STATUS" b [] [fRO 0 1, fRO 1 4, fRO 5 1, fRO 8 2, fRO 16 8] ++
  reg "FAULT_CFG" (b + 4) [] [fRW 0 1, fRW 8 16 0xFFFF] ++ reg "FAULT_EVENTS" (b + 8) [] [fW1C 0 8] ++
  reg "ERRQ_STATUS" (b + 0xC) [] [fRO 0 9, fRC 16 9, fW1C 31 1] ++ reg "ERRQ_LOST" (b + 0x10) [] [fRC 0 32] ++
  reg "SCHEDULE" (b + 0x14) [] [fRO 0 4 0xF, fRO 16 15] ++ reg "UNIT_OUT" (b + 0x18) [(2, 4)] [fRO 0 32] ++
  reg "GUY_STATE" (b + 0x20) [] [fRO 0 12, fRO 12 12] ++ reg "BIST_STATUS" (b + 0x24) [] [fRO 0 2, fRO 2 1, fRO 16 16] ++
  reg "BIST_RESULT" (b + 0x28) [] [fRO 0 2, fRO 2 10, fRO 16 16] ++ pair64 "CE_TOTAL" (b + 0x2C) [] .ro .live ++
  reg "UE_TOTAL" (b + 0x34) [(3, 4)] [fRO 0 32] ++ pair64 "LAST_ERR_SEQ" (b + 0x40) [] .ro .live ++
  reg "CLK_CHECK" (b + 0x48) [] [fRO 0 16, fRO 16 12]

/-- The security block (R552); its per-part fields are read from the state. -/
def regsSecurity : List RegRow :=
  let b := 0x200000
  reg "SEC_STATUS" b [] [fRO 0 3, fRO 3 1, fRO 4 1, fRO 5 1, fRO 6 1, fRO 7 1, fRO 8 2, fRO 16 8] ++
  reg "SEC_INFO" (b + 4) [] [fRO 0 16, fRO 16 6, fRO 22 5] ++ reg "SEC_EVENTS" (b + 8) [] [fW1C 0 7] ++
  reg "MIN_SECURITY_VERSION" (b + 0xC) [] [fRO 0 32] ++ reg "DEVICE_SERIAL" (b + 0x10) [(4, 4)] [fRO 0 32] ++
  reg "KEY_STATE" (b + 0x20) [] [fRO 0 3] ++ pair64 "ROLE_COUNTER" (b + 0x28) [(3, 8)] .ro .live ++
  reg "CMD_ACCEPTED" (b + 0x40) [(2, 4)] [fRC 0 32] ++ pair64 "SITE_SEQ" (b + 0x48) [] .ro .live

/-- Ports and Tether (R455). -/
def regsPorts : List RegRow :=
  let b := 0x400000
  let n := [(4, 0x100)]
  let p := [(2, 0x100)]
  reg "PORTS_STATUS" b [] statusFields ++ reg "TETHER_INFO" (b + 4) [] [fRO 0 13, fRO 13 5] ++
  reg "TETHER_CFG" (b + 8) [] [fRW 0 1, fRW 8 8 0xA] ++ reg "TETHER_EVENTS" (b + 0xC) [] [fW1C 0 6] ++
  reg "TETHER_POOL" (b + 0x10) [] [fB 0 16, fRO 16 16] ++ reg "PPS" (b + 0x14) [(2, 4)] [fRO 0 25] ++
  reg "SLOT_SEL" (b + 0x1C) [] [fRW 0 12] ++ reg "SLOT_VIEW_0" (b + 0x20) [] [fRO 0 2, fRO 2 1, fRO 3 1, fRO 4 3] ++
  reg "SLOT_VIEW_1" (b + 0x24) [] [fRO 0 32] ++ reg "SLOT_VIEW_23" (b + 0x28) [(2, 4)] [fRO 0 16, fRO 16 16] ++
  reg "DECLARE_REFUSED" (b + 0x30) [(3, 4)] [fRC 0 32] ++
  reg "PORT_CFG" (b + 0x1000) n [fB 0 2, fB 2 1, fB 3 1, fB 16 14 0x5DC] ++
  reg "PORT_LINK" (b + 0x1004) n [fRO 0 1, fRO 1 1, fRO 2 1, fRO 3 1, fRO 16 16] ++
  pair64 "PORT_RX" (b + 0x1008) n .ro .live ++ reg "PORT_DROP" (b + 0x1010) n [fRC 0 32] ++
  reg "FEC" (b + 0x1014) [(4, 0x100), (2, 4)] [fRO 0 32] ++
  reg "PORT_VLAN" (b + 0x1020) [(4, 0x100), (4, 4)] [fB 0 12, fB 15 1, fB 16 12, fB 31 1] ++
  reg "PRP_STATUS" (b + 0x2000) p [fRO 0 1, fRO 1 1, fRO 2 1] ++ reg "PRP_DUP" (b + 0x2004) p [fRO 0 32] ++
  reg "PRP_WRONG_LAN" (b + 0x2008) p [fRC 0 32] ++ reg "PRP_NODES" (b + 0x200C) p [fRO 0 12]

/-- Vision (R210). -/
def regsVision : List RegRow :=
  let n := [(2, 0x80000)]
  let b := 0x900000
  reg "VISION_STATUS" b n statusFields ++ reg "VISION_INFO" (b + 4) n [fRO 0 4, fRO 4 5, fRO 16 16 1] ++
  reg "VISION_CFG" (b + 8) n [fS 0 8 0x64, fS 8 1] ++ reg "VISION_EVENTS" (b + 0xC) n [fW1C 0 6] ++
  pair64 "SEQ_PTR_e" (b + 0x10) [(2, 0x80000), (4, 0x10)] .ro .live ++
  reg "DESC_DONE" (b + 0x18) [(2, 0x80000), (4, 0x10)] [fRO 0 32] ++
  reg "OUT_TILES" (b + 0x1C) [(2, 0x80000), (4, 0x10)] [fRO 0 32] ++
  reg "CODE_COUNTS" (b + 0x50) [(2, 0x80000), (12, 4)] [fRO 0 32] ++
  reg "BIND" (b + 0x80) [(2, 0x80000), (12, 4)] [fRO 0 12, fRO 15 1, fRO 16 12, fRO 31 1] ++
  reg "PROJ_TABLE_VERSION" (b + 0xB0) n [fRO 0 16]

/-- Fusion (R249). -/
def regsFusion : List RegRow :=
  let b := 0xA00000
  reg "FUSION_STATUS" b [] statusFields ++ reg "FUSION_INFO" (b + 4) [] [fRO 0 14, fRO 14 9, fRO 23 3] ++
  reg "FUSION_CFG" (b + 8) [] [fS 0 8 0x10, fS 8 8 0x10, fS 16 8 0x10, fS 24 8 0x32] ++
  reg "EGO_CFG" (b + 0xC) [] [fS 0 16 0x32, fS 16 15 0x1F4, fS 31 1] ++
  reg "LADDER" (b + 0x10) [(3, 4)] [fS 0 8 0x5A, fS 8 8 0x32, fS 16 8 0xA] ++
  reg "LADDER_3" (b + 0x1C) [] [fS 0 8 0x5F, fS 8 8 0x32, fS 16 8 0xA] ++
  reg "LADDER_4" (b + 0x20) [] [fS 0 8 0x5A, fS 8 8 0x32, fS 16 8 0xA] ++
  reg "FUSION_LEVELS" (b + 0x24) [] [fRO 0 10, fRO 10 5] ++ reg "FUSION_EVENTS" (b + 0x28) [] [fW1C 0 7] ++
  reg "FUSION_TABLE_VERSION" (b + 0x2C) [] [fRO 0 16] ++ reg "UNALIGNED_NOW" (b + 0x30) [(2, 4)] [fRO 0 14] ++
  reg "CONTESTED_NOW" (b + 0x38) [] [fRO 0 9] ++ reg "STALE_LAST_STEP" (b + 0x3C) [] [fRO 0 14] ++
  reg "STREAM_SEL" (b + 0x40) [] [fRW 0 13] ++ reg "STREAM_STAT_0" (b + 0x44) [] [fRO 0 16, fRO 16 16] ++
  reg "STREAM_STAT_1" (b + 0x48) [] [fRO 0 7, fRO 8 8, fRO 16 8, fRO 24 3] ++
  reg "STREAM_STAT_2" (b + 0x4C) [] [fRO 0 32] ++ reg "STREAM_STAT_3" (b + 0x50) [] [fRO 0 16]

/-- Tracks (R271). -/
def regsTrack : List RegRow :=
  let b := 0xA10000
  reg "TRACK_INFO" b [] [fRO 0 15, fRO 15 7, fRO 22 9] ++
  reg "TRACK_CFG" (b + 4) [] [fS 0 8 0xA, fS 8 4 3, fS 12 4 5, fS 16 1] ++
  reg "TRACK_EVENTS" (b + 8) [] [fW1C 0 4] ++ reg "TRACK_COUNTS" (b + 0xC) [(2, 4)] [fRO 0 16, fRO 16 16] ++
  reg "UPDATES_LAST_STEP" (b + 0x14) [] [fRO 0 32] ++ pair64 "FILTER_FAULTS" (b + 0x18) [] .ro .live ++
  reg "TRACK_SEL" (b + 0x20) [] [fRW 0 14] ++ reg "TRACK_VIEW_0" (b + 0x24) [] [fRO 0 32] ++
  reg "TRACK_VIEW_1" (b + 0x28) [] [fRO 0 3, fRO 3 5, fRO 8 8, fRO 16 16] ++
  reg "QUERY_STATUS" (b + 0x2C) [] [fRO 0 7, fRC 8 7]

/-- Map (R306). -/
def regsMap : List RegRow :=
  let b := 0xB00000
  reg "MAP_STATUS" b [] statusFields ++ reg "MAP_INFO" (b + 4) [] [fRO 0 17, fRO 17 1, fRO 18 1] ++
  reg "MAP_CFG" (b + 8) [] [fS 0 9 0x100, fS 9 11 0x1E, fS 20 6 5, fS 26 5 0xA, fS 31 1] ++
  reg "VERIFY_CFG" (b + 0xC) [] [fS 0 6 8, fS 6 8 0x18, fS 14 7 0x1E, fS 21 3 3, fS 24 8 0x64] ++
  reg "MAP_EVENTS" (b + 0x10) [] [fW1C 0 6] ++ pair64 "MAP_EPOCH" (b + 0x14) [] .ro .live ++
  reg "KF_COUNT" (b + 0x1C) [] [fRO 0 23] ++ reg "LM_COUNT" (b + 0x20) [] [fRO 0 27] ++
  reg "FACTOR_COUNT" (b + 0x24) [] [fRO 0 26] ++ reg "AWNING_FILL" (b + 0x28) [] [fRO 0 32] ++
  reg "FREE_SCALARS" (b + 0x2C) [] [fRO 0 25] ++ reg "CLOSURE_COUNTS" (b + 0x30) [] [fRO 0 16, fRO 16 16] ++
  reg "MAP_QUERY_STATUS" (b + 0x34) [] [fRO 0 7, fRC 8 7]

/-- Solver (R328). -/
def regsSolver : List RegRow :=
  let b := 0xC00000
  reg "SOLVER_STATUS" b [] statusFields ++ reg "SOLVER_INFO" (b + 4) [] [fRO 0 16, fRO 16 16] ++
  reg "SOLVER_CFG" (b + 8) [] [fS 0 6 0x28, fS 6 6 0x14, fS 12 8 0x10, fS 20 6 0x1E, fS 26 1] ++
  reg "SOLVER_EVENTS" (b + 0xC) [] [fW1C 0 4] ++ reg "FREE_BLOCKS" (b + 0x10) [] [fRO 0 23] ++
  reg "FREE_SCALARS" (b + 0x14) [] [fRO 0 25] ++ pair64 "FACTOR_BYTES" (b + 0x18) [] .ro .live ++
  pair64 "CONTRIB_BYTES" (b + 0x20) [] .ro .live ++
  reg "LAST_SOLVE" (b + 0x28) [] [fRO 0 2, fRO 8 8, fRO 16 16] ++ reg "LAST_SUPERNODES" (b + 0x2C) [] [fRO 0 32] ++
  pair64 "LAST_FLOPS" (b + 0x30) [] .ro .live ++ pair64 "REG_TOTAL" (b + 0x38) [] .ro .live ++
  reg "ILLPOSED_COUNT" (b + 0x40) [] [fRO 0 32] ++ reg "FIRST_REG_KEY" (b + 0x44) [] [fRO 0 32]

/-- Search (R360). -/
def regsSearch : List RegRow :=
  let b := 0xD00000
  reg "SEARCH_STATUS" b [] statusFields ++ reg "SEARCH_INFO" (b + 4) [] [fRO 0 7] ++
  reg "SEARCH_CFG" (b + 8) [] [fRW 0 9 0x40, fRW 9 1] ++ reg "SEARCH_EVENTS" (b + 0xC) [] [fW1C 0 6] ++
  reg "HOSTQ_STATUS" (b + 0x10) [] [fRO 0 9, fRC 16 9] ++ reg "COLL_SEL" (b + 0x14) [] [fRW 0 6] ++
  reg "COLL_VIEW_0" (b + 0x18) [] [fRO 0 11, fRO 11 16, fRO 27 1, fRO 28 2] ++
  reg "COLL_VIEW_1" (b + 0x1C) [] [fRO 0 17] ++ pair64 "COLL_EPOCH" (b + 0x20) [] .ro .live ++
  pair64 "COLL_LIVE" (b + 0x28) [] .ro .live ++ reg "COLL_AWNING" (b + 0x30) [] [fRO 0 23] ++
  reg "COLL_NEXT_ID" (b + 0x34) [] [fRO 0 32] ++ pair64 "QUERIES" (b + 0x38) [] .ro .live ++
  pair64 "HOT_BYTES" (b + 0x40) [] .ro .live ++ pair64 "COLD_BYTES" (b + 0x48) [] .ro .live ++
  reg "NONFINITE_SKIPPED" (b + 0x50) [] [fRO 0 32] ++ reg "HOST_REFUSED" (b + 0x54) [] [fRC 0 32]

/-- Signal chains (R390). -/
def regsSignal : List RegRow :=
  let b := 0x500000
  let g := [(8, 0x10000), (1024, 32), (2, 16)]
  reg "SIGNAL_STATUS" b [] statusFields ++ reg "SIGNAL_INFO" (b + 4) [] [fRO 0 14] ++
  reg "SIGNAL_CFG" (b + 8) [] [fS 0 1] ++ reg "SIGNAL_EVENTS" (b + 0xC) [] [fW1C 0 5] ++
  reg "LANE_LOAD" (b + 0x10) [(8, 4)] [fRO 0 17, fRO 17 11] ++ reg "LANE_STATE" (b + 0x30) [] [fRO 0 8, fRO 8 8] ++
  reg "CHAN_SEL" (b + 0x34) [] [fRW 0 13] ++ reg "CHAN_VIEW_0" (b + 0x38) [] [fRO 0 12, fRO 12 4, fRO 16 16] ++
  reg "CHAN_VIEW_1" (b + 0x3C) [] [fRO 0 4, fRO 4 1, fRO 5 2, fRO 7 2, fRO 9 4] ++
  reg "CHAN_VIEW_2" (b + 0x40) [] [fRO 0 24] ++ reg "CHAN_VIEW_3" (b + 0x44) [] [fRO 0 16, fRO 16 16] ++
  pair64 "GLINTS" (b + 0x48) [] .ro .live ++ pair64 "SAT_TOTAL" (b + 0x50) [] .ro .live ++
  pair64 "MISSING" (b + 0x58) [] .ro .live ++ reg "REANCHOR_COUNT" (b + 0x60) [] [fRO 0 32] ++
  reg "RS_TABLE_VERSION" (b + 0x64) [] [fRO 0 16] ++
  reg "GLINT_LEVEL" (b + 0x10000) g [fS 0 32] ++ reg "GLINT_HYST" (b + 0x10004) g [fS 0 28] ++
  reg "GLINT_CTL" (b + 0x10008) g [fS 0 16, fS 16 1, fS 17 1, fS 18 1]

/-- Event counters (R590); settings, values and overflow bits are held by the counters. -/
def regsCounters : List RegRow :=
  let b := 0xF00000
  let n := [(4, 0x10000), (64, 4)]
  let m := [(4, 0x10000), (64, 8)]
  reg "CNT_CFG" b n [fRW 0 14, fRO 15 1] ++
  [⟨"CNT_LO", b + 0x100, m, .lo, [fRO 0 32]⟩, ⟨"CNT_HI", b + 0x104, m, .hi, [fRO 0 16, fRO 31 1]⟩] ++
  pair64 "CNT_OVF" (b + 0x300) [(4, 0x10000)] .w1c .live ++ pair64 "CNT_CLEAR" (b + 0x308) [(4, 0x10000)] .wo .live ++
  pair64 "CNT_LATCH_TIME" (b + 0x310) [(4, 0x10000)] .ro .live

/-- Clocks and package (R613); per-part revisions are read from the part (assumption 4). -/
def regsPackage : List RegRow :=
  reg "CLK_INFO" 0x20000 [] [fB 0 1, fRO 1 1, fRO 2 1, fRO 3 4, fRO 7 1] ++ reg "DIE_REV" 0x20004 [] [fRO 0 32] ++
  reg "PKG_INFO" 0x20008 [] [fRO 0 16, fRO 16 8 0x18]

end Sys2Proof.Machine
end

