-- ==== Sys2Proof/Machine/State.lean ====
section
/-! DEFINITION. The state of the device: every piece of state the manual names, as plain data. Registers that only
hold a value stand in `regs`; state with a structure of its own has a field of its own, and its registers read it. -/

namespace Sys2Proof.Machine

/-- Why the machine stops. No command of the manual stops it: `queueCorrupt` is raised by nothing in this model and is
kept so that the type names the one stop a reader could ask about (safe: it is unreachable). -/
inductive Fault where
  /-- Raised by no meaning; safe. -/
  | queueCorrupt
  deriving DecidableEq, Repr, Inhabited

/-- Why a command has no meaning. -/
inductive Refusal where
  /-- The dispatcher's answer for a command without a meaning; no arm of this model gives it. -/
  | notModelled (mnemonic : String)
  deriving DecidableEq, Repr, Inhabited

/-! Steps, inputs and the trail (02). -/

/-- An input under admission (R54–R60): `cadences` are the consuming cadences, `admitted` those that have admitted it,
`held` those of them that did so in a trail hold (R89), `waits` the occurrences (cadence, step) whose admission close it
still awaits, and `cause` what it has been excluded with. `frame` marks an image or point frame, in entry `entry` of its
ring; `addr` is where the archive holds the payload; `delayNs` the delay of one that a delay queue released; `session` and
`ackSeqs` the Tether session and the DATA frames that carried it. -/
structure Input where
  slot : Nat
  stream : Nat
  stamp : Nat
  arrival : Nat
  seq : Nat
  count : Nat
  payload : Bytes
  frame : Bool
  delayNs : Option Nat
  session : Nat
  ackSeqs : List Nat
  cadences : List Nat
  admitted : List Nat
  held : List Nat
  waits : List (Nat × Nat)
  counted : List Nat
  cause : Nat
  entry : Nat
  addr : Option Nat
  deriving DecidableEq, Repr, Inhabited

/-- A frame in a heavy tether's frame ring (R167): its stamp and ring entry. -/
structure FrameRec where
  slot : Nat
  stamp : Nat
  entry : Nat
  deriving DecidableEq, Repr, Inhabited

/-- The frames an occurrence's selectors name, fixed at its admission close (R167). -/
structure FrameSel where
  slot : Nat
  current : Option FrameRec
  previous : Option FrameRec
  deriving DecidableEq, Repr, Inhabited

/-- A sample of a fusion stream that waits for the fusion work of step `step`, from which on the history holds it (R221). -/
structure FeedSample where
  step : Nat
  index : Nat
  stamp : Nat
  value : List Nat
  deriving DecidableEq, Repr, Inhabited

/-- The draw index of a generator stream (R74) of one occurrence. -/
structure DrawIndex where
  cadence : Nat
  step : Nat
  unit : Nat
  stream : Nat
  next : Nat
  deriving DecidableEq, Repr, Inhabited

/-- The alignment of a fusion stream as its step edges judge it (R216–R218): whether it is unaligned and with what cause, its
realignment run, and ε of the latest step with an exchange, in ns. -/
structure AlignState where
  unaligned : Bool
  cause : Nat
  run : Nat
  errNs : Int
  deriving DecidableEq, Repr, Inhabited

/-- An occurrence that has closed and not committed (R52, R69, R76), with the frames and calibrations it uses, the quality
values and stream alignments of its step, whether its work has begun (it waits for its predecessor), and the pipelines stopped
at its close. -/
structure Occurrence where
  cadence : Nat
  step : Nat
  close : Nat
  compiledEnd : Nat
  attempts : Nat
  schedule : Nat
  inputs : List Input
  frames : List FrameSel
  calibrations : List Calibration
  epochs : List Nat
  quality : List Quality
  align : List AlignState
  begun : Bool
  stopped : List Nat
  deriving DecidableEq, Repr, Inhabited

/-- What a step's fusion work decides for the flags of output records (R40, R246) and for later work of its step: the level of
each function, the contested check regions, and the stale, the masked and the usable fusion streams. -/
structure StepVerdict where
  step : Nat
  levels : List Nat
  contested : List Nat
  stale : List Nat
  masked : List Nat
  usable : List Nat
  deriving DecidableEq, Repr, Inhabited

/-- The counts of a step summary while the step is open (R91); `ran` are the cadences whose occurrence of the step began. -/
structure StepStats where
  step : Nat
  admitted : Nat
  late : Nat
  shedOther : Nat
  skipped : Nat
  ran : Nat
  commits : Nat
  commands : Nat
  deriving DecidableEq, Repr, Inhabited

/-- A run in progress: its origin and base step in 2⁻¹⁶ ns, and how many step edges have passed (R48, R49, R615). -/
structure Run where
  id : Bytes
  t0 : Nat
  base : Nat
  edges : Nat
  nextClose : List Nat
  deriving DecidableEq, Repr, Inhabited

/-- A trail record before it is written (R81). -/
structure TrailDraft where
  kind : Nat
  outcome : Nat
  cause : Nat
  step : Nat
  time : Nat
  body : Bytes
  deriving DecidableEq, Repr, Inhabited

/-- A trail record in the ring: where its first byte lies, its sequence number, previous digest and contents. -/
structure TrailRec where
  seq : Nat
  at_ : Nat
  prev : Bytes
  draft : TrailDraft
  deriving DecidableEq, Repr, Inhabited

/-- The trail (R81–R90, R614). Records are newest first; drafts that wait are oldest first, and `preWaiting` are those of
them that arose before the run. -/
structure Trail where
  records : List TrailRec
  nextSeq : Nat
  digest : Bytes
  write : Nat
  read : Nat
  hold : Bool
  archiveHold : Bool
  sealHold : Bool
  lowSpace : Bool
  waiting : List TrailDraft
  gapSteps : List Nat
  lostSteps : List (Nat × Nat)
  gapInputs : Nat
  gapOutputs : Nat
  firstSeq : Nat
  preRun : List TrailDraft
  preRunLost : Nat
  restartSignal : Bool
  archiveWaiting : List Bytes
  ringHold : Bool
  preWaiting : List TrailDraft
  deriving DecidableEq, Repr, Inhabited

/-- Steps: the run, its occurrences and the admission state; the step whose fusion work was done last, the verdicts of
earlier steps with an occurrence that has not committed, newest first; the steps whose edge has passed and whose summary is
still to come (R91); the admitted samples that no fusion work has taken yet (R221); and the calibrations in force at each step
edge that a longer cadence's admission close still looks back to (R194). -/
structure Steps where
  run : Option Run
  runDue : Option Nat
  image : Option Image
  occs : List Occurrence
  inputs : List Input
  seen : List (Nat × Nat × Nat)
  stats : List StepStats
  late : List (Nat × Nat × Nat × Nat)
  draws : List DrawIndex
  imageStart : Bool
  switch : Option (Image × Nat)
  endRun : Bool
  fusedStep : Option Nat
  verdicts : List StepVerdict
  openSums : List Nat
  toFeed : List FeedSample
  calEdges : List (Nat × List Calibration)
  deriving DecidableEq, Repr, Inhabited

/-- One output record (R40), with the outcome and the lag that it is reported to the host with (R69): the header has no
field for them (assumption 73). `logged` marks a record of a run that has ended, whose trail holds it. -/
structure OutRec where
  recordType : Nat
  function : Nat
  step : Nat
  instant : Nat
  flags : Nat
  confidence : Nat
  tenant : Nat
  stream : Nat
  seq : Nat
  trailRef : Nat
  image : Nat
  payload : Bytes
  outcome : Nat
  lagNs : Nat
  logged : Bool
  deriving DecidableEq, Repr, Inhabited

/-- Output buffering (R43, R44, R503): records not yet copied, oldest first, records copied to the host, and the next
`STREAM_SEQ` of each output stream. -/
structure Outputs where
  buffer : List OutRec
  delivered : List OutRec
  seqs : List (Nat × Nat)
  stopped : List Nat
  deriving DecidableEq, Repr, Inhabited

/-! Power, boot and host interface (15, 19). -/

/-- Reset lines, boot progress and package state (R493, R505–R513, R600). -/
structure Power where
  resetHeld : Bool
  perstHeld : Bool
  ready : Bool
  safe : Bool
  stage : Nat
  statusPins : Nat
  devReady : Bool
  devFault : Bool
  slot : Option Nat
  activePair : Nat
  standby : Bool
  pairsUnusable : List Nat
  runtimeDigest : Bytes
  configDigest : Bytes
  deriving DecidableEq, Repr, Inhabited

/-- A completion entry (R500) with its ring. -/
structure Completion where
  ring : Nat
  tag : Nat
  opcode : Nat
  outcome : Nat
  cause : Nat
  phase : Nat
  delay : Nat
  result : Bytes
  deriving DecidableEq, Repr, Inhabited

/-- One command ring (R498–R501). `sqTail` and `cqHead` are the host's doorbells. -/
structure Ring where
  sqHead : Nat
  sqTail : Nat
  cqHead : Nat
  cqTail : Nat
  phase : Nat
  err : Bool
  errCause : Nat
  unknown : List UnknownEntry
  deriving DecidableEq, Repr, Inhabited

/-- The host interface (R493, R497–R504): `unposted` are completions that wait for room, with whether each is without an
interrupt, `posted` the ones that are posted and `cqWritten` the bytes that this wrote into the completion rings, newest first;
`sent` the MSI-X vectors raised, newest first, `written` the device's other writes to host memory, `reply` the answer of the
last bus read, and the staged image, slot and runtime of an update (R520). -/
structure HostUnit where
  linkUp : Bool
  gen : Nat
  width : Nat
  flit : Bool
  attached : Bool
  outBase : Nat
  outSize : Nat
  epoch : Nat
  rings : List Ring
  unposted : List (Completion × Bool)
  posted : List Completion
  cqWritten : List (Nat × Bytes)
  vectorMask : Nat
  vectorPending : Nat
  sent : List Nat
  written : List (Nat × Bytes)
  reply : BusReply
  stagedImage : Option Image
  stagedSlot : Option Nat
  stagedRuntime : Option Component
  bootConfig : List BootRecord
  deriving DecidableEq, Repr, Inhabited

/-! The time engine (12). -/

/-- An output pulse programme (R417, R419): instants are start + k · period in 2⁻¹⁶ ns. -/
structure Pulse where
  start : Nat
  period : Nat
  widthNs : Nat
  clock : Nat
  next : Nat
  deriving DecidableEq, Repr, Inhabited

/-- One `TIME_OUT` pin: its programme, whether it pulses, the programmed width left and pulses emitted. -/
structure TimeOut where
  prog : Option Pulse
  high : Bool
  startedAt : Nat
  pulses : Nat
  deriving DecidableEq, Repr, Inhabited

/-- One `TIME_IN` pin: queued stamps with polarity (oldest first), the latched entry and the previous edge. -/
structure TimeIn where
  queue : List (Nat × Bool)
  latched : Nat
  lastEdge : Option Nat
  deriving DecidableEq, Repr, Inhabited

/-- The time engine (R392–R424): clocks in 2⁻⁴⁰ ns, the residual in the same unit, pending phase steps in 2⁻¹⁶ ns;
device time spent `LOCKED` without interruption in 2⁻⁴⁰ ns; ticks at the last Announce; domains that use LAN B (R412);
and a refused phase step that the run's end applies (R404). -/
structure TimeUnit where
  dom0 : Nat
  dom1 : Nat
  dev : Nat
  ticks : Nat
  adj0 : Int
  adj1 : Int
  residual : Int
  selected : Nat
  autoAway : Bool
  announce0 : Option Nat
  announce1 : Option Nat
  locked0 : Nat
  locked1 : Nat
  txts : List (List (Nat × Nat × Nat))
  tout : List TimeOut
  tin : List TimeIn
  ptpPending : List PtpExchange
  lanB : List Nat
  afterRun : Option (Nat × Int)
  deriving DecidableEq, Repr, Inhabited

/-! Memory tiers, groundsheets and lanterns (04, 14). -/

/-- Where a tile of object space lives (R459). -/
inductive TileLoc where
  | never
  | t3 (frame : Nat)
  | t4 (slot : Nat)
  | t2 (memory tile : Nat)
  deriving DecidableEq, Repr, Inhabited

/-- The tag of a tile but for its lantern fields (R145). -/
structure TileTag where
  validTime : Nat
  step : Nat
  owner : Nat
  producer : Nat
  deriving DecidableEq, Repr, Inhabited

/-- One allocated tile (R466); `home` is the T4 slot that holds a copy, `dest` the destination of a move. -/
structure Tile where
  index : Nat
  loc : TileLoc
  dirty : Bool
  home : Option Nat
  dest : Option TileLoc
  tag : TileTag
  deriving DecidableEq, Repr, Inhabited

/-- An allocated object (R460). -/
structure Obj where
  id : Nat
  cls : ObjClass
  policy : Policy
  tenant : Nat
  baseTile : Nat
  tiles : Nat
  pc : Nat
  deriving DecidableEq, Repr, Inhabited

/-- A T4 slot's directory entry (R475): its write counter and the tile it holds. -/
structure T4Slot where
  slot : Nat
  counter : Nat
  tile : Option Nat
  archive : Bool
  deriving DecidableEq, Repr, Inhabited

/-- A descriptor of a unit's region that waits for memory (R481, R485): the accesses it has to make, the occurrence it works for, the
tile awaited, and since when. -/
structure TierWait where
  region : Nat
  cadence : Nat
  step : Nat
  acc : List (Nat × Nat)
  tile : Nat
  since : Nat
  deriving DecidableEq, Repr, Inhabited

/-- The memory tiers (14): objects and tiles; quotas, and spills by tenant in the open and the last committed step; the
window's ranges, state (0 none, 1 granted, 2 withdrawing, 3 lost), slots and slots withdrawn; the base pseudo-channel,
identifier and tile for the next runtime object; corrected errors by row in the run; spare rows used, frames retired,
rows under repair; T4 tiles that failed their check, one entry per failure; the archive object; and `COLD` objects with
lost tiles. -/
structure Tiers where
  objects : List Obj
  tiles : List Tile
  quotas : List Quota
  spills : List (Nat × Nat)
  spillsLast : List (Nat × Nat)
  ranges : List (Nat × Nat)
  windowState : Nat
  slots : List T4Slot
  withdrawn : List Nat
  hostKey : Bytes
  nextPc : Nat
  nextId : Nat
  nextTile : Nat
  rowCounts : List (Nat × Nat)
  spareRows : List Nat
  retired : List Nat
  repairing : List Nat
  heldPcs : List (Nat × Nat)
  tierWaits : List TierWait
  refetched : List Nat
  withdraw : Option Withdrawal
  archiveObj : Option Nat
  lostCold : List Nat
  deriving DecidableEq, Repr, Inhabited

/-- The state of one lantern (R145, R150): `consumers` is `CONSUMERS` as the use's first write set it. -/
structure LanternState where
  index : Nat
  use : Nat
  phase : Nat
  consumers : Nat
  released : List Nat
  dirty : Bool
  tag : TileTag
  deriving DecidableEq, Repr, Inhabited

/-- A unit's lantern wait (R151, R156), the cadence whose work waits, and the device time of its issue, moved on by the
producer's stalls. -/
structure LanternWaiter where
  cadence : Nat
  unit : Nat
  lantern : Nat
  since : Nat
  deriving DecidableEq, Repr, Inhabited

/-- A lendable memory in which a window closed over dirty tiles (R162), and since when, for which occurrence, a descriptor of its
owner waits. -/
structure LentWait where
  memory : Nat
  since : Option (Nat × Nat × Nat)
  deriving DecidableEq, Repr, Inhabited

/-- Groundsheets, lanterns and lending (04): `open_` are the open windows, `lent` the memories with tiles left of closed windows,
`schedule` the schedule whose windows apply (R163), `frames` the frames in the frame rings (R167), newest first. -/
structure Sheets where
  lanterns : List LanternState
  waits : List LanternWaiter
  open_ : List LendWindow
  lent : List LentWait
  schedule : Nat
  frames : List FrameRec
  deriving DecidableEq, Repr, Inhabited

/-! Tensor arrays (03). -/

/-- A weight slice in the cells (R95–R97): rows of values or significands, the block exponents of each 32 rows by
column, and the columns' floors and NF bits (R108, R109). -/
structure Slice where
  fmt : Nat
  k : Nat
  n : Nat
  values : List (List Int)
  blocks : List (List Int)
  floors : List Int
  nf : List Bool
  deriving DecidableEq, Repr, Inhabited

/-- What a cadence's uncommitted work has counted on an array (R117, R138); cadence 0xFFFF stands for work that has committed
since the last `CADENCE_0` commit. -/
structure ArrayCount where
  cadence : Nat
  sat : Nat
  nonfin : Nat
  ops : Nat
  deriving DecidableEq, Repr, Inhabited

/-- A descriptor that its sequencer has not issued yet (R99), with the elements that a STAGE gathers. -/
structure ArrayJob where
  op : Nat
  desc : ArrayDesc
  gather : List (Option Nat)
  deriving DecidableEq, Repr, Inhabited

/-- One tensor array (R95–R99, R117): the slice; the 48-bit accumulator entries row by row, with what their group fixes
(signedness, 2f of a block-scaled product, floors and NF bits of rows and columns, products per entry); the 64-bit sums that
JOIN hands to the drain, with their NF flags; the failed columns; the counts of work; and the descriptors that wait, oldest
first. -/
structure ArrayUnit where
  slice : Option Slice
  accum : List (List Nat)
  signed : Bool
  frac : Nat
  rowFloors : List Int
  rowNf : List Bool
  colFloors : List Int
  colNf : List Bool
  kSum : Nat
  joined : Option (List (List Int))
  joinNf : List (List Bool)
  failedCols : List Nat
  counts : List ArrayCount
  queue : List ArrayJob
  deriving DecidableEq, Repr, Inhabited

/-- What an array keeps of a tensor that it has stored: the NF flags of 64-bit partials (R104, R112), and the saturations and
non-finite outputs in producing it (R117, R135). -/
structure TensorNote where
  base : Nat
  bytes : Nat
  nf : List (List Bool)
  sat : Nat
  nonfin : Nat
  deriving DecidableEq, Repr, Inhabited

/-! Faults (17). -/

/-- An error record (R556) in the queue, with the occurrences it affects and the tiles it destroyed. -/
structure ErrRec where
  seq : Nat
  time : Nat
  region : Nat
  kind : Nat
  cause : Nat
  address : Nat
  count : Nat
  detail : Bytes
  occs : List (Nat × Nat)
  lost : List Nat
  deriving DecidableEq, Repr, Inhabited

/-- An open recovery window (R557): the occurrences that must still commit. -/
structure Recovery where
  seq : Nat
  region : Nat
  occs : List (Nat × Nat)
  touchesPrivileged : Bool
  deriving DecidableEq, Repr, Inhabited

/-- The self-test in progress (R571–R573): its region, state (1 isolating, 2 testing, 3 returning), the command that
awaits its completion with the host attachment it came in, the step from which the unit may be isolated and, once it is,
the step of isolation; and whether it is the destructive test (R576). -/
structure Bist where
  region : Nat
  state : Nat
  command : Option (CritFrame × Nat)
  step : Nat
  full : Bool
  deriving DecidableEq, Repr, Inhabited

/-- Faults, recovery and self-test (17). `out` are the regions out of service, `unusable` those so since power-on; `groupsOut` the
groundsheet bank groups that have left service, as keys of `spares` (R144). -/
structure Faults where
  queue : List ErrRec
  nextSeq : Nat
  lostCount : Nat
  lostRegion : Nat
  windows : List Recovery
  out : List Nat
  unusable : List Nat
  returning : List Nat
  spares : List Nat
  groupsOut : List Nat
  schedule : Nat
  dieFloor : Bool
  floorFns : List Nat
  bist : Option Bist
  testing : List Nat
  cycleSteps : Nat
  cycleMask : Nat
  cycleAt : Nat
  cycleLast : Nat
  pllBad : List Nat
  pllFail : Nat
  ceSecond : Nat
  ceCount : Nat
  secRetest : Bool
  deriving DecidableEq, Repr, Inhabited

/-! Identity, roles and life-cycle (16). -/

/-- A command key (R533, R534): its role, identifier, key, the role's last accepted counter, the serial of the leaf
certificate and the digest of the root it was agreed under. -/
structure RoleKey where
  role : Nat
  id : Nat
  key : Bytes
  serial : Bytes
  root : Bytes
  deriving DecidableEq, Repr, Inhabited

/-- An accepted command that takes effect at a step edge (R539); `accepted` orders it, `due` is its step. -/
structure WaitingCmd where
  cmd : Instr
  frame : CritFrame
  due : Nat
  epoch : Nat
  deriving DecidableEq, Repr, Inhabited

/-- The security block (16). Life-cycle words, keys, certificate and serial are non-volatile. -/
structure Security where
  lcWords : List Nat
  identity : Option Nat
  storageKey : Option Bytes
  deviceCert : Option (List Cert)
  minVersion : Nat
  keys : List RoleKey
  counters : List Nat
  pendingRoot : Option Bytes
  site : SiteStore
  waiting : List WaitingCmd
  entropyOk : Bool
  selfTestOk : Bool
  quarantined : Bool
  jtag : JtagOp
  deriving DecidableEq, Repr, Inhabited

/-! Ports and tethers (13). -/

/-- A source node of a PRP pair (R430): its last frame, and the sequence numbers remembered with the time of their first
copy. -/
structure PrpNode where
  pair : Nat
  mac : Nat
  seen : Nat
  seqs : List (Nat × Nat)
  deriving DecidableEq, Repr, Inhabited

/-- A frame in the ingress buffer (R433): class 0 within contract, 1 over-contract Tether, 2 other; E_0 and E_1 at its arrival,
in ns (R215). -/
structure BufFrame where
  port : Nat
  cls : Nat
  arrival : Nat
  body : FrameBody
  vlan : Option Nat
  offsets : Int × Int
  deriving DecidableEq, Repr, Inhabited

/-- A frame the device has sent (R438, R428, R430, R413): port, VLAN (R429), tether slot, kind and bytes. -/
structure TxFrame where
  port : Nat
  vlan : Option Nat
  slot : Nat
  kind : Nat
  bytes : Bytes
  deriving DecidableEq, Repr, Inhabited

/-- One outcome waiting for an ACK (R443). -/
structure AckEntry where
  seq : Nat
  outcome : Nat
  cause : Nat
  part : Bool
  delay : Nat
  deriving DecidableEq, Repr, Inhabited

/-- A DATA frame in a delay queue (R451). -/
structure QueuedFrame where
  seq : Nat
  arrival : Nat
  urgent : Bool
  body : Bytes
  deriving DecidableEq, Repr, Inhabited

/-- A DATA frame whose parts are not all decided (R58, R443): parts still open, what the decided ones gave, its delay in
ns, whether it asks for an acknowledgement at once, and the bytes it holds in the quota (R59, R451). -/
structure OpenFrame where
  seq : Nat
  parts : Nat
  served : Bool
  causes : List Nat
  delay : Option Nat
  urgent : Bool
  hold : Nat
  deriving DecidableEq, Repr, Inhabited

/-- An image or point frame being assembled (R441, R442): the source's stamp, the ingress of its first packet and the arrival
of its last, fragments as offset and bytes, the delay of the last one that
a delay queue released, and the cause of a fragment shed at ingress. -/
structure Assembly where
  stream : Nat
  number : Nat
  source : Nat
  first : Nat
  arrival : Nat
  seqs : List Nat
  parts : List (Nat × Bytes)
  delay : Option Nat
  cause : Nat
  deriving DecidableEq, Repr, Inhabited

/-- A Tether session (R435–R451). `state` is 1 live, 2 closing; `port` and `vlan` those of its DECLARE; `rxSeen` the
accepted numbers in the window below `rxHigh` (R437); tokens in units of 2⁻¹⁶ tokens divided by one second in 2⁻¹⁶ ns, as
of `tokAt` (R450); `requests` the time exchanges under way with their t1 (R445); `theta` and `thetaNext` the clock offsets
of R216; the last two the frames shed and delayed in the current step (R455); `ahead` the bytes of raw inputs stamped ahead, each until the last close of its
occurrences (R59). -/
structure Session where
  slot : Nat
  entry : RosterEntry
  id : Nat
  key : Bytes
  cls : Nat
  timeSource : Nat
  ackMs : Nat
  rate : Nat
  burst : Nat
  pps : Nat
  burstPkts : Nat
  timeMs : Nat
  quota : Nat
  livenessS : Nat
  state : Nat
  reason : Nat
  port : Nat
  vlan : Option Nat
  rxHigh : Option Nat
  rxSeen : List Nat
  txSeq : Nat
  tokBytes : Nat
  tokPkts : Nat
  tokAt : Nat
  queue : List QueuedFrame
  served : Nat
  delayed : Nat
  shed : Nat
  refused : Nat
  acks : List AckEntry
  opened : List OpenFrame
  assembly : List Assembly
  nextExch : Nat
  requests : List (Nat × Nat)
  lastFrame : Nat
  edges : Nat
  sinceSync : Nat
  theta : Int
  thetaNext : Option Int
  stepShed : Nat
  stepDelayed : Nat
  ahead : List (Nat × Nat)
  deriving DecidableEq, Repr, Inhabited

/-- A live sampled-value tether (R449): its roster entry, its packet tokens (as a session's, R434), the frames already
received by second and `smpCnt` (R452), the admitted frames that no step has judged yet (first stamp, `smpSynch` ≠ 0),
and whether the frames of the last step held one that was not synchronised, and any at all (R217). -/
structure SvTether where
  entry : RosterEntry
  tokPkts : Nat
  tokAt : Nat
  seen : List (Nat × Nat)
  marks : List (Nat × Bool)
  badSync : Bool
  sync : Bool
  deriving DecidableEq, Repr, Inhabited

/-- Ports and tether sessions (13): PRP source nodes, the ingress buffer (oldest first), sessions (oldest first),
sampled-value tethers, frames sent (newest first), the last frame of each port, packets of the last second, and the frames
shed and delayed by slot in the last committed step. -/
structure Ports where
  nodes : List PrpNode
  ingress : List BufFrame
  sessions : List Session
  sv : List SvTether
  sent : List TxFrame
  lanSeen : List (Option Nat)
  recent : List Nat
  viewShed : List (Nat × Nat × Nat)
  deriving DecidableEq, Repr, Inhabited

/-! Fusion (06). -/

/-- A fusion stream's state in the running step (R216–R223, R234, R239–R241). Values are FP32 bit patterns; `history` is oldest
first. -/
structure FStream where
  history : List (Nat × List Nat)
  unaligned : Bool
  outlier : Bool
  outlierNext : Bool
  reinstate : Nat
  stale : Bool
  contested : Bool
  cause : Nat
  conf : Nat
  variances : List Nat
  value : Option (List Nat)
  deriving DecidableEq, Repr, Inhabited

/-- An ego entry's state (R225–R230): pose as unit quaternion w, x, y, z and translation, covariance (4, 3 and 36 FP64
values), the stamp of the pose, the earlier poses with their stamps (oldest first, the newest one included, at most four,
each quaternion and translation), and the previous lidar scan. -/
structure EgoState where
  quat : List Nat
  trans : List Nat
  cov : List Nat
  stamp : Nat
  history : List (Nat × List Nat)
  scan : List Nat
  held : Bool
  masked : Bool
  run : Nat
  deriving DecidableEq, Repr, Inhabited

/-- A function's rung on the degradation ladder (R243, R244). -/
structure Rung where
  level : Nat
  run : Nat
  deep : Nat
  floor : Nat
  deriving DecidableEq, Repr, Inhabited

/-- A stream's grid feature map of the step (R232): cells with 32 FP32 values each. -/
structure GridMap where
  stream : Nat
  cells : List (Nat × List Nat)
  deriving DecidableEq, Repr, Inhabited

/-- Bytes that the fusion engine writes under the lantern plan once its slots are free (R234, R236), with their step. -/
structure FusionWrite where
  addr : Nat
  bytes : Bytes
  step : Nat
  deriving DecidableEq, Repr, Inhabited

/-- The fusion engine (06). `align` is the alignment of each stream as of the last step edge; `gated`, `laddered` and `egoDone`
tell what the running step has done: its gates, its ladder, and its ego entries; `due` are writes that wait for a lantern, and
`gridSat` counts the saturations of the step's grid values (R233); `poseDue` are solved poses that the next step's work takes
(R229): entry, pose and covariance. -/
structure Fusion where
  streams : List FStream
  align : List AlignState
  egos : List EgoState
  rungs : List Rung
  maps : List GridMap
  contestedRegions : List Nat
  illPosed : Nat
  gated : Bool
  laddered : Bool
  egoDone : List Nat
  due : List FusionWrite
  gridSat : Nat
  poseDue : List (Nat × List Nat × List Nat)
  deriving DecidableEq, Repr, Inhabited

/-! Vision (05). -/

/-- A vision descriptor whose outputs are being stored (R203): the tiles still to store, their ring or address, the tag
values, and the completion summary that ends it. -/
structure VisionJob where
  engine : Nat
  ctx : DescCtx
  unit : Nat
  tiles : List Bytes
  stored : Nat
  ring : Nat
  address : Option Nat
  raise : Nat
  waited : List Nat
  summary : Bytes
  validTime : Nat
  step : Nat
  deriving DecidableEq, Repr, Inhabited

/-- What a cadence's uncommitted work has counted on a vision cluster (R210): output tiles by engine and the reserved-code
counts (5 flow, 5 stereo, dropped, skipped); cadence 0xFFFF as for an array. -/
structure VisionCount where
  cadence : Nat
  tiles : List Nat
  codes : List Nat
  deriving DecidableEq, Repr, Inhabited

/-- A vision descriptor that its engine has not issued yet (R203). -/
structure VisionWait where
  engine : Nat
  op : Nat
  desc : VisionDesc
  deriving DecidableEq, Repr, Inhabited

/-- A vision cluster (R210): descriptors done by engine in the current step, the counts of work, the jobs that wait for a
lantern, and the descriptors that wait to be issued, oldest first. -/
structure VisionUnit where
  done : List Nat
  counts : List VisionCount
  jobs : List VisionJob
  queue : List VisionWait
  deriving DecidableEq, Repr, Inhabited

/-! The track engine (07). -/

/-- A track (R256): FP64 values as bit patterns, `p` the upper triangle of the covariance row by row. -/
structure Track where
  slot : Nat
  id : Nat
  state : Nat
  cls : Nat
  model : Nat
  n : Nat
  region : Nat
  flags : Nat
  hits : Nat
  missRun : Nat
  birth : Nat
  time : Nat
  lastDet : Nat
  x : List Nat
  p : List Nat
  ms : List Nat
  deriving DecidableEq, Repr, Inhabited

/-- What one region's step counted (R267). -/
structure TrackStats where
  region : Nat
  births : Nat
  deletions : Nat
  dropped : Nat
  masked : Nat
  refused : Nat
  faults : Nat
  updates : Nat
  blind : Bool
  deriving DecidableEq, Repr, Inhabited

/-- The track engine: the committed table, the new versions of the running occurrence, the next identifier, the counts
of the step, which set of tiles is committed (R256), and the highest slot used. -/
structure TrackUnit where
  committed : List Track
  work : Option (List Track)
  nextId : Nat
  stats : List TrackStats
  set : Nat
  high : Nat
  deriving DecidableEq, Repr, Inhabited

/-! Similarity search (10). -/

/-- A stored vector (R333) with its list (R337). -/
structure VecEntry where
  id : Nat
  tag : Nat
  epochIn : Nat
  epochDel : Nat
  list : Nat
  loaded : Bool
  vec : List Nat
  deriving DecidableEq, Repr, Inhabited

/-- What a host command that has taken effect brings to the next commit (R341). -/
inductive HostChange where
  | insert (items : List (Nat × List Nat)) (reply : Nat)
  | delete (ids : List Nat) (reply : Nat)
  | load (records : List (Nat × Nat × List Nat))
  deriving DecidableEq, Repr, Inhabited

/-- A host change that waits for the next commit, with its frame and the host attachment it came in. -/
structure HostOp where
  frame : CritFrame
  epoch : Nat
  change : HostChange
  deriving DecidableEq, Repr, Inhabited

/-- A collection (R330–R346): `state` 1 usable, 2 unloaded, 3 unusable; entries by ascending identifier; the epoch that
the last merge point covers; whether a merge runs; and the lists probed, by occurrence of the epoch source, newest
first (R470). -/
structure Collection where
  state : Nat
  epoch : Nat
  entries : List VecEntry
  nextId : Nat
  merged : Nat
  merging : Bool
  hostOps : List HostOp
  probes : List (List Nat)
  hot : List Nat
  deriving DecidableEq, Repr, Inhabited

/-- A host read request in the queue (R353): its command, the host attachment and device time of its arrival. -/
structure HostQuery where
  cmd : Instr
  tenant : Nat
  epoch : Nat
  arrival : Nat
  deriving DecidableEq, Repr, Inhabited

/-- The answer of a compiled batch that is marked for output (R356). -/
structure MatchOut where
  cadence : Nat
  step : Nat
  stream : Nat
  coll : Nat
  k : Nat
  served : Bool
  header : Bytes
  queries : List Bytes
  deriving DecidableEq, Repr, Inhabited

/-- The similarity search engine (10), and the commits that wait for a background merge with the time each began (R345). -/
structure SearchUnit where
  colls : List Collection
  queue : List HostQuery
  outs : List MatchOut
  waitCommits : List (Instr × Option Nat)
  deriving DecidableEq, Repr, Inhabited

/-! The incremental solver (09). -/

/-- A block (R308, R309): key, linearisation value, Δ, standard deviations (FP32) and whether an ill-posed solve left it
dirty. -/
structure SolBlock where
  key : Nat
  theta : List Nat
  delta : List Nat
  sd : List Nat
  dirty : Bool
  deriving DecidableEq, Repr, Inhabited

/-- A stored contribution (R312): its blocks, the upper triangle row by row, and the right-hand side. -/
structure SolFactor where
  id : Nat
  type : Nat
  keys : List Nat
  h : List Nat
  rhs : List Nat
  deriving DecidableEq, Repr, Inhabited

/-- A supernode (R317): its blocks, separator blocks, the columns of L below the diagonal, the pivots d', which of them
were regularised, the update matrix, the forward-solve values of its columns and rows, and the separator Δ of the last
backward solve that entered it. -/
structure SolNode where
  blocks : List Nat
  rows : List Nat
  l : List (List Nat)
  d : List Nat
  reg : List Bool
  upd : List (List Nat)
  y : List Nat
  up : List Nat
  sep : List Nat
  deriving DecidableEq, Repr, Inhabited

/-- One solution entry (R326). -/
structure SolEntry where
  key : Nat
  regularised : Bool
  pos : List Nat
  quat : List Nat
  sd : List Nat
  deriving DecidableEq, Repr, Inhabited

/-- The result of a submission (R326). -/
structure SolveResult where
  status : Nat
  cause : Nat
  regs : List (Nat × Nat)
  entries : List SolEntry
  epoch : Nat
  maxDiag : Nat
  flops : Nat
  supernodes : Nat
  reordered : Bool
  deriving DecidableEq, Repr, Inhabited

/-- The solver: the elimination order, blocks, contributions, supernodes, the occurrence that last submitted, and the
result of its submission until the occurrence commits. -/
structure SolverUnit where
  order : List Nat
  blocks : List SolBlock
  factors : List SolFactor
  nodes : List SolNode
  submitted : Option Nat
  result : Option SolveResult
  deriving DecidableEq, Repr, Inhabited

/-! The map engine (08). -/

/-- A closure entry of an occurrence (R301): result 0 accepted, 1 failed, 2 withdrawn. -/
structure Closure where
  result : Nat
  kfA : Nat
  kfB : Nat
  inliers : Nat
  m : Nat
  factor : Nat
  trans : List Nat
  quat : List Nat
  deriving DecidableEq, Repr, Inhabited

/-- What the running mapping occurrence has done: entries inserted and refused, vectors of its keyframes, closures,
keyframes skipped beyond 64 closures, whether MERGE ran, and the submission header (count, epoch, reorder, address). -/
structure MapWork where
  kfs : Nat
  lms : Nat
  facs : Nat
  refused : Nat
  vectors : List (Nat × List Nat)
  closures : List Closure
  skipped : Nat
  merged : Bool
  header : Option (Nat × Nat × Bool × Nat)
  deriving DecidableEq, Repr, Inhabited

/-- The map (R277–R288): live and deleted entries with their epochs, the committed epoch E, the next identifiers, the
epoch the last merge covers, the peg tables by the epoch from which they hold (newest first) and those in force at step
edges of mapping occurrences (R275), and the running occurrence's work. -/
structure MapUnit where
  keyframes : List Keyframe
  landmarks : List Landmark
  factors : List MapFactor
  epoch : Nat
  nextKf : Nat
  nextLm : Nat
  nextFac : Nat
  merged : Nat
  pegs : List (Nat × List Peg)
  pegEdges : List (Nat × List Peg)
  work : MapWork
  deriving DecidableEq, Repr, Inhabited

/-- A host request in an engine's queue, with the host attachment it came in (R269, R303). -/
structure HostReq where
  cmd : Instr
  epoch : Nat
  deriving DecidableEq, Repr, Inhabited

/-! Signal chains (11). -/

/-- A sample in a chain: its 28-bit value, validity and arrival (R55, R364, R370). -/
structure Samp where
  value : Int
  valid : Bool
  arrival : Nat
  deriving DecidableEq, Repr, Inhabited

/-- A delay line: the index of its first input since the channel's start, and its last inputs, newest first (R371). -/
structure DelayLine where
  lo : Option Nat
  hist : List Samp
  deriving DecidableEq, Repr, Inhabited

/-- The committed settings of a glint detector (R383, R390). -/
structure GlintCfg where
  level : Int
  hyst : Nat
  minDur : Nat
  below : Bool
  abs : Bool
  en : Bool
  deriving DecidableEq, Repr, Inhabited

/-- A glint detector (R383, R384): the settings in force, those committed and not yet in force with the instant they
follow, its state (0 IDLE, 1 PENDING, 2 ACTIVE), and the run, first stamp, peak and outputs counted since `first`. -/
structure Detector where
  cfg : GlintCfg
  queue : List (Nat × GlintCfg)
  state : Nat
  run : Nat
  first : Nat
  peak : Int
  count : Nat
  deriving DecidableEq, Repr, Inhabited

/-- An output sample (R372, R375, R377), the cadences it is admitted to (R56) and whether it has fed fusion (R382). -/
structure ChanOut where
  index : Nat
  stamp : Nat
  y : Int
  valid : Bool
  arrival : Nat
  gen : Nat
  anchor : Nat
  admitted : List Nat
  fed : Bool
  deriving DecidableEq, Repr, Inhabited

/-- A channel (R368–R377). `gen` counts its starts; `seq0` is the sequence number of sample 0, `next` the next raw index
to enter, `held` the raw samples that wait for it, `missed` the indices declared missing; `clears` the kind 3 CLEARs that the next anchor decides (detector,
duration, peak); `closed` the instant up to which each cadence has closed; `counts` the saturations and invalid outputs
frozen at `CADENCE_0` closes by step, and `last` those of the last committed step. -/
structure Channel where
  index : Nat
  gen : Nat
  anchor : Option Nat
  seq0 : Nat
  next : Nat
  held : List (Nat × Samp)
  missed : List Nat
  stages : List DelayLine
  res : DelayLine
  accum : Nat
  resNext : Nat
  nextOut : Option Nat
  outs : List ChanOut
  dets : List Detector
  clears : List (Nat × Nat × Int)
  closed : List (Nat × Nat)
  shed : Bool
  sat : Nat
  invalid : Nat
  counts : List (Nat × Nat × Nat)
  last : Nat × Nat
  deriving DecidableEq, Repr, Inhabited

/-- A glint event (R384–R386): the `CADENCE_0` occurrence it belongs to, that of its deciding sample's stamp, and its
entry. -/
structure GlintEvent where
  occ : Nat
  decided : Nat
  stamp : Nat
  channel : Nat
  detector : Nat
  kind : Nat
  peak : Int
  duration : Nat
  deriving DecidableEq, Repr, Inhabited

/-- A raw input whose samples have not all entered their channels (R86): for each channel its start and last index. -/
structure RawHold where
  input : Input
  waits : List (Nat × Nat × Nat)
  deriving DecidableEq, Repr, Inhabited

/-- The signal-chain lanes (11): channels, lanes without output, raw inputs to log and events to report. -/
structure SignalUnit where
  chans : List Channel
  lanesOut : List Nat
  raw : List RawHold
  events : List GlintEvent
  deriving DecidableEq, Repr, Inhabited

/-! Event counters (18). -/

/-- One event counter (R581–R584) of a die that has been selected or counts: its settings, value and overflow bit. -/
structure Counter where
  die : Nat
  k : Nat
  event : Nat
  instNo : Nat
  level : Bool
  sat : Bool
  value : Nat
  ovf : Bool
  deriving DecidableEq, Repr, Inhabited


/-! Checkpoints. -/

/-- The checkpoint of an occurrence (R76): the lanterns and the objects its work modifies as at its admission close, the
lanterns that its work has changed since (R150), and the bytes its stores have replaced since, newest first. -/
structure Checkpoint where
  cadence : Nat
  step : Nat
  lanterns : List LanternState
  touched : List Nat
  undo : List (Nat × Bytes)
  fusion : Fusion
  track : TrackUnit
  solver : SolverUnit
  map : MapUnit
  deriving DecidableEq, Repr, Inhabited

/-- The state of the device. `shadowed` are the registers whose class S fields were written since the last commit (R10);
`anchors` are the row anchors recorded beside tensors (R110), `tensors` what arrays keep of the tensors they store;
`answers` by block the fabric clock cycle of the answer that its STATUS register holds (R39); `free` counts the free values drawn so far (the model's own, see assumption 5). -/
structure State where
  pending : List Instr
  free : Nat
  regs : List (Nat × Word)
  active : List (Nat × Word)
  shadowed : List Nat
  latches : List (Nat × Word)
  heldLo : List (Nat × Word)
  mem : List Host.Cell
  power : Power
  flash : Flash
  steps : Steps
  trail : Trail
  out : Outputs
  host : HostUnit
  time : TimeUnit
  tiers : Tiers
  sheets : Sheets
  arrays : List ArrayUnit
  faults : Faults
  sec : Security
  ports : Ports
  fusion : Fusion
  vision : List VisionUnit
  checkpoints : List Checkpoint
  track : TrackUnit
  search : SearchUnit
  solver : SolverUnit
  map : MapUnit
  mapQueue : List HostReq
  trackQueue : List HostReq
  signal : SignalUnit
  counters : List Counter
  anchors : List AnchorTable
  tensors : List TensorNote
  answers : List (Nat × Nat)
  deriving DecidableEq, Repr, Inhabited

/-! Reset (R36, R506, R600, R606). -/

/-- A tensor array with empty cells and accumulators. -/
def ArrayUnit.fresh : ArrayUnit := ⟨none, [], false, 0, [], [], [], [], 0, none, [], [], [], []⟩

/-- A vision cluster that has done nothing. -/
def VisionUnit.fresh : VisionUnit := ⟨[0, 0, 0, 0], [], [], []⟩

/-- A command ring: its first pass has `PHASE` 1 (R500). -/
def Ring.fresh : Ring := ⟨0, 0, 0, 0, 1, false, 0, []⟩

/-- The first identifier and the first tile of runtime objects (R460). -/
def firstRuntimeId : Nat := 0x80000000
def firstRuntimeTile : Nat := 0x0C000000

/-- The device right after reset: `RESET_N` held, status pins 0, `DEV_READY` low and `DEV_FAULT_N` released (R606), every
register at its reset value, no run, no image, no window and no session. The life-cycle word array holds FAB, as from
manufacture (R541), and the flash an empty readable descriptor (assumption 23). -/
def State.reset : State :=
  { pending := [], free := 0, regs := [], active := [], shadowed := [], latches := [], heldLo := [], mem := []
    power := {
      resetHeld := true, perstHeld := false, ready := false, safe := false, stage := 0, statusPins := 0, devReady := false
      devFault := false, slot := none, activePair := 0, standby := false, pairsUnusable := [], runtimeDigest := []
      configDigest := [] }
    flash := {
      descriptorOk := true, ref25 := false, repairLog := [], slotA := none, slotB := none, siteA := none, siteB := none }
    steps := {
      run := none, runDue := none, image := none, occs := [], inputs := [], seen := [], stats := [], late := []
      draws := [], imageStart := false, switch := none, endRun := false, fusedStep := none, verdicts := []
      openSums := [], toFeed := [], calEdges := [] }
    trail := {
      records := [], nextSeq := 0, digest := List.replicate 48 0, write := 0, read := 0, hold := false
      archiveHold := false, sealHold := false, lowSpace := false, waiting := [], gapSteps := [], lostSteps := []
      gapInputs := 0, gapOutputs := 0, firstSeq := 0, preRun := [], preRunLost := 0, restartSignal := false
      archiveWaiting := [], ringHold := false, preWaiting := [] }
    out := { buffer := [], delivered := [], seqs := [], stopped := [] }
    host := {
      linkUp := false, gen := 0, width := 0, flit := false, attached := false, outBase := 0, outSize := 0, epoch := 0
      rings := List.replicate 16 Ring.fresh, unposted := [], posted := [], cqWritten := [], vectorMask := 2 ^ 64 - 1, vectorPending := 0
      sent := [], written := [], reply := .none, stagedImage := none, stagedSlot := none, stagedRuntime := none
      bootConfig := [] }
    time := {
      dom0 := 0, dom1 := 0, dev := 0, ticks := 0, adj0 := 0, adj1 := 0, residual := 0, selected := 0, autoAway := false
      announce0 := none, announce1 := none, locked0 := 0, locked1 := 0, txts := List.replicate 4 []
      tout := List.replicate 4 ⟨none, false, 0, 0⟩, tin := List.replicate 4 ⟨[], 0, none⟩, ptpPending := [], lanB := []
      afterRun := none }
    tiers := {
      objects := [], tiles := [], quotas := [], spills := [], spillsLast := [], ranges := [], windowState := 0
      slots := [], withdrawn := [], hostKey := [], nextPc := 0, nextId := firstRuntimeId, nextTile := firstRuntimeTile
      rowCounts := [], spareRows := [], retired := [], repairing := [], heldPcs := [], tierWaits := []
      refetched := [], withdraw := none
      archiveObj := none, lostCold := [] }
    sheets := { lanterns := [], waits := [], open_ := [], lent := [], schedule := 0xF, frames := [] }
    arrays := List.replicate 4 ArrayUnit.fresh
    faults := {
      queue := [], nextSeq := 0, lostCount := 0, lostRegion := 0, windows := [], out := [], unusable := [], returning := []
      spares := [], groupsOut := [], schedule := 0xF, dieFloor := false, floorFns := [], bist := none, testing := [], cycleSteps := 0
      cycleMask := 0, cycleAt := 0, cycleLast := 0, pllBad := [], pllFail := 0, ceSecond := 0, ceCount := 0
      secRetest := false }
    sec := {
      lcWords := [0], identity := none, storageKey := none, deviceCert := none, minVersion := 0, keys := []
      counters := [0, 0, 0], pendingRoot := none, site := default, waiting := [], entropyOk := false, selfTestOk := false
      quarantined := false, jtag := .bypass }
    ports := {
      nodes := [], ingress := [], sessions := [], sv := [], sent := [], lanSeen := List.replicate 4 none, recent := []
      viewShed := [] }
    fusion := {
      streams := [], align := [], egos := [], rungs := List.replicate 5 ⟨0, 0, 0, 0⟩, maps := [], contestedRegions := []
      illPosed := 0, gated := false, laddered := false, egoDone := [], due := [], gridSat := 0, poseDue := [] }
    vision := List.replicate 2 VisionUnit.fresh
    checkpoints := []
    track := { committed := [], work := none, nextId := 1, stats := [], set := 0, high := 0 }
    search := { colls := [], queue := [], outs := [], waitCommits := [] }
    solver := { order := [], blocks := [], factors := [], nodes := [], submitted := none, result := none }
    map := {
      keyframes := [], landmarks := [], factors := [], epoch := 0, nextKf := 0, nextLm := 0, nextFac := 0, merged := 0
      pegs := [], pegEdges := [], work := default }
    mapQueue := [], trackQueue := []
    signal := { chans := [], lanesOut := [], raw := [], events := [] }
    counters := [], anchors := [], tensors := [], answers := [] }

end Sys2Proof.Machine
end

