-- ==== Sys2Proof/Machine/Regs.lean ====
section
/-! DEFINITION. The register file: one home for every register value, reads, writes and field updates (R6–R12, R36,
R37), and the answers a block reports (R38, R39). -/

namespace Sys2Proof.Machine

/-! Time. One unit is 2⁻¹⁶ ns. -/

def nsUnits : Nat := 65536
def usUnits : Nat := 65536000
def msUnits : Nat := 65536000000
def secUnits : Nat := 65536000000000

/-- A clock of 2⁻⁴⁰ ns (R392) as full time in 2⁻¹⁶ ns; the sub-fraction is not readable. -/
def full (c : Nat) : Nat := c / 2 ^ 24

/-- Device time now, as full time. -/
def State.now (s : State) : Nat := full s.time.dev

/-- The register map of BAR0. -/
def regTable : List RegRow :=
  regsHost ++ regsSteps ++ regsSecurity ++ regsTime ++ regsMemory ++ regsGs ++ regsArray ++ regsFault ++ regsPorts ++ regsFusion ++
    regsVision ++ regsTrack ++ regsMap ++ regsSolver ++ regsSearch ++ regsSignal ++
    regsCounters ++ regsPackage

/-- Whether `off` is an instance of a row. -/
def instHas (base : Nat) : List (Nat × Nat) → Nat → Bool
  | [], off => off == base
  | (n, s) :: rest, off =>
    if off < base then false
    else
      let i := min ((off - base) / s) (n - 1)
      instHas base rest (off - i * s)

/-- The row of an offset. -/
def findReg (off : Nat) : Option RegRow := regTable.find? (fun r => instHas r.base r.insts off)

/-- The word a field contributes at reset. -/
def fieldsReset (fs : List RegField) : Nat := fs.foldl (fun a f => a + f.reset * 2 ^ f.lo) 0

/-- The reset value of the register at an offset; 0 where no register is defined (R36). -/
def regReset (off : Nat) : Word :=
  match findReg off with
  | some r => BitVec.ofNat 32 (fieldsReset r.fields)
  | none => 0

/-- The mask of a register's fields that satisfy `p`. -/
def fieldMask (p : RegField → Bool) (fs : List RegField) : Nat :=
  fs.foldl (fun m f => if p f then m ||| ((2 ^ f.width - 1) <<< f.lo) else m) 0

/-- A register field. -/
structure Fld where
  off : Nat
  lo : Nat
  width : Nat
  deriving DecidableEq, Repr

/-- The value a register holds (its shadow, for class S fields). -/
def State.reg (s : State) (off : Nat) : Nat := (sparseGet regReset off s.regs).toNat

/-- The active value of a register's class S fields (R10). -/
def State.activeReg (s : State) (off : Nat) : Nat := (sparseGet regReset off s.active).toNat

def State.setReg (s : State) (off v : Nat) : State :=
  { s with regs := sparseSet regReset off (BitVec.ofNat 32 v) s.regs }

def State.setActive (s : State) (off v : Nat) : State :=
  { s with active := sparseSet regReset off (BitVec.ofNat 32 v) s.active }

def State.fld (s : State) (f : Fld) : Nat := bitsOf (s.reg f.off) f.lo f.width

/-- The active value of a class S field. -/
def State.activeFld (s : State) (f : Fld) : Nat := bitsOf (s.activeReg f.off) f.lo f.width

def State.setFld (s : State) (f : Fld) (v : Nat) : State := s.setReg f.off (putBits (s.reg f.off) f.lo f.width v)

/-- A field increased by `n`, saturating at its largest value. -/
def State.satFld (s : State) (f : Fld) (n : Nat) : State := s.setFld f (min (s.fld f + n) (2 ^ f.width - 1))

/-- A 32-bit count increased by `n`, saturating. -/
def State.satReg (s : State) (off n : Nat) : State := s.setReg off (min (s.reg off + n) (2 ^ 32 - 1))

/-- The value of a 64-bit pair at its `_LO` offset (R6). -/
def State.reg64 (s : State) (off : Nat) : Nat := s.reg off + s.reg (off + 4) * 2 ^ 32

def State.setReg64 (s : State) (off v : Nat) : State := (s.setReg off v).setReg (off + 4) (v / 2 ^ 32)

/-- A 64-bit count increased by `n`, wrapping. -/
def State.addReg64 (s : State) (off n : Nat) : State := s.setReg64 off ((s.reg64 off + n) % 2 ^ 64)

/-- The low half that a write of `_HI` commits (R6): the held value, else the current one for an RW pair, else 0. -/
def State.loForCommit (s : State) (off : Nat) (rw : Bool) : Nat :=
  match lookupKey off s.heldLo with
  | some w => w.toNat
  | none => if rw then s.reg off else 0

/-- The held low half is consumed by a commit (R6). -/
def State.consumeLo (s : State) (off : Nat) : State := { s with heldLo := dropKey off s.heldLo }

/-- A counter's value after `n` events, with its overflow bit (R584). -/
def Counter.add (c : Counter) (n : Nat) : Counter :=
  if c.value + n < 2 ^ 48 then { c with value := c.value + n }
  else { c with value := if c.sat then 2 ^ 48 - 1 else (c.value + n) % 2 ^ 48, ovf := true }

/-- `n` events raised on a die (R581, R582, R588); a lost die raises none (R585). -/
def State.count (s : State) (die event inst n : Nat) : State :=
  let upd (c : Counter) : Counter :=
    if c.die = die ∧ c.event = event ∧ c.instNo = inst then c.add n else c
  if n = 0 ∨ s.faults.out.contains (0xA000 + die) then s else { s with counters := s.counters.map upd }

/-- A read is answered with a word. -/
def State.replyWith (s : State) (w : Nat) : State := { s with host := { s.host with reply := .data w } }

/-- Raising MSI-X vector `v`: sent, or left pending while masked (R493, R497). -/
def State.msix (s : State) (v : Nat) : State :=
  if bitAt s.host.vectorMask v then { s with host := { s.host with vectorPending := s.host.vectorPending ||| 2 ^ v } }
  else { s with host := { s.host with sent := v :: s.host.sent } }

/-- An event flag is set, and its vector is raised when `enabled` (R497). -/
def State.event (s : State) (off bit : Nat) (enabled : Bool) (vec : Nat) : State :=
  let s := s.setReg off (s.reg off ||| 2 ^ bit)
  if enabled then s.msix vec else s

/-- The order of causes (R33): a lower rank is reported first. -/
def causeRank (c : Nat) : Nat :=
  match [0x0C, 0x06, 0x07, 0x08, 0x09, 0x10, 0x0A, 0x0F, 0x0D, 0x05, 0x02, 0x01, 0x03, 0x0B, 0x0E, 0x04].findIdx?
      (fun x => x == c) with
  | some i => i
  | none => if c = 0 then 1000 else 100 + c

/-- The cause reported when several apply (R33); none of them is 0x00. -/
def pickCause : List Nat → Nat
  | [] => 0
  | c :: cs => cs.foldl (fun a b => if causeRank b < causeRank a then b else a) c

/-- The answer of a block that answers several requests together (R39): a non-Served outcome over Served, then the
higher outcome code, then the cause ranked first. -/
def pickAnswer : List (Nat × Nat) → Nat × Nat
  | [] => (0, 0)
  | x :: xs => xs.foldl (fun a b =>
      if a.1 < b.1 then b else if b.1 < a.1 then a
      else if causeRank b.2 < causeRank a.2 then b else a) x

/-- The fabric clock cycle of the present instant: 1 ns (R39, R594). -/
def State.cycle (s : State) : Nat := s.now / nsUnits

/-- The pair that a STATUS register holds once its block has answered: of the answers of one fabric clock cycle the first in the
order of R39, else the latest. `lo` and `hi` are the places of outcome and cause. -/
def State.keptAnswer (s : State) (block lo hi outcome cause : Nat) : Nat × Nat :=
  let new := (outcome % 4, cause % 256)
  if lookupKey block s.answers = some s.cycle then
    pickAnswer [(s.fld ⟨block, lo, 2⟩, s.fld ⟨block, hi, 8⟩), new]
  else new

/-- A block answers (R39). -/
def State.answerAt (s : State) (block lo hi outcome cause : Nat) : State :=
  let a := s.keptAnswer block lo hi outcome cause
  let s := { s with answers := putKey block s.cycle s.answers }
  (s.setFld ⟨block, lo, 2⟩ a.1).setFld ⟨block, hi, 8⟩ a.2

/-- The block of R35 reports an answer in its common STATUS register (R38, R39). -/
def State.answer (s : State) (block outcome cause : Nat) : State := s.answerAt block 4 8 outcome cause

/-- SECURITY and FAULT report at [9:8] and [23:16] (R552, R579). -/
def State.answerHi (s : State) (block outcome cause : Nat) : State := s.answerAt block 8 16 outcome cause

/-! Outcomes of R30. -/

def served : Nat := 0
def delayed : Nat := 1
def shed : Nat := 2
def refused : Nat := 3

/-! Blocks of R35 with a common STATUS register, in order, as mirrored by `PENDING_BLOCKS` (R524). -/

def blockTime : Nat := 0x300000
def blockPorts : Nat := 0x400000
def blockSignal : Nat := 0x500000
def blockMemory : Nat := 0x600000
def blockArray (n : Nat) : Nat := 0x800000 + n * 0x40000
def blockVision (v : Nat) : Nat := 0x900000 + v * 0x80000
def blockFusion : Nat := 0xA00000
def blockMap : Nat := 0xB00000
def blockSolver : Nat := 0xC00000
def blockSearch : Nat := 0xD00000
def blockSecurity : Nat := 0x200000
def blockFault : Nat := 0xE00000

/-- The blocks of R35 in order: first offset, last offset, and whether each has a common STATUS register. -/
def blockTable : List (Nat × Nat × Bool) :=
  [(0, 0xFFFFF, false), (0x100000, 0x1FFFFF, false), (0x200000, 0x2FFFFF, false), (0x300000, 0x3FFFFF, true),
   (0x400000, 0x4FFFFF, true), (0x500000, 0x5FFFFF, true), (0x600000, 0x7FFFFF, true), (0x800000, 0x83FFFF, true),
   (0x840000, 0x87FFFF, true), (0x880000, 0x8BFFFF, true), (0x8C0000, 0x8FFFFF, true), (0x900000, 0x97FFFF, true),
   (0x980000, 0x9FFFFF, true), (0xA00000, 0xAFFFFF, true), (0xB00000, 0xBFFFFF, true), (0xC00000, 0xCFFFFF, true),
   (0xD00000, 0xDFFFFF, true), (0xE00000, 0xEFFFFF, false), (0xF00000, 0xFFFFFF, false)]

/-- Class S fields of the register at `off`. -/
def shadowMask (off : Nat) : Nat :=
  match findReg off with
  | some r => fieldMask (fun f => f.cls == .stepLatched) r.fields
  | none => 0

/-- Whether a shadow of the block at [first, last] differs from its active value (R10). -/
def State.pendingIn (s : State) (first last : Nat) : Bool :=
  let differs (off : Nat) : Bool :=
    decide (first ≤ off ∧ off ≤ last) &&
      (s.reg off &&& shadowMask off != s.activeReg off &&& shadowMask off)
  s.regs.any (fun p => differs p.1) || s.active.any (fun p => differs p.1)

end Sys2Proof.Machine
end

