-- ==== Sys2Proof/Machine/Ops.lean ====
section
/-! DEFINITION. The shared operations: device time, memory, the trail (R81–R90, R614), output records (R40–R44, R503),
completions (R500, R501) and the answers of commands. -/

namespace Sys2Proof.Machine

/-- Full time laid out as in `STEP_INSTANT` (R40, R396). -/
def fullTimeBytes (t : Nat) : Bytes :=
  leBytes 2 (t % 65536) ++ leBytes 4 (t / 65536 % 1000000000) ++ leBytes 6 (t / secUnits)

/-- Compact time (R396), truncated. -/
def compact (t : Nat) : Nat := t / 65536 % 2 ^ 64

/-- The next free value (assumption 5). -/
def State.draw (s : State) : Nat × State := (Config.freeNat s.free, { s with free := s.free + 1 })

/-! Memory: what an unlisted address reads as, and bytes of the unified range. -/

/-- An unlisted byte reads 0x00 (DESIGN CHOICE, assumption 8). -/
def memReset (_ : Nat) : Byte := 0

abbrev Memory := List Host.Cell

def Memory.get (m : Memory) (a : Nat) : Byte := sparseGet memReset a m

def Memory.set (m : Memory) (a : Nat) (b : Byte) : Memory := sparseSet memReset a b m

/-- The canonical form of memory. -/
def Memory.wf (m : Memory) : Bool := sparseWf memReset m

/-- Bytes written from address `a` upward. -/
def Memory.setBytes (m : Memory) (a : Nat) : Bytes → Memory
  | [] => m
  | b :: bs => Memory.setBytes (m.set a b) (a + 1) bs

/-- `n` bytes read from address `a` upward. -/
def Memory.getBytes (m : Memory) (a n : Nat) : Bytes := (List.range n).map (fun i => m.get (a + i))

/-- Memory with [a, a + n) unlisted. -/
def Memory.clear (m : Memory) (a n : Nat) : Memory := m.filter (fun c => decide (c.1 < a ∨ a + n ≤ c.1))

def tileBytes : Nat := 32768

def gsBase (g : Nat) : Nat := 0x080000000000 + g * 0x4000000
def gsSlots (g : Nat) : Nat := if g = 2 then 3072 else 2048
def packBase (a : Nat) : Nat := 0x080010000000 + a * 0x800000
def packBytes : Nat := 0x800000
def lineBase (v e : Nat) : Nat := 0x080012000000 + v * 0x1000000 + e * 0x400000
def lineBytes (e : Nat) : Nat := if e < 2 then 0x300000 else 0x100000

/-- First address past object space (R457). -/
def objectSpaceEnd : Nat := 0x080000000000

/-- Whether an address lies in one of the apertures (R457). -/
def inAperture (a : Nat) : Bool :=
  (List.range 3).any (fun g => decide (gsBase g ≤ a ∧ a < gsBase g + gsSlots g * tileBytes)) ||
  (List.range 4).any (fun n => decide (packBase n ≤ a ∧ a < packBase n + packBytes)) ||
  (List.range 8).any (fun i => decide (lineBase (i / 4) (i % 4) ≤ a ∧ a < lineBase (i / 4) (i % 4) + lineBytes (i % 4)))

/-- The object whose tiles hold an address of object space. -/
def State.objectAt (s : State) (a : Nat) : Option Obj :=
  s.tiers.objects.find? (fun o => decide (o.baseTile * tileBytes ≤ a ∧ a < (o.baseTile + o.tiles) * tileBytes))

/-- Whether every byte of [a, a + n) is mapped (R458). -/
def State.mapped (s : State) (a n : Nat) : Bool :=
  let last := a + (if n = 0 then 0 else n - 1)
  (inAperture a && inAperture last && decide (last < 2 ^ 48)) ||
    match s.objectAt a with
    | some o => decide (last < (o.baseTile + o.tiles) * tileBytes)
    | none => false

def State.tileAt (s : State) (t : Nat) : Option Tile := s.tiers.tiles.find? (fun x => x.index == t)

/-- Pseudo-channels in service, lowest first (R464). -/
def State.pcsIn (s : State) : List Nat :=
  (List.range 32).filter (fun p => !s.faults.out.contains (0x3000 + p))

def Tile.frame? (t : Tile) : Option Nat :=
  match t.loc with
  | .t3 f => some f
  | _ => none

/-- The lowest free frame of a pseudo-channel from frame `p + 32 j` on (R464). -/
def freeFrameFrom (used : List Nat) (p : Nat) : Nat → Nat → Nat
  | 0, j => p + 32 * j
  | fuel + 1, j => if used.contains (p + 32 * j) then freeFrameFrom used p fuel (j + 1) else p + 32 * j

/-- The T3 frame a tile of an object takes (R464). -/
def State.pickFrame (s : State) (o : Obj) (tile : Nat) : Nat :=
  let pcs := s.pcsIn
  let p := pcs.getD ((o.pc + (tile - o.baseTile)) % max pcs.length 1) 0
  let used := s.tiers.tiles.filterMap Tile.frame? ++ s.tiers.retired
  freeFrameFrom used p (used.length + 1) 0

/-- A tile after a write: dirty, without an identical T4 copy, and placed in T3 if it was nowhere or only in T4
(R147, R466, R467). -/
def State.touchTile (s : State) (t : Nat) : State :=
  match s.tileAt t with
  | none => s
  | some x =>
    let loc :=
      match x.loc with
      | .t3 f => TileLoc.t3 f
      | .t2 m k => TileLoc.t2 m k
      | _ =>
        match s.objectAt (t * tileBytes) with
        | some o => TileLoc.t3 (s.pickFrame o t)
        | none => x.loc
    let x' := { x with loc := loc, dirty := true, home := none, dest := none }
    { s with tiers := { s.tiers with
        tiles := s.tiers.tiles.map (fun y => if y.index == t then x' else y)
        slots := s.tiers.slots.map (fun y => if y.tile == some t then { y with tile := none } else y) } }

/-- Every object tile that [a, a + n) touches is marked written. -/
def State.touchRange (s : State) (a n : Nat) : State :=
  if n = 0 ∨ objectSpaceEnd ≤ a then s
  else
    let t0 := a / tileBytes
    (List.range ((a + n - 1) / tileBytes - t0 + 1)).foldl (fun s i => s.touchTile (t0 + i)) s

/-- Bytes stored at a unified address. -/
def State.store (s : State) (a : Nat) (bs : Bytes) : State :=
  let s := { s with mem := Memory.setBytes s.mem a bs }
  s.touchRange a bs.length

/-- `n` bytes at a unified address. -/
def State.load (s : State) (a n : Nat) : Bytes := Memory.getBytes s.mem a n

/-- A device write to host memory by DMA (replies, exports). -/
def State.hostWrite (s : State) (a : Nat) (bs : Bytes) : State :=
  { s with host := { s.host with written := (a, bs) :: s.host.written } }

/-! The run. -/

def State.inRun (s : State) : Bool := s.steps.run.isSome

/-- The number of the most recent step edge; 0 before the first (R87, R93). -/
def State.stepNow (s : State) : Nat :=
  match s.steps.run with
  | some r => r.edges - 1
  | none => 0

/-- The step of the next step edge, m + 1 (R59). -/
def State.nextStep (s : State) : Nat :=
  match s.steps.run with
  | some r => r.edges
  | none => 0

/-- Tₛ(n) (R48). -/
def Run.instant (r : Run) (n : Nat) : Nat := r.t0 + n * r.base

/-- A step from the last edge passed whose cadence-occurrence holds a stamp (R46, R47); `none` where no occurrence
of the run does. -/
def Run.occurrenceOf (r : Run) (c : CadenceDecl) (t : Nat) : Option Nat :=
  let d : Int := (t : Int) - r.t0
  let m : Int := -((-d) / (r.base : Int))
  let k := m + ((c.phase : Int) - m) % (c.multiple : Int)
  if k < 0 then none else some k.toNat

/-- A(n) = Tₛ(n) + W (R52). -/
def Run.close (r : Run) (c : CadenceDecl) (n : Nat) : Nat := r.instant n + c.settleUs * usUnits

def State.cadences (s : State) : List CadenceDecl := (s.steps.image.map (·.cadences)).getD []

def State.baseUs (s : State) : Nat := (s.steps.image.map (·.baseUs)).getD 0

/-! The trail. -/

/-- Kinds of trail records (R84). -/
def kRunStart : Nat := 0x1
def kInput : Nat := 0x2
def kExcluded : Nat := 0x3
def kCommand : Nat := 0x4
def kConfigCommit : Nat := 0x5
def kLevelChange : Nat := 0x6
def kFault : Nat := 0x7
def kRecovery : Nat := 0x8
def kStall : Nat := 0x9
def kSkip : Nat := 0xA
def kOutput : Nat := 0xB
def kImageSwitch : Nat := 0xC
def kDomainSwitch : Nat := 0xD
def kTrailGap : Nat := 0xE
def kSeal : Nat := 0xF

/-- The stored bytes of a record: 88-byte header and padded body (R81). -/
def recBytes (seq : Nat) (prev : Bytes) (d : TrailDraft) : Bytes :=
  leBytes 8 seq ++ leBytes 2 d.kind ++ leBytes 1 d.outcome ++ leBytes 1 d.cause ++ leBytes 4 d.body.length ++
    leBytes 8 d.step ++ fullTimeBytes d.time ++ leBytes 4 0 ++ fitBytes 48 prev ++ padTo 8 d.body

def recSize (d : TrailDraft) : Nat := 88 + (d.body.length + 7) / 8 * 8

/-- Bytes of the trail ring (R93). -/
def State.ringBytes (s : State) : Nat := s.fld ⟨0x10028, 0, 16⟩ * 2 ^ 20

/-- The free space of a ring (R89): equal pointers mean an empty ring. -/
def ringFree (n write read : Nat) : Nat := if write = read then n else (read + n - write) % n

def State.trailFree (s : State) : Nat := ringFree s.ringBytes s.trail.write s.trail.read

/-- The body of a SEAL written now, at sequence number `seq` after a record of digest `prev` (R87): the signature is
the identity key's over SHA-384 of RUN_ID ‖ TRAIL_SEQ ‖ SIGNED_DIGEST, with a free per-signature secret. -/
def State.sealBody (s : State) : Bytes :=
  let rid := (s.steps.run.map (·.id)).getD []
  let dg := sha384 (fitBytes 16 rid ++ leBytes 8 s.trail.nextSeq ++ fitBytes 48 s.trail.digest)
  let k := 1 + Config.freeNat s.free % (p384N - 1)
  let rs := ecdsaSign (s.sec.identity.getD 0) k dg
  fitBytes 16 rid ++ leBytes 8 s.trail.firstSeq ++ fitBytes 48 s.trail.digest ++ leBytes 48 rs.1 ++ leBytes 48 rs.2

/-- The record as it is written now: a SEAL's body and step are formed at that moment (R87). -/
def State.finishDraft (s : State) (d : TrailDraft) : TrailDraft :=
  if d.kind = kSeal then { d with body := s.sealBody, step := s.stepNow, time := s.now } else d

/-- A record appended to the ring when it fits with at least 8 bytes free after it (R89). -/
def State.trailAppend (s : State) (d : TrailDraft) : Option State :=
  let d := s.finishDraft d
  if recSize d + 8 ≤ s.trailFree then
    let n := s.ringBytes
    let tr := s.trail
    let s := { s with
      free := if d.kind = kSeal then s.free + 1 else s.free
      trail := { tr with
        records := ⟨tr.nextSeq, tr.write, tr.digest, d⟩ :: tr.records
        nextSeq := tr.nextSeq + 1
        digest := sha384 (recBytes tr.nextSeq tr.digest d)
        write := (tr.write + recSize d) % n
        firstSeq := if d.kind = kSeal then tr.nextSeq + 1 else tr.firstSeq } }
    if s.trailFree * 8 < n ∧ !s.trail.lowSpace then
      some (({ s with trail := { s.trail with lowSpace := true } }).msix 1)
    else some s
  else none

def sealDraft : TrailDraft := ⟨kSeal, 0, 0, 0, 0, []⟩

/-- Whether a SEAL falls due before the next record (R87). -/
def State.sealDue (s : State) : Bool := s.trail.nextSeq % 1024 == 1023

/-- The trail holds compiled work (R89, R479, R563). -/
def State.held (s : State) : Bool := s.trail.hold

/-- HOLD is set and the trail vector raised (R89, R497). -/
def State.setHold (s : State) : State :=
  if s.trail.hold then s else ({ s with trail := { s.trail with hold := true } }).msix 1

/-- The last record written is a SEAL (R87). -/
def State.lastSeal (s : State) : Bool :=
  match s.trail.records with
  | r :: _ => r.draft.kind == kSeal
  | [] => false

/-- Drafts that cannot be written now wait under HOLD; `forSeal` tells that it is a SEAL for want of the security block. -/
def State.holdDrafts (s : State) (ds : List TrailDraft) (forSeal : Bool) : State :=
  ({ s with trail := { s.trail with
      waiting := ds, sealHold := s.trail.sealHold || forSeal, ringHold := s.trail.ringHold || !forSeal } }).setHold

/-- Drafts written in order until one does not fit or a SEAL must wait for the security block; what is left waits under
HOLD (R89, R563). A SEAL among the drafts is that of an orderly stop: it ends the run, so no due SEAL follows it, and it is
not written after another SEAL (R87). -/
def State.trailPump : Nat → State → List TrailDraft → State
  | 0, s, ds => { s with trail := { s.trail with waiting := ds } }
  | fuel + 1, s, ds =>
    let stop := match ds with | d :: _ => d.kind == kSeal | [] => false
    let due := s.sealDue && !stop
    if !due && (ds.isEmpty || (stop && s.lastSeal)) then { s with trail := { s.trail with waiting := [] } }
    else if (due || stop) && s.sec.quarantined then s.holdDrafts ds true
    else
      match s.trailAppend (if due then sealDraft else ds.headD sealDraft) with
      | none => s.holdDrafts ds false
      | some s =>
        if stop then { s with trail := { s.trail with waiting := ds.tail } }
        else State.trailPump fuel s (if due then ds else ds.tail)

/-- A record the device must write: held in the pre-run buffer while no run is in progress (R614), waiting while HOLD
is set, and written otherwise. -/
def State.trailWrite (s : State) (d : TrailDraft) : State :=
  if !s.inRun then
    if s.trail.preRun.length < 4096 then
      { s with trail := { s.trail with preRun := s.trail.preRun ++ [{ d with step := 0, time := s.now }] } }
    else { s with trail := { s.trail with preRunLost := s.trail.preRunLost + 1 } }
  else if s.trail.hold then { s with trail := { s.trail with waiting := s.trail.waiting ++ [d] } }
  else s.trailPump 4 [d]

/-- A record of a kind whose TIME is the device time of writing (R82). -/
def State.record (s : State) (kind outcome cause step : Nat) (body : Bytes) : State :=
  s.trailWrite ⟨kind, outcome, cause, step, s.now, body⟩

/-- The sequence number the `k`-th record from now will carry, counting the SEALs between (R87). -/
def seqAfter : Nat → Nat → Nat
  | 0, n => if n % 1024 = 1023 then n + 1 else n
  | k + 1, n => seqAfter k ((if n % 1024 = 1023 then n + 1 else n) + 1)

/-- `TRAIL_SEQ` of the next record the device writes, after those that wait. -/
def State.nextTrailSeq (s : State) : Nat := seqAfter s.trail.waiting.length s.trail.nextSeq

/-- A STALL record and its counts (R68, R93). -/
def State.countStall (s : State) (st : Stall) : State :=
  let j := st.cause - 1
  let s := s.addReg64 (0x10210 + 16 * j) 1
  let s := s.addReg64 (0x10218 + 16 * j) st.ns
  let s := st.dies.foldl (fun s d => (s.count d 0x61 st.cause 1).count d 0x60 st.cause st.ns) s
  s.record kStall 0 0 st.step
    (leBytes 1 st.cause ++ leBytes 1 st.cadence ++ leBytes 2 0 ++ leBytes 2 st.tenant ++ leBytes 2 0 ++ leBytes 8 st.ns)

/-! Per-step counts of the step summary (R91). -/

def freshStats (n : Nat) : StepStats := ⟨n, 0, 0, 0, 0, 0, 0, 0⟩

def State.statsOf (s : State) (n : Nat) : StepStats :=
  (s.steps.stats.find? (fun x => x.step == n)).getD (freshStats n)

/-- The step whose summary counts what belongs to step `n`: `n` while its summary is to come, else the next step whose
summary is (DESIGN CHOICE, assumption 74). -/
def State.countStep (s : State) (n : Nat) : Nat :=
  let edge := s.nextStep
  if edge ≤ n ∨ s.steps.openSums.contains n then n
  else (s.steps.openSums.filter (fun m => decide (n < m))).foldl min edge

def State.updStats (s : State) (n : Nat) (f : StepStats → StepStats) : State :=
  let m := s.countStep n
  let x := f (s.statsOf m)
  { s with steps := { s.steps with stats := x :: s.steps.stats.filter (fun y => y.step != m) } }

/-! Output records. -/

/-- The header of an output record (R40). -/
def outHeader (o : OutRec) : Bytes :=
  leBytes 2 o.recordType ++ leBytes 1 o.function ++ leBytes 1 1 ++ leBytes 4 o.payload.length ++ leBytes 8 o.step ++
    fullTimeBytes o.instant ++ leBytes 4 o.flags ++ leBytes 2 o.confidence ++ leBytes 2 o.tenant ++
    leBytes 2 o.stream ++ leBytes 2 0 ++ leBytes 8 o.seq ++ leBytes 8 o.trailRef ++ leBytes 4 o.image ++ leBytes 4 0

def outSize (o : OutRec) : Nat := 64 + (o.payload.length + 7) / 8 * 8

/-- An output record as the host reads it: its header and its payload with the zero padding of R40. -/
def outBytes (o : OutRec) : Bytes := outHeader o ++ padTo 8 o.payload

def bufferUsed (rs : List OutRec) : Nat := (rs.map outSize).foldl (· + ·) 0

/-- Bytes copied into the host's output ring at offset `w`, wrapping at its end. -/
def State.ringWrite (s : State) (w : Nat) (bs : Bytes) : State :=
  let n := s.host.outSize
  let s := s.hostWrite (s.host.outBase + w) (bs.take (n - w))
  if n - w < bs.length then s.hostWrite s.host.outBase (bs.drop (n - w)) else s

/-- Records copied into the host's output ring while it has room and their trail records are written (R43, R503). -/
def State.deliverFrom : Nat → State → State × Bool
  | 0, s => (s, false)
  | fuel + 1, s =>
    match s.out.buffer with
    | [] => (s, false)
    | o :: rest =>
      let w := s.reg 0x10001C
      let r := s.reg 0x100020
      if s.host.attached ∧ (o.logged ∨ o.trailRef < s.trail.nextSeq) ∧ outSize o + 8 ≤ ringFree s.host.outSize w r then
        let s := s.ringWrite w (outBytes o)
        let s := { s with out := { s.out with buffer := rest, delivered := o :: s.out.delivered } }
        let s := s.setReg 0x10001C ((w + outSize o) % s.host.outSize)
        ((State.deliverFrom fuel s).1, true)
      else (s, false)

/-- Delivery, with vector 2 when records were copied (R503). -/
def State.deliver (s : State) : State :=
  let r := State.deliverFrom s.out.buffer.length s
  if r.2 ∧ r.1.fld ⟨0x100004, 4, 1⟩ = 1 then r.1.msix 2 else r.1

/-- One output record produced at a commit (R40–R44): its `STREAM_SEQ` and `TRAIL_REF` are assigned, its OUTPUT trail
record written, and it enters the output buffer or is discarded when the buffer is full. -/
def State.emitOutput (s : State) (o : OutRec) : State :=
  let seq := (lookupKey o.stream s.out.seqs).getD 0
  let o := { o with seq := seq, trailRef := s.nextTrailSeq, image := (s.steps.image.map (·.id)).getD 0 }
  let s := { s with out := { s.out with seqs := putKey o.stream (seq + 1) s.out.seqs } }
  let s := s.trailWrite ⟨kOutput, 0, 0, o.step, o.instant, outHeader o ++ sha384 o.payload⟩
  if bufferUsed s.out.buffer + outSize o ≤ s.fld ⟨0x10002C, 0, 16⟩ * 2 ^ 20 then
    { s with out := { s.out with buffer := s.out.buffer ++ [o] } }
  else
    (s.addReg64 0x100024 1).event 0x100008 2 false 0

/-! Command rings and completions. -/

def State.ring (s : State) (r : Nat) : Ring := s.host.rings.getD r default

def State.setRing (s : State) (r : Nat) (x : Ring) : State :=
  { s with host := { s.host with rings := s.host.rings.set r x } }

def ringReg (r k : Nat) : Nat := 0x101000 + 0x40 * r + k

/-- Entries of a ring: 2^k with k clamped to 4..12 (R498, R524). -/
def State.sqEntries (s : State) (r : Nat) : Nat := 2 ^ (min 12 (max 4 (s.fld ⟨ringReg r 0x10, 0, 4⟩)))
def State.cqEntries (s : State) (r : Nat) : Nat := 2 ^ (min 12 (max 4 (s.fld ⟨ringReg r 0x10, 4, 4⟩)))

def State.ringEnabled (s : State) (r : Nat) : Bool := s.fld ⟨ringReg r 0x14, 0, 1⟩ == 1

/-- A completion ring with no free entry (R501). -/
def State.cqFull (s : State) (r : Nat) : Bool :=
  (s.ring r).cqTail + 1 == (s.ring r).cqHead || (decide ((s.ring r).cqTail + 1 = s.cqEntries r) && (s.ring r).cqHead == 0)

/-- The 64 bytes of a completion entry (R500). -/
def Completion.bytes (c : Completion) : Bytes :=
  leBytes 4 c.tag ++ leBytes 2 c.opcode ++ leBytes 1 c.outcome ++ leBytes 1 c.cause ++ leBytes 1 c.phase ++ leBytes 3 0 ++
    leBytes 4 (min c.delay (2 ^ 32 - 1)) ++ fitBytes 48 c.result

/-- The host address of entry `i` of a ring's completion ring (R498, R524). -/
def State.cqAddr (s : State) (r i : Nat) : Nat := s.reg64 (ringReg r 8) + 64 * i

/-- A completion entry written into its ring, with its interrupt (R498, R500, R497); it waits while the completion ring is
full, and a ring that is not enabled takes none (assumption 56). -/
def State.post (s : State) (c : Completion) (quiet : Bool) : State :=
  if !s.ringEnabled c.ring then s
  else if s.cqFull c.ring then { s with host := { s.host with unposted := s.host.unposted ++ [(c, quiet)] } }
  else
    let r := s.ring c.ring
    let tail := (r.cqTail + 1) % s.cqEntries c.ring
    let c := { c with phase := r.phase }
    let s := s.setRing c.ring { r with cqTail := tail, phase := if tail = 0 then 1 - r.phase else r.phase }
    let s := { s with host := { s.host with
      posted := c :: s.host.posted, cqWritten := (s.cqAddr c.ring r.cqTail, c.bytes) :: s.host.cqWritten } }
    if quiet then s else s.msix (18 + c.ring)

/-- The completion of a command (R500). -/
def State.complete (s : State) (h : CmdHdr) (opcode outcome cause delay : Nat) (result : Bytes) : State :=
  s.post ⟨h.ring.val, h.tag.toNat, opcode, outcome, cause, 0, delay, fitBytes 48 result⟩ (h.flags.getLsbD 2)

/-- A completion of a command that was taken in host attachment epoch `e`: none is posted after a reset (R493). -/
def State.completeIn (s : State) (e : Nat) (h : CmdHdr) (opcode outcome cause delay : Nat) (result : Bytes) : State :=
  if s.host.epoch = e then s.complete h opcode outcome cause delay result else s

/-- Whether the host interface takes commands: the runtime is ready and the device is not in a safe state (R505, R506). -/
def State.up (s : State) : Bool := s.power.ready && !s.power.safe && !s.power.resetHeld

/-- Whether the runtime answers reads of BAR0: also in a safe state (R506). -/
def State.readable (s : State) : Bool := s.power.ready && !s.power.resetHeld

/-- Whether the device can take an entry from a ring now (R501). -/
def State.ringReady (s : State) (r : Nat) : Bool :=
  s.up && s.host.linkUp && s.ringEnabled r && !(s.ring r).err && (s.ring r).sqHead != (s.ring r).sqTail && !s.cqFull r

/-- The ring in error (R501): a completion Refused with cause 0x0C, ERR, and the ring stops. -/
def State.ringError (s : State) (r tag opcode : Nat) : State :=
  let s := s.post ⟨r, tag, opcode, refused, 0x0C, 0, 0, fitBytes 48 []⟩ false
  let s := s.setRing r { s.ring r with err := true, errCause := 0x0C }
  s.event 0x100008 1 false 0

/-- Entries with unknown opcodes at the head of a ring are completed Refused, cause 0x0C (R501). -/
def State.skipUnknown : Nat → State → Nat → State
  | 0, s, _ => s
  | fuel + 1, s, r =>
    if !s.ringReady r then s
    else
      match (s.ring r).unknown.find? (fun u => u.place == (s.ring r).sqHead) with
      | none => s
      | some u =>
        let s := s.setRing r { s.ring r with
          sqHead := ((s.ring r).sqHead + 1) % s.sqEntries r, unknown := (s.ring r).unknown.filter (fun x => x != u) }
        if u.flags.toNat / 8 ≠ 0 then s.ringError r u.tag.toNat u.opcode.toNat
        else
          State.skipUnknown fuel (s.post ⟨r, u.tag.toNat, u.opcode.toNat, refused, 0x0C, 0, 0, fitBytes 48 []⟩
            (u.flags.getLsbD 2)) r

/-- A ring goes on after its doorbells, its enable or its reset. -/
def State.serveRing (s : State) (r : Nat) : State := State.skipUnknown (s.ring r).unknown.length s r

/-- What taking a command gives: nothing to take, a ring error, or the entry taken with its flags judged. -/
inductive Taken where
  | nothing
  | stopped (s : State)
  | refusedAtOnce (s : State)
  | taken (s : State)

/-- An entry fetched from its ring (R499, R501, R502). -/
def State.take (s : State) (h : CmdHdr) (opcode : Nat) (critical : Bool) : Taken :=
  let r := h.ring.val
  if !s.ringReady r then .nothing
  else
    let s := s.setRing r { s.ring r with sqHead := ((s.ring r).sqHead + 1) % s.sqEntries r }
    if h.flags.toNat / 8 ≠ 0 ∨ (h.flags.getLsbD 1 ∧ !h.bodyReadable) then
      .stopped (s.ringError r h.tag.toNat opcode)
    else if h.flags.getLsbD 0 ≠ critical then
      .refusedAtOnce ((s.complete h opcode refused 0x0C 0 []).serveRing r)
    else .taken (s.serveRing r)

/-- A non-critical command: taken, then served by `f`. -/
def State.hostCommand (s : State) (h : CmdHdr) (opcode : Nat) (f : State → State) : State :=
  match s.take h opcode false with
  | .nothing => s
  | .stopped s => s
  | .refusedAtOnce s => s
  | .taken s => f s

/-! The outcome of a critical command (R535, R538, R552). -/

/-- Bytes 0x00 to 0x1F + p of a frame. -/
def frameBytes (f : CritFrame) : Bytes :=
  leBytes 1 f.role.toNat ++ leBytes 1 f.version.toNat ++ leBytes 2 f.opcode.toNat ++ leBytes 4 f.keyId.toNat ++
    leBytes 8 f.counter.toNat ++ leBytes 8 f.effectStep.toNat ++ leBytes 2 f.paramBytes.toNat ++ leBytes 6 f.reserved.toNat ++
    f.params

def secEvents : Nat := 0x200008
def State.secEvent (s : State) (bit : Nat) : State := s.setReg secEvents (s.reg secEvents ||| 2 ^ bit)

/-! Answers (R38, R39, R552). -/

/-- Who reports a critical command's answer: the security block, the fault block or the search block, which counts its refused
host requests (R351, R360). -/
def State.answerCritical (s : State) (op outcome cause : Nat) : State :=
  if 0x0180 ≤ op ∧ op ≤ 0x01BF then s.answerHi blockFault outcome cause
  else if 0x0043 ≤ op ∧ op ≤ 0x0045 then
    (if outcome = refused then s.satReg 0xD00054 1 else s).answer blockSearch outcome cause
  else s.answerHi blockSecurity outcome cause

/-- The COMMAND record (R84, R538): the frame as received, of which a record's body takes at most 4,096 bytes (R81; what
becomes of a longer frame is the model's choice, assumption 73). -/
def State.commandRecord (s : State) (f : CritFrame) (outcome cause step : Nat) : State :=
  s.record kCommand outcome cause step ((frameBytes f ++ f.check).take 4096)

/-- The outcome of a command: COMMAND record, answer, counts and events (R538, R552). -/
def State.noteCritical (s : State) (f : CritFrame) (op outcome cause step : Nat) : State :=
  let s := s.commandRecord f outcome cause step
  let s := if outcome = refused then s.satReg 0x200044 1 else s.satReg 0x200040 1
  let s := if outcome ≠ refused ∧ s.inRun then s.updStats step (fun x => { x with commands := x.commands + 1 }) else s
  let s := match cause with
    | 0x06 => s.secEvent 0
    | 0x07 => s.secEvent 1
    | 0x08 => s.secEvent 2
    | 0x09 => s.secEvent 3
    | _ => s
  s.answerCritical op outcome cause

/-- The result of a command given in the host attachment `ep`: noted and completed. -/
def State.endCritical (s : State) (f : CritFrame) (op ep outcome cause delay step : Nat) (result : Bytes) : State :=
  (s.noteCritical f op outcome cause step).completeIn ep f.hdr op outcome cause delay result

end Sys2Proof.Machine
end

