-- ==== Sys2Proof/Machine/Sheets.lean ====
section
/-! DEFINITION. Groundsheets, lanterns and lent memory: the operations that every engine shares (R145–R163), stores of
compiled work under its checkpoint (R76), and the restoring of a checkpoint (R79). -/

namespace Sys2Proof.Machine

def noLantern : Nat := 0xFFFF

def lanternSheet (idx : Nat) : Nat := bitsOf idx 12 2
def lanternSlot (idx : Nat) : Nat := idx % 4096

/-- A lantern index that is not malformed (R148); 0xFFFF names no lantern. -/
def lanternOk (idx : Nat) : Bool :=
  idx == noLantern || (decide (idx < 0x3000) && decide (lanternSlot idx < gsSlots (lanternSheet idx)))

/-- The die of a lantern's groundsheet, and a groundsheet's bank groups (R140). -/
def sheetDieOf (idx : Nat) : Nat := lanternSheet idx + 1
def sheetGroups (g : Nat) : Nat := if g = 2 then 6 else 4

/-- The first address of a lantern's tile. -/
def lanternAddr (idx : Nat) : Nat := gsBase (lanternSheet idx) + lanternSlot idx * tileBytes

/-- The lantern index of the groundsheet tile that holds an address. -/
def lanternAt (a : Nat) : Option Nat :=
  ((List.range 3).find? (fun g => decide (gsBase g ≤ a ∧ a < gsBase g + gsSlots g * tileBytes))).map
    (fun g => g * 4096 + (a - gsBase g) / tileBytes)

def State.lantern (s : State) (idx : Nat) : LanternState :=
  (s.sheets.lanterns.find? (fun l => l.index == idx)).getD { (default : LanternState) with index := idx }

def State.setLantern (s : State) (l : LanternState) : State :=
  { s with sheets := { s.sheets with
      lanterns := insertSorted (fun a b => decide (a.index ≤ b.index)) l
        (s.sheets.lanterns.filter (fun x => x.index != l.index)) } }

/-- The uses of a slot in the active image's plan, in order (R149). -/
def State.planUses (s : State) (idx : Nat) : List LanternUse :=
  match s.steps.image with
  | none => []
  | some img => ((img.plan.find? (fun p => p.lantern == idx)).map (·.uses)).getD []

/-- The current use of a slot; the plan repeats (R149). -/
def State.useOf (s : State) (idx : Nat) : Option LanternUse :=
  let us := s.planUses idx
  us[(s.lantern idx).use % max 1 us.length]?

def lit : Nat := 2
def filling : Nat := 1
def unlit : Nat := 0

/-- `CONSUMERS` of a use (R149): 0 for a held one. -/
def consumerCount (u : LanternUse) : Nat := if u.held then 0 else u.units.length

/-- A lantern wait by a unit can be granted (R151). -/
def State.waitGranted (s : State) (unit idx : Nat) : Bool :=
  let l := s.lantern idx
  match s.useOf idx with
  | none => false
  | some u =>
    if l.phase = lit then u.units.contains unit && (u.held || !l.released.contains unit)
    else decide (l.phase = unlit) && u.producer == unit

/-- A unit's wait, for work of cadence `k`, is issued and recorded until it is granted (R151, R156). -/
def State.issueWait (s : State) (k unit idx : Nat) : State :=
  if s.sheets.waits.any (fun w => w.unit == unit && w.lantern == idx) then s
  else { s with sheets := { s.sheets with waits := s.sheets.waits ++ [⟨k, unit, idx, s.now⟩] } }

/-- The groundsheet slots whose tiles the bytes [a, a + n) touch. -/
def slotsIn (a n : Nat) : List Nat :=
  match lanternAt a with
  | none => []
  | some i0 => if n = 0 then [] else (List.range (ceilDiv (a % tileBytes + n) tileBytes)).map (fun i => i0 + i)

/-- A unit may read a slot's tile: it is `LIT`, for a held use that lists it, or for a counted use of which it is a consumer that
waited on the slot and has not released it (R153, R155). -/
def State.mayReadSlot (s : State) (unit : Nat) (waited : List Nat) (idx : Nat) : Bool :=
  (s.lantern idx).phase == lit &&
    match s.useOf idx with
    | some u => u.units.contains unit && (u.held || (waited.contains idx && !(s.lantern idx).released.contains unit))
    | none => false

/-- A unit may write a slot's tile: it is the producer of the current use, and the tile is not `LIT` (R153, R155). -/
def State.mayWriteSlot (s : State) (unit idx : Nat) : Bool :=
  (s.lantern idx).phase != lit && (match s.useOf idx with | some u => u.producer == unit | none => false)

/-- The first slot that the accesses of a descriptor, which waited on the lanterns `waited`, break R153 at. -/
def State.orderBroken (s : State) (unit : Nat) (waited : List Nat) (reads writes : List (Nat × Nat)) : Option Nat :=
  ((reads.flatMap (fun r => slotsIn r.1 r.2)).find? (fun i => !s.mayReadSlot unit waited i)).orElse
    (fun _ => (writes.flatMap (fun r => slotsIn r.1 r.2)).find? (fun i => !s.mayWriteSlot unit i))

/-- A stall of `ns` that ends now, of the occurrence of cadence `k` that produces the awaited use, does not count for the watchdog:
the part of it that lies after the wait's issue (R156). -/
def State.pauseWatchdogs (s : State) (k ns : Nat) : State :=
  let upd (w : LanternWaiter) : LanternWaiter :=
    match s.useOf w.lantern with
    | some u => if u.cadence = k then { w with since := w.since + min (ns * nsUnits) (s.now - w.since) } else w
    | none => w
  { s with sheets := { s.sheets with waits := s.sheets.waits.map upd } }

/-- A stall that has ended: counted, and not counted by the watchdogs (R68, R156, R481). -/
def State.endStall (s : State) (st : Stall) : State := (s.countStall st).pauseWatchdogs st.cadence st.ns

def State.dropWait (s : State) (unit idx : Nat) : State :=
  { s with sheets := { s.sheets with waits := s.sheets.waits.filter (fun w => !(w.unit == unit && w.lantern == idx)) } }

/-- A descriptor's wait, of cadence `k`: granted now, or issued and left waiting. -/
def State.await (s : State) (k unit idx : Nat) : State × Bool :=
  if idx = noLantern then (s, true)
  else if s.waitGranted unit idx then (s.dropWait unit idx, true)
  else (s.issueWait k unit idx, false)

/-- The work of cadence `k` has changed a lantern, which its re-execution puts back (R150). -/
def State.touchLantern (s : State) (k idx : Nat) : State :=
  let add (c : Checkpoint) : Checkpoint :=
    if c.cadence = k ∧ !c.touched.contains idx then { c with touched := idx :: c.touched } else c
  { s with checkpoints := s.checkpoints.map add }

/-- First write by the producer of the current use: `UNLIT` to `FILLING`, with `CONSUMERS` from the plan and `RELEASED` 0 (R150). -/
def State.fillLantern (s : State) (unit idx : Nat) : State :=
  let l := s.lantern idx
  match s.useOf idx with
  | some u =>
    if l.phase = unlit ∧ u.producer = unit then
      (s.setLantern { l with phase := filling, consumers := consumerCount u, released := [] }).touchLantern u.cadence idx
    else s
  | none => s

/-- `FILLING` to `LIT` with the tag's values (R150). -/
def State.raiseLantern (s : State) (unit idx validTime step : Nat) : State :=
  let l := s.lantern idx
  match s.useOf idx with
  | some u =>
    if l.phase = filling ∧ u.producer = unit then
      ((s.setLantern { l with phase := lit, tag := ⟨validTime, step, u.owner, unit⟩ }).touchLantern u.cadence idx).count (sheetDieOf idx) 0x33
        (lanternSlot idx % sheetGroups (lanternSheet idx)) 1
    else s
  | none => s

/-- `UNLIT` with the use advanced to the next plan entry; `RELEASED` stands until the next first write (R150). -/
def State.advanceLantern (s : State) (idx : Nat) : State :=
  let l := s.lantern idx
  s.setLantern { l with phase := unlit, use := (l.use + 1) % max 1 (s.planUses idx).length }

/-- A consumer that completes its descriptor, of cadence `k`, releases the tile (R150). -/
def State.releaseLantern (s : State) (k unit idx : Nat) : State :=
  let l := s.lantern idx
  match s.useOf idx with
  | some u =>
    if l.phase = lit ∧ !u.held ∧ u.units.contains unit ∧ !l.released.contains unit then
      let s := (s.setLantern { l with released := unit :: l.released }).touchLantern k idx
      if l.released.length + 1 = u.units.length then s.advanceLantern idx else s
    else s
  | none => s

/-- Lanterns of held uses that occurrence (k, n) produced become `UNLIT` at its commit (R150). -/
def State.commitLanterns (s : State) (k n : Nat) : State :=
  s.sheets.lanterns.foldl (fun s l =>
    match s.useOf l.index with
    | some u => if u.held ∧ u.cadence = k ∧ l.phase = lit ∧ l.tag.step = n then s.advanceLantern l.index else s
    | none => s) s

/-! Stores of compiled work. -/

/-- Groundsheet tiles that a store touches become dirty (R147). -/
def State.dirtyTiles (s : State) (a n : Nat) : State :=
  match lanternAt a with
  | none => s
  | some i0 =>
    (List.range ((a % tileBytes + n + tileBytes - 1) / tileBytes)).foldl (fun s i =>
      s.setLantern { s.lantern (i0 + i) with dirty := true }) s

/-- The replaced bytes enter the checkpoint of the running occurrence of cadence k (R76). -/
def State.logUndo (s : State) (k a n : Nat) : State :=
  let old := s.load a n
  let add (c : Checkpoint) : Checkpoint := if c.cadence = k then { c with undo := (a, old) :: c.undo } else c
  { s with checkpoints := s.checkpoints.map add }

/-- The write beats of a store into a groundsheet (R141, R588). -/
def State.writeBeats (s : State) (a n : Nat) : State :=
  match lanternAt a with
  | none => s
  | some i0 =>
    let first := a % tileBytes
    (List.range ((first + n + tileBytes - 1) / tileBytes)).foldl (fun s i =>
      let lo := max first (i * tileBytes) / 128
      let hi := (min (first + n) ((i + 1) * tileBytes) + 127) / 128
      s.count (sheetDieOf (i0 + i)) 0x31 (lanternSlot (i0 + i) % sheetGroups (lanternSheet (i0 + i))) (hi - lo)) s

/-- Tₛ of a step as compact time: the `VALID_TIME` of compiled outputs (R145). -/
def State.stepTime (s : State) (n : Nat) : Nat := compact ((s.steps.run.map (fun r => r.instant n)).getD 0)

/-- The running occurrence of a cadence. -/
def State.occOf (s : State) (k : Nat) : Option Occurrence := s.steps.occs.find? (fun o => o.cadence == k && o.begun)

/-- Every object tile that [a, a + n) touches takes a tag (R145); its `OWNER` is the object. -/
def State.tagRange (s : State) (a n validTime step unit : Nat) : State :=
  if n = 0 ∨ objectSpaceEnd ≤ a then s
  else
    let owner (t : Tile) : Nat := ((s.objectAt (t.index * tileBytes)).map (·.id)).getD 0
    let put (t : Tile) : Tile :=
      if a / tileBytes ≤ t.index ∧ t.index ≤ (a + n - 1) / tileBytes then
        { t with tag := ⟨validTime, step, owner t, unit⟩ }
      else t
    { s with tiers := { s.tiers with tiles := s.tiers.tiles.map put } }

/-- A store into [a, a + n) ends what is kept of tensors and anchors there (R110). -/
def State.forgetTensors (s : State) (a n : Nat) : State :=
  let apart (base bytes : Nat) : Bool := decide (a + n ≤ base ∨ base + bytes ≤ a)
  { s with
    anchors := s.anchors.filter (fun t => apart t.base t.bytes)
    tensors := s.tensors.filter (fun t => apart t.base t.bytes) }

/-- A store by compiled work of a unit in an occurrence of cadence k: the replaced bytes enter the checkpoint, groundsheet tiles
become dirty, and object tiles take the occurrence's tag. -/
def State.cstore (s : State) (k unit a : Nat) (bs : Bytes) : State :=
  let n := ((s.occOf k).map (·.step)).getD 0
  let s := (((s.logUndo k a bs.length).store a bs).dirtyTiles a bs.length).writeBeats a bs.length
  (s.tagRange a bs.length (s.stepTime n) n unit).forgetTensors a bs.length

/-- The groundsheet tiles that the bytes [a, a + n) touch begin to fill, where their producer is the unit (R150). -/
def State.fillRange (s : State) (unit a n : Nat) : State := (slotsIn a n).foldl (fun s i => s.fillLantern unit i) s

/-! Checkpoints. -/

/-- The checkpoint of an occurrence, taken at its admission close (R76). -/
def State.takeCheckpoint (s : State) (k n : Nat) : State :=
  { s with checkpoints := ⟨k, n, s.sheets.lanterns, [], [], s.fusion, s.track, s.solver, s.map⟩ ::
      s.checkpoints.filter (fun c => c.cadence != k) }

/-- The checkpoint is replaced when its occurrence commits (R77). -/
def State.dropCheckpoint (s : State) (k n : Nat) : State :=
  { s with checkpoints := s.checkpoints.filter (fun c => !(c.cadence == k && c.step == n)) }

/-- The engines whose objects a cadence's work modifies (R76). -/
def State.enginesOf (s : State) (k : Nat) : List Nat :=
  ((s.cadences[k]?).map (·.engines)).getD []

/-- A lantern that the occurrence's work has changed, as at its admission close (R150); `DIRTY` stays (R147). -/
def Checkpoint.lantern (c : Checkpoint) (l : LanternState) : LanternState :=
  if c.touched.contains l.index then
    let old := (c.lanterns.find? (fun x => x.index == l.index)).getD { (default : LanternState) with index := l.index }
    { old with dirty := l.dirty }
  else l

/-- The fusion engine's objects as at the checkpoint. What step edges, commits of other cadences and the units in service set
stays: the alignment, the solved poses that wait, the ill-posed count and the floors. -/
def Checkpoint.fusionOf (c : Checkpoint) (now : Fusion) : Fusion :=
  { c.fusion with
    align := now.align, illPosed := now.illPosed, poseDue := now.poseDue
    rungs := List.zipWith (fun (old new : Rung) => { old with floor := new.floor }) c.fusion.rungs now.rungs }

/-- An array without the waiting descriptors and the counts of a cadence's work. -/
def ArrayUnit.dropCadence (k : Nat) (u : ArrayUnit) : ArrayUnit :=
  { u with counts := u.counts.filter (fun c => c.cadence != k), queue := u.queue.filter (fun j => j.desc.ctx.cadence != k) }

/-- A vision cluster without the waiting work and the counts of a cadence. -/
def VisionUnit.dropCadence (k : Nat) (u : VisionUnit) : VisionUnit :=
  { u with
    counts := u.counts.filter (fun c => c.cadence != k), jobs := u.jobs.filter (fun j => j.ctx.cadence != k)
    queue := u.queue.filter (fun j => j.desc.ctx.cadence != k) }

/-- The fusion writes that wait for a lantern issue their waits again after a restore (R151). -/
def State.waitAgain (s : State) (k : Nat) : State :=
  let u := (s.steps.image.map (·.fusionUnit)).getD 0
  if k = 0 then
    (s.fusion.due.flatMap (fun w => slotsIn w.addr w.bytes.length)).foldl (fun s i =>
      if s.waitGranted u i then s else s.issueWait 0 u i) s
  else s

/-- The state of everything the occurrence's work modifies, back at its checkpoint (R79, R150): memory, lanterns, the
engines' objects, draw indices, and work that waits. -/
def State.restore (s : State) (k n : Nat) : State :=
  match s.checkpoints.find? (fun c => c.cadence == k && c.step == n) with
  | none => s
  | some c =>
    let eng := s.enginesOf k
    let s := c.undo.foldl (fun s u => { s with mem := Memory.setBytes s.mem u.1 u.2 }) s
    let clear (x : Checkpoint) : Checkpoint := if x.cadence = k then { x with undo := [], touched := [] } else x
    { s with
      sheets := { s.sheets with
        lanterns := s.sheets.lanterns.map c.lantern, waits := s.sheets.waits.filter (fun w => w.cadence != k) }
      fusion := if k = 0 then c.fusionOf s.fusion else s.fusion
      track := if eng.contains 1 then c.track else s.track
      search := { s.search with outs := s.search.outs.filter (fun o => o.cadence != k) }
      solver := if eng.contains 3 then c.solver else s.solver
      map := if eng.contains 2 then { c.map with pegs := s.map.pegs, pegEdges := s.map.pegEdges } else s.map
      steps := { s.steps with draws := s.steps.draws.filter (fun d => !(d.cadence == k && d.step == n)) }
      tiers := { s.tiers with tierWaits := s.tiers.tierWaits.filter (fun w => w.cadence != k) }
      vision := s.vision.map (VisionUnit.dropCadence k)
      arrays := s.arrays.map (ArrayUnit.dropCadence k)
      checkpoints := s.checkpoints.map clear }
    |>.waitAgain k

/-- The uncommitted occurrences whose stores since their checkpoints touch [a, a + n) (R144, R163). -/
def State.writersOf (s : State) (a n : Nat) : List (Nat × Nat) :=
  (s.checkpoints.filter (fun c => c.undo.any (fun u => decide (u.1 < a + n ∧ a < u.1 + u.2.length)))).map
    (fun c => (c.cadence, c.step))

/-! Lent memory. -/

/-- A tile lies in a lent range of a memory. -/
def Tile.inWindow (t : Tile) (m first last : Nat) : Bool :=
  match t.loc with
  | .t2 m' k => m' == m && decide (first ≤ k ∧ k ≤ last)
  | _ => false

/-- A move into a lent range is under way. -/
def Tile.movingInto (t : Tile) (m first last : Nat) : Bool :=
  match t.dest with
  | some (.t2 m' k) => m' == m && decide (first ≤ k ∧ k ≤ last)
  | _ => false

/-- A window closes (R162, R468): moves into it are abandoned, clean tiles are dropped to their T4 copy, and dirty
tiles that remain make the owning unit wait from now on. -/
def State.closeWindow (s : State) (w : LendWindow) : State :=
  let upd (t : Tile) : Tile :=
    let t := if t.movingInto w.memory w.first w.last then { t with dest := none } else t
    if t.inWindow w.memory w.first w.last && !t.dirty then
      { t with loc := match t.home with | some k => .t4 k | none => .never }
    else t
  let tiles := s.tiers.tiles.map upd
  let left := tiles.any (fun t => t.inWindow w.memory w.first w.last)
  { s with
    tiers := { s.tiers with tiles := tiles }
    sheets := { s.sheets with
      open_ := s.sheets.open_.filter (fun x => x != w)
      lent := if left ∧ !s.sheets.lent.any (fun x => x.memory == w.memory) then ⟨w.memory, none⟩ :: s.sheets.lent
        else s.sheets.lent } }

/-- The lendable memory of a unit's region (R159): packs 0–3, line buffers 4 + 4v + e. -/
def lentMemoryOf (region : Nat) : Option Nat :=
  if region / 4096 = 0 then some (region % 4096)
  else if region / 4096 = 1 then some (4 + region % 4096)
  else none

/-- The tiles of a lendable memory that hold lent objects outside its open windows. -/
def State.leftTiles (s : State) (m : Nat) : List Nat :=
  s.tiers.tiles.filterMap (fun t =>
    match t.loc with
    | .t2 m' k => if m' = m ∧ !s.sheets.open_.any (fun w => w.memory == m && decide (w.first ≤ k ∧ k ≤ w.last)) then some k else none
    | _ => none)

/-- A descriptor of a unit, with its accesses, touches tiles that must be moved out first (R162): a pack's by their addresses, a
line buffer's always, since every descriptor of the engine uses it. -/
def State.ownerWaits (s : State) (region : Nat) (acc : List (Nat × Nat)) : Bool :=
  match lentMemoryOf region with
  | none => false
  | some m =>
    s.sheets.lent.any (fun x => x.memory == m) &&
      (decide (4 ≤ m) || (s.leftTiles m).any (fun k =>
        acc.any (fun r => decide (r.1 < packBase m + (k + 1) * tileBytes ∧ packBase m + k * tileBytes < r.1 + r.2))))

/-- The wait of a unit's first such descriptor begins (R162). -/
def State.noteLentWait (s : State) (region k : Nat) : State :=
  let upd (x : LentWait) : LentWait :=
    if some x.memory = lentMemoryOf region ∧ x.since.isNone then
      { x with since := some (s.now, k, ((s.occOf k).map (·.step)).getD 0) }
    else x
  { s with sheets := { s.sheets with lent := s.sheets.lent.map upd } }

/-- A compiled access to a tile waits: it is held only in T4, or its pseudo-channel's traffic is held while a row is repaired
(R468, R481, R485). -/
def State.tileHeld (s : State) (t : Tile) : Bool :=
  match t.loc with
  | .t4 _ => true
  | .t3 f => s.tiers.heldPcs.any (fun p => p.2 == f % 32)
  | _ => false

/-- The first tile of some accesses that makes them wait. -/
def State.heldBy (s : State) (acc : List (Nat × Nat)) : Option Tile :=
  s.tiers.tiles.find? (fun t => s.tileHeld t &&
    acc.any (fun r => decide (r.1 < (t.index + 1) * tileBytes ∧ t.index * tileBytes < r.1 + r.2)))

/-- A descriptor of a unit, with its accesses, cannot be issued for its memory: lent tiles stand in it (R162), or tiles that it
touches are held (R481). -/
def State.memoryWaits (s : State) (region : Nat) (acc : List (Nat × Nat)) : Bool :=
  s.ownerWaits region acc || (s.heldBy acc).isSome

/-- The wait of such a descriptor, of cadence `k`, begins (R162, R481). -/
def State.noteMemoryWait (s : State) (region k : Nat) (acc : List (Nat × Nat)) : State :=
  if s.ownerWaits region acc then s.noteLentWait region k
  else
    match s.heldBy acc with
    | some t =>
      if s.tiers.tierWaits.any (fun w => w.region == region) then s
      else { s with tiers := { s.tiers with
          tierWaits := s.tiers.tierWaits ++ [⟨region, k, ((s.occOf k).map (·.step)).getD 0, acc, t.index, s.now⟩] } }
    | none => s

/-- The die of an array or vision engine. -/
def unitDieOf (region : Nat) : Nat := if region / 4096 = 0 then 1 + region % 4096 / 2 else 1 + region % 4096 / 4

/-- The waits for memory that end, with the access of a stall cause that completed last (R481). -/
def State.endTierWaits (s : State) (cause : Nat) : State :=
  let free (w : TierWait) : Bool := (s.heldBy w.acc).isNone
  let done := s.tiers.tierWaits.filter free
  let s := { s with tiers := { s.tiers with tierWaits := s.tiers.tierWaits.filter (fun w => !free w) } }
  done.foldl (fun s w => s.endStall {
    cause := cause, dies := [unitDieOf w.region], cadence := w.cadence, step := w.step
    tenant := ((s.objectAt (w.tile * tileBytes)).map (·.tenant)).getD 0, ns := (s.now - w.since) / nsUnits }) s

/-- The die of a lendable memory (R159). -/
def lentDie (m : Nat) : Nat := if m < 4 then 1 + m / 2 else 1 + (m - 4) / 4

/-- The owner goes on once no tile is left in its closed windows; a descriptor's wait was a stall of cause 5 (R162). -/
def State.endLentWaits (s : State) : State :=
  let done := s.sheets.lent.filter (fun x => s.leftTiles x.memory == [])
  let s := { s with sheets := { s.sheets with lent := s.sheets.lent.filter (fun x => s.leftTiles x.memory != []) } }
  done.foldl (fun s x =>
    match x.since with
    | some w => s.endStall
        { cause := 5, dies := [lentDie x.memory], cadence := w.2.1, step := w.2.2, tenant := 0, ns := (s.now - w.1) / nsUnits }
    | none => s) s

/-- The tiles left in closed memory, which read without an uncorrectable error, go to T3 (R163). -/
def State.evictDirty (s : State) (m : Nat) : State :=
  s.tiers.tiles.foldl (fun s t =>
    match t.loc, s.objectAt (t.index * tileBytes) with
    | .t2 m' _, some o =>
      if m' = m then
        let f := s.pickFrame o t.index
        let move (y : Tile) : Tile := if y.index = t.index then { y with loc := .t3 f, dest := none } else y
        { s with tiers := { s.tiers with tiles := s.tiers.tiles.map move } }
      else s
    | _, _ => s) s

/-- A dirty lent tile that cannot be read is lost, and counted (R163). -/
def State.loseLent (s : State) (tile : Nat) : State :=
  let lostIn (t : Tile) : Bool := t.index == tile && t.dirty && (match t.loc with | .t2 .. => true | _ => false)
  if s.tiers.tiles.any lostIn then
    let gone (t : Tile) : Tile := if lostIn t then { t with loc := .never, dirty := false, home := none, dest := none } else t
    { s with tiers := { s.tiers with tiles := s.tiers.tiles.map gone } }.addReg64 0x730008 1
  else s

/-- Every open window of a unit closes at once; the dirty tiles `lost` are lost, and the others moved out (R163). -/
def State.closeWindowsOf (s : State) (region : Nat) (lost : List Nat) : State :=
  match lentMemoryOf region with
  | none => s
  | some m =>
    let s := lost.foldl State.loseLent s
    ((s.sheets.open_.filter (fun w => w.memory == m)).foldl State.closeWindow s).evictDirty m |>.endLentWaits

/-- The windows of the schedule in force apply from a step edge on; one that it does not declare closes (R163). -/
def State.scheduleWindows (s : State) : State :=
  let i := s.faults.schedule
  let s := { s with sheets := { s.sheets with schedule := i } }
  (s.sheets.open_.filter (fun w => !w.schedules.contains i)).foldl State.closeWindow s

/-! Engines at a run's start. -/

def collUsable : Nat := 1
def collUnloaded : Nat := 2
def collUnusable : Nat := 3

/-- A collection as it stands at run start (R332, R340). -/
def freshColl (d : CollDecl) : Collection :=
  { (default : Collection) with state := if d.snapshot.isSome then collUnloaded else collUsable }

/-- The track table and the solver at a run's start. -/
def freshTrack : TrackUnit := ⟨[], none, 1, [], 0, 0⟩
def freshSolver : SolverUnit := ⟨[], [], [], [], none, none⟩

end Sys2Proof.Machine
end

