-- ==== Sys2Proof/Machine/Fusion.lean ====
section
/-! DEFINITION. The fusion engine (06): tether clocks and alignment, histories and evaluation at the step instant, and the rules
of grid fusion, the consistency gates and the degradation ladder. Its commands stand in `Gates` and `Ego`. -/

namespace Sys2Proof.Machine

def nan32 : Nat := 0x7FC00000
def nan64 : Nat := 0x7FF8000000000000

/-- A finite FP32/FP64 bit pattern. -/
def finite32 (x : Nat) : Bool := (fltOf fp32 x).isFinite
def finite64 (x : Nat) : Bool := (fltOf fp64 x).isFinite

/-- Whether x > y for finite patterns of one format; false when either is not finite (R238). -/
def gt32 (x y : Nat) : Bool := finite32 x && (fltOf fp32 y).lt (fltOf fp32 x)

def clsFusionEvents : Nat := 0xA00028

/-- A fusion event with its vector (R249, R497). -/
def State.fusionEvent (s : State) (bit : Nat) : State :=
  s.event clsFusionEvents bit (s.activeFld ⟨0xA0000C, 31, 1⟩ == 1) 13

/-- A class S count that acts as 1 when 0. -/
def State.atLeast1 (s : State) (f : Fld) : Nat := max 1 (s.activeFld f)

def State.exitSteps (s : State) : Nat := s.atLeast1 ⟨0xA00008, 0, 8⟩
def State.realignSteps (s : State) : Nat := s.atLeast1 ⟨0xA00008, 8, 8⟩
def State.reinstateSteps (s : State) : Nat := s.atLeast1 ⟨0xA00008, 16, 8⟩
def State.syncLoss (s : State) : Nat := s.atLeast1 ⟨0xA00008, 24, 8⟩

def State.streamDecls (s : State) : List StreamDecl := (s.steps.image.map (·.streams)).getD []

/-! The clock of each tether. -/

/-- E_k: the time of `DOMAIN_k` minus device time (R213, R402), in 2⁻⁴⁰ ns. -/
def State.offset (s : State) (k : Nat) : Int := ((if k = 0 then s.time.dom0 else s.time.dom1 : Nat) : Int) - s.time.dev

/-- E_k in 2⁻¹⁶ ns, truncated toward zero (R424). -/
def State.offset16 (s : State) (k : Nat) : Int := truncDiv (s.offset k) (2 ^ 24)

/-- E_k in whole nanoseconds, from the 2⁻¹⁶ ns value, truncated toward zero (R215). -/
def State.offsetNs (s : State) (k : Nat) : Int := truncDiv (s.offset k) (2 ^ 40)

def State.liveSession (s : State) (slot : Nat) : Option Session :=
  s.ports.sessions.find? (fun x => x.slot == slot && x.state == 1)

def State.liveSv (s : State) (slot : Nat) : Option SvTether := s.ports.sv.find? (fun x => x.entry.slot == slot)

/-- The time source class of a slot; 3 where neither a session nor a sampled-value tether is live (R217). -/
def State.timeClass (s : State) (slot : Nat) : Nat :=
  match s.liveSession slot with
  | some x => x.timeSource
  | none => if (s.liveSv slot).isSome then 4 else 3

/-- A source stamp translated into device time (R213); full time in 2⁻¹⁶ ns. -/
def State.translate (s : State) (cls : Nat) (theta : Int) (src : Nat) : Nat :=
  match cls with
  | 0 => ((src : Int) - s.offset16 0).toNat
  | 1 => ((src : Int) - s.offset16 1).toNat
  | 2 => ((src : Int) - theta * 65536).toNat
  | _ => src

/-- The exchange used at a step (R216): least δ, then earliest stamp. -/
def bestExchange (xs : List (Nat × Nat × Int × Int × Int)) (slot : Nat) : Option (Nat × Nat × Int × Int × Int) :=
  (xs.filter (fun x => x.1 == slot)).foldl (fun best x =>
    match best with
    | none => some x
    | some b =>
      if x.2.2.2.1 < b.2.2.2.1 then some x
      else if x.2.2.2.1 = b.2.2.2.1 ∧ x.2.1 < b.2.1 then some x else some b) none

/-- The alignment limit Λ in ns (R217). -/
def alignLimit (d : StreamDecl) : Nat := if d.kind = 0 then 2 * d.period / 65536 else d.period / 65536

/-- θ_applied takes the θ_new of the step before (R216). -/
def Session.applyTheta (x : Session) : Session :=
  if x.state ≠ 1 then x else { x with theta := x.thetaNext.getD x.theta, thetaNext := none }

/-- What the clock inputs `xs` of a step give a session: θ_new (R216), and the steps without one are counted for `SYNC_LOSS`
(R217). -/
def Session.judgeClock (xs : List (Nat × Nat × Int × Int × Int)) (x : Session) : Session :=
  if x.state ≠ 1 then x
  else
    let ex := bestExchange xs x.slot
    { x with
      thetaNext := ex.map (fun e => e.2.2.1)
      sinceSync := if ex.isSome then 0 else if 0 < x.edges then x.sinceSync + 1 else x.sinceSync
      edges := x.edges + 1 }

/-- A sampled-value tether at the step of instant `ts`: its admitted frames up to then are judged (R217, R218). -/
def judgeSv (ts : Nat) (v : SvTether) : SvTether :=
  let due := v.marks.filter (fun m => decide (m.1 ≤ ts))
  { v with
    marks := v.marks.filter (fun m => decide (ts < m.1))
    badSync := due.any (fun m => !m.2), sync := !due.isEmpty }

/-- ε(n) of a slot's tether at this step (R216). -/
def State.stepError (s : State) (xs : List (Nat × Nat × Int × Int × Int)) (slot : Nat) : Option Int :=
  match bestExchange xs slot, s.liveSession slot with
  | some x, some ses =>
    let ref : Int := if ses.timeSource = 2 then ses.theta else x.2.2.2.2
    some ((x.2.2.1 - ref).natAbs : Int)
  | _, _ => none

/-- The alignment update of one stream at a step edge (R217, R218). -/
def State.alignOne (s : State) (xs : List (Nat × Nat × Int × Int × Int)) (d : StreamDecl) (f : AlignState) : AlignState :=
  let cls := s.timeClass d.slot
  if cls = 3 then { f with unaligned := false, cause := 0, run := 0 }
  else
    let lim : Int := (alignLimit d : Nat)
    let err := if cls = 4 then none else s.stepError xs d.slot
    let beyond := match err with | some e => decide (lim < e) | none => false
    let lost := decide (cls ≤ 2) &&
      (match s.liveSession d.slot with | some x => decide (s.syncLoss ≤ x.sinceSync) | none => false)
    let svBad := cls == 4 && (match s.liveSv d.slot with | some v => v.badSync | none => false)
    let svGood := cls == 4 && (match s.liveSv d.slot with | some v => v.sync && !v.badSync | none => false)
    let f := match err with | some e => { f with errNs := e } | none => f
    let bad := beyond || lost || svBad
    let cause := pickCause ((if beyond || svBad then [0x05] else []) ++ (if lost then [0x33] else []))
    if !f.unaligned then
      if bad then { f with unaligned := true, run := 0, cause := cause } else f
    else
      let run :=
        match err with
        | some e => if 2 * e ≤ lim then f.run + 1 else 0
        | none => if svGood then f.run + 1 else f.run
      if bad then { f with run := run, cause := cause }
      else if s.realignSteps ≤ run then { f with unaligned := false, run := 0, cause := 0 }
      else { f with run := run }

/-- The clocks at the edge of a step of instant `ts` with the clock inputs `xs` admitted to its occurrence (R216–R218). The
alignment of a step that is skipped later is judged all the same (DESIGN CHOICE, assumption 77). -/
def State.alignEdge (s : State) (ts : Nat) (xs : List (Nat × Nat × Int × Int × Int)) : State :=
  let s := { s with ports := { s.ports with
      sessions := s.ports.sessions.map (fun (x : Session) => Session.judgeClock xs (Session.applyTheta x)), sv := s.ports.sv.map (judgeSv ts) } }
  let decls := s.streamDecls
  let old := s.fusion.align
  let new := (List.range decls.length).map (fun i => s.alignOne xs (decls.getD i default) (old.getD i default))
  let s := { s with fusion := { s.fusion with align := new } }
  if (List.zip old new).any (fun p => !p.1.unaligned && p.2.unaligned) then s.fusionEvent 0 else s

/-- The clocks at the edge of a lost step (R90): the offsets go on, and nothing is judged. -/
def State.alignLost (s : State) (ts : Nat) : State :=
  { s with ports := { s.ports with
      sessions := s.ports.sessions.map Session.applyTheta, sv := s.ports.sv.map (judgeSv ts) } }

/-! Values and histories. -/

/-- One field of a record's extraction as FP32, when it lies in the record and is finite (R211). -/
def extractField (rec : Bytes) (f : Nat × Nat) : Option Nat :=
  let n := match f.2 with | 0 => 2 | 1 => 4 | 2 => 4 | _ => 8
  if rec.length < f.1 + n then none
  else
    let v := beAt rec f.1 n
    let x : Flt :=
      match f.2 with
      | 0 => fltInt (signedOf 16 v)
      | 1 => fltInt (signedOf 32 v)
      | 2 => fltOf fp32 v
      | _ => fltOf fp64 v
    let y := roundInf fp32 (fltOf fp64 (roundInf fp64 x))
    if finite32 y then some y else none

/-- All fields, or nothing when one is absent. -/
def extractAll (rec : Bytes) : List (Nat × Nat) → Option (List Nat)
  | [] => some []
  | f :: fs =>
    match extractField rec f, extractAll rec fs with
    | some x, some xs => some (x :: xs)
    | _, _ => none

/-- A history with one more sample: the last four admitted, in stamp order (R221). -/
def historyAdd (h : List (Nat × List Nat)) (x : Nat × List Nat) : List (Nat × List Nat) :=
  let h := insertSorted (fun a b => decide (a.1 ≤ b.1)) x h
  h.drop (h.length - 4)

/-- A sample of a fusion stream enters its history. -/
def State.addSample (s : State) (i : Nat) (stamp : Nat) (v : List Nat) : State :=
  { s with fusion := { s.fusion with
      streams := s.fusion.streams.modify i (fun f => { f with history := historyAdd f.history (stamp, v) }) } }

/-- The fusion streams of a slot and stream identifier, by index. -/
def State.fusionIndices (s : State) (slot stream : Nat) : List Nat :=
  (List.range s.streamDecls.length).filter (fun i =>
    match s.streamDecls[i]? with
    | some d => d.slot == slot && d.stream == stream
    | none => false)

/-- A sample waits for the fusion work of step `n`. -/
def State.queueSample (s : State) (n i stamp : Nat) (v : List Nat) : State :=
  { s with steps := { s.steps with toFeed := s.steps.toFeed ++ [⟨n, i, stamp, v⟩] } }

/-- The samples that the histories hold from step `n` on enter them (R221). -/
def State.feedDue (s : State) (n : Nat) : State :=
  let due := s.steps.toFeed.filter (fun x => decide (x.step ≤ n))
  let s := { s with steps := { s.steps with toFeed := s.steps.toFeed.filter (fun x => decide (n < x.step)) } }
  due.foldl (fun s x => s.addSample x.index x.stamp x.value) s

/-- An admitted record, image or pose goes to its fusion streams from step `n` on; a record whose extraction fails is counted
under R212. -/
def State.fusionAdmit (s : State) (n slot stream stamp ringIndex : Nat) (payload : Bytes) : State :=
  (s.fusionIndices slot stream).foldl (fun s i =>
    match s.streamDecls[i]? with
    | none => s
    | some d =>
      if d.kind = 3 then s.queueSample n i stamp [ringIndex]
      else
        match extractAll payload d.fields with
        | some v => s.queueSample n i stamp v
        | none => s.fusionEvent 6) s

/-- A time difference as FP64 nanoseconds, formed from compact times (R212). -/
def dt64 (a b : Nat) : Nat := fOfInt fp64 ((a / 65536 : Nat) - (b / 65536 : Nat) : Int)

def w64 (x : Nat) : Nat := fConv fp32 fp64 x
def n32 (x : Nat) : Nat := fConv fp64 fp32 x

/-- Linear blend of two element values: fma(w, b − a, a) in FP64, rounded once to FP32 (R222). -/
def lerp (w a b : Nat) : Nat := n32 (fFma fp64 w (fSub fp64 (w64 b) (w64 a)) (w64 a))

/-- a + w · (a − p): linear extrapolation from a with the earlier sample p (R222). -/
def extrap (w p a : Nat) : Nat := n32 (fFma fp64 w (fSub fp64 (w64 a) (w64 p)) (w64 a))

/-- Quaternion product in FP64 (w x y z). -/
def qmul (p q : List Nat) : List Nat :=
  let m := fMul fp64
  let a := fAdd fp64
  let b := fSub fp64
  match p, q with
  | [pw, px, py, pz], [qw, qx, qy, qz] =>
    [b (b (b (m pw qw) (m px qx)) (m py qy)) (m pz qz), b (a (a (m pw qx) (m px qw)) (m py qz)) (m pz qy),
     a (a (b (m pw qy) (m px qz)) (m py qw)) (m pz qx), a (b (a (m pw qz) (m px qy)) (m py qx)) (m pz qw)]
  | _, _ => []

def sum64 (xs : List Nat) : Nat :=
  match xs with
  | [] => 0
  | x :: xs => xs.foldl (fAdd fp64) x

def dot64 (xs ys : List Nat) : Nat := sum64 (List.zipWith (fMul fp64) xs ys)

def norm64 (xs : List Nat) : Nat := fSqrt fp64 (dot64 xs xs)

/-- Spherical interpolation from q by the rotation r at fraction w (R222), normalised. -/
def slerpStep (ver : Nat) (q r : List Nat) (w : Nat) : List Nat :=
  match r with
  | [rw, rx, ry, rz] =>
    let n := norm64 [rx, ry, rz]
    let q' :=
      if (fltOf fp64 n).eqv (fltInt 0) then q
      else
        let half := fMul fp64 (fDiv fp64 (fMul fp64 w (fMul fp64 (fOfInt fp64 2) (Config.atan264 ver n rw))) (fOfInt fp64 2)) (fOfInt fp64 1)
        let sn := Config.sin64 ver half
        qmul q (Config.cos64 ver half :: [rx, ry, rz].map (fun v => fDiv fp64 (fMul fp64 sn v) n))
    let l := norm64 q'
    q'.map (fun v => fDiv fp64 v l)
  | _ => q

def qconj : List Nat → List Nat
  | [w, x, y, z] => [w, fNeg fp64 x, fNeg fp64 y, fNeg fp64 z]
  | q => q

/-- SLERP between (or beyond) two unit quaternions held as FP32 (R222). -/
def slerp (ver : Nat) (q0 q1 base : List Nat) (w : Nat) : List Nat :=
  let a := q0.map w64
  let b := q1.map w64
  let b := if (fltOf fp64 (dot64 a b)).lt (fltInt 0) then b.map (fNeg fp64) else b
  (slerpStep ver (base.map w64) (qmul (qconj a) b) w).map n32

/-- A tangent of the Hermite method at index j of the history, one-sided at its ends (R222). -/
def tangent (h : List (Nat × List Nat)) (j e : Nat) : Nat :=
  let lo := if j = 0 then 0 else j - 1
  let hi := min (j + 1) (h.length - 1)
  match h[lo]?, h[hi]? with
  | some a, some b =>
    if lo = hi then 0
    else fDiv fp64 (fSub fp64 (w64 (b.2.getD e 0)) (w64 (a.2.getD e 0))) (dt64 b.1 a.1)
  | _, _ => 0

/-- One element by the cubic Hermite bases in Horner form, each operation rounded, summed in the order h00, h10, h01, h11
(R222; R212 fuses only where a rule writes fma). -/
def hermite (w hh y0 m0 y1 m1 : Nat) : Nat :=
  let c (i : Int) : Nat := fOfInt fp64 i
  let f (a x b : Nat) : Nat := fAdd fp64 (fMul fp64 a x) b
  let h00 := f (fMul fp64 (f (c 2) w (c (-3))) w) w (c 1)
  let h10 := fMul fp64 (f (f (c 1) w (c (-2))) w (c 1)) w
  let h01 := fMul fp64 (fMul fp64 (f (c (-2)) w (c 3)) w) w
  let h11 := fMul fp64 (fMul fp64 (fSub fp64 w (c 1)) w) w
  n32 (sum64 [fMul fp64 h00 (w64 y0), fMul fp64 (fMul fp64 h10 hh) m0, fMul fp64 h01 (w64 y1), fMul fp64 (fMul fp64 h11 hh) m1])

/-- The value of a stream at τ (R221, R222); absent when stale. -/
def evalStream (ver : Nat) (d : StreamDecl) (h : List (Nat × List Nat)) (tau : Nat) : Option (List Nat) :=
  let upto := h.filter (fun x => decide (x.1 ≤ tau))
  match upto.getLast? with
  | none => none
  | some cur =>
    let i := upto.length - 1
    if cur.1 = tau then some cur.2
    else
      match h[i + 1]? with
      | some nx =>
        let w := fDiv fp64 (dt64 tau cur.1) (dt64 nx.1 cur.1)
        some (match d.method with
          | .hold => cur.2
          | .linear => List.zipWith (lerp w) cur.2 nx.2
          | .hermite =>
            (List.range cur.2.length).map (fun e =>
              hermite w (dt64 nx.1 cur.1) (cur.2.getD e 0) (tangent h i e) (nx.2.getD e 0) (tangent h (i + 1) e))
          | .slerp => slerp ver cur.2 nx.2 cur.2 w)
      | none =>
        if d.horizon / 65536 < tau / 65536 - cur.1 / 65536 then none
        else
          match h[i - 1]? with
          | some pv =>
            if i = 0 then some cur.2
            else
              let w := fDiv fp64 (dt64 tau cur.1) (dt64 cur.1 pv.1)
              some (match d.method with
                | .hold => cur.2
                | .slerp => slerp ver pv.2 cur.2 cur.2 w
                | _ => List.zipWith (extrap w) pv.2 cur.2)
          | none => some cur.2

/-! Stream states. -/

def State.egoMasked (s : State) (d : StreamDecl) : Bool :=
  match d.ego with
  | some j => (s.fusion.egos.getD j default).masked
  | none => false

/-- Usable at the step (R232). -/
def State.usable (s : State) (d : StreamDecl) (f : FStream) : Bool :=
  !f.unaligned && !s.egoMasked d && !f.stale && !f.outlier

/-- The cause of a stream's current mask, or 0x00 (R234, R247, R248). -/
def State.maskCause (s : State) (d : StreamDecl) (f : FStream) : Nat :=
  pickCause ((if f.unaligned then [f.cause] else []) ++ (if s.egoMasked d then [0x30] else []) ++
    (if f.outlier then [0x31] else []) ++ (if f.stale then [0x32] else []))

/-- The 16 state bits (R234). -/
def State.streamBits (s : State) (d : StreamDecl) (f : FStream) : Nat :=
  b2n (s.usable d f) + 2 * b2n f.unaligned + 4 * b2n f.outlier + 8 * b2n (s.egoMasked d) + 16 * b2n f.stale +
    32 * b2n f.contested + 64 * b2n d.privileged

/-- Declared streams with their states, in index order. -/
def State.streamPairs (s : State) : List (StreamDecl × FStream) := List.zip s.streamDecls s.fusion.streams

/-- An FP32 confidence clamped to [0, 1]; a NaN acts as 0. -/
def clamp01 (x : Nat) : Nat :=
  let v := fltOf fp32 x
  if v.isNan then 0 else if v.lt (fltInt 0) then 0 else if (fltInt 1).lt v then 0x3F800000 else x

/-- conf_s: 0 while the stream is unusable (R234). -/
def State.confOf (s : State) (d : StreamDecl) (f : FStream) : Nat := if s.usable d f then clamp01 f.conf else 0

/-- A solved pose in an ego entry: it replaces the held pose, the newest of the history with it, and the covariance (R229). -/
def EgoState.correct (x : EgoState) (pose cov : List Nat) : EgoState :=
  { x with
    quat := pose.drop 3, trans := pose.take 3, cov := cov
    history := match x.history.reverse with
      | [] => []
      | h :: hs => ((h.1, pose.drop 3 ++ pose.take 3) :: hs).reverse }

/-- The solved poses of mapping commits since the last step's work enter the ego entries (R229; the moment is a DESIGN CHOICE,
assumption 79). -/
def State.takePoses (s : State) : State :=
  let put (es : List EgoState) (p : Nat × List Nat × List Nat) : List EgoState := es.modify p.1 (fun x => x.correct p.2.1 p.2.2)
  { s with fusion := { s.fusion with egos := s.fusion.poseDue.foldl put s.fusion.egos, poseDue := [] } }

/-- A value of finite elements; a result that is not is absent (R212). -/
def finiteValue (v : Option (List Nat)) : Option (List Nat) := v.filter (fun xs => xs.all finite32)

/-- The fusion work that a `CADENCE_0` occurrence begins with (R221–R223, R234): every stream's value at Tₛ, with the alignment
that its step's edge judged and the quality values of the step. -/
def State.fusionStep (s : State) (ts : Nat) (q : List Quality) (al : List AlignState) : State :=
  let ver := (s.steps.image.map (·.fusionTables)).getD 0
  let old := s.fusion.streams
  let decls := s.streamDecls
  let value (i : Nat) : Option (List Nat) := evalStream ver (decls.getD i default) (old.getD i default).history ts
  let stepOne (i : Nat) (f : FStream) : FStream :=
    let a := al.getD i default
    let f := { f with unaligned := a.unaligned, cause := a.cause }
    let f := if f.outlierNext then { f with outlier := false, outlierNext := false, reinstate := 0 } else f
    let v := finiteValue (value i)
    let ql := q.find? (fun x => x.stream == i)
    { f with
      stale := v.isNone, contested := false, value := v
      conf := (ql.map (·.conf)).getD 0
      variances := (ql.map (·.variances)).getD [] }
  let ids := List.range decls.length
  let new := ids.map (fun i => stepOne i (old.getD i default))
  let s := { s with fusion := { s.fusion with
      streams := new, contestedRegions := [], maps := [], gated := false, laddered := false, egoDone := [], due := [], gridSat := 0 } }.takePoses
  let s := if ids.any (fun i => (value i).isSome && (finiteValue (value i)).isNone) then s.fusionEvent 6 else s
  if new.any (fun f => f.stale) then s.fusionEvent 4 else s

/-! Verdicts. -/

/-- The verdict of the step whose fusion work was done last. -/
def State.verdictNow (s : State) (n : Nat) : StepVerdict :=
  let ps := List.zip (List.range s.streamPairs.length) s.streamPairs
  let those (f : StreamDecl × FStream → Bool) : List Nat := (ps.filter (fun p => f p.2)).map (·.1)
  ⟨n, s.fusion.rungs.map (·.level), s.fusion.contestedRegions, those (fun p => p.2.stale),
    those (fun p => p.2.unaligned || p.2.outlier || s.egoMasked p.1), those (fun p => s.usable p.1 p.2)⟩

def State.verdictOf (s : State) (n : Nat) : StepVerdict :=
  if s.steps.fusedStep = some n then s.verdictNow n
  else (s.steps.verdicts.find? (fun v => v.step == n)).getD (s.verdictNow n)

/-! Consistency gates. -/

/-- Pairwise reduction of one level (R120). -/
def pairUp (op : Nat → Nat → Nat) : List Nat → List Nat
  | a :: b :: xs => op a b :: pairUp op xs
  | xs => xs

def reduceLevels (op : Nat → Nat → Nat) : Nat → List Nat → List Nat
  | 0, xs => xs
  | k + 1, xs => reduceLevels op k (pairUp op xs)

/-- `xs` extended with the identity to length `n`. -/
def padNat (n ident : Nat) (xs : List Nat) : List Nat := xs ++ List.replicate (n - xs.length) ident

/-- Chunks of 512 elements. -/
def chunks512 : Nat → List Nat → List (List Nat)
  | 0, _ => []
  | k + 1, xs => xs.take 512 :: chunks512 k (xs.drop 512)

/-- The fixed reduction tree of R120. -/
def treeReduce (op : Nat → Nat → Nat) (ident : Nat) (xs : List Nat) : Nat :=
  let parts := (chunks512 (ceilDiv xs.length 512) xs).map (fun c => (reduceLevels op 9 (padNat 512 ident c)).headD ident)
  let k := Nat.log2 (max 1 (2 * parts.length - 1))
  (reduceLevels op k (padNat (2 ^ k) ident parts)).headD ident

/-- A list of fixed length, extended with zeros. -/
def fitNats (n : Nat) (xs : List Nat) : List Nat := xs.take n ++ List.replicate (n - xs.length) 0

def add32 : Nat → Nat → Nat := fun a b => (roundSat fp32 ((fltOf fp32 a).add (fltOf fp32 b))).1

/-- d of a pair (R238), or nothing where it is absent. -/
def State.rawDistance (s : State) (r k : Nat) (p : CheckPair) (scores : List (Nat × Nat × Nat)) : Option Nat :=
  let fa := s.fusion.streams.getD p.a default
  let fb := s.fusion.streams.getD p.b default
  let term (i : Nat) (va vb : List Nat) : Nat :=
    let df := fSub fp64 (w64 (va.getD i 0)) (w64 (vb.getD i 0))
    fDiv fp64 (fMul fp64 df df) (fAdd fp64 (w64 (fa.variances.getD i 0)) (w64 (fb.variances.getD i 0)))
  match p.metric with
    | 0 =>
      match fa.value, fb.value with
      | some va, some vb => some (n32 (term 0 va vb))
      | _, _ => none
    | 1 =>
      match fa.value, fb.value with
      | some va, some vb => some (n32 (sum64 ((List.range (min va.length vb.length)).map (fun i => term i va vb))))
      | _, _ => none
    | 2 =>
      let feats (i : Nat) : List Nat :=
        let m := (s.fusion.maps.find? (fun g => g.stream == i)).map (·.cells)
        p.cells.flatMap (fun c => fitNats 32 ((lookupKey c (m.getD [])).getD []))
      let a := feats p.a
      let b := feats p.b
      let mulv (x y : List Nat) : Nat := treeReduce add32 0 (List.zipWith (fMul fp32) x y)
      some (fSub fp32 0x3F800000 (fDiv fp32 (mulv a b) (fSqrt fp32 (fMul fp32 (mulv a a) (mulv b b)))))
    | _ => (scores.find? (fun x => x.1 == r && x.2.1 == k)).map (fun x => x.2.2)

/-- d of a pair, or nothing where it is absent or non-finite: the pair is then unjudged. -/
def State.pairDistance (s : State) (r k : Nat) (p : CheckPair) (scores : List (Nat × Nat × Nat)) : Option Nat :=
  (s.rawDistance r k p scores).filter finite32

/-- Judged pairs of a region: the pair and whether it disagrees (R238). -/
def State.judged (s : State) (r : Nat) (cr : CheckRegion) (ok : Nat → Bool) (scores : List (Nat × Nat × Nat)) :
    List (CheckPair × Bool) :=
  (List.zip (List.range cr.pairs.length) cr.pairs).filterMap (fun kp =>
    if ok kp.2.a && ok kp.2.b then
      (s.pairDistance r kp.1 kp.2 scores).map (fun d => (kp.2, (fltOf fp32 kp.2.gate).lt (fltOf fp32 d)))
    else none)

/-- The verdict on one region (R239): streams to outlier-mask, and streams it contests. -/
def State.decideRegion (s : State) (r : Nat) (cr : CheckRegion) (eligible : Nat → Bool)
    (scores : List (Nat × Nat × Nat)) : List Nat × List Nat :=
  let e := cr.streams.filter eligible
  let js := s.judged r cr (fun i => e.contains i) scores
  let dis := js.filter (fun j => j.2)
  if dis = [] then ([], [])
  else if e.length = 2 then ([], e)
  else
    let count (i : Nat) : Nat := (dis.filter (fun j => j.1.a == i || j.1.b == i)).length
    let top := (e.map count).foldl max 0
    let c := e.filter (fun i => count i == top)
    let rest := dis.filter (fun j => !c.contains j.1.a && !c.contains j.1.b)
    if c.length = 1 ∧ 2 ≤ top ∧ rest = [] then (c, [])
    else ([], e.filter (fun i => 0 < count i))

/-- A stream may be judged for reinstatement (R241). -/
def State.rejudgeable (s : State) (i : Nat) : Bool :=
  match s.streamDecls[i]?, s.fusion.streams[i]? with
  | some d, some f => f.outlier && !f.unaligned && !f.stale && !s.egoMasked d
  | _, _ => false

/-! The degradation ladder. -/

/-- U_f, or nothing for a function that declares no streams (R242). -/
def State.usablePercent (s : State) (f : Nat) : Option Nat :=
  let ps := s.streamPairs.filter (fun p => p.1.functions.contains f)
  if ps = [] then none
  else some (100 * (ps.filter (fun p => s.usable p.1 p.2)).length / ps.length)

/-- A percentage of `LADDER_f` (R249): 0 `DUSK`, 1 `TWILIGHT`, 2 `DARK`. -/
def State.ladderPct (s : State) (f k : Nat) : Nat := s.activeFld ⟨0xA00010 + 4 * f, 8 * k, 8⟩

def State.below (s : State) (f k : Nat) : Bool :=
  match s.usablePercent f with
  | some u => decide (u < s.ladderPct f k)
  | none => false

/-- A region is contested on which the image declares the function's outputs to depend (R242). -/
def State.regionContested (s : State) (f : Nat) : Bool :=
  ((s.steps.image.map (·.outputs)).getD []).any (fun o =>
    o.function == f && o.checkRegions.any (fun r => s.fusion.contestedRegions.contains r))

/-- The deepest of three conditions. -/
def deepest (dusk twilight dark : Bool) : Nat := if dark then 3 else if twilight then 2 else if dusk then 1 else 0

/-- The data target of a function (R242), with perception's level as just set. -/
def State.dataTarget (s : State) (f perception : Nat) : Nat :=
  let priv := s.streamPairs.filter (fun p => p.1.privileged)
  let anyUn := priv.any (fun p => !s.usable p.1 p.2)
  let allUn := priv ≠ [] && priv.all (fun p => !s.usable p.1 p.2)
  let anyCont := priv.any (fun p => p.2.contested)
  match f with
  | 0 => deepest (s.below 0 0 || s.regionContested 0 || s.fusion.egos.any (fun e => e.held))
           (s.below 0 1 || anyUn) (s.below 0 2 || allUn)
  | 4 => perception
  | 1 => deepest (decide (1 ≤ perception) || decide (1 ≤ s.fusion.illPosed))
           (decide (2 ≤ perception) || decide (2 ≤ s.fusion.illPosed)) (decide (3 ≤ perception))
  | 2 => deepest (s.below 2 0 || anyCont) (s.below 2 1 || anyUn) (s.below 2 2 || allUn)
  | _ => deepest (s.below 3 0 || s.regionContested 3) (s.below 3 1) (s.below 3 2)

/-- One step of a rung towards its target (R244). -/
def rungStep (exit_ target : Nat) (r : Rung) : Rung :=
  if r.level < target then { r with level := target, run := 0, deep := 0 }
  else if target = r.level then { r with run := 0, deep := 0 }
  else
    let run := r.run + 1
    let deep := max r.deep target
    if run = exit_ then { r with level := deep, run := 0, deep := 0 } else { r with run := run, deep := deep }

/-- The body of a LEVEL_CHANGE record (R84). -/
def levelBody (f old new reason : Nat) : Bytes := leBytes 1 f ++ leBytes 1 old ++ leBytes 1 new ++ leBytes 1 reason

/-- One function's evaluation at step `n` (R243–R245): a reason-0 record for a change that the data cause. -/
def State.ladderOne (n : Nat) (s : State) (f : Nat) : State :=
  let perception := (s.fusion.rungs.getD 0 default).level
  let r := s.fusion.rungs.getD f default
  let data := s.dataTarget f perception
  let r' := rungStep s.exitSteps (max data r.floor) r
  let s := { s with fusion := { s.fusion with rungs := s.fusion.rungs.set f r' } }
  if r'.level = r.level then s
  else
    let s := if r.level < r'.level then s.fusionEvent 5 else s
    if r.level < r'.level ∧ data < r'.level then s
    else s.record kLevelChange 0 0 n (levelBody f r.level r'.level 0)

/-- A floor changes: written with reason 1 (R245). -/
def State.setFloor (s : State) (f floor : Nat) : State :=
  let r := s.fusion.rungs.getD f default
  if r.floor = floor then s
  else
    let s := { s with fusion := { s.fusion with rungs := s.fusion.rungs.set f { r with floor := floor } } }
    s.record kLevelChange 0 0 s.stepNow (levelBody f r.floor floor 1)

/-- A schedule for the loss of a compute die runs (R243, R558). -/
def State.dieLossRuns (s : State) : Bool :=
  s.faults.dieFloor || (s.inRun && (s.faults.schedule == 13 || s.faults.schedule == 14))

/-- The floor of a function that the units in service and the recovery windows impose (R243, R562, R568). -/
def State.floorOf (s : State) (f : Nat) : Nat := if s.dieLossRuns || s.faults.floorFns.contains f then 1 else 0

/-- Floors follow what imposes them. -/
def State.refreshFloors (s : State) : State := (List.range 5).foldl (fun s f => s.setFloor f (s.floorOf f)) s

/-- An ego entry before its first estimate: the identity pose with no covariance and no history. -/
def startEgo : EgoState := ⟨[0x3FF0000000000000, 0, 0, 0], [0, 0, 0], List.replicate 36 0, 0, [], [], false, false, 0⟩

/-! Grid fusion. -/

/-- The contribution sums of one cell and channel: (W, S) beyond streams in ascending index (R232). -/
def fuseCell (conf : Nat → Nat) (maps : List (Nat × List (Nat × List Nat))) (cell ch : Nat) : Nat :=
  let ws := maps.foldl (fun a m =>
    match lookupKey cell m.2 with
    | some vs =>
      let w := conf m.1
      (fAdd fp32 a.1 w, fFma fp32 w (vs.getD ch 0) a.2)
    | none => a) (0, 0)
  if (fltInt 0).lt (fltOf fp32 ws.1) then fDiv fp32 ws.2 ws.1 else 0

/-- The byte offset of a grid cell from the grid's base (R27). -/
def gridOffset (cols : Nat) (bf : Bool) (col row : Nat) : Nat :=
  let rows := if bf then 16 else 32
  let tile := (row / rows) * ceilDiv cols 32 + col / 32
  tile * tileBytes + ((row % rows) * 32 + col % 32) * (if bf then 64 else 32)

/-- The byte offset of a cell's 16-bit entry in a raster of 128 × 128 tiles (R200, R233). -/
def rasterOffset (cols col row : Nat) : Nat :=
  ((row / 128) * ceilDiv cols 128 + col / 128) * tileBytes + ((row % 128) * 128 + col % 128) * 2

/-- An INT8 grid value and whether it saturated (R233). -/
def gridInt8 (f scale : Nat) : Nat × Bool :=
  let q := (fltOf fp32 (fMul fp32 f scale)).roundInt
  if q < -127 then (ofSigned 8 (-127), true) else if 127 < q then (127, true) else (ofSigned 8 q, false)

end Sys2Proof.Machine
end

