-- ==== Sys2Proof/Machine/Drain.lean ====
section
/-! DEFINITION. The drain of the tensor arrays (R113–R122): conversion, vector operations, table functions, the
reduction tree, softmax and normalisations, and the derived distributions. -/

namespace Sys2Proof.Machine

/-- A drain result with the saturations on the way to it (R117). -/
structure DVal where
  v : Nat
  sat : Nat

/-- A value that carries no saturation of its own. -/
def DVal.pure (v : Nat) : DVal := ⟨v, 0⟩

/-- A value with the saturations of others added. -/
def DVal.plus (a : DVal) (bs : List DVal) : DVal := ⟨a.v, a.sat + (bs.map (·.sat)).foldl (· + ·) 0⟩

def canonNan32 : Nat := 0x7FC00000

/-- The canonical NaN as a drain result: a result that stays NaN is counted when it is written (R117). -/
def DVal.nan : DVal := .pure canonNan32

def largest32 : Nat := 0x7F7FFFFF
def negLargest32 : Nat := 0xFF7FFFFF
def fpOne : Nat := 0x3F800000

def fpNan (x : Nat) : Bool := (fltOf fp32 x).isNan
def fpLess (a b : Nat) : Bool := (fltOf fp32 a).lt (fltOf fp32 b)

/-- One FP32 operation of the drain: NaN operands give the canonical NaN, results saturate (R118). -/
def dOp (xs : List Nat) (r : Flt) : DVal :=
  if xs.any fpNan || r.isNan then .nan
  else
    let q := roundSat fp32 r
    ⟨q.1, b2n q.2⟩

def dAdd (a b : Nat) : DVal := dOp [a, b] ((fltOf fp32 a).add (fltOf fp32 b))
def dSub (a b : Nat) : DVal := dOp [a, b] ((fltOf fp32 a).sub (fltOf fp32 b))
def dMul (a b : Nat) : DVal := dOp [a, b] ((fltOf fp32 a).mul (fltOf fp32 b))
def dFma (a b c : Nat) : DVal := dOp [a, b, c] (((fltOf fp32 a).mul (fltOf fp32 b)).add (fltOf fp32 c))
def dMax (a b : Nat) : DVal := if fpNan a || fpNan b then .nan else .pure (if fpLess a b then b else a)
def dMin (a b : Nat) : DVal := if fpNan a || fpNan b then .nan else .pure (if fpLess b a then b else a)

/-- Composition: an operation on the value of one result, keeping its counts. -/
def DVal.bind (a : DVal) (f : Nat → DVal) : DVal := (f a.v).plus [a]

/-! Table functions (R119). -/

/-- Coefficient `c` (0 origin, 1 to 4 c₀ to c₃) of a segment of the image's tables. -/
def tableCoeff (img : Image) (fn seg c : Nat) : Nat :=
  match img.fnTables.find? (fun e => e.fn == fn && e.segment == seg) with
  | some e => match c with | 0 => e.x0 | 1 => e.c0 | 2 => e.c1 | 3 => e.c2 | _ => e.c3
  | none => Config.tableEntry fn seg c

/-- p of a segment at the exact x′. -/
def tableEval (img : Image) (fn seg : Nat) (x : Flt) : DVal :=
  let t := tableCoeff img fn seg
  let r := roundInf fp32 (x.sub (fltOf fp32 (t 0)))
  (dFma (t 4) r (t 3)).bind (fun p => (dFma p r (t 2)).bind (fun p => dFma p r (t 1)))

/-- ⌊(x − lo) × n / width⌋ of a value within [lo, lo + width): the segment of n equal ones. -/
def segmentOf (x : Flt) (lo : Int) (n width : Nat) : Nat :=
  (((x.sub (fltInt lo)).mul (fltInt n)).div (fltInt width)).floorInt.toNat

def ge32 (x : Nat) (i : Int) : Bool := (fltInt i).le (fltOf fp32 x)
def below32 (x : Nat) (i : Int) : Bool := (fltOf fp32 x).lt (fltInt i)

def fnExp2 (img : Image) (x : Nat) : DVal :=
  if fpNan x then .nan
  else if ge32 x 128 then ⟨largest32, 1⟩
  else if below32 x (-150) then .pure 0
  else
    let n := (fltOf fp32 x).floorInt
    let x' := (fltOf fp32 x).sub (fltInt n)
    (tableEval img 1 (segmentOf x' 0 16 1) x').bind (fun p => dOp [p] ((fltOf fp32 p).scale n))

def fnExp (img : Image) (x : Nat) : DVal := (dMul x 0x3FB8AA3B).bind (fnExp2 img)

def fnLog2 (img : Image) (x : Nat) : DVal :=
  let v := fltOf fp32 x
  if v.isNan then .nan
  else if v.eqv (fltInt 0) then ⟨negLargest32, 1⟩
  else if v.lt (fltInt 0) then .nan
  else
    let q := v.split
    (tableEval img 3 (segmentOf q.2 1 32 1) q.2).bind (fun p => dAdd p (fOfInt fp32 q.1))

/-- LOG (R119): of 0 the product too, the largest finite value negated times ln 2 (DESIGN CHOICE, assumption 85). -/
def fnLog (img : Image) (x : Nat) : DVal := (fnLog2 img x).bind (fun y => dMul y 0x3F317218)

/-- RSQRT (R119), its 64 segments of equal width on [1, 4) (DESIGN CHOICE, assumption 85). -/
def fnRsqrt (img : Image) (x : Nat) : DVal :=
  let v := fltOf fp32 x
  if v.isNan then .nan
  else if v.eqv (fltInt 0) then ⟨largest32, 1⟩
  else if v.lt (fltInt 0) then .nan
  else
    let q := v.split
    let odd := q.1 % 2 ≠ 0
    let e := if odd then q.1 - 1 else q.1
    let m := if odd then q.2.scale 1 else q.2
    (tableEval img 5 (segmentOf m 1 64 3) m).bind (fun p => dOp [p] ((fltOf fp32 p).scale (-(e / 2))))

def fnRecip (img : Image) (x : Nat) : DVal :=
  let v := fltOf fp32 x
  if v.isNan then .nan
  else if v.eqv (fltInt 0) then ⟨if x < 2 ^ 31 then largest32 else negLargest32, 1⟩
  else
    let q := v.split
    (tableEval img 6 (segmentOf q.2 1 32 1) q.2).bind (fun p =>
      let r := (fltOf fp32 p).scale (-q.1)
      dOp [p] (if x < 2 ^ 31 then r else r.neg))

def fnSigmoid (img : Image) (x : Nat) : DVal :=
  if fpNan x then .nan
  else if below32 x (-16) then fnExp img x
  else if ge32 x 16 then .pure fpOne
  else tableEval img 7 (segmentOf (fltOf fp32 x) (-16) 64 32) (fltOf fp32 x)

def fnTanh (img : Image) (x : Nat) : DVal :=
  if fpNan x then .nan
  else if below32 x (-9) then .pure 0xBF800000
  else if ge32 x 9 then .pure fpOne
  else tableEval img 8 (segmentOf (fltOf fp32 x) (-9) 72 18) (fltOf fp32 x)

def fnGelu (img : Image) (x : Nat) : DVal :=
  if fpNan x then .nan
  else if below32 x (-8) then .pure 0
  else if ge32 x 8 then .pure x
  else tableEval img 9 (segmentOf (fltOf fp32 x) (-8) 64 16) (fltOf fp32 x)

def fnSilu (img : Image) (x : Nat) : DVal := (fnSigmoid img x).bind (fun y => dMul x y)

def fnSoftplus (img : Image) (x : Nat) : DVal :=
  if fpNan x then .nan
  else if below32 x (-16) then fnExp img x
  else if ge32 x 16 then .pure x
  else tableEval img 11 (segmentOf (fltOf fp32 x) (-16) 64 32) (fltOf fp32 x)

/-- PROBIT (R119), the segments of [−24, −1) numbered 0 to 45 and those of [−150, −24) 46 to 108 (DESIGN CHOICE,
assumption 85). -/
def fnProbit (img : Image) (u : Nat) : DVal :=
  let v := fltOf fp32 u
  if v.isNan || v.le (fltInt 0) || (fltInt 1).le v then .nan
  else
    let low := v.lt (fltOf fp32 0x3F000000)
    let w := fSub fp32 fpOne u
    let s := if fpLess w u then w else u
    (fnLog2 img s).bind (fun t =>
      if t = 0xBF800000 then .pure 0
      else
        let y := fltOf fp32 t
        let seg := if below32 t (-24) then 46 + segmentOf y (-150) 63 126 else segmentOf y (-24) 46 23
        (tableEval img 12 seg y).bind (fun p => .pure (if low then fNeg fp32 p else p)))

/-- A unary function by its code (R131). -/
def drainFn (img : Image) (fn x : Nat) : DVal :=
  match fn with
  | 1 => fnExp2 img x
  | 2 => fnExp img x
  | 3 => fnLog2 img x
  | 4 => fnLog img x
  | 5 => fnRsqrt img x
  | 6 => fnRecip img x
  | 7 => fnSigmoid img x
  | 8 => fnTanh img x
  | 9 => fnGelu img x
  | 10 => fnSilu img x
  | 11 => fnSoftplus img x
  | 12 => fnProbit img x
  | _ => .pure x

/-! The reduction tree (R120). -/

def pairVals (op : Nat → Nat → DVal) : List DVal → List DVal
  | a :: b :: xs => (op a.v b.v).plus [a, b] :: pairVals op xs
  | xs => xs

def treeLevels (op : Nat → Nat → DVal) : Nat → List DVal → List DVal
  | 0, xs => xs
  | n + 1, xs => treeLevels op n (pairVals op xs)

def padVals (n ident : Nat) (xs : List DVal) : List DVal := xs ++ List.replicate (n - xs.length) (.pure ident)

def chunkVals : Nat → List DVal → List (List DVal)
  | 0, _ => []
  | n + 1, xs => xs.take 512 :: chunkVals n (xs.drop 512)

/-- The fixed tree over a vector. -/
def drainTree (op : Nat → Nat → DVal) (ident : Nat) (xs : List DVal) : DVal :=
  let parts := (chunkVals (ceilDiv xs.length 512) xs).map (fun c =>
    (treeLevels op 9 (padVals 512 ident c)).headD (.pure ident))
  let k := Nat.log2 (max 1 (2 * parts.length - 1))
  (treeLevels op k (padVals (2 ^ k) ident parts)).headD (.pure ident)

def drainSum (xs : List Nat) : DVal := drainTree dAdd 0 (xs.map .pure)
def drainMax (xs : List Nat) : DVal := drainTree dMax negLargest32 (xs.map .pure)
def drainMin (xs : List Nat) : DVal := drainTree dMin largest32 (xs.map .pure)

/-- The places of a vector by falling value, of equal values the lower first (R123). -/
def sortedPlaces (xs : List Nat) : List Nat :=
  let before (a b : Nat × Nat) : Bool := fpLess b.2 a.2 || (!fpLess a.2 b.2 && decide (a.1 ≤ b.1))
  ((List.zip (List.range xs.length) xs).foldl (fun out p => insertSorted before p out) []).map (·.1)

/-- The lowest index of the largest element (R123). -/
def argMax (xs : List Nat) : Nat :=
  ((List.zip (List.range xs.length) xs).foldl (fun best p => if fpLess best.2 p.2 then p else best) (0, xs.headD 0)).1

/-! Softmax and normalisations (R121). Counts of a step are kept on its first result. -/

/-- The counts of several results moved onto the first of a list. -/
def addCost (cost : List DVal) : List DVal → List DVal
  | [] => []
  | y :: ys => y.plus cost :: ys

def softmax (img : Image) (xs : List Nat) : List DVal :=
  let mu := drainMax xs
  let es := xs.map (fun x => (dSub x mu.v).bind (fnExp img))
  let s := drainSum (es.map (·.v))
  let r := fnRecip img s.v
  addCost (mu :: s :: r :: es) (es.map (fun e => dMul e.v r.v))

/-- Layer (with the mean) or RMS normalisation with ε, γ and β. -/
def normalise (img : Image) (mean : Bool) (eps : Nat) (xs gammas betas : List Nat) : List DVal :=
  let cn := fDiv fp32 fpOne (fOfInt fp32 xs.length)
  let s := drainSum xs
  let m := dMul s.v cn
  let ds := xs.map (fun x => if mean then dSub x m.v else .pure x)
  let sq := ds.map (fun d => dMul d.v d.v)
  let v0 := drainSum (sq.map (·.v))
  let v := dMul v0.v cn
  let ve := dAdd v.v eps
  let g := fnRsqrt img ve.v
  let ys := (List.zip ds (List.zip gammas betas)).map (fun p => (dMul p.1.v g.v).bind (fun t => dFma t p.2.1 p.2.2))
  addCost ((if mean then [s, m] else []) ++ ds ++ sq ++ [v0, v, ve, g]) ys

/-! Conversion of an entry (R113–R116). -/

/-- The float format of a code of R132. -/
def floatFmt (code : Nat) : Option FloatFmt :=
  match code with
  | 8 => some e4m3
  | 9 => some e5m2
  | 0xA => some bf16
  | 0xB => some fp16
  | 0xC => some fp32
  | _ => none

/-- A result as it is written: its saturations, and 1 for a non-finite one (R117). -/
structure DOut where
  v : Nat
  sat : Nat
  nf : Nat

/-- An exact integer with its scale exponent, in a target format (R113). -/
def drainConvert (f : FloatFmt) (nf : Bool) (x : Int) (k : Int) : DOut :=
  if nf then ⟨f.nanBits, 0, 1⟩
  else
    let q := roundSat f (fltScaled x k)
    ⟨q.1, b2n q.2, 0⟩

/-- An entry in FP32, for the drain's vector operations. -/
def drainValue (nf : Bool) (x : Int) (k : Int) : DVal :=
  let y := drainConvert fp32 nf x k
  ⟨y.v, y.sat⟩

/-- An FP32 result stored in a target format. -/
def DVal.narrow (f : FloatFmt) (x : DVal) : DOut :=
  if fpNan x.v then ⟨f.nanBits, x.sat, 1⟩
  else
    let q := roundSat f (fltOf fp32 x.v)
    ⟨q.1, x.sat + b2n q.2, 0⟩

/-- An integer target of `w` bits with multiplier, shift and zero point (R115, R116). -/
def drainInt (w : Nat) (nf : Bool) (x k mult : Int) (sh : Nat) (zero : Int) : DOut :=
  if nf then ⟨2 ^ (w - 1), 0, 1⟩
  else
    let y := (fltScaled (x * mult) (k - (sh : Int))).roundInt + zero
    let top : Int := ((2 ^ (w - 1) - 1 : Nat) : Int)
    let z := if y < -top then -top else if top < y then top else y
    ⟨ofSigned w z, b2n (z != y), 0⟩

/-! Distributions (R75, R122). -/

/-- A uniform FP32 value of a word. -/
def uniform32 (w : Nat) : Nat := roundInf fp32 (fltScaled (w / 256 : Nat) (-24))

/-- A uniform FP64 value of two words. -/
def uniform64 (u v : Nat) : Nat := roundInf fp64 (fltScaled ((u * 2 ^ 21 + v / 2 ^ 11 : Nat) : Int) (-53))

def bernoulli (w p : Nat) : Nat := b2n (decide ((w : Int) < ((fltOf fp32 p).scale 32).floorInt))

/-- A standard normal value of a word. -/
def normal01 (img : Image) (w : Nat) : DVal := fnProbit img (roundInf fp32 (fltScaled ((w / 256 ||| 1 : Nat) : Int) (-24)))

def normalDraw (img : Image) (w mu sigma : Nat) : DVal := (normal01 img w).bind (fun z => dFma sigma z mu)

/-- The running sums of weights. -/
def runningSums : Nat → List Nat → List Nat
  | _, [] => []
  | c, p :: ps =>
    let c' := (dAdd c p).v
    c' :: runningSums c' ps

def categorical (w : Nat) (weights : List Nat) : Nat :=
  let cs := match weights with | [] => [] | p :: ps => p :: runningSums p ps
  let t := (dMul (uniform32 w) (cs.getLast?.getD 0)).v
  (cs.findIdx? (fun c => fpLess t c)).getD (weights.length - 1)

/-- An element under dropout with keep probability p. -/
def dropout (w p x : Nat) : DVal := if bernoulli w p = 1 then dMul x (fDiv fp32 fpOne p) else .pure 0

end Sys2Proof.Machine
end

