-- ==== Sys2Proof/Machine/Matrix.lean ====
section
/-! DEFINITION. FP64 vectors and matrices of the track engine, the map engine and the solver, with the orders of
operation the manual fixes (R212, R253, R259), and compiled FP64 sequences. -/

namespace Sys2Proof.Machine

abbrev FVec := List Nat
abbrev FMat := List FVec

abbrev add64 := fAdd fp64
abbrev sub64 := fSub fp64
abbrev mul64 := fMul fp64
abbrev div64 := fDiv fp64
abbrev fma64 := fFma fp64
def neg64 (a : Nat) : Nat := fNeg fp64 a
def int64 (i : Int) : Nat := fOfInt fp64 i
def one64 : Nat := 0x3FF0000000000000
def half64 : Nat := 0x3FE0000000000000
def lt64 (a b : Nat) : Bool := (fltOf fp64 a).lt (fltOf fp64 b)
def le64 (a b : Nat) : Bool := (fltOf fp64 a).le (fltOf fp64 b)
def isFin64 (a : Nat) : Bool := (fltOf fp64 a).isFinite
def allFin64 (v : FVec) : Bool := v.all isFin64

def vget (v : FVec) (i : Nat) : Nat := v.getD i 0
def mget (m : FMat) (i j : Nat) : Nat := vget (m.getD i []) j
def mkMat (r c : Nat) (f : Nat → Nat → Nat) : FMat := (List.range r).map (fun i => (List.range c).map (fun j => f i j))
def mkVec (n : Nat) (f : Nat → Nat) : FVec := (List.range n).map f

/-- A sum of products over an inner index, a chain of fma from the first term (R259). -/
def chain64 : List (Nat × Nat) → Nat
  | [] => 0
  | (a, b) :: xs => xs.foldl (fun acc p => fma64 p.1 p.2 acc) (mul64 a b)

def cols (m : FMat) : Nat := (m.headD []).length
def tr (m : FMat) : FMat := mkMat (cols m) m.length (fun i j => mget m j i)
def mm (a b : FMat) : FMat :=
  mkMat a.length (cols b) (fun i j => chain64 ((List.range b.length).map (fun k => (mget a i k, mget b k j))))
def mv (a : FMat) (x : FVec) : FVec :=
  a.map (fun row => chain64 ((List.range x.length).map (fun k => (vget row k, vget x k))))
def madd (a b : FMat) : FMat := mkMat a.length (cols a) (fun i j => add64 (mget a i j) (mget b i j))
def msub (a b : FMat) : FMat := mkMat a.length (cols a) (fun i j => sub64 (mget a i j) (mget b i j))
def vadd (a b : FVec) : FVec := mkVec a.length (fun i => add64 (vget a i) (vget b i))
def vsub (a b : FVec) : FVec := mkVec a.length (fun i => sub64 (vget a i) (vget b i))
def eyeMat (n : Nat) : FMat := mkMat n n (fun i j => if i = j then one64 else 0)
def diagMat (v : FVec) : FMat := mkMat v.length v.length (fun i j => if i = j then vget v i else 0)

/-- P(i, j) = P(j, i) = (P(i, j) + P(j, i)) × 0.5 (R259). -/
def symm (m : FMat) : FMat :=
  mkMat m.length m.length (fun i j => if i = j then mget m i j else mul64 (add64 (mget m i j) (mget m j i)) half64)

/-- A full symmetric matrix from its upper triangle, row by row. -/
def fromUpper (n : Nat) (u : FVec) : FMat :=
  let at_ (i j : Nat) : Nat := vget u (i * n - i * (i + 1) / 2 + j)
  mkMat n n (fun i j => if i ≤ j then at_ i j else at_ j i)

/-- The upper triangle of a matrix, row by row. -/
def toUpper (m : FMat) : FVec :=
  (List.range m.length).flatMap (fun i => (List.range (m.length - i)).map (fun j => mget m i (i + j)))

/-- a − Σ xₖ·yₖ, each term by fma in ascending order. -/
def subChain (a : Nat) (xs : List (Nat × Nat)) : Nat := xs.foldl (fun acc p => fma64 (neg64 p.1) p.2 acc) a

/-- One column j of the Cholesky factor of S, given the columns before it; `none` when its pivot is not above `floor`. -/
def cholCol (s : FMat) (n : Nat) (floor : Nat) (ls : List FVec) (j : Nat) : Option FVec :=
  let term (i : Nat) : Nat := subChain (mget s i j) (ls.map (fun c => (vget c i, vget c j)))
  let piv := term j
  if lt64 floor piv then
    let d := fSqrt fp64 piv
    some (mkVec n (fun i => if i < j then 0 else if i = j then d else div64 (term i) d))
  else none

/-- The columns of the Cholesky factor, ascending (R259); fails at a pivot ≤ 0. -/
def cholCols (s : FMat) (n : Nat) : Nat → List FVec → Option (List FVec)
  | 0, ls => some ls
  | k + 1, ls =>
    match cholCol s n 0 ls ls.length with
    | some c => cholCols s n k (ls ++ [c])
    | none => none

/-- L with S = L·Lᵀ, as a list of columns. -/
def cholesky (s : FMat) : Option (List FVec) := cholCols s s.length s.length []

/-- L⁻¹·b by forward substitution. -/
def forwardSub (ls : List FVec) (b : FVec) : FVec :=
  (List.range ls.length).foldl (fun y i =>
    let v := subChain (vget b i) ((List.range i).map (fun k => (vget (ls.getD k []) i, vget y k)))
    y ++ [div64 v (vget (ls.getD i []) i)]) []

/-- L⁻ᵀ·y by back substitution, indices descending. -/
def backSub (ls : List FVec) (y : FVec) : FVec :=
  let n := ls.length
  ((List.range n).foldl (fun (acc : FVec) t =>
    let i := n - 1 - t
    -- acc holds x(i+1) … x(n−1), ascending
    let v := subChain (vget y i) ((List.range t).map (fun k => (vget (ls.getD i []) (i + 1 + k), vget acc k)))
    div64 v (vget (ls.getD i []) i) :: acc) [])

/-- S⁻¹·b by two triangular solves. -/
def cholSolve (ls : List FVec) (b : FVec) : FVec := backSub ls (forwardSub ls b)

/-- The squared norm of a vector, terms ascending. -/
def sqNorm (v : FVec) : Nat := chain64 (v.map (fun a => (a, a)))

/-- The natural logarithm in FP64 by the tables of the image (R212); `none` where it is absent. -/
def ln64 (ver x : Nat) : Option Nat :=
  let v := fltOf fp64 x
  if !v.isFinite || !(fltInt 0).lt v then none
  else
    let s := v.split
    let p := Config.log2Mant64 ver (roundInf fp64 s.2)
    some (mul64 (add64 (int64 s.1) p) 0x3FE62E42FEFA39EF)

/-! Compiled FP64 sequences. -/

def fpStep (ver : Nat) (vals : List Nat) (s : FpStep) : Nat :=
  let a := vals.getD s.a nanBits64
  let b := vals.getD s.b nanBits64
  let c := vals.getD s.c nanBits64
  match s.op with
  | .add => add64 a b
  | .sub => sub64 a b
  | .mul => mul64 a b
  | .div => div64 a b
  | .sqrt => fSqrt fp64 a
  | .fma => fma64 a b c
  | .neg => neg64 a
  | .sin => Config.sin64 ver a
  | .cos => Config.cos64 ver a
  | .atan2 => Config.atan264 ver a b
  | .log => (ln64 ver a).getD nanBits64
where
  /-- The canonical NaN. -/
  nanBits64 : Nat := 0x7FF8000000000000

/-- The outputs of a sequence on its inputs, in the order compiled. -/
def runProg (ver : Nat) (p : FpProg) (inputs : List Nat) : List Nat :=
  let vals := p.steps.foldl (fun vals s => vals ++ [fpStep ver vals s]) (inputs ++ p.consts)
  p.outs.map (fun i => vals.getD i 0)

end Sys2Proof.Machine
end

