-- ==== Sys2Proof/Machine/Recovery.lean ====
section
/-! DEFINITION. Errors, containment regions, re-execution, schedules and repair (R79, R483–R486, R554–R570): what every
engine calls when it meets an error, and what the runtime does with an error record. -/

namespace Sys2Proof.Machine

def regionClass (r : Nat) : Nat := r / 4096
def regionInst (r : Nat) : Nat := r % 4096
def arrayRegion (n : Nat) : Nat := n
def visionRegion (v e : Nat) : Nat := 0x1000 + 4 * v + e
def portRegion (n : Nat) : Nat := 0x5000 + n
def pairRegion (n : Nat) : Nat := 0x6000 + n
def laneRegion (k : Nat) : Nat := 0x7000 + k
def securityRegion : Nat := 0x8000
def engineRegion (i : Nat) : Nat := 0x9000 + i
def dieRegion (d : Nat) : Nat := 0xA000 + d

def State.isOut (s : State) (r : Nat) : Bool := s.faults.out.contains r

/-- The die of an array or a vision cluster (R13): arrays 2i and 2i + 1 and `VISION_i` are on `C_i`. -/
def unitDie (r : Nat) : Option Nat :=
  if regionClass r = 0 then some (1 + regionInst r / 2)
  else if regionClass r = 1 then some (1 + regionInst r / 4)
  else none

/-- A unit is in service: neither out itself nor on a lost die. -/
def State.inService (s : State) (r : Nat) : Bool :=
  !s.isOut r && (match unitDie r with | some d => !s.isOut (dieRegion d) | none => true)

/-! Stages and the safe state (R506, R563). -/

def State.setStage (s : State) (c : Nat) : State :=
  { s with power := { s.power with stage := c, statusPins := c } }

/-- Codes 6 and 7 while a run has passed a step edge (R506). -/
def State.refreshStage (s : State) : State :=
  match s.steps.run with
  | some r => if s.power.safe ∨ r.edges = 0 then s else s.setStage (if s.faults.out = [] then 6 else 7)
  | none => s

/-- A pulse output that is idle. -/
def idleOut (t : TimeOut) : TimeOut := { t with prog := none, high := false }

/-- The safe state (R506): `DEV_FAULT_N` asserted, pulse outputs idle. -/
def State.enterSafe (s : State) (code : Nat) : State :=
  let s := s.setStage code
  { s with
    power := { s.power with safe := true, devFault := true }
    time := { s.time with tout := s.time.tout.map idleOut } }

/-! Schedules (R558). -/

/-- The units a schedule runs without. -/
def scheduleUnits (i : Nat) : List Nat :=
  if i = 0 then []
  else if i ≤ 4 then [arrayRegion (i - 1)]
  else if i ≤ 12 then [0x1000 + (i - 5)]
  else
    let d := i - 13
    [dieRegion (d + 1), arrayRegion (2 * d), arrayRegion (2 * d + 1)] ++ (List.range 4).map (visionRegion d)

/-- A schedule covers the regions out of service: arrays, vision engines and dies. -/
def scheduleCovers (out : List Nat) (i : Nat) : Bool :=
  out.all (fun r =>
    (regionClass r != 0 && regionClass r != 1 && regionClass r != 0xA) || (scheduleUnits i).contains r)

/-- The lowest index that covers the regions out of service (R558). -/
def State.selectSchedule (s : State) (out : List Nat) : Option Nat :=
  match s.steps.image with
  | none => none
  | some img => (List.range 15).find? (fun i => img.schedules.contains i && scheduleCovers out i)

def faultEvents : Nat := 0xE00008

/-- A fault event and vector 0 (R579, R497). -/
def State.faultEvent (s : State) (bit : Nat) : State :=
  s.event faultEvents bit (s.fld ⟨0xE00004, 0, 1⟩ == 1) 0

/-- A new schedule applies (R559); its windows do from its first step edge (R163). -/
def State.setSchedule (s : State) (i : Nat) : State :=
  if s.faults.schedule = i then s
  else
    let s := { s with faults := { s.faults with schedule := i } }
    (s.satReg 0xE0003C 1).faultEvent 3

/-! Error records (R556). -/

def noSeq : Nat := 2 ^ 64 - 1

/-- The mask of the cadences of occurrences. -/
def cadenceMask (occs : List (Nat × Nat)) : Nat := maskOf (occs.map (·.1))

/-- The 80 bytes of an error record. -/
def State.errorBytes (s : State) (e : ErrRec) (action cause attempt : Nat) (occs : List (Nat × Nat))
    (related count step : Nat) (detail : Bytes) : Bytes :=
  leBytes 8 e.seq ++ fullTimeBytes e.time ++ leBytes 2 e.region ++ leBytes 1 e.kind ++ leBytes 1 action ++
    leBytes 1 cause ++ leBytes 1 attempt ++ leBytes 1 (if s.inRun then s.faults.schedule else 0xFF) ++ leBytes 1 0 ++
    leBytes 2 (cadenceMask occs) ++ leBytes 2 0 ++ leBytes 8 step ++ leBytes 8 e.address ++ leBytes 8 related ++
    leBytes 4 count ++ leBytes 4 0 ++ fitBytes 16 detail

/-- A FAULT record (R84, R556). -/
def State.faultRecord (s : State) (e : ErrRec) (action cause attempt : Nat) (occs : List (Nat × Nat)) (related : Nat)
    (step : Nat) : State :=
  s.record kFault 0 cause step (s.errorBytes e action cause attempt occs related 1 step e.detail)

/-- A fresh error record that enters no queue (R511, R550, R567): its number is taken. -/
def State.newError (s : State) (region kind : Nat) : ErrRec × State :=
  let t := s.setReg64 0xE00040 s.faults.nextSeq
  (⟨s.faults.nextSeq, s.now, region, kind, 0, 0, 1, [], [], []⟩,
   { t with faults := { t.faults with nextSeq := (t.faults.nextSeq + 1) % 2 ^ 64 } })

/-! Re-execution (R79). -/

def recoveryBody (k attempt seq : Nat) : Bytes := leBytes 1 k ++ leBytes 1 attempt ++ leBytes 6 0 ++ leBytes 8 seq

def State.updOcc (s : State) (k n : Nat) (f : Occurrence → Occurrence) : State :=
  let one (o : Occurrence) : Occurrence := if o.cadence = k ∧ o.step = n then f o else o
  { s with steps := { s.steps with occs := s.steps.occs.map one } }

/-- The occurrence (k, n), when its work has begun and not committed. -/
def State.liveOcc (s : State) (p : Nat × Nat) : Option Occurrence :=
  s.steps.occs.find? (fun o => o.cadence == p.1 && o.step == p.2 && o.begun)

/-- The stall of a re-execution or restart (R79, R559): the time since the admission close that is worked again. -/
def State.recoveryStall (s : State) (o : Occurrence) : State :=
  s.endStall { cause := 6, dies := [1, 2, 3], cadence := o.cadence, step := o.step, tenant := 0, ns := (s.now - o.close) / nsUnits }

/-- One re-execution attempt of an occurrence: checkpoint restored, RECOVERY record, counted (R79). -/
def State.reexecute (s : State) (faultSeq : Nat) (p : Nat × Nat) : State :=
  match s.liveOcc p with
  | none => s
  | some o =>
    let s := (s.restore p.1 p.2).updOcc p.1 p.2 (fun o => { o with attempts := o.attempts + 1 })
    let s := s.addReg64 0x10298 1
    (s.record kRecovery 0 0 p.2 (recoveryBody p.1 (o.attempts + 1) faultSeq)).recoveryStall o

/-- The compiled end of an occurrence of cadence `k` that closed at `close`, on the schedule in force (R69, R561). -/
def State.compiledEndOf (s : State) (k close : Nat) : Nat :=
  close + ((s.cadences.getD k default).compiledUs.getD s.faults.schedule 0) * usUnits

/-- An occurrence on the schedule in force. -/
def State.onSchedule (s : State) (o : Occurrence) : Occurrence :=
  { o with schedule := s.faults.schedule, compiledEnd := s.compiledEndOf o.cadence o.close }

/-- A restart of every uncommitted occurrence on the current schedule (R559): no attempt, no RECOVERY record. -/
def State.restartAll (s : State) : State :=
  s.steps.occs.foldl (fun s o =>
    let s := (s.restore o.cadence o.step).updOcc o.cadence o.step s.onSchedule
    if o.begun then s.recoveryStall o else s) s

/-- The uncommitted occurrences among those an error affects. -/
def State.liveOf (s : State) (occs : List (Nat × Nat)) : List (Nat × Nat) :=
  occs.filter (fun p => (s.liveOcc p).isSome)

/-- Occurrences run again once a failed region's unit has left service (R79, R559): one with an attempt left re-executes, and one
without restarts from its checkpoint. -/
def State.rerunAfter (s : State) (faultSeq : Nat) (occs : List (Nat × Nat)) : State :=
  occs.foldl (fun s p =>
    match s.liveOcc p with
    | some o => if o.attempts < 2 then s.reexecute faultSeq p else (s.restore p.1 p.2).recoveryStall o
    | none => s) s

/-- The attempt that re-execution of occurrences starts; 0 where none has one left (R556). -/
def State.attemptOf (s : State) (occs : List (Nat × Nat)) : Nat :=
  (((occs.filterMap s.liveOcc).filter (fun o => decide (o.attempts < 2))).map (fun o => o.attempts + 1)).foldl max 0

/-- A slot of the bank group that a groundsheet region lies in (R144). -/
def inBankGroup (r idx : Nat) : Bool :=
  let g := regionInst r / 1024
  lanternSheet idx == g && lanternSlot idx % sheetGroups g == regionInst r % 1024 / 9

/-- The uncommitted occurrences that an error affects: those it names, those that wrote tiles it destroyed (R163), and those that
wrote tiles of a failed bank's group, which have no other copy (R144). -/
def State.affected (s : State) (e : ErrRec) : List (Nat × Nat) :=
  let tiles := e.lost.flatMap (fun t => s.writersOf (t * tileBytes) tileBytes)
  let bank := if regionClass e.region = 2 ∧ e.kind ≠ 0 then
      (s.checkpoints.filter (fun c => c.undo.any (fun u => (slotsIn u.1 u.2.length).any (inBankGroup e.region)))).map
        (fun c => (c.cadence, c.step))
    else []
  s.liveOf (e.occs ++ tiles ++ bank).eraseDups

def State.allLive (s : State) : List (Nat × Nat) :=
  (s.steps.occs.filter (fun o => o.begun)).map (fun o => (o.cadence, o.step))

/-- A port carries a privileged tether (R568). -/
def State.portPrivileged (s : State) (n : Nat) : Bool :=
  s.streamDecls.any (fun d => d.privileged && (match s.liveSession d.slot with | some x => x.port == n | none => false))

/-- A lane carries a channel of a privileged stream (R568). -/
def State.lanePrivileged (s : State) (k : Nat) : Bool :=
  ((s.steps.image.map (·.channels)).getD []).any (fun c => c.index / 1024 == k &&
    s.streamDecls.any (fun d => d.privileged && d.slot == c.slot && d.stream == c.stream))

/-- The error touches the privileged set (R568). -/
def State.touchesPrivileged (s : State) (region : Nat) (occs : List (Nat × Nat)) : Bool :=
  occs.any (fun p => (s.cadences[p.1]?.map (·.privileged)).getD false) ||
    (regionClass region == 5 && s.portPrivileged (regionInst region)) ||
    (regionClass region == 7 && s.lanePrivileged (regionInst region))

/-- The functions whose outputs occurrences of some cadences produce. -/
def State.functionsOf (s : State) (occs : List (Nat × Nat)) : List Nat :=
  (((s.steps.image.map (·.outputs)).getD []).filter (fun o => occs.any (fun p => p.1 == o.cadence))).map (·.function)

/-- A recovery window opens (R557); two that both touch the privileged set impose a floor (R568). -/
def State.openWindow (s : State) (e : ErrRec) (occs : List (Nat × Nat)) : State :=
  let touch := s.touchesPrivileged e.region occs
  let nested := touch && s.faults.windows.any (fun w => w.touchesPrivileged)
  let fns := if nested then s.functionsOf (occs ++ s.faults.windows.flatMap (·.occs)) else []
  let s := { s with faults := { s.faults with
      windows := if occs = [] then s.faults.windows else s.faults.windows ++ [(⟨e.seq, e.region, occs, touch⟩ : Recovery)]
      floorFns := s.faults.floorFns ++ fns.filter (fun f => !s.faults.floorFns.contains f) } }
  s.refreshFloors

/-! Quarantine (R559). -/

/-- The service ends (R563): a FAULT record with action 6 and the safe state. -/
def State.serviceEnd (s : State) (e : ErrRec) (cause code : Nat) : State :=
  ((s.faultRecord e 6 cause 0 [] noSeq s.stepNow).enterSafe code)

/-- A unit leaves service: its windows close, with the tiles `lost` of them that cannot be read (R163, R559). -/
def State.takeOut (s : State) (r : Nat) (lost : List Nat) : State :=
  if s.isOut r then s
  else ({ s with faults := { s.faults with out := r :: s.faults.out } }.closeWindowsOf r lost).refreshStage

def State.markOut (s : State) (r : Nat) : State := s.takeOut r []

/-- The spare resource of a region: its bank group's, or its line direction's (R144, R21). -/
def spareKey (region : Nat) : Nat :=
  if regionClass region = 2 then 0x2000 + regionInst region / 1024 * 1024 + regionInst region % 1024 / 9
  else 0x4000 + regionInst region / 16

/-- The end of an in-service test (R571): `BIST_RESULT`, the answer and the completion; a unit that passed is returning. -/
def State.finishBist (s : State) (region outcome coverage durUs first : Nat) (ans cause : Nat) : State :=
  match s.faults.bist with
  | none => s
  | some b =>
    let s := (s.setReg 0xE00028 (outcome + min coverage 1023 * 4 + region * 65536)).faultEvent 5
    let back : Option Bist :=
      if ans = served ∧ (outcome = 1 ∨ outcome = 2) ∧ !b.full then some { b with state := 3, command := none } else none
    let s := { s with faults := { s.faults with bist := back } }
    match b.command with
    | some (f, ep) =>
      s.endCritical f f.opcode.toNat ep ans cause 0 (if ans = refused then s.stepNow else b.step)
        (if ans = refused then []
          else leBytes 2 region ++ leBytes 1 outcome ++ leBytes 2 coverage ++ leBytes 4 durUs ++ leBytes 8 first)
    | none => s

/-- A unit is back in service: a management pair as the standby, a bank or lane group without its spare (R560, R570). -/
def State.bringBack (s : State) (r : Nat) : State :=
  let f := s.faults
  let s := { s with faults := { f with
      out := f.out.filter (fun x => x != r)
      unusable := f.unusable.filter (fun x => x != r)
      spares := if regionClass r = 2 ∨ regionClass r = 4 then f.spares.filter (fun k => k != spareKey r) else f.spares } }
  if regionClass r = 6 then
    { s with power := { s.power with
        standby := true, pairsUnusable := s.power.pairsUnusable.filter (fun i => i != regionInst r) } }
  else s

/-- The test is abandoned: the unit is reinitialised and returned at once (R568). -/
def State.abandonBist (s : State) (ans cause : Nat) : State :=
  match s.faults.bist with
  | none => s
  | some b =>
    let s := if b.state = 2 ∧ !b.full then s.bringBack b.region else s
    s.finishBist b.region 0 0 0 0 ans cause

/-- A covering schedule is selected; on a change, uncommitted occurrences restart (R558, R559). -/
def State.reschedule (s : State) (e : ErrRec) (cause related : Nat) (write : Bool) : State :=
  let s := if (s.selectSchedule s.faults.out).isNone && s.faults.bist.isSome then s.abandonBist refused 0x85 else s
  match s.selectSchedule s.faults.out with
  | none =>
    let s := if write then s.faultRecord e 4 0x88 0 [] related s.nextStep else s
    if s.inRun then { s with steps := { s.steps with endRun := true } } else s
  | some i =>
    let changed := i ≠ s.faults.schedule
    let occs := if changed then s.allLive else s.affected e
    let s := s.setSchedule i
    let seq := s.nextTrailSeq
    let s := if write then s.faultRecord e 3 cause (if changed then 0 else s.attemptOf occs) occs related s.stepNow else s
    let s := s.openWindow e occs
    (if changed then s.restartAll else s.rerunAfter seq occs).refreshFloors

/-- The loss of a die (R554, R562, R563). -/
def State.loseDie (s : State) (e : ErrRec) (d cause related : Nat) (write : Bool) : State :=
  let s := (s.markOut (dieRegion d)).faultEvent 7
  if d = 0 then s.serviceEnd e cause 0xB
  else if d = 3 then s.serviceEnd e cause 8
  else
    let s := { s with faults := { s.faults with dieFloor := true } }
    (s.reschedule e cause related write).refreshFloors

/-- The die lost when a guy line's cover is exhausted (R554), in the order of R19. -/
def guyLoss (g : Nat) : Nat := match g with | 0 => 1 | 1 => 2 | 2 => 2 | 3 => 3 | 4 => 1 | _ => 2

/-- The die of a groundsheet code. -/
def sheetDie (g : Nat) : Nat := match g with | 0 => 1 | 1 => 2 | _ => 3

def framesPerPc : Nat := 24576

/-- Frames allocated now. -/
def State.framesUsed (s : State) : Nat := (s.tiers.tiles.filterMap Tile.frame?).length

/-- The tiles of a failed pseudo-channel move to frames of the others (R486). -/
def State.relocatePc (s : State) (p : Nat) : State :=
  s.tiers.tiles.foldl (fun s t =>
    match t.loc, s.objectAt (t.index * tileBytes) with
    | .t3 f, some o =>
      if f % 32 = p then
        let f' := s.pickFrame o t.index
        let move (y : Tile) : Tile := if y.index = t.index then { y with loc := .t3 f' } else y
        { s with tiers := { s.tiers with tiles := s.tiers.tiles.map move } }
      else s
    | _, _ => s) s

def State.startTest (s : State) (r : Nat) : State :=
  { s with faults := { s.faults with testing := s.faults.testing ++ [r] } }

/-- A paired port is covered by the other LAN (R430, R554). -/
def State.portPaired (s : State) (n : Nat) : Bool :=
  s.fld ⟨0x401000 + 0x100 * (n / 2 * 2), 2, 1⟩ == 1 && !s.isOut (portRegion (n ^^^ 1))

/-- Occurrences that an error re-executes with attempt numbers below 3. -/
def State.withAttempts (s : State) (occs : List (Nat × Nat)) : List (Nat × Nat) :=
  occs.filter (fun p => (s.liveOcc p).any (fun o => decide (o.attempts < 2)))

/-- A region is quarantined (R554, R559): its unit leaves service and a spare, another schedule or nothing covers it. -/
def State.quarantine (s : State) (e : ErrRec) (cause related : Nat) (write : Bool) : State :=
  let r := e.region
  let s := (s.satReg 0xE00038 1).faultEvent 2
  let occs := s.affected e
  let again (act : Nat) (s : State) : State :=
    let seq := s.nextTrailSeq
    let s := if write then s.faultRecord e act cause (s.attemptOf occs) occs related s.stepNow else s
    (s.openWindow e occs).rerunAfter seq occs
  match regionClass r with
  | 0 | 1 => (((s.takeOut r e.lost).reschedule e cause related write)).startTest r
  | 2 | 4 =>
    let key := spareKey r
    if s.faults.spares.contains key then
      let s := if regionClass r = 4 then s.markOut r
        else { s with faults := { s.faults with groupsOut := key :: s.faults.groupsOut } }
      s.loseDie e (if regionClass r = 2 then sheetDie (regionInst r / 1024) else guyLoss (regionInst r / 32)) 0x83
        related write
    else
      let s := { s with
        faults := { s.faults with spares := key :: s.faults.spares }
        flash := if regionClass r = 4 then
            { s.flash with repairLog := s.flash.repairLog ++ [⟨1, r, regionInst r % 16⟩] }
          else { s.flash with repairLog := s.flash.repairLog ++ [⟨3, r, regionInst r % 1024⟩] } }
      (again 2 s).startTest r
  | 3 =>
    let s := (s.markOut r).event 0x60000C 5 (s.fld ⟨0x600008, 24, 1⟩ == 1) 6
    if framesPerPc * s.pcsIn.length < s.framesUsed then s.loseDie e 3 0x83 related write
    else (again 2 (s.relocatePc (regionInst r))).startTest r
  | 5 =>
    let act := if s.portPaired (regionInst r) then 2 else 4
    (again act (s.markOut r)).startTest r
  | 9 =>
    if regionInst r = 0 then s.loseDie e 3 cause related write
    else (again 4 (s.markOut r)).startTest r
  | 0xA => s.loseDie e (regionInst r) 0x89 related write
  | 8 =>
    let s := { s.markOut r with sec := { s.sec with quarantined := true } }
    let s := { s with faults := { s.faults with secRetest := true } }
    if write then s.faultRecord e 4 cause 0 [] related s.stepNow else s
  | _ => (again 4 (s.markOut r)).startTest r

/-! Detection (R555, R566, R567). -/

/-- The depth of the error queue is reported (R579). -/
def State.queueDepth (s : State) : State :=
  let d := s.faults.queue.length
  (s.setFld ⟨0xE0000C, 0, 9⟩ d).setFld ⟨0xE0000C, 16, 9⟩ (max d (s.fld ⟨0xE0000C, 16, 9⟩))

/-- Corrected errors as counter events (R588): packs, groundsheet banks, HBM3 channels and guy-line retries. -/
def State.countCorrected (s : State) (region : Nat) : State :=
  let i := regionInst region
  match regionClass region with
  | 0 => s.count (1 + i / 2) 0x14 (i % 2) 1
  | 2 => s.count (i / 1024 + 1) 0x34 (i % 1024 / 9) 1
  | 3 => s.count 3 0x42 (i / 2) 1
  | 4 =>
    let g := i / 32
    let ends := match g with | 0 => [1, 3] | 1 => [2, 3] | 2 => [1, 2] | 3 => [0, 3] | 4 => [0, 1] | _ => [0, 2]
    ends.foldl (fun s d => s.count d 0x58 g 1) s
  | _ => s

/-- An error record is appended to the queue, or its region is quarantined at once when the queue is full. -/
def State.detect (s : State) (region kind cause address : Nat) (detail : Bytes) (occs : List (Nat × Nat))
    (lost : List Nat) (count : Nat) : State :=
  let e : ErrRec := ⟨s.faults.nextSeq, s.now, region, kind, cause, address, count, detail, occs, lost⟩
  let s := s.newError region kind |>.2
  let s := if kind = 0 then s.countCorrected region else s
  let s := if kind = 1 ∨ kind = 2 ∨ kind = 3 then (s.satReg 0xE00034 1).faultEvent 1 else s
  if s.faults.queue.length < 256 then
    { s with faults := { s.faults with queue := s.faults.queue ++ [e] } }.queueDepth
  else
    let s := (s.satReg 0xE00010 1).setFld ⟨0xE0000C, 31, 1⟩ 1
    let first := if s.faults.lostCount = 0 then region else s.faults.lostRegion
    let s := { s with faults := { s.faults with lostCount := s.faults.lostCount + 1, lostRegion := first } }
    s.quarantine e 0x87 noSeq false

/-- A descriptor that hardware refuses to issue (R133, R205, R148): a control error of its unit for the occurrence. -/
def State.badDescriptor (s : State) (region cause : Nat) (ctx : DescCtx) : State :=
  s.detect region 3 cause ctx.addr [] ((s.occOf ctx.cadence).toList.map (fun o => (o.cadence, o.step))) [] 1

/-- A descriptor that breaks R153 at a slot stops with none of its work done: an order error of its unit (R155). -/
def State.orderError (s : State) (region idx : Nat) (ctx : DescCtx) : State :=
  (s.event (0x70000C + 0x10000 * lanternSheet idx) 2 false 0).detect region 3 0 (lanternAddr idx) []
    ((s.occOf ctx.cadence).toList.map (fun o => (o.cadence, o.step))) [] 1

/-- A tile that a unit without descriptors of its own (the hub die, a map-die engine) writes for an occurrence of cadence `k`: it
fills the lantern, or breaks R153 (R155). -/
def State.storeTile (s : State) (region k unit idx : Nat) (bs : Bytes) : State :=
  if s.mayWriteSlot unit idx then (s.fillLantern unit idx).cstore k unit (lanternAddr idx) (fitBytes tileBytes bs)
  else s.orderError region idx ⟨k, lanternAddr idx⟩

/-! HBM3 rows (R485). -/

/-- A tile in a retired frame moves to another frame of its object's channel order. -/
def State.moveFrame (s : State) (t : Tile) : State :=
  match s.objectAt (t.index * tileBytes) with
  | none => s
  | some o =>
    let f := s.pickFrame o t.index
    let move (y : Tile) : Tile := if y.index = t.index then { y with loc := .t3 f } else y
    { s with tiers := { s.tiers with tiles := s.tiers.tiles.map move } }

def State.memEvent (s : State) (bit : Nat) : State := s.event 0x60000C bit (s.fld ⟨0x600008, 24, 1⟩ == 1) 6

/-- A row is repaired: soft repair while its bank group has a spare row, with the traffic of its pseudo-channel held, else its frames
are retired. -/
def State.repairRow (s : State) (region row : Nat) : State :=
  let g := Config.rowBankGroup row
  if s.tiers.repairing.contains row then s
  else if s.tiers.spareRows.contains g then
    let fs := (Config.rowFrames row).filter (fun f => !s.tiers.retired.contains f)
    let s := { s with tiers := { s.tiers with retired := s.tiers.retired ++ fs } }
    let s := (s.satReg 0x600040 fs.length).memEvent 4
    s.tiers.tiles.foldl (fun s t =>
      match t.loc with
      | .t3 f => if fs.contains f then s.moveFrame t else s
      | _ => s) s
  else
    { s with
      tiers := { s.tiers with
        spareRows := g :: s.tiers.spareRows, repairing := row :: s.tiers.repairing
        heldPcs := (row, regionInst region) :: s.tiers.heldPcs }
      flash := { s.flash with repairLog := s.flash.repairLog ++ [⟨2, region, row⟩] } }

/-! Lost data (R484, R565, R480). -/

/-- The initial bytes of an image object. -/
def State.objInit (s : State) (o : Obj) : Bytes :=
  match s.steps.image with
  | none => []
  | some img => ((img.objects.find? (fun d => d.id == o.id)).map (·.init)).getD []

/-- A checkpoint object is reinitialised whole (R565). -/
def State.reinitObject (s : State) (e : ErrRec) (o : Obj) : State :=
  let mem := Memory.setBytes s.mem (o.baseTile * tileBytes) (fitBytes (o.tiles * tileBytes) (s.objInit o))
  let inside (u : Nat × Bytes) : Bool :=
    decide (o.baseTile * tileBytes ≤ u.1 ∧ u.1 < (o.baseTile + o.tiles) * tileBytes)
  let scrub (c : Checkpoint) : Checkpoint := { c with undo := c.undo.filter (fun u => !inside u) }
  let s := { s with mem := mem, checkpoints := s.checkpoints.map scrub }
  s.record kFault 0 0x86 s.stepNow
    (s.errorBytes e 5 0x86 0 s.allLive noSeq 1 s.stepNow (leBytes 4 o.id))

/-- A tile lies in lent memory. -/
def Tile.isLent (t : Tile) : Bool :=
  match t.loc with
  | .t2 .. => true
  | _ => false

def Tile.inT4 (t : Tile) : Bool :=
  match t.loc with
  | .t4 _ => true
  | _ => false

/-- A destroyed tile is restored, regenerated or lost, by class (R484, R480, R565). The answer tells whether checkpoint
data were lost. -/
def State.loseTile (s : State) (e : ErrRec) (t : Nat) : State × Bool :=
  match s.tileAt t, s.objectAt (t * tileBytes) with
  | some x, some o =>
    let lent := x.dirty && x.isLent
    let s := if lent then s.loseLent t else s
    if !x.dirty ∧ x.home.isSome ∧ !x.inT4 ∨ lent ∧ s.writersOf (t * tileBytes) tileBytes ≠ [] then (s, false)
    else
      match o.cls with
      | .state | .system => (s.reinitObject e o, true)
      | .host => ({ s with mem := Memory.clear s.mem (t * tileBytes) tileBytes }, false)
      | .cold =>
        let s := { s with tiers := { s.tiers with lostCold := o.id :: s.tiers.lostCold.filter (fun i => i != o.id) } }
        (s.faultRecord e 5 0x0F 0 [] noSeq s.nextStep, false)
      | .archive => (s.faultRecord e 4 0x0F 0 [] noSeq s.stepNow, false)
      | _ => (s, false)
  | _, _ => (s, false)

/-- All tiles an error destroyed. -/
def State.loseTiles (s : State) (e : ErrRec) : State × Bool :=
  e.lost.foldl (fun a t =>
    let r := a.1.loseTile e t
    (r.1, a.2 || r.2)) (s, false)

/-! Handling (R79, R567, R568). -/

/-- Re-execution of the occurrences an error affects (R79, R557): FAULT record, window, RECOVERY records. -/
def State.rerun (s : State) (e : ErrRec) (occs : List (Nat × Nat)) (rel : Nat) : State :=
  let att := 1 + (occs.filterMap (fun p => (s.occOf p.1).map (·.attempts))).foldl max 0
  let seq := s.nextTrailSeq
  let s := (s.faultRecord e 1 e.cause att occs rel s.stepNow).openWindow e occs
  occs.foldl (fun s p => s.reexecute seq p) s

/-- A tile whose T4 slot is lost, by its place: one with another copy keeps it, the image area restores `WEIGHTS`, and every
other tile that lay only in T4 is gone. -/
def State.afterLoss (s : State) (t : Tile) : Tile :=
  match t.loc, s.objectAt (t.index * tileBytes) with
  | .t4 _, some o =>
    if o.cls == .weights then { t with loc := .t3 (s.pickFrame o t.index), home := none, dirty := true, dest := none }
    else { t with loc := .never, home := none, dirty := false, dest := none }
  | _, _ => if t.home.isSome then { t with home := none, dirty := true } else t

/-- A T4 tile that failed its check twice (R483, R484): re-execution; after both attempts of R79 the tile is lost, is
handled by class and the occurrences run from their checkpoints. The tile's region is not quarantined. -/
def State.handleTile (s : State) (e : ErrRec) : State :=
  let occs := s.liveOf e.occs
  if occs = [] then s.faultRecord e 0 e.cause 0 [] noSeq s.stepNow
  else if (s.withAttempts occs).length < occs.length then
    let r := s.loseTiles e
    let gone (t : Tile) : Tile := if e.lost.contains t.index then s.afterLoss t else t
    let r := ({ r.1 with tiers := { r.1.tiers with tiles := r.1.tiers.tiles.map gone } }, r.2)
    if r.2 then r.1.restartAll
    else
      occs.foldl (fun s p =>
        match s.occOf p.1 with
        | some o => (s.restore p.1 p.2).recoveryStall o
        | none => s) (r.1.openWindow e occs)
  else s.rerun e occs noSeq

/-- Kinds 1 to 3: re-execution, or quarantine on a second error in the region or after two attempts. -/
def State.handleWork (s : State) (e : ErrRec) : State :=
  let r := s.loseTiles e
  let s := r.1
  let occs := s.affected e
  match s.faults.windows.find? (fun w => w.region == e.region) with
  | some w => s.quarantine e 0x81 w.seq true
  | none =>
    let rel := match s.faults.windows.find? (fun w => w.occs.any (fun p => occs.contains p)) with
      | some w => w.seq
      | none => noSeq
    if r.2 then s.restartAll
    else if occs = [] then s.faultRecord e 0 e.cause 0 [] rel s.stepNow
    else if (s.withAttempts occs).length < occs.length then s.quarantine e 0x82 rel true
    else s.rerun e occs rel

/-- A corrected error (R143, R483, R555): logged, with a T3 row's repair at its limit, whose record counts the errors since the
row's first. -/
def State.handleCorrected (s : State) (e : ErrRec) : State :=
  if regionClass e.region = 3 then
    let limit := max 1 (s.fld ⟨0x600008, 16, 8⟩)
    let one (n : Nat) : State :=
      s.record kFault 0 0 s.stepNow (s.errorBytes e 0 0 0 [] noSeq n s.stepNow e.detail)
    let s := if e.count = 1 then one 1 else if e.count = limit then one (limit - 1) else s
    if e.count = limit then s.repairRow e.region e.address else s
  else s.faultRecord e 0 0 0 [] noSeq s.stepNow

/-- The row of an uncorrectable T3 error is repaired (R484), while its pseudo-channel is in service. -/
def State.repairAfter (s : State) (e : ErrRec) : State :=
  if regionClass e.region = 3 ∧ e.kind = 1 ∧ !s.isOut e.region then s.repairRow e.region e.address else s

/-- The lockstep compare of a management pair fails (R570, R563). -/
def State.losePair (s : State) (e : ErrRec) (pair : Nat) : State :=
  if s.isOut (pairRegion pair) then s
  else if s.power.activePair = pair ∧ !s.power.standby then
    (s.markOut (pairRegion pair)).serviceEnd e 0x80 0xB
  else
    let active := if s.power.activePair = pair then 1 - pair else s.power.activePair
    let s := { s.markOut (pairRegion pair) with power := { s.power with activePair := active, standby := false } }
    let s := (s.faultEvent 6).satReg 0xE00038 1
    (s.faultRecord e 2 0x80 0 [] noSeq s.stepNow).startTest (pairRegion pair)

/-- A kind 6 error by the PLL it is charged to (R575): `address` names the PLL, 0 root, 1–4 ports, 5–10 guy lines,
11 HBM3 PHY, 12 PCIe. -/
def State.handleClock (s : State) (e : ErrRec) : State :=
  if e.address = 0 then s.serviceEnd e 0x80 0xE
  else if e.address ≤ 4 then s.quarantine e 0x80 noSeq true
  else if e.address ≤ 10 then
    let g := e.address - 5
    let s := (List.range 2).foldl (fun s dir => s.markOut (0x4000 + g * 32 + dir * 16)) s
    s.loseDie e (guyLoss g) 0x83 noSeq true
  else if e.address = 11 then s.loseDie e 3 0x89 noSeq true
  else s.faultRecord e 0 0 0 [] noSeq s.stepNow

/-- The test of a unit ends in failure (R560, R568): it stays out of service. -/
def State.testFailed (s : State) (e : ErrRec) (coverage durUs first : Nat) : State :=
  let s := { s with faults := { s.faults with testing := s.faults.testing.filter (fun r => r != e.region) } }
  let s := if regionClass e.region = 6 then
      { s with power := { s.power with pairsUnusable := regionInst e.region :: s.power.pairsUnusable } }
    else s
  let s := s.faultRecord e 9 0x84 0 [] noSeq s.stepNow
  match s.faults.bist with
  | some b => if b.region = e.region then s.finishBist e.region 3 coverage durUs first served 0 else s
  | none => s

/-- A region is under test: its quarantine test, or an in-service test that has isolated it. -/
def State.underTest (s : State) (r : Nat) : Bool :=
  s.faults.testing.contains r ||
    (match s.faults.bist with | some b => b.region == r && b.state == 2 | none => false)

/-- What the runtime does with the record at the head of the queue. -/
def State.handle (s : State) (e : ErrRec) : State :=
  if e.kind != 0 && s.underTest e.region then
    s.testFailed e 0 0 e.address
  else
    match e.kind with
    | 0 => s.handleCorrected e
    | 5 => s.losePair e (regionInst e.region)
    | 6 => s.handleClock e
    | _ =>
      if regionClass e.region = 6 then s.losePair e (regionInst e.region)
      else if regionClass e.region = 8 ∨ e.kind = 4 then s.quarantine e 0x80 noSeq true
      else if e.cause = 0x0F then s.handleTile e
      else (s.handleWork e).repairAfter e

/-- ERROR_HANDLE (R566, R567): the record at the head, after the one record of an overflow. -/
def State.handleHead (s : State) : State :=
  match s.faults.queue with
  | [] => s
  | e :: rest =>
    let s := ({ s with faults := { s.faults with queue := rest } }).queueDepth
    let s :=
      if s.faults.lostCount = 0 then s
      else
        let x := s.newError s.faults.lostRegion 4
        let n := s.faults.lostCount
        let s := { x.2 with faults := { x.2.faults with lostCount := 0 } }
        s.record kFault 0 0x87 s.stepNow (s.errorBytes x.1 0 0x87 0 [] noSeq n s.stepNow [])
    s.handle e

/-- A sequencer can take a descriptor of a cadence now: a run is in progress, the occurrence runs and no hold
stops it. -/
def State.mayIssue (s : State) (k : Nat) : Bool := s.up && s.inRun && (s.occOf k).isSome

/-- Recovery windows that an occurrence's commit closes (R557). -/
def State.closeRecovery (s : State) (k n : Nat) : State :=
  let drop (w : Recovery) : Recovery := { w with occs := w.occs.filter (fun p => p != (k, n)) }
  let ws := (s.faults.windows.map drop).filter (fun w => w.occs != [])
  { s with faults := { s.faults with windows := ws } }

end Sys2Proof.Machine
end

