-- ==== Sys2Proof/Machine/Search.lean ====
section
/-! DEFINITION. The similarity search engine (10): distance programs, lists, queries, epochs and the awning, host
requests and snapshots. -/

namespace Sys2Proof.Machine

def State.collDecls (s : State) : List CollDecl := (s.steps.image.map (·.collections)).getD []
def State.collDecl (s : State) (i : Nat) : CollDecl := s.collDecls.getD i default
def State.coll (s : State) (i : Nat) : Collection := s.search.colls.getD i default

def State.setColl (s : State) (i : Nat) (c : Collection) : State :=
  { s with search := { s.search with colls := s.search.colls.set i c } }

def searchEvents : Nat := 0xD0000C
def State.searchEvent (s : State) (bit : Nat) : State := s.event searchEvents bit (s.fld ⟨0xD00008, 9, 1⟩ == 1) 17

def sentinelId : Nat := 0xFFFFFFFF
def liveEpoch : Nat := 2 ^ 64 - 1
def inf32 : Nat := 0x7F800000

/-! Distance programs (R334, R335). -/

/-- The larger of two FP32 values; a NaN operand gives the canonical NaN. -/
def max32 (a b : Nat) : Nat :=
  if (fltOf fp32 a).isNan ∨ (fltOf fp32 b).isNan then fp32.nanBits else if fLt fp32 a b then b else a

/-- One element term with its square. -/
def elemTerm (prog q x w : Nat) : Nat :=
  let e :=
    match prog % 4 with
    | 0 => fSub fp32 q x
    | 1 => fMul fp32 q x
    | 2 => fAbs fp32 (fSub fp32 q x)
    | _ => fMul fp32 w (fSub fp32 q x)
  if bitAt prog 2 then fMul fp32 e e else e

/-- The element terms of two vectors under a collection's program. -/
def elemTerms (d : CollDecl) (q x : List Nat) : List Nat :=
  (List.range d.dim).map (fun i => elemTerm d.program (q.getD i 0) (x.getD i 0) (d.weights.getD i 0))

/-- D(q, x) (R335). -/
def collDist (d : CollDecl) (q x : List Nat) : Nat :=
  let e := elemTerms d q x
  let y := if bitAt d.program 3 then treeReduce max32 (fp32.maxBits true) e else treeReduce (fAdd fp32) 0 e
  let y := if bitAt d.program 4 then fSqrt fp32 y else y
  let y := if bitAt d.program 5 then fNeg fp32 y else y
  if bitAt d.program 6 then fFma fp32 d.affA y d.affB else y

/-- The programs of the presets (R336). -/
def presetL2sq : Nat := 0x04
def presetL2 : Nat := 0x14
def presetIp : Nat := 0x21
def presetCosine : Nat := 0x41
def presetL1 : Nat := 0x02
def presetChebyshev : Nat := 0x0A
def presetMahalDiag : Nat := 0x17

/-- A distance with an index stands before another: finite before non-finite, nearer first, then the lower index
(R337, R349). -/
def nearerEq (a b : Nat × Nat) : Bool :=
  if finite32 a.1 then
    if finite32 b.1 then fLt fp32 a.1 b.1 || (!fLt fp32 b.1 a.1 && decide (a.2 ≤ b.2)) else true
  else !finite32 b.1 && decide (a.2 ≤ b.2)

/-- The lists of a collection in the order of R337 for a vector. -/
def rankLists (d : CollDecl) (q : List Nat) : List Nat :=
  (sortList nearerEq ((List.range d.centroids.length).map (fun l => (collDist d q (d.centroids.getD l []), l)))).map (·.2)

/-- The list a vector belongs to. -/
def listOf (d : CollDecl) (x : List Nat) : Nat := (rankLists d x).headD 0

/-! Visibility and the awning (R342–R346). -/

def VecEntry.visible (v : VecEntry) (e : Nat) : Bool := decide (v.epochIn ≤ e ∧ e < v.epochDel)

/-- The vectors visible at an epoch, ascending by identifier. -/
def Collection.visibleAt (c : Collection) (e : Nat) : List VecEntry := c.entries.filter (fun v => v.visible e)

/-- Inserts and deletes counted against the awning capacity (R344). -/
def Collection.awningFill (c : Collection) : Nat :=
  (c.entries.filter (fun v => !v.loaded && decide (c.merged < v.epochIn))).length +
    (c.entries.filter (fun v => v.epochDel != liveEpoch && decide (c.merged < v.epochDel))).length

/-- Live vectors and deleted ones still counted in the awning (R344). -/
def Collection.stored (c : Collection) : Nat :=
  (c.entries.filter (fun v => v.epochDel == liveEpoch || decide (c.merged < v.epochDel))).length

/-- One insert at the commit that creates epoch `e1`: the cause of its refusal, or 0 with the new state. -/
def Collection.insertVec (c : Collection) (d : CollDecl) (e1 tag : Nat) (vec : List Nat) : Collection × Nat :=
  let causes :=
    (if c.state = collUsable then [] else [0x50]) ++ (if vec.length = d.dim then [] else [0x53]) ++
    (if d.capacity ≤ c.stored then [0x54] else []) ++ (if d.awning ≤ c.awningFill then [0x55] else []) ++
    (if c.nextId = sentinelId then [0x57] else [])
  match causes with
  | x :: _ => (c, x)
  | [] =>
    ({ c with
        entries := c.entries ++ [⟨c.nextId, tag, e1, liveEpoch, listOf d vec, false, vec⟩]
        nextId := c.nextId + 1 }, 0)

/-- A delete may name a vector: visible at the committed epoch and not yet deleted, or, for a compiled delete, inserted
in the same commit (R343). -/
def deletable (e1 id : Nat) (compiled : Bool) (v : VecEntry) : Bool :=
  v.id == id && v.epochDel == liveEpoch && (decide (v.epochIn < e1) || compiled)

/-- One delete at the commit that creates epoch `e1` (R343). -/
def Collection.deleteVec (c : Collection) (d : CollDecl) (e1 id : Nat) (compiled : Bool) : Collection × Nat :=
  let causes :=
    (if c.state = collUsable then [] else [0x50]) ++
    (if c.entries.any (deletable e1 id compiled) then [] else [0x52]) ++
    (if d.awning ≤ c.awningFill then [0x55] else [])
  match causes with
  | x :: _ => (c, x)
  | [] =>
    let mark (v : VecEntry) : VecEntry := if v.id = id then { v with epochDel := e1 } else v
    ({ c with entries := c.entries.map mark }, 0)

/-- One record of a snapshot (R341, R352): it keeps its identifier. -/
def Collection.loadVec (c : Collection) (d : CollDecl) (e1 id tag : Nat) (vec : List Nat) : Collection × Nat :=
  if d.capacity ≤ c.stored then (c, 0x54)
  else
    ({ c with
        entries := insertSorted (fun a b => decide (a.id ≤ b.id)) ⟨id, tag, e1, liveEpoch, listOf d vec, true, vec⟩ c.entries
        nextId := max c.nextId (id + 1) }, 0)

/-! Queries (R347–R350). -/

/-- A filter term. -/
structure Term where
  shift : Nat
  width : Nat
  op : Nat
  const : Nat
  deriving DecidableEq, Repr, Inhabited

/-- A query request (R347). -/
structure QueryReq where
  coll : Nat
  flags : Nat
  k : Nat
  nprobe : Nat
  queries : Nat
  terms : Nat
  deadlineUs : Nat
  queryAddr : Nat
  tagsAddr : Nat
  resultAddr : Nat
  filter : List Term
  reservedZero : Bool
  deriving DecidableEq, Repr, Inhabited

def termOf (b : Bytes) : Term := ⟨leAt b 0 1, leAt b 1 1, leAt b 2 1, leAt b 8 8⟩

def queryReqOf (b : Bytes) : QueryReq :=
  let terms := leAt b 0xA 1
  let used := (List.range (min 4 terms)).map (fun i => sliceBytes (0x40 + 16 * i) 16 b)
  { coll := leAt b 0 1, flags := leAt b 1 1, k := leAt b 2 2, nprobe := leAt b 4 4, queries := leAt b 8 2
    terms := terms, deadlineUs := leAt b 0xC 4, queryAddr := leAt b 0x10 8, tagsAddr := leAt b 0x18 8
    resultAddr := leAt b 0x20 8, filter := used.map termOf
    reservedZero := leAt b 0xB 1 == 0 && leAt b 0x28 24 == 0 && used.all (fun t => leAt t 3 5 == 0) }

def Term.ok (t : Term) : Bool := decide (t.op ≤ 5 ∧ 1 ≤ t.width ∧ t.width ≤ 64 ∧ t.shift + t.width ≤ 64)

/-- One filter term holds of an attribute tag (R348). -/
def Term.holds (t : Term) (tag : Nat) : Bool :=
  let f := bitsOf tag t.shift t.width
  match t.op with
  | 0 => f == t.const
  | 1 => f != t.const
  | 2 => decide (f < t.const)
  | 3 => decide (f ≤ t.const)
  | 4 => decide (t.const < f)
  | _ => decide (t.const ≤ f)

/-- A vector passes a filter (R348). -/
def passes (anyTerm : Bool) (ts : List Term) (tag : Nat) : Bool :=
  ts.isEmpty || (if anyTerm then ts.any (fun t => t.holds tag) else ts.all (fun t => t.holds tag))

/-- The query vectors of a request. -/
def State.queryVecs (s : State) (r : QueryReq) : List (List Nat) :=
  let d := (s.collDecl r.coll).dim
  (List.range r.queries).map (fun q =>
    (List.range d).map (fun i => leVal (s.load (r.queryAddr + 4 * (q * d + i)) 4)))

/-- The fields of a request are in range (R347, R348). -/
def State.queryReqOk (s : State) (r : QueryReq) (host : Bool) : Bool :=
  let d := s.collDecl r.coll
  let declared := decide (r.coll < s.collDecls.length)
  decide (r.coll < 64) && decide (r.flags < 4) && decide (1 ≤ r.k ∧ r.k ≤ 1024) && decide (1 ≤ r.queries ∧ r.queries ≤ 64) &&
    decide (r.terms ≤ 4) && r.reservedZero && r.filter.all Term.ok && (host || r.deadlineUs == 0) &&
    (bitAt r.flags 0 || !declared || decide (1 ≤ r.nprobe ∧ r.nprobe ≤ d.centroids.length)) &&
    (!declared || (s.queryVecs r).all (fun q => q.all finite32))

/-- One candidate: distance, identifier and tag. -/
structure Candidate where
  dist : Nat
  id : Nat
  tag : Nat
  deriving DecidableEq, Repr, Inhabited

/-- What one query gives: candidates in order, the vectors scored and those skipped as non-finite, and its probes. -/
structure QueryAns where
  best : List Candidate
  scored : Nat
  nonfinite : Nat
  probed : List Nat
  deriving DecidableEq, Repr, Inhabited

def candLe (a b : Candidate) : Bool := nearerEq (a.dist, a.id) (b.dist, b.id)

/-- One query of a batch (R349). -/
def runQuery (d : CollDecl) (c : Collection) (e k : Nat) (exhaustive anyTerm : Bool) (nprobe : Nat) (ts : List Term)
    (q : List Nat) : QueryAns :=
  let probed := if exhaustive then List.range d.centroids.length else (rankLists d q).take nprobe
  let seen := (c.visibleAt e).filter (fun v => probed.contains v.list && passes anyTerm ts v.tag)
  let cands := seen.map (fun v => (⟨collDist d q v.vec, v.id, v.tag⟩ : Candidate))
  let good := cands.filter (fun x => finite32 x.dist)
  ⟨(sortList candLe good).take k, seen.length, cands.length - good.length, probed⟩

/-- The answer of a batch before its result block. -/
structure BatchAns where
  epoch : Nat
  outcome : Nat
  cause : Nat
  answers : List QueryAns
  deriving DecidableEq, Repr, Inhabited

def distinct (xs : List Nat) : List Nat := xs.foldl (fun a x => if a.contains x then a else a ++ [x]) []

def sumBy (f : α → Nat) (xs : List α) : Nat := (xs.map f).foldl (· + ·) 0

/-- The 32-byte batch header (R350). -/
def batchHeader (b : BatchAns) : Bytes :=
  leBytes 8 b.epoch ++ leBytes 4 (distinct (b.answers.flatMap (·.probed))).length ++
    leBytes 4 (sumBy (·.nonfinite) b.answers) ++ leBytes 8 (sumBy (·.scored) b.answers) ++ leBytes 1 b.outcome ++
    leBytes 1 b.cause ++ leBytes 6 0

def entryBytes (c : Candidate) : Bytes := leBytes 4 c.id ++ leBytes 4 c.dist ++ leBytes 8 c.tag
def sentinelEntry : Candidate := ⟨inf32, sentinelId, 0⟩

/-- A query's header and its `k` entries, padded with sentinels (R350). -/
def queryBytes (k tag : Nat) (best : List Candidate) : Bytes :=
  leBytes 8 tag ++ leBytes 2 best.length ++ leBytes 6 0 ++
    (best ++ List.replicate (k - best.length) sentinelEntry).flatMap entryBytes

/-- The query blocks of a batch. -/
def State.queryBlocks (s : State) (r : QueryReq) (b : BatchAns) : List Bytes :=
  (List.range r.queries).map (fun i =>
    queryBytes r.k (if r.tagsAddr = 0 then 0 else leVal (s.load (r.tagsAddr + 8 * i) 8))
      ((b.answers[i]?.map (·.best)).getD []))

/-- Why a well-formed request to a collection is not scored; 0 when it is (R332, R355). -/
def State.collCause (s : State) (i : Nat) : Nat :=
  if i < s.collDecls.length ∧ (s.coll i).state = collUsable then 0 else 0x50

/-- The answer of a batch at admission epoch `e`. -/
def State.batchAns (s : State) (r : QueryReq) (e : Nat) (host : Bool) : BatchAns :=
  if !s.queryReqOk r host then ⟨e, refused, 0x0C, []⟩
  else if !s.inService (engineRegion 4) then ⟨e, refused, 0x0A, []⟩
  else if s.collCause r.coll ≠ 0 then ⟨e, refused, s.collCause r.coll, []⟩
  else
    let d := s.collDecl r.coll
    ⟨e, served, 0, (s.queryVecs r).map
      (runQuery d (s.coll r.coll) e r.k (bitAt r.flags 0) (bitAt r.flags 1) r.nprobe r.filter)⟩

/-- Bytes of a list's tiles (R333, R357). -/
def listBytes (d : CollDecl) (c : Collection) (l : Nat) : Nat :=
  ceilDiv ((c.entries.filter (fun v => v.list == l)).length) (max 1 (32704 / (32 + 4 * d.dim))) * tileBytes

/-- The counts and events of a batch that was scored (R355, R360, R470). -/
def State.countBatch (s : State) (r : QueryReq) (b : BatchAns) : State :=
  if b.outcome ≠ served then s
  else
    let d := s.collDecl r.coll
    let c := s.coll r.coll
    let lists := distinct (b.answers.flatMap (·.probed))
    let bytes (p : Nat → Bool) : Nat := sumBy (listBytes d c) (lists.filter p)
    let nf := sumBy (·.nonfinite) b.answers
    let s := s.addReg64 0xD00038 r.queries
    let s := s.addReg64 0xD00040 (bytes (fun l => c.hot.contains l))
    let s := s.addReg64 0xD00048 (bytes (fun l => !c.hot.contains l))
    let s := s.satReg 0xD00050 nf
    let s := if 0 < nf then s.searchEvent 4 else s
    let s := if b.answers.any (fun a => decide (a.best.length < r.k)) then s.searchEvent 5 else s
    let note (p : List (List Nat)) : List (List Nat) :=
      match p with
      | [] => [b.answers.flatMap (·.probed)]
      | x :: xs => (x ++ b.answers.flatMap (·.probed)) :: xs
    s.setColl r.coll { c with probes := note c.probes }

/-- The result block has room in the unified range. -/
def State.resultRoom (s : State) (r : QueryReq) : Bool :=
  decide (1 ≤ r.k ∧ r.k ≤ 1024 ∧ 1 ≤ r.queries ∧ r.queries ≤ 64) &&
    s.mapped r.resultAddr (32 + r.queries * (16 + 16 * r.k))

/-- The bytes a batch reads and writes, for the check of R153. -/
def State.batchReads (s : State) (req : Nat) (r : QueryReq) : List (Nat × Nat) :=
  (req, 128) :: (if r.coll < s.collDecls.length ∧ r.queries ≤ 64 then
    [(r.queryAddr, 4 * (r.queries * (s.collDecl r.coll).dim))] else [])

def State.batchWrites (s : State) (r : QueryReq) : List (Nat × Nat) :=
  if s.resultRoom r then [(r.resultAddr, 32 + r.queries * (16 + 16 * r.k))] else []

/-- SEARCH_BATCH (R347–R350, R355, R356): a compiled batch of an occurrence, at the epoch committed at its admission
close. The request stands at `req`; `raise` is the lantern of the result block; `out` marks the batch for output. -/
def effSearchBatch (k : Fin 16) (req : Nat) (unit raise : BitVec 16) (out : Option Nat) (s : State) : State :=
  if !(s.up && s.inRun) then s
  else
    match s.occOf k.val with
    | none => s
    | some occ =>
      let r := queryReqOf (s.load req 128)
      let tiles := (s.batchReads req r).flatMap (fun x => slotsIn x.1 x.2)
      match s.orderBroken unit.toNat tiles (s.batchReads req r) (s.batchWrites r) with
      | some i => s.orderError (engineRegion 4) i ⟨k.val, req⟩
      | none =>
      let b := s.batchAns r (occ.epochs.getD r.coll 0) false
      let blocks := s.queryBlocks r b
      let s := (s.countBatch r b).answer blockSearch b.outcome b.cause
      let s :=
        if s.resultRoom r then
          (s.fillRange unit.toNat r.resultAddr (32 + r.queries * (16 + 16 * r.k))).cstore k.val unit.toNat r.resultAddr
            (batchHeader b ++ blocks.flatMap id)
        else s
      let s := tiles.foldl (fun s l => s.releaseLantern k.val unit.toNat l) s
      let s := s.raiseLantern unit.toNat raise.toNat (s.stepTime occ.step) occ.step
      match out with
      | none => s
      | some stream =>
        let m : MatchOut := ⟨k.val, occ.step, stream, r.coll, r.k, b.outcome == served, batchHeader b, blocks⟩
        { s with search := { s.search with outs := s.search.outs ++ [m] } }

/-- The payloads of a marked batch (R356): parts of as many queries as fit. -/
def matchParts (m : MatchOut) : List Bytes :=
  let per := 1048464 / (16 + 16 * m.k)
  let n := max 1 (ceilDiv m.queries.length per)
  (List.range n).map (fun p =>
    let qs := (m.queries.drop (p * per)).take per
    leBytes 1 m.coll ++ leBytes 1 0 ++ leBytes 2 p ++ leBytes 2 n ++ leBytes 2 qs.length ++ leBytes 2 m.k ++ leBytes 6 0 ++
      m.header ++ qs.flatMap id)

/-- `CONFIDENCE` of a match record before R246. -/
def matchConfidence (m : MatchOut) : Nat := if m.served then 32768 else 0

/-! Host read requests (R351–R354). -/

/-- A host request is refused: the block's answer, the count and the completion. -/
def State.searchRefuse (s : State) (ep : Nat) (h : CmdHdr) (op cause : Nat) : State :=
  let s := (s.answer blockSearch refused cause).satReg 0xD00054 1
  s.completeIn ep h op refused cause 0 []

/-- A host query that leaves the queue at `now` (R349, R354): `ns` is the time it takes. -/
def State.runHostQuery (s : State) (ep arrival : Nat) (h : CmdHdr) (req : Bytes) (ns : Nat) : State :=
  let r := queryReqOf req
  let limit := arrival + r.deadlineUs * usUnits
  if r.deadlineUs ≠ 0 ∧ limit < s.now then (s.searchEvent 3).searchRefuse ep h 0x40 0x51
  else
    let b := s.batchAns r (s.coll r.coll).epoch true
    let s := s.countBatch r b
    let s := if s.resultRoom r then s.store r.resultAddr (batchHeader b ++ (s.queryBlocks r b).flatMap id) else s
    if b.outcome ≠ served then s.searchRefuse ep h 0x40 b.cause
    else
      let fin := s.now + ns * nsUnits
      if r.deadlineUs ≠ 0 ∧ limit < fin then
        (s.answer blockSearch delayed 0).completeIn ep h 0x40 delayed 0 ((fin - limit) / nsUnits) []
      else (s.answer blockSearch served 0).completeIn ep h 0x40 served 0 0 []

/-- The stored form of a vector (R333). -/
def vecBytes (v : VecEntry) : Bytes :=
  leBytes 4 v.id ++ leBytes 4 0 ++ leBytes 8 v.tag ++ leBytes 8 v.epochIn ++ leBytes 8 v.epochDel ++
    v.vec.flatMap (leBytes 4)

/-- SEARCH_GET as it leaves the queue: the entry of R333 goes to the reply address (assumption 21). -/
def State.runGet (s : State) (ep : Nat) (h : CmdHdr) (i id reply : Nat) : State :=
  if !s.inService (engineRegion 4) then s.searchRefuse ep h 0x41 0x0A
  else if s.collCause i ≠ 0 then s.searchRefuse ep h 0x41 0x50
  else
    let c := s.coll i
    match (c.visibleAt c.epoch).find? (fun v => v.id == id) with
    | none => s.searchRefuse ep h 0x41 0x52
    | some v =>
      let bs := vecBytes v
      ((s.hostWrite reply bs).answer blockSearch served 0).completeIn ep h 0x41 served 0 0 (leBytes 4 bs.length)

/-- A snapshot of a collection at its committed epoch (R352). -/
def State.snapshotBytes (s : State) (i : Nat) : Bytes :=
  let d := s.collDecl i
  let c := s.coll i
  let vs := c.visibleAt c.epoch
  fitBytes 48 d.digest ++ leBytes 8 c.epoch ++ leBytes 8 vs.length ++ leBytes 4 c.nextId ++ leBytes 2 d.dim ++
    leBytes 10 0 ++ vs.flatMap (fun v => leBytes 4 v.id ++ leBytes 4 0 ++ leBytes 8 v.tag ++ v.vec.flatMap (leBytes 4))

/-- SEARCH_EXPORT as it leaves the queue. -/
def State.runExport (s : State) (ep : Nat) (h : CmdHdr) (i reply : Nat) : State :=
  if !s.inService (engineRegion 4) then s.searchRefuse ep h 0x42 0x0A
  else if s.collCause i ≠ 0 then s.searchRefuse ep h 0x42 0x50
  else
    let bs := s.snapshotBytes i
    ((s.hostWrite reply bs).answer blockSearch served 0).completeIn ep h 0x42 served 0 0 (leBytes 8 bs.length)

/-- The request at the head of the queue runs. -/
def State.runHead (s : State) (q : HostQuery) : State :=
  match q.cmd with
  | .searchQuery h req _ ns => s.runHostQuery q.epoch q.arrival h req ns
  | .searchGet h i id reply _ => s.runGet q.epoch h i id.toNat reply
  | .searchExport h i reply _ => s.runExport q.epoch h i reply
  | _ => s

/-- Every request of the queue runs in arrival order: the engine is idle (R353). -/
def State.drainSearch (s : State) : State :=
  s.search.queue.foldl State.runHead { s with search := { s.search with queue := [] } }

/-- Queue entries a tenant may hold (R360). -/
def State.hostQuota (s : State) : Nat := min 256 (max 1 (s.fld ⟨0xD00008, 0, 9⟩))

/-- A host read request: taken, queued under its tenant's quota, and run with the queue when the engine is idle
(R353). -/
def State.searchRequest (s : State) (h : CmdHdr) (op : Nat) (idle : Bool) (cmd : Instr) : State :=
  s.hostCommand h op (fun s =>
    let t := h.tenant.toNat
    if s.hostQuota ≤ (s.search.queue.filter (fun q => q.tenant == t)).length then s.searchRefuse s.host.epoch h op 0x01
    else if 256 ≤ s.search.queue.length then (s.searchEvent 2).searchRefuse s.host.epoch h op 0x0B
    else
      let q := s.search.queue ++ [(⟨cmd, t, s.host.epoch, s.now⟩ : HostQuery)]
      let s := { s with search := { s.search with queue := q } }
      let s := s.setFld ⟨0xD00010, 16, 9⟩ (max q.length (s.fld ⟨0xD00010, 16, 9⟩))
      if idle then s.drainSearch else s)

/-- SEARCH_QUERY (R349, R351, R353): `idle` tells whether the engine finds an idle interval now, `ns` what the query
takes. -/
def effSearchQuery (h : CmdHdr) (req : Bytes) (idle : Bool) (ns : Nat) (s : State) : State :=
  s.searchRequest h 0x40 idle (.searchQuery h req idle ns)

/-- SEARCH_GET (R351). -/
def effSearchGet (h : CmdHdr) (i : Nat) (id : BitVec 32) (reply : Nat) (idle : Bool) (s : State) : State :=
  s.searchRequest h 0x41 idle (.searchGet h i id reply idle)

/-- SEARCH_EXPORT (R351, R352). -/
def effSearchExport (h : CmdHdr) (i reply : Nat) (idle : Bool) (s : State) : State :=
  s.searchRequest h 0x42 idle (.searchExport h i reply idle)

/-- A queued query's deadline has passed. -/
def HostQuery.expired (q : HostQuery) (now : Nat) : Bool :=
  match q.cmd with
  | .searchQuery _ req _ _ =>
    let d := (queryReqOf req).deadlineUs
    d != 0 && decide (q.arrival + d * usUnits < now)
  | _ => false

/-- HOST_QUERY_DEADLINE (R354): every queued query whose deadline has passed leaves the queue, Refused with 0x51. -/
def effHostQueryDeadline (s : State) : State :=
  if !s.up then s else
  let late := s.search.queue.filter (fun q => q.expired s.now)
  let s := { s with search := { s.search with queue := s.search.queue.filter (fun q => !q.expired s.now) } }
  late.foldl (fun s q =>
    match q.cmd with
    | .searchQuery h _ _ _ => (s.searchEvent 3).searchRefuse q.epoch h 0x40 0x51
    | _ => s) s

/-! Commits (R340–R345, R359, R470). -/

/-- Events of refused inserts and deletes (R355). -/
def State.refusalEvents (s : State) (causes : List Nat) : State :=
  let s := if causes.contains 0x55 then s.searchEvent 0 else s
  if causes.contains 0x54 then s.searchEvent 1 else s

/-- The block's answer for items: the first refusal by R33, else Served. -/
def itemsAnswer (causes : List Nat) : Nat × Nat :=
  let bad := causes.filter (fun c => c != 0)
  if bad = [] then (served, 0) else (refused, pickCause bad)

/-- One item of a compiled request at the commit that creates epoch `e1`. -/
def Collection.item (c : Collection) (d : CollDecl) (e1 : Nat) (it : SearchItem) : Collection × Nat :=
  match it with
  | .insert tag vec => c.insertVec d e1 tag.toNat vec
  | .delete id => c.deleteVec d e1 id.toNat true

/-- Items taken in order, with their causes. -/
def takeItems (f : Collection → α → Collection × Nat) (c : Collection) (xs : List α) : Collection × List Nat :=
  xs.foldl (fun a x =>
    let r := f a.1 x
    (r.1, a.2 ++ [r.2])) (c, [])

/-- The insert status tile (R359), also the per-item part of a host reply. -/
def itemStatus (causes : List Nat) : Bytes :=
  causes.flatMap (fun c => leBytes 1 (if c = 0 then served else refused) ++ leBytes 1 c)

def statusTile (first : Nat) (causes : List Nat) : Bytes :=
  leBytes 4 causes.length ++ leBytes 4 first ++ leBytes 8 0 ++ itemStatus causes

/-- A compiled request enters its collection (R341, R359). -/
def State.enterOps (s : State) (k : Nat) (time step : Nat) (o : SearchOps) : State :=
  let d := s.collDecl o.coll
  let c := s.coll o.coll
  let r := takeItems (fun c it => Collection.item c d (c.epoch + 1) it) c o.items
  let a := itemsAnswer r.2
  let s := ((s.setColl o.coll r.1).refusalEvents r.2).answer blockSearch a.1 a.2
  if o.status.toNat = noLantern then s
  else (s.storeTile (engineRegion 4) k o.unit.toNat o.status.toNat (statusTile c.nextId r.2)).raiseLantern o.unit.toNat o.status.toNat time step

/-- The answer to a host change that entered: the block's pair, and the count of refused host requests (R359, R360). -/
def State.answerHost (s : State) (a : Nat × Nat) : State :=
  (if a.1 = refused then s.satReg 0xD00054 1 else s).answer blockSearch a.1 a.2

/-- A host change enters its collection, and its reply is posted (R341, R351). -/
def State.enterHost (s : State) (i : Nat) (o : HostOp) : State :=
  let d := s.collDecl i
  let c := s.coll i
  let e1 := c.epoch + 1
  match o.change with
  | .insert items reply =>
    let r := takeItems (fun c (x : Nat × List Nat) => c.insertVec d e1 x.1 x.2) c items
    let a := itemsAnswer r.2
    let s := ((s.setColl i r.1).refusalEvents r.2).answerHost a
    (s.hostWrite reply (itemStatus r.2)).completeIn o.epoch o.frame.hdr 0x43 a.1 a.2 0
      (leBytes 4 c.nextId ++ leBytes 4 (r.1.nextId - c.nextId))
  | .delete ids reply =>
    let r := takeItems (fun c x => c.deleteVec d e1 x false) c ids
    let a := itemsAnswer r.2
    let s := ((s.setColl i r.1).refusalEvents r.2).answerHost a
    (s.hostWrite reply (itemStatus r.2)).completeIn o.epoch o.frame.hdr 0x44 a.1 a.2 0 (leBytes 4 ids.length)
  | .load records =>
    let r := takeItems (fun c (x : Nat × Nat × List Nat) => c.loadVec d e1 x.1 x.2.1 x.2.2) c records
    let a := itemsAnswer r.2
    let s := ((s.setColl i r.1).refusalEvents r.2).answerHost a
    s.completeIn o.epoch o.frame.hdr 0x45 a.1 a.2 0 (leBytes 8 ((r.2.filter (fun c => c == 0)).length))

/-- Whole lists placed in T3 while the tenant's quota has room, the most probed over 64 occurrences first (R470). -/
def State.rankHot (s : State) (i : Nat) : State :=
  let d := s.collDecl i
  let c := s.coll i
  let quota := ((s.tiers.quotas.find? (fun q => q.tenant == d.tenant)).map (·.t3)).getD 0
  let count (l : Nat) : Nat := sumBy (fun p => (p.filter (fun x => x == l)).length) (c.probes.take 64)
  let le (a b : Nat) : Bool := decide (count b < count a) || (count a == count b && decide (a ≤ b))
  let ranked := sortList le (List.range d.centroids.length)
  let place (a : List Nat × Nat) (l : Nat) : List Nat × Nat :=
    let t := listBytes d c l / tileBytes
    if a.2 + t ≤ quota then (a.1 ++ [l], a.2 + t) else a
  s.setColl i { c with hot := (ranked.foldl place ([], 0)).1, probes := [] :: c.probes.take 63 }

/-- The commit of a collection's epoch source: compiled requests, then host changes, then the new epoch (R340, R341).
A collection whose cold lists were lost becomes unusable (R480). -/
def State.commitColl (s : State) (i k time step : Nat) (ops : List SearchOps) : State :=
  let s := (ops.filter (fun o => o.coll == i)).foldl (fun s o => s.enterOps k time step o) s
  let host := (s.coll i).hostOps
  let s := host.foldl (fun s o => s.enterHost i o) s
  let c := s.coll i
  let s := s.setColl i { c with epoch := c.epoch + 1, hostOps := [] }
  let s := s.rankHot i
  if s.tiers.lostCold.contains (s.collDecl i).object then
    let c := s.coll i
    s.setColl i { c with state := collUnusable }
  else s

/-- The collections whose epoch source is the commit of cadence `k`; the map epoch is the mapping cadence's. -/
def State.sourced (s : State) (k : Nat) (isMap : Bool) : List Nat :=
  (List.range s.collDecls.length).filter (fun i =>
    match (s.collDecl i).source with | some c => c == k | none => isMap)

/-- The collections for which a commit of cadence `k` is a merge point (R344). -/
def State.mergedBy (s : State) (k : Nat) (mapMerge : Bool) : List Nat :=
  (List.range s.collDecls.length).filter (fun i =>
    match (s.collDecl i).merge with | some c => c == k | none => mapMerge)

/-- A merge point: everything committed is covered, and the background merge starts (R344, R345). -/
def State.startMerge (s : State) (i : Nat) : State :=
  let c := s.coll i
  s.setColl i { c with merged := c.epoch, merging := true }

/-- The least epoch at which a query may still be admitted to a collection (R346). -/
def State.leastAdmission (s : State) (i : Nat) : Nat :=
  s.steps.occs.foldl (fun m o => min m (o.epochs.getD i m)) (s.coll i).epoch

/-- A background merge ends: deleted entries no query can see are removed (R345, R346). -/
def State.endMerge (s : State) (i : Nat) : State :=
  let c := s.coll i
  let e := min c.merged (s.leastAdmission i)
  s.setColl i { c with merging := false, entries := c.entries.filter (fun v => decide (e < v.epochDel)) }

/-- The committed epochs of all collections, as an occurrence is admitted with them (R342). -/
def State.collEpochs (s : State) : List Nat := s.search.colls.map (·.epoch)

/-! The view registers (R360). -/

/-- COLL_VIEW_SAMPLE: a read of `COLL_VIEW_0` samples the views of the selected collection. -/
def effCollViewSample (s : State) : State :=
  if !s.readable then s.replyWith 0
  else
    let i := s.fld ⟨0xD00014, 0, 6⟩
    let v0 := 0xD00018
    let s :=
      if i < s.collDecls.length then
        let d := s.collDecl i
        let c := s.coll i
        let s := s.setReg v0 (d.dim + d.program % 65536 * 2 ^ 11 + b2n d.hostWrite * 2 ^ 27 + c.state * 2 ^ 28)
        let s := s.setReg 0xD0001C d.centroids.length
        let s := (s.setReg64 0xD00020 c.epoch).setReg64 0xD00028 (c.visibleAt c.epoch).length
        (s.setReg 0xD00030 c.awningFill).setReg 0xD00034 c.nextId
      else
        let s := (s.setReg v0 0).setReg 0xD0001C 0
        let s := (s.setReg64 0xD00020 0).setReg64 0xD00028 0
        (s.setReg 0xD00030 0).setReg 0xD00034 0
    s.replyWith (s.reg v0)

def execSearchBatch (k : Fin 16) (req : Nat) (unit raise : BitVec 16) (out : Option Nat) (s : State) :
    Host.Outcome State Fault Refusal := .next (effSearchBatch k req unit raise out s)

def execSearchQuery (h : CmdHdr) (req : Bytes) (idle : Bool) (ns : Nat) (s : State) : Host.Outcome State Fault Refusal :=
  .next (effSearchQuery h req idle ns s)

def execHostQueryDeadline (s : State) : Host.Outcome State Fault Refusal := .next (effHostQueryDeadline s)

def execSearchGet (h : CmdHdr) (i : Nat) (id : BitVec 32) (reply : Nat) (idle : Bool) (s : State) :
    Host.Outcome State Fault Refusal := .next (effSearchGet h i id reply idle s)

def execSearchExport (h : CmdHdr) (i reply : Nat) (idle : Bool) (s : State) : Host.Outcome State Fault Refusal :=
  .next (effSearchExport h i reply idle s)

def execCollViewSample (s : State) : Host.Outcome State Fault Refusal := .next (effCollViewSample s)

end Sys2Proof.Machine
end

