-- ==== Sys2Proof/Machine/Projection.lean ====
section
/-! DEFINITION. Camera geometry in FP32: calibrations, transforms and projection (R193–R197), and the flow prediction
that fusion writes for the flow engine (R231). -/

namespace Sys2Proof.Machine

def one32 : Nat := 0x3F800000
def half32 : Nat := 0x3F000000

abbrev mul32 := fMul fp32
abbrev plus32 := fAdd fp32
abbrev sub32 := fSub fp32
abbrev div32 := fDiv fp32
abbrev fma32 := fFma fp32

/-- fma(a₂, b₂, fma(a₁, b₁, a₀ × b₀)) (R195). -/
def dot3 (a b : List Nat) : Nat :=
  fma32 (a.getD 2 0) (b.getD 2 0) (fma32 (a.getD 1 0) (b.getD 1 0) (mul32 (a.getD 0 0) (b.getD 0 0)))

def row3 (m : List Nat) (i : Nat) : List Nat := (List.range 3).map (fun j => m.getD (3 * i + j) 0)
def col3 (m : List Nat) (j : Nat) : List Nat := (List.range 3).map (fun i => m.getD (3 * i + j) 0)
def transpose3 (m : List Nat) : List Nat := (List.range 9).map (fun i => m.getD (3 * (i % 3) + i / 3) 0)

def matVec (m v : List Nat) : List Nat := (List.range 3).map (fun i => dot3 (row3 m i) v)
def matMul (a b : List Nat) : List Nat := (List.range 9).map (fun i => dot3 (row3 a (i / 3)) (col3 b (i % 3)))
def vecAdd (a b : List Nat) : List Nat := (List.range 3).map (fun i => plus32 (a.getD i 0) (b.getD i 0))
def vecSub (a b : List Nat) : List Nat := (List.range 3).map (fun i => sub32 (a.getD i 0) (b.getD i 0))

def identity3 : List Nat := [one32, 0, 0, 0, one32, 0, 0, 0, one32]

/-- A calibration entry is usable (R194). -/
def calUsable (c : Calibration) : Bool :=
  let vals := [c.fx, c.fy, c.cx, c.cy, c.thetaMax] ++ c.coeffs ++ c.rot ++ c.trans
  let gram := matMul (transpose3 c.rot) c.rot
  vals.all finite32 && !(fltOf fp32 c.fx).eqv (fltInt 0) && !(fltOf fp32 c.fy).eqv (fltInt 0) &&
    (List.range 9).all (fun i =>
      ((fltOf fp32 (sub32 (gram.getD i 0) (identity3.getD i 0))).abs).le (.fin false 1 (-16)))

/-- A rotation and translation. -/
structure Pose where
  rot : List Nat
  trans : List Nat
  deriving DecidableEq, Repr, Inhabited

def idPose : Pose := ⟨identity3, [0, 0, 0]⟩

/-- The sensor-to-plant transform (R195). -/
def sensorToPlant (p : Pose) (c : Calibration) : Pose :=
  ⟨matMul p.rot c.rot, vecAdd (matVec p.rot c.trans) p.trans⟩

def Pose.finite (p : Pose) : Bool := (p.rot ++ p.trans).all finite32

/-- Where a point projects. -/
inductive Proj where
  | at (u v : Nat)
  | outside
  | notProjectable
  deriving DecidableEq, Repr

/-- The ATAN table of the image (R193): 64 segments on [0, 1]. -/
def atanTable (tab : List (List Nat)) (x : Nat) : Nat :=
  let seg := min 63 ((fltOf fp32 x).scale 6).floorInt.toNat
  match tab[seg]? with
  | some [x0, c0, c1, c2, c3] =>
    let r := sub32 x x0
    fma32 (fma32 (fma32 c3 r c2) r c1) r c0
  | _ => nan32

def lt32 (a b : Nat) : Bool := (fltOf fp32 a).lt (fltOf fp32 b)
def le32 (a b : Nat) : Bool := (fltOf fp32 a).le (fltOf fp32 b)
def isZero32 (a : Nat) : Bool := (fltOf fp32 a).eqv (fltInt 0)
def abs32 (a : Nat) : Nat := fAbs fp32 a
def two32 : Nat := 0x40000000

/-- A pixel position, when both coordinates are finite. -/
def projAt (u v : Nat) : Proj := if finite32 u && finite32 v then .at u v else .notProjectable

/-- A pixel position, unless a value on the way to it is not finite (R193). -/
def projVia (mids : List Nat) (u v : Nat) : Proj := if mids.all finite32 then projAt u v else .notProjectable

/-- The fisheye model of R196. -/
def projFisheye (tab : List (List Nat)) (c : Calibration) (X Y Z : Nat) : Proj :=
  let k (i : Nat) : Nat := c.coeffs.getD i 0
  let yy := mul32 Y Y
  let rr := fma32 X X yy
  let rho := fSqrt fp32 rr
  let az := abs32 Z
  let lo := if lt32 rho az then rho else az
  let hi := if lt32 rho az then az else rho
  let a := if isZero32 hi then 0 else atanTable tab (div32 lo hi)
  let a := if le32 az rho && lt32 0 rho then sub32 0x3FC90FDB a else a
  let a := if lt32 Z 0 then sub32 0x40490FDB a else a
  if !([yy, rr, rho, az, a].all finite32) then .notProjectable
  else if lt32 c.thetaMax a then .outside
  else
    let t2 := mul32 a a
    let g3 := fma32 (k 3) t2 (k 2)
    let g2 := fma32 g3 t2 (k 1)
    let g1 := fma32 g2 t2 (k 0)
    let g0 := fma32 g1 t2 one32
    let ad := mul32 a g0
    if isZero32 rho then projVia [t2, g3, g2, g1, g0, ad] c.cx c.cy
    else
      let q := div32 ad rho
      let xq := mul32 X q
      let yq := mul32 Y q
      projVia [t2, g3, g2, g1, g0, ad, q, xq, yq] (fma32 c.fx xq c.cx) (fma32 c.fy yq c.cy)

/-- The pinhole models of R196. -/
def projPinhole (c : Calibration) (X Y Z : Nat) : Proj :=
  let k (i : Nat) : Nat := if c.model = 2 then 0 else c.coeffs.getD i 0
  if !lt32 0 Z then .notProjectable
  else
    let iz := div32 one32 Z
    let x := mul32 X iz
    let y := mul32 Y iz
    let x2 := mul32 x x
    let y2 := mul32 y y
    let xy := mul32 x y
    let s2 := plus32 x2 y2
    let s4 := mul32 s2 s2
    let s6 := mul32 s4 s2
    let n2 := fma32 (k 0) s2 one32
    let n1 := fma32 (k 1) s4 n2
    let num := fma32 (k 4) s6 n1
    let d2 := fma32 (k 5) s2 one32
    let d1 := fma32 (k 6) s4 d2
    let den := fma32 (k 7) s6 d1
    let rad := div32 num den
    let side (p q : Nat) (z2 : Nat) : List Nat :=
      let pp := mul32 two32 p
      let zz := mul32 two32 z2
      let sum := plus32 s2 zz
      let t := mul32 q sum
      [pp, zz, sum, t, fma32 pp xy t]
    let sx := side (k 2) (k 3) x2
    let sy := side (k 3) (k 2) y2
    let xd := fma32 x rad (sx.getD 4 0)
    let yd := fma32 y rad (sy.getD 4 0)
    projVia ([Z, iz, x, y, x2, y2, xy, s2, s4, s6, n2, n1, num, d2, d1, den, rad] ++ sx ++ sy ++ [xd, yd])
      (fma32 c.fx xd c.cx) (fma32 c.fy yd c.cy)

/-- Projection of a point of the sensor frame (R193, R196). -/
def project (tab : List (List Nat)) (c : Calibration) (p : List Nat) : Proj :=
  let X := p.getD 0 0
  let Y := p.getD 1 0
  let Z := p.getD 2 0
  if !([X, Y, Z].all finite32) then .notProjectable
  else if c.model = 1 then projFisheye tab c X Y Z
  else projPinhole c X Y Z

/-! Tiled fields. -/

/-- The byte offset of an element in a field of tiles `tw` × `th` with `n` bytes each, row-major (R170, R178). -/
def tiledOffset (cols tw th n x y : Nat) : Nat :=
  (y / th * ceilDiv cols tw + x / tw) * tileBytes + (y % th * tw + x % tw) * n

/-- The tiles of a field of `cols` × `rows` elements: element bytes by position, `pad` beyond the field (R170, R178). -/
def tilesOf (cols rows tw th : Nat) (elem : Nat → Nat → Bytes) (pad : Bytes) : List Bytes :=
  (List.range (ceilDiv cols tw * ceilDiv rows th)).map (fun t =>
    (List.range (tw * th)).flatMap (fun i =>
      let x := t % ceilDiv cols tw * tw + i % tw
      let y := t / ceilDiv cols tw * th + i / tw
      if x < cols ∧ y < rows then elem x y else pad))

/-! Flow prediction (R231). -/

/-- What a flow prediction needs of a camera (R231): its intrinsics (FP32), and the motion from the R frame to the Q frame. -/
structure FlowPred where
  fx : Nat
  fy : Nat
  cx : Nat
  cy : Nat
  motion : Pose

/-- The flow prediction of one block centre, as two 16-bit values. -/
def flowPred (d : FlowPred) (depth : Nat) (masked : Bool) (u v : Nat) : Nat × Nat :=
  let bad := (0x8000, 0x0003)
  let cam : Calibration := { (default : Calibration) with model := 2, fx := d.fx, fy := d.fy, cx := d.cx, cy := d.cy }
  let dir := [div32 (sub32 (fOfInt fp32 u) d.cx) d.fx, div32 (sub32 (fOfInt fp32 v) d.cy) d.fy, one32]
  let p :=
    if finite32 depth then vecAdd (matVec d.motion.rot (dir.map (mul32 depth))) d.motion.trans else matVec d.motion.rot dir
  if masked then bad
  else
    match project [] cam p with
    | .at u' v' =>
      let q (a : Nat) (b : Nat) : Int := (fltOf fp32 (mul32 0x42000000 (sub32 a (fOfInt fp32 b)))).roundInt
      let qu := q u' u
      let qv := q v' v
      if qu.natAbs > 32767 || qv.natAbs > 32767 then bad else (ofSigned 16 qu, ofSigned 16 qv)
    | _ => bad

/-! Sampling (R197). -/

def badPixel : Nat := 0xFFFC

/-- A source image: size and pixels. -/
structure Img where
  width : Nat
  height : Nat
  rows : List (List Nat)
  deriving DecidableEq, Repr, Inhabited

/-- A stored pixel. -/
def Img.px (m : Img) (x y : Nat) : Nat := (m.rows.getD y []).getD x 0xFFFF

/-- A pixel with x and y clamped to the image (R171). -/
def Img.clamped (m : Img) (x y : Int) : Nat :=
  m.px (min x.toNat (m.width - 1)) (min y.toNat (m.height - 1))

/-- A bilinear sample at an FP32 position: a pixel value, 0xFFFF for an invalid source pixel, 0xFFFE outside. -/
def Img.sample (m : Img) (u v : Nat) : Nat :=
  if lt32 (abs32 u) 0x4B000000 && lt32 (abs32 v) 0x4B000000 then
    let U := ((fltOf fp32 u).scale 8).roundInt
    let V := ((fltOf fp32 v).scale 8).roundInt
    let x0 := U / 256
    let y0 := V / 256
    let a := (U % 256).toNat
    let b := (V % 256).toNat
    if x0 < 0 || (m.width : Int) ≤ x0 + 1 || y0 < 0 || (m.height : Int) ≤ y0 + 1 then 0xFFFE
    else
      let x := x0.toNat
      let y := y0.toNat
      let i00 := m.px x y
      let i10 := m.px (x + 1) y
      let i01 := m.px x (y + 1)
      let i11 := m.px (x + 1) (y + 1)
      if [i00, i10, i01, i11].any (fun p => decide (badPixel ≤ p)) then 0xFFFF
      else ((256 - a) * (256 - b) * i00 + a * (256 - b) * i10 + (256 - a) * b * i01 + a * b * i11 + 32768) / 65536
  else 0xFFFE

end Sys2Proof.Machine
end

