-- ==== Sys2Proof/Machine/Vision.lean ====
section
/-! DEFINITION. The vision engines (05): flow, stereo, features, matching and projection, their descriptors, output
tiles and completion summaries. -/

namespace Sys2Proof.Machine

/-! Descriptors and sources. -/

/-- Bytes 0x00 to 0x3B of a vision descriptor (R201). -/
def visionBytes (op : Nat) (d : VisionDesc) : Bytes :=
  leBytes 1 op ++ leBytes 1 d.flags.toNat ++ leBytes 2 d.unit.toNat ++ leBytes 2 d.selA.toNat ++
    leBytes 2 d.selB.toNat ++ leBytes 8 d.param.toNat ++ leBytes 8 d.srcAddr.toNat ++ leBytes 8 d.predAddr.toNat ++
    leBytes 8 d.dstAddr.toNat ++ leBytes 4 d.dstRing.toNat ++ leBytes 1 d.dstMode.toNat ++ leBytes 1 d.levels.toNat ++
    leBytes 2 d.rsv.toNat ++ leBytes 8 d.aux.toNat ++ leBytes 2 d.wait.toNat ++ leBytes 2 d.raise.toNat

def opFlow : Nat := 0x11
def opStereo : Nat := 0x12
def opFeature : Nat := 0x13
def opMatch : Nat := 0x14
def opProjRay : Nat := 0x15
def opProjPlane : Nat := 0x16
def opProjPtsImage : Nat := 0x17
def opProjPtsGrid : Nat := 0x18

/-- The engine of an opcode (R210). -/
def visionEngineOf (op : Nat) : Nat :=
  if op = opFlow then 0 else if op = opStereo then 1 else if op = opFeature ∨ op = opMatch then 2 else 3

def vFlag (d : VisionDesc) (i : Nat) : Bool := d.flags.getLsbD i

/-- The heavy stream of a tether slot (R167). -/
def State.heavyStream (s : State) (slot : Nat) : Option TetherStream :=
  ((s.steps.image.map (·.tethers)).getD []).find? (fun t => t.slot == slot && decide (2 ≤ t.kind))

/-- A descriptor source: in memory, or a frame of a tether. -/
inductive VSource where
  | memory (addr : Nat)
  | frame (slot : Nat) (previous : Bool) (plane : Nat)
  deriving DecidableEq, Repr

def selOf (d : VisionDesc) (sel : BitVec 16) : VSource :=
  if sel.getLsbD 15 then .memory d.srcAddr.toNat
  else .frame (bitsOf sel.toNat 0 12) (sel.getLsbD 12) (bitsOf sel.toNat 13 2)

/-- The frame a selector names for the occurrence of a cadence (R167). -/
def State.frameOf (s : State) (k slot : Nat) (previous : Bool) : Option FrameRec :=
  match s.occOf k with
  | none => none
  | some o => (o.frames.find? (fun f => f.slot == slot)).bind (fun f => if previous then f.previous else f.current)

/-- An image of 16-bit pixels in tiles of 128 × 128 from an address (R170). -/
def State.imageAt (s : State) (a w h : Nat) : Img :=
  ⟨w, h, (List.range h).map (fun y =>
    (List.range w).map (fun x => leVal (s.load (a + tiledOffset w 128 128 2 x y) 2)))⟩

/-- A source image with its stamp; `none` where the named frame does not exist (R168). A memory source has no stamp. -/
def State.sourceImage (s : State) (d : VisionDesc) (sel : BitVec 16) : Option (Img × Nat) :=
  match selOf d sel with
  | .memory a => some (s.imageAt a d.memW d.memH, 0)
  | .frame slot prev plane =>
    match s.heavyStream slot, s.frameOf d.ctx.cadence slot prev with
    | some t, some f =>
      let per := ceilDiv t.width 128 * ceilDiv t.height 128
      some (s.imageAt (t.ringBase + (f.entry * t.planes + plane) * per * tileBytes) t.width t.height, f.stamp)
    | _, _ => none

/-- The size of a source image, whether or not the frame exists. -/
def State.sourceSize (s : State) (d : VisionDesc) (sel : BitVec 16) : Nat × Nat :=
  match selOf d sel with
  | .memory _ => (d.memW, d.memH)
  | .frame slot _ _ => match s.heavyStream slot with | some t => (t.width, t.height) | none => (0, 0)

/-- The points of a source (R200): 16 bytes each, with the frame's stamp. -/
def State.sourcePoints (s : State) (d : VisionDesc) : Option (List Bytes × Nat) :=
  match selOf d d.selA with
  | .memory a => some ((List.range d.memPoints).map (fun i => s.load (a + 16 * i) 16), 0)
  | .frame slot prev _ =>
    match s.heavyStream slot, s.frameOf d.ctx.cadence slot prev with
    | some t, some f =>
      some ((List.range (t.total / 16)).map (fun i =>
        s.load (t.ringBase + f.entry * ceilDiv t.total tileBytes * tileBytes + 16 * i) 16), f.stamp)
    | _, _ => none

/-- The calibration of a sensor in force for an occurrence (R194). -/
def State.calOf (s : State) (k idx : Nat) : Option Calibration :=
  (s.occOf k).bind (fun o => o.calibrations.find? (fun c => c.sensor == idx))

/-- The pose a descriptor names (R195). -/
def State.poseAt (s : State) (aux : Nat) : Pose :=
  if aux = 0 then idPose
  else
    let w := (List.range 12).map (fun i => leVal (s.load (aux + 4 * i) 4))
    ⟨w.take 9, w.drop 9⟩

/-- A tether that a cluster may read: bound to it, or to the other cluster whose engine or die is out (R166). -/
def State.mayRead (s : State) (v e slot : Nat) : Bool :=
  match lookupKey slot ((s.steps.image.map (·.bindings)).getD []) with
  | none => false
  | some c => c == v || !s.inService (visionRegion (1 - v) e)

/-! Parameter block (R202). -/

def inRange (v lo hi : Nat) : Bool := decide (lo ≤ v ∧ v ≤ hi)

/-- The grid window of the grid opcodes. -/
def gridWindow (blk : Bytes) : Nat × Nat × Nat × Nat := (leAt blk 0x12 2, leAt blk 0x14 2, leAt blk 0x16 2, leAt blk 0x18 2)

/-- The parameter block is within the ranges of R202 for an opcode. -/
def paramOk (op cols rows : Nat) (b : Bytes) : Bool :=
  leAt b 2 2 == 0 && (b.drop 0x1A).all (fun x => x == 0) &&
  (if op = opFlow ∨ op = opStereo ∨ op = opFeature ∨ op = opProjRay ∨ op = opProjPlane then
    inRange (leAt b 0 2) 1 0xFFFB else true) &&
  (if op = opFlow then decide (leAt b 0xA 1 ≤ 2)
   else if op = opStereo then
    inRange (leAt b 8 1) 1 63 && inRange (leAt b 9 1) (leAt b 8 1 + 1) 255 && decide (leAt b 0xA 1 < 32) &&
      decide (leAt b 0xB 1 ≤ 100)
   else if op = opFeature then inRange (leAt b 4 2) 1 8192 && decide (leAt b 14 2 = 0)
   else if op = opMatch then decide (leAt b 6 2 ≤ 256) && inRange (leAt b 8 1) 1 16
   else if op = opProjPtsGrid then decide (leAt b 0x10 1 ≤ 3)
   else true) &&
  (if op = opProjPlane ∨ op = opProjPtsGrid then
    let g := gridWindow b
    decide (1 ≤ g.2.2.1 ∧ 1 ≤ g.2.2.2 ∧ g.1 + g.2.2.1 ≤ cols ∧ g.2.1 + g.2.2.2 ≤ rows)
   else true)

/-- A lantern that a consumer may not await (R152): on another die, and not to be filled by the unit. -/
def State.remoteWait (s : State) (sheet unit idx : Nat) : Bool :=
  idx != noLantern && lanternSheet idx != sheet && !(s.planUses idx).any (fun u => u.producer == unit)

/-- The fields of a vision descriptor that every opcode shares are well formed (R201, R205, R148). -/
def State.visionCommonOk (s : State) (v op : Nat) (d : VisionDesc) : Bool :=
  d.check.toNat == crc32 (visionBytes op d) && decide (d.flags.toNat < 32) && d.rsv == 0 &&
    decide (d.dstRing.toNat < 2 ^ 26) && inRange (bitsOf d.dstRing.toNat 12 12) 1 2048 &&
    decide (bitsOf d.dstRing.toNat 24 2 ≠ 3) && decide (d.dstMode.toNat ≤ 1) && inRange d.levels.toNat 1 5 &&
    lanternOk d.wait.toNat && lanternOk d.raise.toNat && !s.remoteWait v d.unit.toNat d.wait.toNat &&
    decide (d.unit.toNat < 0xF000)

/-- A plane a selector names exists. -/
def State.selOk (s : State) (d : VisionDesc) (sel : BitVec 16) : Bool :=
  match selOf d sel with
  | .memory a => s.mapped a 1
  | .frame slot _ plane =>
    match s.heavyStream slot with
    | some t => t.kind == 3 || decide (plane < t.planes)
    | none => true

/-- A work descriptor is well formed. -/
def State.visionOk (s : State) (v op : Nat) (d : VisionDesc) : Bool :=
  let blk := s.load d.param.toNat 64
  let img := s.steps.image.getD default
  s.visionCommonOk v op d &&
    (if d.dstMode = 0 then
      decide (bitsOf d.dstRing.toNat 0 12 + bitsOf d.dstRing.toNat 12 12 ≤ gsSlots (bitsOf d.dstRing.toNat 24 2))
     else s.mapped d.dstAddr.toNat 1) &&
    s.mapped d.param.toNat 64 && s.selOk d d.selA && paramOk op img.gridCols img.gridRows blk &&
    (op != opFlow || !vFlag d 0 || decide (2 ≤ d.levels.toNat)) &&
    (if op = opFlow ∨ op = opStereo then s.selOk d d.selB && decide (s.sourceSize d d.selA = s.sourceSize d d.selB)
     else true)

/-- The tethers a descriptor reads. -/
def visionSlots (op : Nat) (d : VisionDesc) : List Nat :=
  let one (sel : BitVec 16) : List Nat := match selOf d sel with | .memory _ => [] | .frame slot _ _ => [slot]
  if op = opMatch then [] else one d.selA ++ (if op = opFlow ∨ op = opStereo then one d.selB else [])

/-! Results. -/

/-- What a work descriptor produces: tiles, valid outputs, all outputs, one count per reserved code, the summary's
status, outcome and cause, stamps and points skipped. -/
structure VisionOut where
  tiles : List Bytes
  valid : Nat
  total : Nat
  codes : List Nat
  status : Nat
  outcome : Nat
  cause : Nat
  stampA : Nat
  stampB : Nat
  skipped : Nat
  deriving DecidableEq, Repr, Inhabited

/-- How often each code occurs. -/
def countCodes (codes vals : List Nat) : List Nat := codes.map (fun c => (vals.filter (fun v => v == c)).length)

/-- The output of a 16-bit raster: values by position, `pad` beyond it, and its reserved codes in the order of the engine's table
(R185, R199, R204). -/
def rasterOut (cols rows pad : Nat) (codes : List Nat) (val : Nat → Nat → Nat) (status outcome cause sa sb skipped : Nat) :
    VisionOut :=
  let vals := (List.range rows).map (fun y => (List.range cols).map (fun x => val x y))
  let get (x y : Nat) : Nat := (vals.getD y []).getD x pad
  let counts := countCodes codes vals.flatten
  ⟨tilesOf cols rows 128 128 (fun x y => leBytes 2 (get x y)) (leBytes 2 pad),
   cols * rows - counts.foldl (· + ·) 0, cols * rows, counts, status, outcome, cause, sa, sb, skipped⟩

/-! Flow (R172–R178). -/

def popcountFrom : Nat → Nat → Nat
  | 0, _ => 0
  | k + 1, v => v % 2 + popcountFrom k (v / 2)

/-- Offsets of a square window in raster order. -/
def windowOffsets (r : Nat) : List (Int × Int) :=
  (List.range (2 * r + 1)).flatMap (fun (j : Nat) =>
    (List.range (2 * r + 1)).map (fun (i : Nat) => ((i : Int) - r, (j : Int) - r)))

/-- The next pyramid level (R172). -/
def Img.down (g : Img) : Img :=
  let w := ceilDiv g.width 2
  let h := ceilDiv g.height 2
  let b (i : Int) : Nat := match i with | 0 => 6 | 1 => 4 | -1 => 4 | _ => 1
  let px (x y : Nat) : Nat :=
    let ps := (windowOffsets 2).map (fun o => (b o.1 * b o.2, g.clamped (2 * x + o.1) (2 * y + o.2)))
    if ps.any (fun p => decide (badPixel ≤ p.2)) then 0xFFFF
    else ((ps.map (fun p => p.1 * p.2)).foldl (· + ·) 0 + 128) / 256
  ⟨w, h, (List.range h).map (fun y => (List.range w).map (fun x => px x y))⟩

/-- The levels of a pyramid from `g` up. -/
def pyramid : Nat → Img → List Img
  | 0, _ => []
  | n + 1, g => g :: pyramid n g.down

/-- The census code of a pixel over a window of radius r; `none` when it is void (R173, R180). -/
def Img.census (g : Img) (r : Nat) (x y : Int) : Option Nat :=
  let c := g.clamped x y
  let ns := ((windowOffsets r).filter (fun o => o != (0, 0))).map (fun o => g.clamped (x + o.1) (y + o.2))
  if badPixel ≤ c ∨ ns.any (fun p => decide (badPixel ≤ p)) then none
  else some ((List.zip (List.range ns.length) ns).foldl (fun a p => if p.2 < c then a + 2 ^ p.1 else a) 0)

/-- A position of an image clamped to it. -/
def Img.clampPos (g : Img) (x y : Int) : Int × Int :=
  (min (max x 0) ((g.width : Int) - 1), min (max y 0) ((g.height : Int) - 1))

/-- C(p, o) for the displacement `o` already added to the centre (R173). -/
def flowCost (r q : Img) (x y : Int) (dx dy : Int) : Nat :=
  let terms := (windowOffsets 2).map (fun b =>
    let p := r.clampPos (x + b.1) (y + b.2)
    let t := q.clampPos (x + b.1 + dx) (y + b.2 + dy)
    match r.census 2 p.1 p.2, q.census 2 t.1 t.2 with
    | some a, some c => some (popcountFrom 24 (a ^^^ c))
    | _, _ => none)
  if terms.any (fun t => t.isNone) then 601 else (terms.map (fun t => t.getD 0)).foldl (· + ·) 0

/-- The key that orders candidates: cost, |ox| + |oy|, oy, ox (R174). -/
def flowKey (cost : Nat) (o : Int × Int) : List Int := [(cost : Int), (o.1.natAbs + o.2.natAbs : Nat), o.2, o.1]

/-- The candidate of least key. -/
def bestOffset (cost : Int × Int → Nat) : List (Int × Int) → Int × Int
  | [] => (0, 0)
  | o :: os =>
    (os.foldl (fun (b : List Int × (Int × Int)) o =>
      let k := flowKey (cost o) o
      if lexLe b.1 k then b else (k, o)) (flowKey (cost o) o, o)).2

/-- Centre c of a block at a level (R174). -/
def flowCentre (p : Int) (l : Nat) : Int := (p + 16 * (2 ^ l : Nat)) / ((2 ^ (5 + l) : Nat) : Int)

/-- The search from the coarsest level down to level f (R174): the best offset at f. -/
def flowSearch (rs qs : List Img) (f : Nat) (px py : Int) (x y : Nat) : Nat → Option (Int × Int) → Int × Int
  | 0, o => o.getD (0, 0)
  | n + 1, prev =>
    let l := f + n
    let r := rs.getD l default
    let q := qs.getD l default
    let cx := flowCentre px l
    let cy := flowCentre py l
    let wx : Int := (48 / 2 ^ l : Nat)
    let wy : Int := (32 / 2 ^ l : Nat)
    let inside (o : Int × Int) : Bool := decide (o.1.natAbs ≤ wx.natAbs ∧ o.2.natAbs ≤ wy.natAbs)
    let cands :=
      match prev with
      | none =>
        (List.range (2 * wy.toNat + 1)).flatMap (fun (j : Nat) =>
          (List.range (2 * wx.toNat + 1)).map (fun (i : Nat) => ((i : Int) - wx, (j : Int) - wy)))
      | some o' => ((windowOffsets 2).map (fun o => (o.1 + 2 * o'.1, o.2 + 2 * o'.2))).filter inside
    let xl : Int := (x / 2 ^ l : Nat)
    let yl : Int := (y / 2 ^ l : Nat)
    flowSearch rs qs f px py x y n
      (some (bestOffset (fun o => flowCost r q xl yl (cx + o.1) (cy + o.2)) cands))

/-- Sub-pixel refinement along one axis (R175). -/
def subPixel (gain lim : Int) (cm c0 cp : Nat) : Int :=
  let den : Int := (cm : Int) - 2 * c0 + cp
  if den ≤ 0 then 0 else max (-lim) (min lim (Int.tdiv (gain * ((cm : Int) - cp)) den))

/-- Texture over a window of radius r (R177). -/
def Img.texture (g : Img) (r : Nat) (x y : Int) : Nat :=
  ((windowOffsets r).map (fun o =>
    let p := g.clampPos (x + o.1) (y + o.2)
    let d (a b : Nat) : Nat := ((a : Int) - b).natAbs
    d (g.clamped (p.1 + 1) p.2) (g.clamped (p.1 - 1) p.2) + d (g.clamped p.1 (p.2 + 1)) (g.clamped p.1 (p.2 - 1)))).foldl
    (· + ·) 0

/-- A flow value: components, or the reason it is invalid (R177). -/
structure FlowVal where
  u : Int
  v : Int
  reason : Nat
  deriving DecidableEq, Repr, Inhabited

/-- The flow of one output pixel before the check of R176. -/
def flowPixel (rs qs : List Img) (levels f sat texMin : Nat) (p : Int × Int) (X Y : Nat) : FlowVal :=
  let x := X * 2 ^ f
  let y := Y * 2 ^ f
  let g0 := rs.getD 0 default
  let c := g0.clamped x y
  if badPixel ≤ c then ⟨0, 0, 4⟩
  else if sat ≤ c then ⟨0, 0, 5⟩
  else
    let r := rs.getD f default
    let q := qs.getD f default
    let o := flowSearch rs qs f p.1 p.2 x y (levels - f) none
    let cx := flowCentre p.1 f + o.1
    let cy := flowCentre p.2 f + o.2
    let cost (dx dy : Int) : Nat := flowCost r q X Y (cx + dx) (cy + dy)
    let sc : Int := if f = 1 then 2 else 1
    let u := sc * (32 * cx + subPixel 16 16 (cost (-1) 0) (cost 0 0) (cost 1 0))
    let v := sc * (32 * cy + subPixel 16 16 (cost 0 (-1)) (cost 0 0) (cost 0 1))
    if o.1.natAbs = 48 / 2 ^ f ∨ o.2.natAbs = 32 / 2 ^ f ∨ 32767 < u.natAbs ∨ 32767 < v.natAbs then ⟨u, v, 3⟩
    else if r.texture 2 X Y < texMin then ⟨u, v, 1⟩
    else ⟨u, v, 0⟩

/-- The check of R176 against the backward field. -/
def flowCheck (back : List (List FlowVal)) (w h f tol X Y : Nat) (a : FlowVal) : FlowVal :=
  if a.reason ≠ 0 ∧ a.reason ≠ 1 then a
  else
    let qx : Int := (X * 2 ^ f : Nat) + (a.u + 16) / 32
    let qy : Int := (Y * 2 ^ f : Nat) + (a.v + 16) / 32
    if qx < 0 ∨ qy < 0 ∨ (w : Int) ≤ qx ∨ (h : Int) ≤ qy then { a with reason := 3 }
    else if a.reason = 1 then a
    else
      let b := (back.getD (qy.toNat / 2 ^ f) []).getD (qx.toNat / 2 ^ f) ⟨0, 0, 4⟩
      if b.reason ≠ 0 ∨ tol < max (a.u + b.u).natAbs (a.v + b.v).natAbs then { a with reason := 2 } else a

/-- A field entry of a prediction in the format of R178; an invalid one counts as (0, 0) (R174). -/
def State.predAt (s : State) (base cols x y : Nat) : Int × Int :=
  let a := base + tiledOffset cols 128 64 4 x y
  let u := leVal (s.load a 2)
  if u = 0x8000 then (0, 0) else (signedOf 16 u, signedOf 16 (leVal (s.load (a + 2) 2)))

def flowBytes (a : FlowVal) : Bytes :=
  if a.reason = 0 then leBytes 2 (ofSigned 16 a.u) ++ leBytes 2 (ofSigned 16 a.v) else leBytes 2 0x8000 ++ leBytes 2 a.reason

/-- A flow field as output. -/
def flowOut (w h : Nat) (vals : List (List FlowVal)) (status sa sb : Nat) : VisionOut :=
  let all := vals.flatten.map (fun a => a.reason)
  let counts := countCodes [4, 5, 3, 1, 2] all
  ⟨tilesOf w h 128 64 (fun x y => flowBytes ((vals.getD y []).getD x ⟨0, 0, 4⟩)) (leBytes 2 0x8000 ++ leBytes 2 4),
   (all.filter (fun r => r == 0)).length, w * h, counts, status, served, 0, sa, sb, 0⟩

/-- FLOW. -/
def State.flowWork (s : State) (d : VisionDesc) (blk : Bytes) : VisionOut :=
  let f := if vFlag d 0 then 1 else 0
  let L := d.levels.toNat
  let a := s.sourceImage d d.selA
  let b := s.sourceImage d d.selB
  let size := s.sourceSize d d.selA
  let w := ceilDiv size.1 (2 ^ f)
  let h := ceilDiv size.2 (2 ^ f)
  -- selector 0 is the later frame; R is the earlier one unless BACKWARD
  match a, b with
  | some fa, some fb =>
    let later := if d.selA.getLsbD 12 then fb else fa
    let earlier := if d.selA.getLsbD 12 then fa else fb
    let R := if vFlag d 2 then later.1 else earlier.1
    let Q := if vFlag d 2 then earlier.1 else later.1
    let rs := pyramid L R
    let qs := pyramid L Q
    let src := leAt blk 0xA 1
    let pf := if src = 1 then f else 0
    let pcols := if src = 1 then w else size.1
    let pred (x y : Nat) : Int × Int :=
      if src = 0 then (0, 0)
      else s.predAt d.predAddr.toNat pcols ((x / 16 * 16 + 8) / 2 ^ pf) ((y / 16 * 16 + 8) / 2 ^ pf)
    let neg (p : Int × Int) : Int × Int := (-p.1, -p.2)
    let sat := leAt blk 0 2
    let tex := leAt blk 4 4
    let field (r q : List Img) (pr : Nat → Nat → Int × Int) : List (List FlowVal) :=
      (List.range h).map (fun Y => (List.range w).map (fun X =>
        flowPixel r q L f sat tex (pr (X * 2 ^ f) (Y * 2 ^ f)) X Y))
    let fwd := field rs qs pred
    let vals :=
      if vFlag d 1 then
        let back := field qs rs (fun x y => neg (pred x y))
        (List.range h).map (fun Y => (List.range w).map (fun X =>
          flowCheck back size.1 size.2 f (leAt blk 8 2) X Y ((fwd.getD Y []).getD X ⟨0, 0, 4⟩)))
      else fwd
    flowOut w h vals 0 fa.2 fb.2
  | _, _ =>
    flowOut w h (List.replicate h (List.replicate w ⟨0, 0, 4⟩)) 1
      ((a.map (fun x => x.2)).getD 0) ((b.map (fun x => x.2)).getD 0)

/-! Stereo (R179–R185). -/

/-- The matching cost of R180 for disparities lo .. lo + 255 at a pixel. -/
def stereoCosts (cl cr : List (List (Option Nat))) (lo x y : Nat) : List Nat :=
  let l := (cl.getD y []).getD x none
  (List.range 256).map (fun i =>
    let d := lo + i
    if x < d then 48
    else
      match l, (cr.getD y []).getD (x - d) none with
      | some a, some b => popcountFrom 48 (a ^^^ b)
      | _, _ => 48)

/-- One aggregation step along a direction (R181). -/
def aggStep (p1 p2 : Nat) (c prev : List Nat) : List Nat :=
  let m := prev.foldl min (prev.headD 0)
  (List.range 256).map (fun i =>
    let best := min (prev.getD i 0) (m + p2)
    let best := if i = 0 then best else min best (prev.getD (i - 1) 0 + p1)
    let best := if i = 255 then best else min best (prev.getD (i + 1) 0 + p1)
    c.getD i 0 + best - m)

/-- Positions p, p − r, p − 2r … inside the image. -/
def walkBack (w h : Nat) (r : Int × Int) : Nat → Int × Int → List (Int × Int)
  | 0, _ => []
  | n + 1, p =>
    if 0 ≤ p.1 ∧ p.1 < (w : Int) ∧ 0 ≤ p.2 ∧ p.2 < (h : Int) then p :: walkBack w h r n (p.1 - r.1, p.2 - r.2) else []

/-- L_r at a pixel: the aggregation along its line of travel. -/
def aggregate (g : Img) (cost : Nat → Nat → List Nat) (p1 p2 : Nat) (shift : Option Nat) (r : Int × Int) (x y : Nat) :
    List Nat :=
  let line := (walkBack g.width g.height r (g.width + g.height) ((x : Int), (y : Int))).reverse
  (line.foldl (fun (acc : Option (Nat × List Nat)) p =>
    let c := cost p.1.toNat p.2.toNat
    let v := g.px p.1.toNat p.2.toNat
    match acc with
    | none => some (v, c)
    | some (pv, L) =>
      let p2' := match shift with
        | none => p2
        | some k => max (p1 + 1) (p2 - min p2 (((v : Int) - pv).natAbs / 2 ^ k))
      some (v, aggStep p1 p2' c L)) none).elim [] (fun a => a.2)

def stereoDirections : List (Int × Int) :=
  [(1, 0), (-1, 0), (0, 1), (0, -1), (1, 1), (-1, -1), (1, -1), (-1, 1)]

/-- Index of the least element; ties to the lower index. -/
def argMin (xs : List Nat) : Nat :=
  ((List.zip (List.range xs.length) xs).foldl (fun (b : Nat × Nat) p => if p.2 < b.2 then p else b) (0, xs.headD 0)).1

/-- STEREO. -/
def State.stereoWork (s : State) (d : VisionDesc) (blk : Bytes) : VisionOut :=
  let a := s.sourceImage d d.selA
  let b := s.sourceImage d d.selB
  let size := s.sourceSize d d.selA
  let w := size.1
  let h := size.2
  let codes := [0xFFFC, 0xFFFB, 0xFFFD, 0xFFFF, 0xFFFE]
  let fill (status outcome cause sa sb : Nat) : VisionOut :=
    rasterOut w h 0xFFFC codes (fun _ _ => 0xFFFC) status outcome cause sa sb 0
  match a, b with
  | some la, some rb =>
    let skew := decide (leAt blk 0x10 4 * usUnits < ((la.2 : Int) - rb.2).natAbs) && la.2 != 0 && rb.2 != 0
    if skew then fill 2 shed 0x21 la.2 rb.2
    else
      let L := la.1
      let cen (g : Img) : List (List (Option Nat)) :=
        (List.range h).map (fun (y : Nat) => (List.range w).map (fun (x : Nat) => g.census 3 x y))
      let cl := cen L
      let cr := cen rb.1
      let p1 := leAt blk 8 1
      let p2 := leAt blk 9 1
      let ad := leAt blk 0xA 1
      let shift := if ad % 2 = 1 then some (ad / 2) else none
      let passes := if vFlag d 3 then 2 else 1
      let sums (lo x y : Nat) : List Nat :=
        (stereoDirections.map (fun r => aggregate L (fun x y => stereoCosts cl cr lo x y) p1 p2 shift r x y)).foldl
          (fun acc v => List.zipWith (· + ·) acc v) (List.replicate 256 0)
      let S : List (List (List Nat)) :=
        (List.range h).map (fun y => (List.range w).map (fun x =>
          sums 0 x y ++ (if passes = 2 then sums 256 x y else [])))
      let at_ (x y i : Nat) : Nat := ((S.getD y []).getD x []).getD i 0
      let top := 256 * passes - 1
      let best (x y : Nat) : Nat := argMin ((S.getD y []).getD x [])
      let rightDisp (x' y : Nat) : Nat :=
        argMin ((List.range (min (top + 1) (w - x'))).map (fun i => at_ (x' + i) y i))
      let value (x y : Nat) : Nat :=
        let g := L.px x y
        let dd := best x y
        let sv := at_ x y dd
        let edge := dd == 0 || dd == top || dd % 256 == 0 || dd % 256 == 255
        let sub := if edge then 0 else subPixel 8 8 (at_ x y (dd - 1)) sv (at_ x y (dd + 1))
        let s2 := ((List.range (top + 1)).filter (fun (i : Nat) => decide (2 ≤ ((i : Int) - dd).natAbs))).foldl
          (fun m i => min m (at_ x y i)) 0xFFFF
        let lr := vFlag d 1 &&
          (decide (x < dd) || decide (leAt blk 0xC 1 < ((dd : Int) - rightDisp (x - dd) y).natAbs))
        if badPixel ≤ g then 0xFFFC
        else if leAt blk 0 2 ≤ g then 0xFFFB
        else if dd = top then 0xFFFD
        else if L.texture 3 x y < leAt blk 4 4 ∨ 100 * s2 ≤ (100 + leAt blk 0xB 1) * sv then 0xFFFF
        else if lr then 0xFFFE
        else (16 * (dd : Int) + sub).toNat
      rasterOut w h 0xFFFC codes value 0 served 0 la.2 rb.2 0
  | _, _ => fill 1 served 0 ((a.map (fun x => x.2)).getD 0) ((b.map (fun x => x.2)).getD 0)

/-! Features (R186–R192). -/

/-- The corner score of a pixel (R186). -/
def Img.score (g : Img) (x y : Int) : Int :=
  let gr (x y : Int) : Int × Int :=
    let p (i j : Int) : Int := g.clamped (x + i) (y + j)
    ((p 1 (-1) + 2 * p 1 0 + p 1 1 - (p (-1) (-1) + 2 * p (-1) 0 + p (-1) 1)) / 256,
     (p (-1) 1 + 2 * p 0 1 + p 1 1 - (p (-1) (-1) + 2 * p 0 (-1) + p 1 (-1))) / 256)
  let gs := (windowOffsets 3).map (fun o => let q := g.clampPos (x + o.1) (y + o.2); gr q.1 q.2)
  let sxx := (gs.map (fun t => t.1 * t.1)).foldl (· + ·) 0
  let syy := (gs.map (fun t => t.2 * t.2)).foldl (· + ·) 0
  let sxy := (gs.map (fun t => t.1 * t.2)).foldl (· + ·) 0
  sxx * syy - sxy * sxy - (sxx + syy) * (sxx + syy) / 16

/-- A candidate pixel (R187). -/
def Img.candidate (g : Img) (score : Nat → Nat → Int) (sat : Nat) (thresh : Int) (x y : Nat) : Bool :=
  let c := score x y
  decide (16 ≤ x ∧ 16 ≤ y ∧ x + 16 < g.width ∧ y + 16 < g.height) && decide (g.px x y < sat) && decide (thresh ≤ c) &&
    (windowOffsets 4).all (fun o => decide (g.clamped (x + o.1) (y + o.2) < badPixel)) &&
    (windowOffsets 2).all (fun o =>
      let n := score ((x : Int) + o.1).toNat ((y : Int) + o.2).toNat
      if o = (0, 0) then true
      else if o.2 < 0 ∨ (o.2 = 0 ∧ o.1 < 0) then decide (n < c) else decide (n ≤ c))

/-- Refinement of a position along one axis (R187). -/
def featRefine (sm s0 sp : Int) : Int :=
  let den := sm - 2 * s0 + sp
  if 0 ≤ den then 0 else max (-8) (min 8 (Int.tdiv (8 * (sm - sp)) den))

/-- cos(j · 5.625°) in Q1.30, rounded to nearest, for j = 0 .. 16. -/
def cosQuarter : List Nat :=
  [1073741824, 1068571464, 1053110176, 1027506862, 992008094, 946955747, 892783698, 830013654, 759250125, 681174602,
   596538995, 506158392, 410903207, 311690799, 209476638, 105245103, 0]

/-- cos(j · 5.625°) in Q1.30. -/
def cosQ (j : Nat) : Int :=
  let i := j % 64
  if i ≤ 16 then cosQuarter.getD i 0
  else if i ≤ 32 then -(cosQuarter.getD (32 - i) 0 : Nat)
  else if i ≤ 48 then -(cosQuarter.getD (i - 32) 0 : Nat)
  else cosQuarter.getD (64 - i) 0

def sinQ (j : Nat) : Int := cosQ (j + 48)

/-- The orientation bin of moments (R189). -/
def orientBin (m10 m01 : Int) : Nat :=
  let cross (k : Nat) : Int := cosQ (2 * k + 1) * m01 - sinQ (2 * k + 1) * m10
  if m10 = 0 ∧ m01 = 0 then 0
  else ((List.range 32).find? (fun k => decide (0 ≤ cross ((k + 31) % 32) ∧ cross k < 0))).getD 0

/-- The intensity centroid's moments (R189). -/
def Img.moments (g : Img) (x y : Nat) : Int × Int :=
  (windowOffsets 15).foldl (fun a o =>
    if o.1 * o.1 + o.2 * o.2 ≤ 225 then
      let v : Int := g.clamped (x + o.1) (y + o.2)
      (a.1 + o.1 * v, a.2 + o.2 * v)
    else a) (0, 0)

def lcgNext (s : Nat) : Nat := (1103515245 * s + 12345) % 2 ^ 31
def lcgValue (s : Nat) : Int := ((s / 65536 % 19 : Nat) : Int) - 9

/-- The test pattern (R190), with `fuel` tries. -/
def patternFrom : Nat → Nat → Nat → List (Int × Int × Int × Int)
  | 0, _, _ => []
  | _, 0, _ => []
  | fuel + 1, n + 1, s =>
    let s1 := lcgNext s
    let s2 := lcgNext s1
    let s3 := lcgNext s2
    let s4 := lcgNext s3
    let ax := lcgValue s1
    let ay := lcgValue s2
    let bx := lcgValue s3
    let by_ := lcgValue s4
    if ax = bx ∧ ay = by_ then patternFrom fuel (n + 1) s4 else (ax, ay, bx, by_) :: patternFrom fuel n s4

def testPattern : List (Int × Int × Int × Int) := patternFrom 1000 256 0x6240

/-- Rounding of a Q30 product (R190). -/
def rndQ30 (t : Int) : Int := if 0 ≤ t then (t + 2 ^ 29) / 2 ^ 30 else -((-t + 2 ^ 29) / 2 ^ 30)

/-- A 5 × 5 box sum; `none` when it holds an invalid pixel. -/
def Img.box (g : Img) (x y : Int) : Option Nat :=
  let ps := (windowOffsets 2).map (fun o => g.clamped (x + o.1) (y + o.2))
  if ps.any (fun p => decide (badPixel ≤ p)) then none else some (ps.foldl (· + ·) 0)

/-- The bits of a descriptor with their invalid marks (R190). -/
def Img.descriptor (g : Img) (x y b : Nat) : List (Bool × Bool) :=
  let c := cosQ (2 * b)
  let sn := sinQ (2 * b)
  testPattern.map (fun t =>
    let rot (px py : Int) : Int × Int := (rndQ30 (c * px - sn * py), rndQ30 (sn * px + c * py))
    let a := rot t.1 t.2.1
    let e := rot t.2.2.1 t.2.2.2
    match g.box (x + a.1) (y + a.2), g.box (x + e.1) (y + e.2) with
    | some u, some v => (decide (u < v), false)
    | _, _ => (false, true))

/-- Bits packed eight to a byte, bit i at position i mod 8. -/
def packBits : List Bool → Bytes
  | b0 :: b1 :: b2 :: b3 :: b4 :: b5 :: b6 :: b7 :: rest =>
    leBytes 1 (b2n b0 + 2 * b2n b1 + 4 * b2n b2 + 8 * b2n b3 + 16 * b2n b4 + 32 * b2n b5 + 64 * b2n b6 + 128 * b2n b7) ++
      packBits rest
  | _ => []

/-- A feature list's header tile (R192). -/
def featHeader (count cand dropped matched stamp w h : Nat) : Bytes :=
  fitBytes tileBytes (leBytes 4 count ++ leBytes 4 cand ++ leBytes 4 dropped ++ leBytes 4 matched ++
    leBytes 8 (compact stamp) ++ leBytes 2 w ++ leBytes 2 h ++ leBytes 2 1)

/-- Entries in tiles of 512. -/
def entryTiles : Nat → List Bytes → List Bytes
  | 0, _ => []
  | n + 1, es => fitBytes tileBytes (es.take 512).flatten :: entryTiles n (es.drop 512)

/-- The 64-byte entry of a new feature (R192). -/
def Img.featEntry (g : Img) (score : Nat → Nat → Int) (x y : Nat) : Bytes :=
  let X := 16 * (x : Int) + featRefine (score (x - 1) y) (score x y) (score (x + 1) y)
  let Y := 16 * (y : Int) + featRefine (score x (y - 1)) (score x y) (score x (y + 1))
  let m := g.moments x y
  let b := orientBin m.1 m.2
  let ds := g.descriptor x y b
  let inv := (ds.filter (fun t => t.2)).length
  leBytes 2 X.toNat ++ leBytes 2 Y.toNat ++ leBytes 8 (ofSigned 64 (score x y)) ++ leBytes 1 b ++
    leBytes 1 (if inv = 0 then 0 else 2) ++ leBytes 2 inv ++ leBytes 2 0xFFFF ++ leBytes 2 0xFFFF ++ leBytes 12 0 ++
    packBits (ds.map (fun t => t.1))

/-- FEATURE. -/
def State.featureWork (s : State) (d : VisionDesc) (blk : Bytes) : VisionOut :=
  match s.sourceImage d d.selA with
  | none => ⟨[featHeader 0 0 0 0 0 (s.sourceSize d d.selA).1 (s.sourceSize d d.selA).2], 0, 0, [0, 0, 0, 0, 0], 1, served, 0, 0, 0, 0⟩
  | some (g, stamp) =>
    let scores := (List.range g.height).map (fun (y : Nat) => (List.range g.width).map (fun (x : Nat) => g.score x y))
    let score (x y : Nat) : Int := (scores.getD y []).getD x 0
    let cands := (List.range g.height).flatMap (fun y =>
      ((List.range g.width).filter (fun x => g.candidate score (leAt blk 0 2) (signedOf 48 (leAt blk 8 6)) x y)).map
        (fun x => (x, y)))
    let keep := leAt blk 4 2
    let better (a b : Nat × Nat) : Bool := lexLe [-(score a.1 a.2), a.2, a.1] [-(score b.1 b.2), b.2, b.1]
    let kept := (sortList better cands).take keep
    let kept := cands.filter (fun c => kept.contains c)
    let dropped := cands.length - kept.length
    let es := kept.map (fun p => g.featEntry score p.1 p.2)
    ⟨featHeader kept.length cands.length dropped 0 stamp g.width g.height :: entryTiles (ceilDiv kept.length 512) es,
     kept.length, 0, [cands.length, dropped, 0, 0, 0], 0, served, 0, stamp, 0, 0⟩

/-- The entries of a stored feature list. -/
def State.featList (s : State) (a : Nat) : List Bytes :=
  (List.range (leVal (s.load a 4))).map (fun i =>
    s.load (a + tileBytes + i / 512 * tileBytes + i % 512 * 64) 64)

def hamming (a b : Bytes) : Nat :=
  (List.zipWith (fun (x y : Byte) => popcountFrom 8 (x ^^^ y).toNat) a b).foldl (· + ·) 0

/-- The best of candidates with a distance: its index, h₁ and h₂ (R191). -/
def bestMatch (cands : List (Nat × Nat)) : Option (Nat × Nat × Option Nat) :=
  match cands with
  | [] => none
  | c :: cs =>
    let b := cs.foldl (fun (b : Nat × Nat) x => if x.2 < b.2 then x else b) c
    let rest := (cands.filter (fun x => x.1 != b.1)).map (fun x => x.2)
    some (b.1, b.2, match rest with | [] => none | r :: rs => some (rs.foldl min r))

/-- Previous feature g is a candidate of current feature f (R191). -/
def matchNear (blk f g : Bytes) : Bool :=
  let r : Int := 16 * leAt blk 4 1
  let dx := signedOf 16 (leAt blk 0xA 2)
  let dy := signedOf 16 (leAt blk 0xC 2)
  decide (((leAt g 0 2 : Int) + dx - leAt f 0 2).natAbs ≤ r.natAbs ∧
    ((leAt g 2 2 : Int) + dy - leAt f 2 2).natAbs ≤ r.natAbs)

/-- The address of the list a MATCH descriptor completes: its destination. -/
def visionDst (d : VisionDesc) : Nat :=
  if d.dstMode = 0 then gsBase (bitsOf d.dstRing.toNat 24 2) + bitsOf d.dstRing.toNat 0 12 * tileBytes else d.dstAddr.toNat

/-- MATCH. -/
def State.matchWork (s : State) (d : VisionDesc) (blk : Bytes) : VisionOut :=
  let cur := s.featList (visionDst d)
  let prev := s.featList d.srcAddr.toNat
  let hd := s.load (visionDst d) 64
  let desc (e : Bytes) : Bytes := e.drop 32
  let idx (xs : List Bytes) : List (Nat × Bytes) := List.zip (List.range xs.length) xs
  let forward (f : Bytes) : Option (Nat × Nat × Option Nat) :=
    bestMatch (((idx prev).filter (fun g => matchNear blk f g.2)).map (fun g => (g.1, hamming (desc f) (desc g.2))))
  let backward (g : Bytes) : Option (Nat × Nat × Option Nat) :=
    bestMatch (((idx cur).filter (fun f => matchNear blk f.2 g)).map (fun f => (f.1, hamming (desc f.2) (desc g))))
  let accept (i : Nat) (f : Bytes) : Option (Nat × Nat) :=
    match forward f with
    | none => none
    | some (j, h1, h2) =>
      let ok := decide (h1 ≤ leAt blk 6 2) && (match h2 with | none => true | some h => decide (16 * h1 ≤ leAt blk 8 1 * h)) &&
        (!vFlag d 4 || (match backward (prev.getD j []) with | some b => b.1 == i | none => false))
      if ok then some (j, h1) else none
  let out (p : Nat × Bytes) : Bytes × Bool :=
    match accept p.1 p.2 with
    | some (j, h) =>
      (p.2.take 0xD ++ leBytes 1 (leAt p.2 0xD 1 / 2 * 2 + 1) ++ sliceBytes 0xE 2 p.2 ++ leBytes 2 j ++ leBytes 2 h ++
        p.2.drop 0x14, true)
    | none =>
      (p.2.take 0xD ++ leBytes 1 (leAt p.2 0xD 1 / 2 * 2) ++ sliceBytes 0xE 2 p.2 ++ leBytes 2 0xFFFF ++ leBytes 2 0xFFFF ++
        p.2.drop 0x14, false)
  let es := (idx cur).map out
  let m := (es.filter (fun e => e.2)).length
  let header := fitBytes tileBytes (hd.take 0xC ++ leBytes 4 m ++ hd.drop 0x10)
  ⟨header :: entryTiles (ceilDiv cur.length 512) (es.map (fun e => e.1)), cur.length, 0,
   [leAt hd 4 4, leAt hd 8 4, m, 0, 0], 0, served, 0, 0, 0, 0⟩

/-! Projection (R193–R200). -/

def projCodes : List Nat := [0xFFFF, 0xFFFE, 0xFFFD, 0xFFFC]

/-- The five counts of a projection summary: its four codes and a zero. -/
def projOut (o : VisionOut) : VisionOut := { o with codes := o.codes ++ [0] }

def projRaster (cols rows : Nat) (val : Nat → Nat → Nat) (status outcome cause stamp skipped : Nat) : VisionOut :=
  projOut (rasterOut cols rows 0xFFFF projCodes val status outcome cause stamp 0 skipped)

def projTab (s : State) : List (List Nat) := (s.steps.image.map (·.projTable)).getD []

/-- A sample where a point projects (R197, R199). -/
def sampleAt (tab : List (List Nat)) (c : Calibration) (g : Img) (p : List Nat) : Nat :=
  match project tab c p with
  | .at u v => g.sample u v
  | .outside => 0xFFFE
  | .notProjectable => 0xFFFD

/-- The two calibrations and the pose of a projection descriptor. -/
def State.projInputs (s : State) (d : VisionDesc) (blk : Bytes) : Option Calibration × Option Calibration × Pose :=
  let use (i : Nat) : Option Calibration := (s.calOf d.ctx.cadence i).filter calUsable
  (use (leAt blk 4 2), use (leAt blk 6 2), s.poseAt d.aux.toNat)

/-- PROJ_RAY. -/
def State.projRayWork (s : State) (d : VisionDesc) (blk : Bytes) : VisionOut :=
  let inp := s.projInputs d blk
  let size := match s.calOf d.ctx.cadence (leAt blk 6 2) with | some c => (c.width, c.height) | none => (0, 0)
  let src := s.sourceImage d d.selA
  let stamp := (src.map (fun x => x.2)).getD 0
  let none_ (status outcome cause : Nat) : VisionOut := projRaster size.1 size.2 (fun _ _ => 0xFFFF) status outcome cause stamp 0
  match src, inp.1, inp.2.1 with
  | none, _, _ => none_ 1 served 0
  | some (g, _), some ci, some co =>
    if co.model ≠ 2 ∨ !inp.2.2.finite then none_ 4 shed 0x22
    else
      let ri := (sensorToPlant inp.2.2 ci).rot
      let ro := (sensorToPlant inp.2.2 co).rot
      let M := matMul (transpose3 ri) ro
      let val (x y : Nat) : Nat :=
        let ray := [div32 (sub32 (fOfInt fp32 x) co.cx) co.fx, div32 (sub32 (fOfInt fp32 y) co.cy) co.fy, one32]
        sampleAt (projTab s) ci g (matVec M ray)
      projRaster size.1 size.2 val 0 served 0 stamp 0
  | _, _, _ => none_ 4 shed 0x22

/-- PROJ_PLANE. -/
def State.projPlaneWork (s : State) (d : VisionDesc) (blk : Bytes) : VisionOut :=
  let inp := s.projInputs d blk
  let win := gridWindow blk
  let img := s.steps.image.getD default
  let src := s.sourceImage d d.selA
  let stamp := (src.map (fun x => x.2)).getD 0
  let none_ (status outcome cause : Nat) : VisionOut :=
    projRaster win.2.2.1 win.2.2.2 (fun _ _ => 0xFFFF) status outcome cause stamp 0
  match src, inp.1 with
  | none, _ => none_ 1 served 0
  | some (g, _), some ci =>
    if !inp.2.2.finite then none_ 4 shed 0x22
    else
      let T := sensorToPlant inp.2.2 ci
      let centre (base i : Nat) : Nat := plus32 base (mul32 (plus32 (fOfInt fp32 i) half32) img.gridCell)
      let val (x y : Nat) : Nat :=
        let p := [centre img.gridEast (win.1 + x), centre img.gridNorth (win.2.1 + y), leAt blk 8 4]
        sampleAt (projTab s) ci g (matVec (transpose3 T.rot) (vecSub p T.trans))
      projRaster win.2.2.1 win.2.2.2 val 0 served 0 stamp 0
  | _, none => none_ 4 shed 0x22

/-- The usable points with their intensities, and how many are skipped (R200). -/
def usablePoints (ps : List Bytes) : List (List Nat × Nat) × Nat :=
  let ok := ps.filter (fun p => leAt p 14 2 % 2 == 0 && (List.range 3).all (fun i => finite32 (leAt p (4 * i) 4)))
  (ok.map (fun p => ((List.range 3).map (fun i => leAt p (4 * i) 4), leAt p 12 2)), ps.length - ok.length)

/-- A quantised height or depth, or 0xFFFD out of range (R199). -/
def quantise (v : Nat) : Nat :=
  let q := ((fltOf fp32 v).scale 6).roundInt
  if !finite32 v || decide (q < 0) || decide (0xFFFB < q) then 0xFFFD else q.toNat

/-- PROJ_PTS_IMAGE. -/
def State.projPtsImageWork (s : State) (d : VisionDesc) (blk : Bytes) : VisionOut :=
  let inp := s.projInputs d blk
  let size := match s.calOf d.ctx.cadence (leAt blk 6 2) with | some c => (c.width, c.height) | none => (0, 0)
  let src := s.sourcePoints d
  let stamp := (src.map (fun x => x.2)).getD 0
  let none_ (status outcome cause : Nat) : VisionOut := projRaster size.1 size.2 (fun _ _ => 0xFFFF) status outcome cause stamp 0
  match src, inp.1, inp.2.1 with
  | none, _, _ => none_ 1 served 0
  | some (ps, _), some ci, some co =>
    if !inp.2.2.finite then none_ 4 shed 0x22
    else
      let pts := usablePoints ps
      let Ti := sensorToPlant inp.2.2 ci
      let To := sensorToPlant inp.2.2 co
      let place (p : List Nat) : Option (Int × Int × Nat) :=
        let q := matVec (transpose3 To.rot) (vecSub (vecAdd (matVec Ti.rot p) Ti.trans) To.trans)
        match project (projTab s) co q with
        | .at u v => some ((fltOf fp32 u).roundInt, (fltOf fp32 v).roundInt, q.getD 2 0)
        | _ => none
      let placed := pts.1.filterMap (fun p => place p.1)
      let val (x y : Nat) : Nat :=
        match placed.filter (fun p => p.1 == (x : Int) && p.2.1 == (y : Int)) with
        | [] => 0xFFFC
        | p :: rest => quantise (rest.foldl (fun z t => if lt32 t.2.2 z then t.2.2 else z) p.2.2)
      projRaster size.1 size.2 val 0 served 0 stamp pts.2
  | _, _, _ => none_ 4 shed 0x22

/-- The column or row of the plant grid that contains a coordinate; none contains one that is not finite (R26, R198). -/
def gridCellOf (base cell v : Nat) : Option Int :=
  let q := div32 (sub32 v base) cell
  if finite32 v && finite32 q then some (fltOf fp32 q).floorInt else none

/-- PROJ_PTS_GRID. -/
def State.projPtsGridWork (s : State) (d : VisionDesc) (blk : Bytes) : VisionOut :=
  let inp := s.projInputs d blk
  let win := gridWindow blk
  let img := s.steps.image.getD default
  let src := s.sourcePoints d
  let stamp := (src.map (fun x => x.2)).getD 0
  let none_ (status outcome cause : Nat) : VisionOut :=
    projRaster win.2.2.1 win.2.2.2 (fun _ _ => 0xFFFF) status outcome cause stamp 0
  match src, inp.1 with
  | none, _ => none_ 1 served 0
  | some (ps, _), some ci =>
    if !inp.2.2.finite then none_ 4 shed 0x22
    else
      let pts := usablePoints ps
      let T := sensorToPlant inp.2.2 ci
      let place (p : List Nat × Nat) : Option (Int × Int × Nat × Nat) :=
        let q := vecAdd (matVec T.rot p.1) T.trans
        match gridCellOf img.gridEast img.gridCell (q.getD 0 0), gridCellOf img.gridNorth img.gridCell (q.getD 1 0) with
        | some x, some y => some (x, y, q.getD 2 0, p.2)
        | _, _ => none
      let placed := pts.1.filterMap place
      let stat := leAt blk 0x10 1
      let val (x y : Nat) : Nat :=
        match placed.filter (fun p => p.1 == ((win.1 + x : Nat) : Int) && p.2.1 == ((win.2.1 + y : Nat) : Int)) with
        | [] => 0xFFFC
        | p :: rest =>
          let height (z : Nat) : Nat := quantise (sub32 z (leAt blk 0xC 4))
          match stat with
          | 0 => height (rest.foldl (fun z t => if lt32 z t.2.2.1 then t.2.2.1 else z) p.2.2.1)
          | 1 => height (rest.foldl (fun z t => if lt32 t.2.2.1 z then t.2.2.1 else z) p.2.2.1)
          | 2 => min (1 + rest.length) 0xFFFB
          | _ =>
            let v := (p :: rest).foldl (fun a t => a + t.2.2.2) 0 / (1 + rest.length)
            if 0xFFFB < v then 0xFFFD else v
      projRaster win.2.2.1 win.2.2.2 val 0 served 0 stamp pts.2
  | _, none => none_ 4 shed 0x22

/-! Issue and completion (R203–R207, R210). -/

def State.updVision (s : State) (v : Nat) (f : VisionUnit → VisionUnit) : State :=
  { s with vision := s.vision.modify v f }

def visionReg (v k : Nat) : Nat := blockVision v + k

/-- A vision event, with the alert's vector (R210, R497). -/
def State.visionEvent (s : State) (v bit : Nat) : State :=
  s.event (visionReg v 0xC) bit (bit == 0 && s.activeFld ⟨visionReg v 8, 8, 1⟩ == 1) (11 + v)

/-- The completion summary (R204). -/
def summaryBytes (op : Nat) (o : VisionOut) : Bytes :=
  leBytes 1 op ++ leBytes 1 o.status ++ leBytes 1 o.cause ++ leBytes 1 0 ++ leBytes 4 o.tiles.length ++
    leBytes 8 (compact o.stampA) ++ leBytes 8 (compact o.stampB) ++ leBytes 4 o.valid ++
    (fitNats 5 o.codes).flatMap (leBytes 4) ++ leBytes 4 o.skipped

/-- The counts of a cadence's work, all zero before any. -/
def VisionUnit.countOf (u : VisionUnit) (k : Nat) : VisionCount :=
  (u.counts.find? (fun c => c.cadence == k)).getD ⟨k, [0, 0, 0, 0], List.replicate 12 0⟩

/-- The counts of a cadence's work change. -/
def VisionUnit.updCount (k : Nat) (f : VisionCount → VisionCount) (u : VisionUnit) : VisionUnit :=
  { u with counts := f (u.countOf k) :: u.counts.filter (fun c => c.cadence != k) }

/-- The slot of the k-th output of a ring (R203). -/
def ringSlot (ring k : Nat) : Nat :=
  bitsOf ring 24 2 * 4096 + bitsOf ring 0 12 + k % max 1 (bitsOf ring 12 12)

/-- A producer's wait for a slot it stores to: granted once the slot is `UNLIT` with the unit as the producer of its use (R151). -/
def State.awaitWrite (s : State) (k unit idx : Nat) : State × Bool :=
  if s.waitGranted unit idx && s.mayWriteSlot unit idx then (s.dropWait unit idx, true) else (s.issueWait k unit idx, false)

/-- A job's next tile is stored when its lantern lets the producer write; otherwise the engine waits (R203). -/
def State.storeJob (region : Nat) : Nat → State → VisionJob → State × VisionJob
  | 0, s, j => (s, j)
  | fuel + 1, s, j =>
    let k := j.ctx.cadence
    match j.tiles with
    | [] => (s, j)
    | t :: ts =>
      match j.address with
      | some a =>
        let x := a + j.stored * tileBytes
        State.storeJob region fuel ((s.fillRange j.unit x tileBytes).cstore k j.unit x (fitBytes tileBytes t))
          { j with tiles := ts, stored := j.stored + 1 }
      | none =>
        let idx := ringSlot j.ring j.stored
        let w := s.awaitWrite k j.unit idx
        if w.2 then
          let s := (w.1.storeTile region k j.unit idx t).raiseLantern j.unit idx (compact j.validTime) j.step
          State.storeJob region fuel s { j with tiles := ts, stored := j.stored + 1 }
        else (w.1, j)

/-- A job whose outputs are stored writes its summary, raises its lantern, releases the tiles it consumed and completes (R150,
R203, R204); another waits on. -/
def State.runJob (s : State) (v : Nat) (j : VisionJob) : State :=
  let region := visionRegion v j.engine
  let k := j.ctx.cadence
  let r := State.storeJob region j.tiles.length s j
  let keep (s : State) (j : VisionJob) : State := s.updVision v (fun u => { u with jobs := u.jobs ++ [j] })
  let finish (s : State) : State :=
    let s := j.waited.foldl (fun s l => s.releaseLantern k j.unit l) s
    let add (c : VisionCount) : VisionCount := { c with tiles := c.tiles.modify j.engine (· + r.2.stored) }
    s.updVision v (fun u => { u.updCount k add with done := u.done.modify j.engine (· + 1) })
      |>.count (v + 1) 0x21 j.engine r.2.stored
  if r.2.tiles ≠ [] then keep r.1 r.2
  else if j.raise = noLantern then finish r.1
  else
    let w := r.1.awaitWrite k j.unit j.raise
    if w.2 then
      finish ((w.1.storeTile region k j.unit j.raise j.summary).raiseLantern j.unit j.raise (compact j.validTime) j.step)
    else keep w.1 r.2

/-- Where the counts of the summary's codes go among the twelve of the block: flow reasons 1 to 5, stereo codes 0xFFFF to
0xFFFB, dropped features, skipped points (R204, R210). -/
def addCounts (op : Nat) (o : VisionOut) (c : List Nat) : List Nat :=
  let add (base : Nat) (xs : List Nat) : List Nat :=
    (List.zip (List.range xs.length) xs).foldl (fun c p => c.modify (base + p.1) (· + p.2)) c
  let byRegister := [3, 4, 2, 0, 1].map (fun i => o.codes.getD i 0)
  if op = opFlow then add 0 byRegister
  else if op = opStereo then add 5 byRegister
  else if op = opFeature then add 10 [o.codes.getD 1 0]
  else if op = opMatch then c
  else add 11 [o.skipped]

/-- The vision block's answer for descriptor issue, and the error it raises when it refuses one (R205, R207). -/
def State.refuseVision (s : State) (v e cause : Nat) (ctx : DescCtx) : State :=
  (s.answer (blockVision v) refused cause).badDescriptor (visionRegion v e) cause ctx

/-- The bytes of a flow descriptor's prediction field (R201). -/
def State.predRange (s : State) (op : Nat) (d : VisionDesc) : List (Nat × Nat) :=
  let blk := s.load d.param.toNat 64
  let size := s.sourceSize d d.selA
  let f := if leAt blk 0xA 1 = 1 ∧ vFlag d 0 then 2 else 1
  if op = opFlow ∧ leAt blk 0xA 1 ≠ 0 then
    [(d.predAddr.toNat, ceilDiv (ceilDiv size.1 f) 128 * ceilDiv (ceilDiv size.2 f) 64 * tileBytes)]
  else []

/-- The lanterns a descriptor waits on: its own, and each groundsheet tile of its prediction field (R201). -/
def State.visionWaits (s : State) (op : Nat) (d : VisionDesc) : List Nat :=
  (if d.wait.toNat = noLantern then [] else [d.wait.toNat]) ++ (s.predRange op d).flatMap (fun r => slotsIn r.1 r.2)

/-- The bytes of a stored feature list. -/
def State.featRange (s : State) (a : Nat) : Nat × Nat := (a, tileBytes * (1 + ceilDiv (leVal (s.load a 4)) 512))

/-- The bytes a descriptor reads outside frame rings, for the check of R153. -/
def State.visionReads (s : State) (op : Nat) (d : VisionDesc) : List (Nat × Nat) :=
  let image := ceilDiv d.memW 128 * ceilDiv d.memH 128 * tileBytes
  let pts := op = opProjPtsImage ∨ op = opProjPtsGrid
  let pair := op = opFlow ∨ op = opStereo
  let srcA := if op = opMatch then [s.featRange d.srcAddr.toNat, s.featRange (visionDst d)]
    else if !d.selA.getLsbD 15 then []
    else [(d.srcAddr.toNat, if pts then 16 * d.memPoints else image)]
  let srcB := if pair ∧ d.selB.getLsbD 15 then [(d.srcAddr.toNat, image)] else []
  let pose := if (pts ∨ op = opProjRay ∨ op = opProjPlane) ∧ d.aux ≠ 0 then [(d.aux.toNat, 48)] else []
  (d.param.toNat, 64) :: srcA ++ srcB ++ s.predRange op d ++ pose

/-- The bytes a descriptor writes outside a ring of slots, for the check of R153. -/
def visionWrites (d : VisionDesc) (tiles : Nat) : List (Nat × Nat) :=
  if d.dstMode = 0 then [] else [(d.dstAddr.toNat, tiles * tileBytes)]

/-- WAIT, RAISE and END: opcodes without outputs. -/
def visionControlOp (op : Nat) : Bool := op == 0x08 || op == 0x09 || op == 0x0B

/-- What a work descriptor computes. -/
def State.visionWork (s : State) (op : Nat) (d : VisionDesc) : VisionOut :=
  let b := s.load d.param.toNat 64
  if op = opFlow then s.flowWork d b
  else if op = opStereo then s.stereoWork d b
  else if op = opFeature then s.featureWork d b
  else if op = opMatch then s.matchWork d b
  else if op = opProjRay then s.projRayWork d b
  else if op = opProjPlane then s.projPlaneWork d b
  else if op = opProjPtsImage then s.projPtsImageWork d b
  else s.projPtsGridWork d b

/-- All that a work descriptor accesses outside frame rings and rings of slots. -/
def State.visionAccesses (s : State) (op : Nat) (d : VisionDesc) : List (Nat × Nat) :=
  s.visionReads op d ++ visionWrites d (s.visionWork op d).tiles.length

/-- The observations that a work descriptor's outputs give (R207, R210). -/
def State.noteVision (s : State) (v op k : Nat) (o : VisionOut) : State :=
  let s := s.updVision v (VisionUnit.updCount k (fun c => { c with codes := addCounts op o c.codes }))
  let s := s.count (v + 1) 0x22 (visionEngineOf op) (o.codes.foldl (· + ·) 0)
  let pct := min 100 (s.activeFld ⟨visionReg v 8, 0, 8⟩)
  let s := if 0 < o.total ∧ pct * o.total ≤ 100 * (o.total - o.valid) then s.visionEvent v 0 else s
  let s := if o.status % 2 = 1 then s.visionEvent v 1 else s
  let s := if o.status / 2 % 2 = 1 then s.visionEvent v 2 else s
  if o.status / 4 = 1 then s.visionEvent v 3 else s

/-- A descriptor that its engine issues: its outputs are computed and stored (R203–R207), or, of a control descriptor, its lantern
is raised. -/
def State.finishVision (s : State) (v : Nat) (w : VisionWait) (waited : List Nat) : State :=
  let d := w.desc
  let k := d.ctx.cadence
  let occ := (s.occOf k).getD default
  if visionControlOp w.op then
    let s := s.answer (blockVision v) served 0
    let s := waited.foldl (fun s l => s.releaseLantern k d.unit.toNat l) s
    let s := if w.op = 0x09 then s.raiseLantern d.unit.toNat d.raise.toNat (s.stepTime occ.step) occ.step else s
    s.updVision v (fun u => { u with done := u.done.modify w.engine (· + 1) })
  else
    let o := s.visionWork w.op d
    ((s.answer (blockVision v) o.outcome o.cause).noteVision v w.op k o).runJob v {
      engine := w.engine, ctx := d.ctx, unit := d.unit.toNat, tiles := o.tiles, stored := 0, ring := d.dstRing.toNat
      address := if d.dstMode = 0 then none else some d.dstAddr.toNat
      raise := d.raise.toNat, waited := waited, summary := summaryBytes w.op o
      validTime := (s.steps.run.map (fun r => r.instant occ.step)).getD 0, step := occ.step }

/-- Every wait of a list granted, or the first that is not left waiting. -/
def State.awaitAll (k unit : Nat) : List Nat → State → State × Bool
  | [], s => (s, true)
  | l :: ls, s =>
    let w := s.await k unit l
    if w.2 then State.awaitAll k unit ls w.1 else w

/-- The descriptor at the head of an engine's list: refused when malformed, while the engine is out of service, or when its
tether is not readable; else issued once its memory is its own and its waits are granted, or stopped by an order error (R155,
R162, R203–R207). The answer tells whether it is done with. -/
def State.visionIssue (s : State) (v : Nat) (w : VisionWait) : State × Bool :=
  let d := w.desc
  let e := w.engine
  let k := d.ctx.cadence
  let r := visionRegion v e
  let control := visionControlOp w.op
  let ok := if control then s.visionCommonOk v w.op d else s.visionOk v w.op d
  if !ok then (s.refuseVision v e 0x0C d.ctx, true)
  else if !s.inService r then (s.answer (blockVision v) refused 0x0A, true)
  else if !control && (visionSlots w.op d).any (fun t => !s.mayRead v e t) then (s.refuseVision v e 0x20 d.ctx, true)
  else
    let s := s.setReg64 (visionReg v (0x10 + 0x10 * e)) d.ctx.addr
    if !control && s.memoryWaits r (s.visionAccesses w.op d) then (s.noteMemoryWait r k (s.visionAccesses w.op d), false)
    else
      let ls := if control then (if d.wait.toNat = noLantern then [] else [d.wait.toNat]) else s.visionWaits w.op d
      let a := State.awaitAll k d.unit.toNat ls s
      if !a.2 then (a.1, false)
      else
        let broken := if control then none
          else s.orderBroken d.unit.toNat ls (s.visionReads w.op d) (visionWrites d (s.visionWork w.op d).tiles.length)
        match broken with
        | some i => (a.1.orderError r i d.ctx, true)
        | none => (a.1.finishVision v w ls, true)

/-- An engine is busy with a job, or has descriptors before the newest. -/
def VisionUnit.busy (u : VisionUnit) (e : Nat) : Bool := u.jobs.any (fun j => j.engine == e) || u.queue.any (fun w => w.engine == e)

/-- A descriptor reaches its engine's sequencer, which issues them in order (R203). -/
def State.visionCommand (s : State) (v : Nat) (w : VisionWait) : State :=
  let hold (s : State) : State := s.updVision v (fun u => { u with queue := u.queue ++ [w] })
  if !s.mayIssue w.desc.ctx.cadence then s
  else if (s.vision.getD v default).busy w.engine then hold s
  else
    let r := s.visionIssue v w
    if r.2 then r.1 else hold r.1

/-- The waiting work of an engine goes on, until it waits again. -/
def State.resumeVision (v e : Nat) : Nat → State → State
  | 0, s => s
  | fuel + 1, s =>
    let u := s.vision.getD v default
    match u.jobs.find? (fun j => j.engine == e), u.queue.find? (fun w => w.engine == e) with
    | some j, _ =>
      let s := (s.updVision v (fun u => { u with jobs := u.jobs.filter (fun j => j.engine != e) })).runJob v j
      if (s.vision.getD v default).jobs.any (fun j => j.engine == e) then s else State.resumeVision v e fuel s
    | none, some w =>
      let r := s.visionIssue v w
      if !r.2 then r.1
      else
        let s := r.1.updVision v (fun u => { u with queue := u.queue.erase w })
        if (s.vision.getD v default).jobs.any (fun j => j.engine == e) then s else State.resumeVision v e fuel s
    | none, none => s

/-- The unit of an engine's waiting work. -/
def VisionUnit.waitingUnit (u : VisionUnit) (e : Nat) : Option Nat :=
  match u.jobs.find? (fun j => j.engine == e) with
  | some j => some j.unit
  | none => (u.queue.find? (fun w => w.engine == e)).map (fun w => w.desc.unit.toNat)

/-- The waiting work of a cluster's engines, of those whose unit passes, goes on. -/
def State.resumeCluster (s : State) (v : Nat) (passes : Nat → Bool) : State :=
  (List.range 4).foldl (fun s e =>
    let u := s.vision.getD v default
    match u.waitingUnit e with
    | some x => if passes x then State.resumeVision v e (u.jobs.length + u.queue.length) s else s
    | none => s) s

/-! Commits (R210). -/

/-- The counts of a cadence that commits join those of committed work, of cadence `committed`. -/
def VisionUnit.commitCounts (committed k : Nat) (u : VisionUnit) : VisionUnit :=
  let x := u.countOf committed
  let y := u.countOf k
  { u with counts := ⟨committed, List.zipWith (· + ·) x.tiles y.tiles, List.zipWith (· + ·) x.codes y.codes⟩ ::
      u.counts.filter (fun c => c.cadence != k && c.cadence != committed) }

/-! The commands. -/

def State.visionIn (s : State) (v op : Nat) (d : VisionDesc) : Host.Outcome State Fault Refusal :=
  .next (s.visionCommand v ⟨visionEngineOf op, op, d⟩)

def execFlow (v : Fin 2) (d : VisionDesc) (s : State) : Host.Outcome State Fault Refusal := s.visionIn v opFlow d

def execStereo (v : Fin 2) (d : VisionDesc) (s : State) : Host.Outcome State Fault Refusal := s.visionIn v opStereo d

def execFeature (v : Fin 2) (d : VisionDesc) (s : State) : Host.Outcome State Fault Refusal := s.visionIn v opFeature d

def execMatchFeatures (v : Fin 2) (d : VisionDesc) (s : State) : Host.Outcome State Fault Refusal := s.visionIn v opMatch d

def execProjRay (v : Fin 2) (d : VisionDesc) (s : State) : Host.Outcome State Fault Refusal := s.visionIn v opProjRay d

def execProjPlane (v : Fin 2) (d : VisionDesc) (s : State) : Host.Outcome State Fault Refusal := s.visionIn v opProjPlane d

def execProjPtsImage (v : Fin 2) (d : VisionDesc) (s : State) : Host.Outcome State Fault Refusal :=
  s.visionIn v opProjPtsImage d

def execProjPtsGrid (v : Fin 2) (d : VisionDesc) (s : State) : Host.Outcome State Fault Refusal := s.visionIn v opProjPtsGrid d

/-- WAIT (R151): the descriptor ends once its lantern is granted. -/
def execVisionWait (v : Fin 2) (e : Fin 4) (d : VisionDesc) (s : State) : Host.Outcome State Fault Refusal :=
  .next (s.visionCommand v ⟨e, 0x08, d⟩)

/-- RAISE (R150): the named lantern is raised. -/
def execVisionRaise (v : Fin 2) (e : Fin 4) (d : VisionDesc) (s : State) : Host.Outcome State Fault Refusal :=
  .next (s.visionCommand v ⟨e, 0x09, d⟩)

/-- END (R201): the engine's descriptor list ends. -/
def execVisionEnd (v : Fin 2) (e : Fin 4) (d : VisionDesc) (s : State) : Host.Outcome State Fault Refusal :=
  .next (s.visionCommand v ⟨e, 0x0B, d⟩)

end Sys2Proof.Machine
end

