-- ==== Sys2Proof/Machine/Track.lean ====
section
/-! DEFINITION. The track engine (07): detections, filters, association, the life-cycle of tracks, track lists and host
requests. -/

namespace Sys2Proof.Machine

def State.trackDecl (s : State) : TrackDecl := (s.steps.image.map (·.track)).getD default
def State.tableVer (s : State) : Nat := (s.steps.image.map (·.fusionTables)).getD 0

def trackEvents : Nat := 0xA10008
def State.trackEvent (s : State) (bit : Nat) : State := s.event trackEvents bit (s.activeFld ⟨0xA10004, 16, 1⟩ == 1) 14

def stFree : Nat := 0
def stTentative : Nat := 1
def stConfirmed : Nat := 2
def stCoasting : Nat := 3
def stDeleted : Nat := 4

def Track.live (t : Track) : Bool := t.state == stTentative || t.state == stConfirmed || t.state == stCoasting

/-! Detections (R254, R255). -/

/-- A detection of a list. -/
structure Detection where
  cls : Nat
  privileged : Bool
  kind : Nat
  m : Nat
  stream : Nat
  z : FVec
  r : FMat
  deriving DecidableEq, Repr, Inhabited

/-- An entry of 128 bytes; the values widen exactly to FP64. -/
def detOf (e : Bytes) : Detection :=
  let m := leAt e 3 1
  let f (o : Nat) : Nat := fConv fp32 fp64 (leAt e o 4)
  ⟨leAt e 0 1, leAt e 1 1 % 2 == 1, leAt e 2 1, m, leAt e 4 2, mkVec m (fun i => f (8 + 4 * i)),
   fromUpper m (mkVec (m * (m + 1) / 2) (fun i => f (0x20 + 4 * i)))⟩

/-- A list in memory: `none` when it is malformed (R266). -/
def State.detList (s : State) (region a ts : Nat) : Option (Nat × List Detection) :=
  let hd := s.load a 64
  let stamp := leAt hd 8 8
  if leAt hd 0 2 ≠ region ∨ compact ts < stamp then none
  else
    some (stamp, (List.range (leAt hd 2 2)).map (fun i =>
      detOf (s.load (a + tileBytes + i / 256 * tileBytes + i % 256 * 128) 128)))

def State.classOf (s : State) (c : Nat) : TrackClass := s.trackDecl.classes.getD c default
def State.modelOf (s : State) (c : Nat) : MotionModel := s.trackDecl.models.getD (s.classOf c).model default

/-- A detection's values are finite and its dimension and kind are the model's (R255). -/
def State.detOk (s : State) (d : Detection) : Bool :=
  let md := s.modelOf d.cls
  decide (d.cls < s.trackDecl.classes.length) &&
    (match md.kinds[d.kind]? with | some k => k.m == d.m | none => false) && allFin64 d.z && d.r.all allFin64

/-! Filters (R259–R261). -/

/-- The state and covariance of a prediction, with its private values. -/
structure Predicted where
  x : FVec
  p : FMat
  ms : FVec
  deriving DecidableEq, Repr, Inhabited

/-- f(x, dt) and the private values after it. -/
def motion (ver : Nat) (md : MotionModel) (x : FVec) (dt : Nat) (ms : FVec) : FVec × FVec :=
  let o := runProg ver md.f (x ++ [dt] ++ ms)
  (o.take md.n, if md.n < o.length then o.drop md.n else ms)

/-- Sigma points and their weights (R259, the standard construction, assumption 20): λ = α²(n + κ) − n. -/
def sigmaSet (c : TrackClass) (x : FVec) (p : FMat) : Option (List FVec × FVec × FVec) :=
  let n := x.length
  let nf := int64 n
  let lam := sub64 (mul64 (mul64 c.alpha c.alpha) (add64 nf c.kappa)) nf
  let sum := add64 nf lam
  match cholesky p with
  | none => none
  | some ls =>
    let g := fSqrt fp64 sum
    let plus := ls.map (fun col => mkVec n (fun i => fma64 g (vget col i) (vget x i)))
    let minus := ls.map (fun col => mkVec n (fun i => fma64 (neg64 g) (vget col i) (vget x i)))
    let w := div64 half64 sum
    let wm0 := div64 lam sum
    let wc0 := add64 wm0 (add64 (sub64 one64 (mul64 c.alpha c.alpha)) c.beta)
    some (x :: plus ++ minus, wm0 :: List.replicate (2 * n) w, wc0 :: List.replicate (2 * n) w)

/-- A weighted mean over sigma points, ascending. -/
def sigmaMean (m : Nat) (w : FVec) (ys : List FVec) : FVec :=
  mkVec m (fun i => chain64 (List.zipWith (fun a y => (a, vget y i)) w ys))

/-- A weighted covariance of deviations, ascending. -/
def sigmaCov (w : FVec) (da db : List FVec) (r c : Nat) : FMat :=
  mkMat r c (fun i j => chain64 (List.zipWith (fun a d => (mul64 a (vget d.1 i), vget d.2 j)) w (List.zip da db)))

/-- The prediction of a track over dt; `none` on a filter fault (R261). -/
def predictTrack (ver : Nat) (c : TrackClass) (md : MotionModel) (t : Track) (dt : Nat) : Option Predicted :=
  let x := t.x.take md.n
  let p := fromUpper md.n t.p
  let args := x ++ [dt] ++ t.ms
  let q : FMat :=
    let o := runProg ver md.q args
    mkMat md.n md.n (fun i j => vget o (i * md.n + j))
  let r : Option (Predicted × FMat) :=
    if c.ukf then
      match sigmaSet c x p with
      | none => none
      | some (pts, wm, wc) =>
        let ys := pts.map (fun y => (motion ver md y dt t.ms).1)
        let mean := sigmaMean md.n wm ys
        let ds := ys.map (fun y => vsub y mean)
        some (⟨mean, madd (sigmaCov wc ds ds md.n md.n) q, (motion ver md x dt t.ms).2⟩, ys)
    else
      let fx := motion ver md x dt t.ms
      let o := runProg ver md.jac args
      let F := mkMat md.n md.n (fun i j => vget o (i * md.n + j))
      some (⟨fx.1, madd (mm (mm F p) (tr F)) q, fx.2⟩, F)
  (r.filter (fun r =>
    allFin64 r.1.x && r.1.p.all allFin64 && allFin64 r.1.ms && q.all allFin64 && r.2.all allFin64 &&
      (List.range md.n).all (fun i => lt64 0 (mget r.1.p i i)))).map (·.1)

/-- A predicted track against a detection: innovation, S, its factor, and what the update needs. -/
structure Innovation where
  nu : FVec
  s : FMat
  chol : List FVec
  h : FMat
  cross : FMat
  deriving DecidableEq, Repr, Inhabited

/-- The innovation of R259; `none` when the factorisation fails or a value is non-finite (R261). -/
def innovate (ver : Nat) (c : TrackClass) (md : MotionModel) (pr : Predicted) (d : Detection) : Option Innovation :=
  match md.kinds[d.kind]? with
  | none => none
  | some k =>
    let r : Option (FVec × FMat × FMat × FMat) :=
      if c.ukf then
        match sigmaSet c pr.x pr.p with
        | none => none
        | some (pts, wm, wc) =>
          let zs := pts.map (fun y => runProg ver k.h (y ++ pr.ms))
          let zm := sigmaMean k.m wm zs
          let dz := zs.map (fun z => vsub z zm)
          let dx := pts.map (fun y => vsub y pr.x)
          some (vsub d.z zm, madd (sigmaCov wc dz dz k.m k.m) d.r, [], sigmaCov wc dx dz md.n k.m)
      else
        let o := runProg ver k.jac (pr.x ++ pr.ms)
        let H := mkMat k.m md.n (fun i j => vget o (i * md.n + j))
        some (vsub d.z (runProg ver k.h (pr.x ++ pr.ms)), madd (mm (mm H pr.p) (tr H)) d.r, H, mm pr.p (tr H))
    match r with
    | none => none
    | some (nu, S, H, cross) =>
      match cholesky S with
      | none => none
      | some ls =>
        if allFin64 nu && S.all allFin64 && ls.all allFin64 && H.all allFin64 && cross.all allFin64 then
          some ⟨nu, S, ls, H, cross⟩
        else none

/-- d² and det S (R259, R260). -/
def Innovation.dist (i : Innovation) : Nat := sqNorm (forwardSub i.chol i.nu)

def Innovation.det (i : Innovation) : Nat :=
  ((List.range i.chol.length).map (fun k => let v := vget (i.chol.getD k []) k; mul64 v v)).foldl mul64 one64

/-- The quantised cost of a gated pair (R260). -/
def gatedCost (ver : Nat) (c : TrackClass) (i : Innovation) : Option Int :=
  let d2 := i.dist
  match ln64 ver i.det with
  | none => none
  | some l =>
    let cost := add64 d2 l
    if !isFin64 cost || !le64 d2 c.gate then none
    else
      let lim := int64 1000
      let cost := if lt64 lim cost then lim else if lt64 cost (neg64 lim) then neg64 lim else cost
      some ((fltOf fp64 cost).scale 16).roundInt

/-- The update of R259; `none` when one of its values is non-finite (R261). -/
def updateTrack (c : TrackClass) (md : MotionModel) (pr : Predicted) (d : Detection) (i : Innovation) : Option (FVec × FMat) :=
  let K := i.cross.map (cholSolve i.chol)
  let x := vadd pr.x (mv K i.nu)
  let A := if c.ukf then [] else msub (eyeMat md.n) (mm K i.h)
  let P :=
    if c.ukf then symm (msub pr.p (mm (mm K i.s) (tr K)))
    else symm (madd (mm (mm A pr.p) (tr A)) (mm (mm K d.r) (tr K)))
  if K.all allFin64 && allFin64 x && A.all allFin64 && P.all allFin64 then some (x, P) else none

/-! Association (R262, R263). -/

def big : Int := 2 ^ 40
def inf62 : Int := 2 ^ 62

/-- The square cost matrix, rows 0 .. N − 1. -/
def costMatrix (T D : Nat) (pair : Nat → Nat → Option Int) (miss new : Nat → Int) : List (List Int) :=
  (List.range (T + D)).map (fun i => (List.range (D + T)).map (fun j =>
    if i < T then
      if j < D then (pair i j).getD big
      else if j - D = i then miss i else big
    else if j < D then (if i - T = j then new j else big)
    else 0))

/-- The state of the assignment search; index 0 is the procedure's zero column. -/
structure Assign where
  u : List Int
  v : List Int
  p : List Nat
  way : List Nat
  deriving DecidableEq, Repr, Inhabited

/-- The inner search from row i: `fuel` bounds its repeats by N + 1. -/
def assignScan (a : List (List Int)) (n : Nat) : Nat → Assign → Nat → List Int → List Bool → Assign × Nat
  | 0, st, j0, _, _ => (st, j0)
  | fuel + 1, st, j0, minv, used =>
    let used := used.set j0 true
    let i0 := st.p.getD j0 0
    let scan := (List.range n).foldl (fun (acc : List Int × List Nat × Int × Nat) k =>
      let j := k + 1
      if used.getD j false then acc
      else
        let cur := (a.getD (i0 - 1) []).getD k 0 - st.u.getD i0 0 - st.v.getD j 0
        let better := decide (cur < acc.1.getD j 0)
        let minv := if better then acc.1.set j cur else acc.1
        let way := if better then acc.2.1.set j j0 else acc.2.1
        let m := minv.getD j 0
        if m < acc.2.2.1 then (minv, way, m, j) else (minv, way, acc.2.2.1, acc.2.2.2)) (minv, st.way, inf62, 0)
    let delta := scan.2.2.1
    let idx := List.range (n + 1)
    let u := idx.foldl (fun u j => if used.getD j false then u.modify (st.p.getD j 0) (· + delta) else u) st.u
    let v := idx.map (fun j => if used.getD j false then st.v.getD j 0 - delta else st.v.getD j 0)
    let minv := idx.map (fun j => if used.getD j false then scan.1.getD j 0 else scan.1.getD j 0 - delta)
    let j1 := scan.2.2.2
    let st : Assign := { st with u := u, v := v, way := scan.2.1 }
    if st.p.getD j1 0 = 0 then (st, j1) else assignScan a n fuel st j1 minv used

/-- The augmentation along the path found. -/
def assignPath : Nat → Assign → Nat → Assign
  | 0, st, _ => st
  | fuel + 1, st, j0 =>
    let j1 := st.way.getD j0 0
    let st := { st with p := st.p.set j0 (st.p.getD j1 0) }
    if j1 = 0 then st else assignPath fuel st j1

/-- The exact solution: for each column 1 .. N, its row (1-based). -/
def assignment (a : List (List Int)) : List Nat :=
  let n := a.length
  let z : List Int := List.replicate (n + 1) 0
  let st := (List.range n).foldl (fun st i =>
    let st := { st with p := st.p.set 0 (i + 1) }
    let r := assignScan a n (n + 1) st 0 (List.replicate (n + 1) inf62) (List.replicate (n + 1) false)
    assignPath (n + 1) r.1 r.2) (⟨z, z, List.replicate (n + 1) 0, List.replicate (n + 1) 0⟩ : Assign)
  st.p.drop 1

/-! Life-cycle (R264). -/

def onesIn (v bits : Nat) : Nat := popcountFrom bits v

def State.coastMax (s : State) : Nat := s.atLeast1 ⟨0xA10004, 0, 8⟩
def State.confirmN (s : State) : Nat := s.atLeast1 ⟨0xA10004, 12, 4⟩
def State.confirmM (s : State) : Nat := min (s.atLeast1 ⟨0xA10004, 8, 4⟩) s.confirmN

/-- The state after a hit. -/
def afterHit (m n : Nat) (t : Track) : Track :=
  let hits := (t.hits * 2 + 1) % 65536
  let st :=
    if t.state = stTentative ∧ m ≤ onesIn hits n then stConfirmed
    else if t.state = stCoasting then stConfirmed else t.state
  { t with hits := hits, missRun := 0, state := st }

/-- The state after a miss, `age` occurrences after birth. -/
def afterMiss (m n coast age : Nat) (t : Track) : Track :=
  let hits := t.hits * 2 % 65536
  let run := min (t.missRun + 1) 65535
  let st :=
    if t.state = stTentative then (if onesIn hits n + (n - 1 - age) < m then stDeleted else stTentative)
    else if t.state = stConfirmed then stCoasting
    else if coast ≤ run then stDeleted else stCoasting
  { t with hits := hits, missRun := run, state := st }

/-- The state after a blind step. -/
def afterBlind (t : Track) : Track := if t.state = stConfirmed then { t with state := stCoasting } else t

/-- √(trace of the position block) above the class's limit (R264). -/
def overLimit (c : TrackClass) (md : MotionModel) (p : FMat) : Bool :=
  lt64 c.posLimit (fSqrt fp64 ((md.pos.map (fun i => mget p i i)).foldl add64 0))

/-! One region's step (R258). -/

/-- FP64(t_r − STATE_TIME) from two compact times, wrapping differences excluded (R212). -/
def dtOf (t0 t1 : Nat) : Nat := int64 ((t1 : Int) - t0)

/-- A region's outcome: its tracks, counts, births asked for and answers to report. -/
structure RegionOut where
  tracks : List Track
  stats : TrackStats
  births : List (Nat × Detection × Nat)
  answers : List (Nat × Nat)
  deriving DecidableEq, Repr, Inhabited

/-- The engine's work on one region at step n with instant ts; `usable` are the streams that the stream state vector of the step
shows usable, and `list` is the region's list, if any, with its stamp. A track without a detection keeps its state, its
covariance and its `STATE_TIME` (R258). -/
def State.regionStep (s : State) (n ts region : Nat) (usable : List Nat) (tracks : List Track)
    (list : Option (Nat × List Detection)) : RegionOut :=
  let ver := s.tableVer
  let mult := ((s.cadences[s.trackDecl.cadence]?).map (·.multiple)).getD 1
  let raw := (list.map (fun l => l.2)).getD []
  let ordered := raw.filter (fun d => d.privileged) ++ raw.filter (fun d => !d.privileged)
  let open_ := ordered.filter (fun d => usable.contains d.stream)
  let good := open_.filter (fun d => s.detOk d)
  let masked := ordered.length - good.length
  let kept := good.take 1024
  let dropped := good.length - kept.length
  let blind := kept.isEmpty
  let tr_ := if blind then compact ts else (list.map (fun l => l.1)).getD 0
  let pred (t : Track) : Option Predicted :=
    if t.live then predictTrack ver (s.classOf t.cls) (s.modelOf t.cls) t (dtOf t.time tr_) else none
  let preds := tracks.map (fun t => (t, pred t))
  let faulty (q : Track × Option Predicted) : Bool := q.1.live && q.2.isNone
  let far (q : Track × Option Predicted) : Bool :=
    match q.2 with | some p => overLimit (s.classOf q.1.cls) (s.modelOf q.1.cls) p.p | none => false
  let eligible := preds.filter (fun q => q.1.live && !faulty q && !far q)
  let innov (i j : Nat) : Option ((FVec × FMat) × Int) :=
    match eligible[i]?, kept[j]? with
    | some (t, some p), some d =>
      if t.cls = d.cls then
        match innovate ver (s.classOf t.cls) (s.modelOf t.cls) p d with
        | some v =>
          match updateTrack (s.classOf t.cls) (s.modelOf t.cls) p d v, gatedCost ver (s.classOf t.cls) v with
          | some u, some c => some (u, c)
          | _, _ => none
        | none => none
      else none
    | _, _ => none
  let T := if blind then 0 else eligible.length
  let D := kept.length
  let q16 (v : Nat) : Int := ((fltOf fp64 v).scale 16).roundInt
  let cost := costMatrix T D (fun i j => (innov i j).map (fun v => v.2))
    (fun i => q16 (s.classOf ((eligible.getD i default).1.cls)).missCost)
    (fun j => q16 (s.classOf ((kept.getD j default).cls)).newCost)
  let cols := if blind then [] else assignment cost
  let hitOf (i : Nat) : Option Nat := (List.range D).find? (fun j => cols.getD j 0 == i + 1)
  let baseFlags (t : Track) : Nat := t.flags % 2 + (if blind then 4 else 0)
  let step (t : Track) (p : Predicted) : Track :=
    match (List.range eligible.length).find? (fun i => (eligible.getD i default).1.slot == t.slot) with
    | none => t
    | some i =>
      if blind then
        afterBlind { t with flags := baseFlags t }
      else
        match hitOf i with
        | some j =>
          let u := ((innov i j).map (·.1)).getD (p.x, p.p)
          afterHit s.confirmM s.confirmN
            { t with x := u.1, p := toUpper u.2, ms := p.ms, time := tr_, flags := baseFlags t + 2
                     lastDet := j + n % 65536 * 65536 }
        | none =>
          afterMiss s.confirmM s.confirmN s.coastMax ((n - t.birth) / mult)
            { t with flags := baseFlags t }
  let out := preds.map (fun q =>
    if !q.1.live then q.1
    else
      match q.2 with
      | none => { q.1 with state := stDeleted, flags := baseFlags q.1 }
      | some p =>
        if far q then { q.1 with state := stDeleted, flags := baseFlags q.1 } else step q.1 p)
  let unassigned := (List.range D).filter (fun j => cols.getD j 0 == T + j + 1)
  let births := unassigned.filterMap (fun j =>
    let d := kept.getD j default
    if (s.classOf d.cls).birth then some (j, d, tr_) else none)
  let faults := (preds.filter faulty).length
  let hits := ((List.range T).filter (fun i => (hitOf i).isSome)).length
  let anyMasked := decide (open_.length < ordered.length)
  { tracks := out
    stats := ⟨region, 0, (out.filter (fun t => t.state == stDeleted)).length, dropped, masked, 0, faults, hits, blind⟩
    births := births
    answers := (if dropped = 0 then [] else [(shed, 0x38)]) ++ (if anyMasked then [(shed, 0x3B)] else []) ++
      (if good.length < open_.length then [(shed, 0x0C)] else []) ++ (if faults = 0 then [] else [(shed, 0x3A)]) }

/-! Births (R265). -/

/-- The next identifier that no entry of the table holds. -/
def freshId (ids : List Nat) : Nat → Nat → Nat
  | 0, k => k
  | fuel + 1, k => if ids.contains k then freshId ids fuel (if k = 0xFFFFFFFF then 1 else k + 1) else k

/-- The lowest free slot, if any. -/
def lowestSlot (used : List Nat) : Option Nat :=
  (List.range (min 16384 (used.length + 1))).find? (fun k => !used.contains k)

/-- One birth, or its refusal. -/
def State.placeBirth (s : State) (n : Nat) (b : Nat × Nat × Detection × Nat) (acc : List Track × Nat × List TrackStats) :
    List Track × Nat × List TrackStats :=
  let region := b.1
  let d := b.2.2.1
  let tracks := acc.1
  let full := decide (1024 ≤ (tracks.filter (fun t => t.region == region && t.live)).length)
  let bump (f : TrackStats → TrackStats) : List TrackStats :=
    acc.2.2.map (fun x => if x.region = region then f x else x)
  match if full then none else lowestSlot (tracks.map (·.slot)) with
  | none => (tracks, acc.2.1, bump (fun x => { x with refused := x.refused + 1 }))
  | some slot =>
    let md := s.modelOf d.cls
    let o := runProg s.tableVer md.init d.z
    let id := freshId (tracks.map (·.id)) (tracks.length + 1) acc.2.1
    let t : Track := {
      slot := slot, id := id, state := stTentative, cls := d.cls, model := (s.classOf d.cls).model, n := md.n
      region := region, flags := b2n d.privileged + 2, hits := 1, missRun := 0, birth := n, time := b.2.2.2
      lastDet := b.2.1 + n % 65536 * 65536, x := o.take md.n
      p := toUpper (diagMat ((s.classOf d.cls).p0.take md.n)), ms := fitNats 16 (o.drop md.n) }
    (insertSorted (fun a b => decide (a.slot ≤ b.slot)) t tracks, if id = 0xFFFFFFFF then 1 else id + 1,
     bump (fun x => { x with births := x.births + 1 }))

/-! Table bytes (R256). -/

def trackBytes (t : Track) : Bytes :=
  fitBytes 1024 (leBytes 4 t.id ++ leBytes 1 t.state ++ leBytes 1 t.cls ++ leBytes 1 t.model ++ leBytes 1 t.n ++
    leBytes 2 t.region ++ leBytes 2 t.flags ++ leBytes 2 t.hits ++ leBytes 2 t.missRun ++ leBytes 8 t.birth ++
    leBytes 8 t.time ++ leBytes 4 t.lastDet ++ leBytes 28 0 ++ (fitNats 12 t.x).flatMap (leBytes 8) ++
    -- the triangle of dimension 12, row by row
    (toUpper (mkMat 12 12 (fun i j => if i < t.n ∧ j < t.n then mget (fromUpper t.n t.p) i j else 0))).flatMap (leBytes 8) ++
    (fitNats 16 t.ms).flatMap (leBytes 8))

/-- The new versions written into the held tiles of the set that is not committed; a free entry is 0. -/
def State.writeTable (s : State) (tracks : List Track) : State :=
  match s.trackDecl.tables[1 - s.track.set]? with
  | none => s
  | some base =>
    let u := s.trackDecl.unit
    let k := s.trackDecl.cadence
    let n := ((s.occOf k).getD default).step
    let s := s.fillRange u base (s.track.high * 1024)
    let s := (List.range s.track.high).foldl (fun s i =>
      let bs := match tracks.find? (fun t => t.slot == i) with
        | some t => trackBytes t
        | none => leBytes 1024 0
      s.cstore k u (base + i * 1024) bs) s
    (slotsIn base (s.track.high * 1024)).foldl (fun s l => s.raiseLantern u l (s.stepTime n) n) s

/-- The table at a run's start: every entry of both sets is free (R256). -/
def State.clearTables (s : State) (d : TrackDecl) : State :=
  d.tables.foldl (fun s base => { s with mem := Memory.clear s.mem base (512 * tileBytes) }) s

/-- The stream state vector of a step has been written (R234, R251): its fusion work and its gates are done. -/
def State.vectorReady (s : State) (n : Nat) : Bool :=
  match s.steps.fusedStep with
  | none => false
  | some m => decide (n < m) || (m == n && ((s.steps.image.map (·.checks)).getD [] == [] || s.fusion.gated))

/-- A list that breaks R266's checks: a FAULT record and the block's refusal. -/
def State.badList (s : State) (a : Nat) : State :=
  let e := s.newError (engineRegion 1) 3
  e.2.faultRecord { e.1 with address := a, cause := 0x0C } 0 0x0C 0 [] noSeq s.stepNow

/-- TRACK_ENGINE_STEP (R251, R258), once per occurrence, after the stream state vector of its step: `lists` gives the regions'
detection lists by address. -/
def effTrackEngineStep (lists : List (Nat × Nat)) (s : State) : State :=
  let decl := s.trackDecl
  match s.occOf decl.cadence, s.steps.run with
  | some occ, some run =>
    if !s.mayIssue decl.cadence || s.track.work.isSome || !s.vectorReady occ.step then s
    else
      let n := occ.step
      let usable := (s.verdictOf n).usable
      let ts := run.instant n
      let out := !s.inService (engineRegion 1)
      let regions := List.range decl.regions
      let listOf (r : Nat) : Option Nat := if out then none else lookupKey r lists
      let bad := regions.filter (fun r => match listOf r with | some a => (s.detList r a ts).isNone | none => false)
      let results := regions.map (fun r =>
        s.regionStep n ts r usable (s.track.committed.filter (fun t => t.region == r)) ((listOf r).bind (fun a => s.detList r a ts)))
      let tracks := sortList (fun a b => decide (a.slot ≤ b.slot)) (results.flatMap (·.tracks))
      let births := (List.zip regions results).flatMap (fun q => q.2.births.map (fun b => (q.1, b)))
      let placed := births.foldl (fun acc b => s.placeBirth n b acc) (tracks, s.track.nextId, results.map (·.stats))
      let refusedAny := placed.2.2.any (fun x => 0 < x.refused)
      let answers := results.flatMap (·.answers) ++ (if refusedAny then [(refused, 0x39)] else []) ++
        (if bad = [] then [] else [(refused, 0x0C)])
      let high := placed.1.foldl (fun m t => max m (t.slot + 1)) s.track.high
      let s := bad.foldl (fun s r => s.badList ((listOf r).getD 0)) s
      let s := { s with track := { s.track with
          work := some placed.1, nextId := placed.2.1, stats := placed.2.2, high := high } }
      let s := s.writeTable placed.1
      let s := if placed.2.2.any (fun x => 0 < x.dropped) then s.trackEvent 0 else s
      let s := if refusedAny then s.trackEvent 1 else s
      let nf : Nat := (placed.2.2.map (·.faults)).foldl (· + ·) 0
      let s := if 0 < nf then s.trackEvent 2 else s
      if answers = [] then s
      else
        let a := pickAnswer answers
        s.answer blockFusion a.1 a.2
  | _, _ => s

/-- The table of the occurrence replaces the committed one; deleted tracks become free (R264, R256), and the counts of
the step are shown (R271). -/
def State.commitTracks (s : State) : State :=
  match s.track.work with
  | none => s
  | some w =>
    let sum (f : TrackStats → Nat) : Nat := (s.track.stats.map f).foldl (· + ·) 0
    let sat (v : Nat) : Nat := min v 65535
    let freed := w.filter (fun t => !t.live)
    let s := match s.trackDecl.tables[1 - s.track.set]? with
      | some base => freed.foldl (fun (s : State) (t : Track) => s.store (base + t.slot * 1024) (leBytes 1024 0)) s
      | none => s
    let s := { s with track := { s.track with
        committed := w.filter (fun t => t.live), work := none, set := 1 - s.track.set } }
    let s := s.addReg64 0xA10018 (sum (·.faults))
    let s := s.setReg 0xA1000C (sat (sum (·.births)) + sat (sum (·.deletions)) * 65536)
    let s := s.setReg 0xA10010 (sat (sum (·.dropped)) + sat (sum (·.masked)) * 65536)
    s.setReg 0xA10014 (sum (·.updates))

/-! Track lists (R267, R268). -/

/-- The state and covariance diagonal of a track at a compact time, as FP32. -/
def State.trackAt (s : State) (t : Track) (time : Nat) : FVec × FVec :=
  let md := s.modelOf t.cls
  match predictTrack s.tableVer (s.classOf t.cls) md t (dtOf t.time time) with
  | some p => (fitNats 12 (p.x.map n32), fitNats 12 ((List.range md.n).map (fun i => n32 (mget p.p i i))))
  | none => (List.replicate 12 nan32, List.replicate 12 nan32)

def trackQuality (t : Track) : Nat := onesIn t.hits 16 * 2048

/-- One 128-byte entry of a track list. -/
def State.trackEntry (s : State) (t : Track) (time : Nat) : Bytes :=
  let p := s.trackAt t time
  fitBytes 128 (leBytes 4 t.id ++ leBytes 1 t.state ++ leBytes 1 t.cls ++ leBytes 2 t.region ++ leBytes 2 t.flags ++
    leBytes 1 t.n ++ leBytes 1 t.model ++ leBytes 2 t.hits ++ leBytes 2 t.missRun ++ leBytes 8 t.birth ++
    p.1.flatMap (leBytes 4) ++ p.2.flatMap (leBytes 4) ++ leBytes 2 (trackQuality t))

/-- Parts of at most `k` entries; one empty part when there are none. -/
def partsOf (k : Nat) : Nat → List α → List (List α)
  | 0, _ => []
  | fuel + 1, xs => xs.take k :: (if xs.length ≤ k then [] else partsOf k fuel (xs.drop k))

/-- The payloads of a stream's track list, with the record's confidence before R246. -/
def State.trackPayloads (s : State) (d : TrackStream) (ts : Nat) : Nat × List Bytes :=
  let tracks := (s.track.work.getD s.track.committed)
  let sel := d.regions.flatMap (fun r => tracks.filter (fun t => t.region == r && d.states.contains t.state))
  let st := s.track.stats.filter (fun x => d.regions.contains x.region)
  let sum (f : TrackStats → Nat) : Nat := (st.map f).foldl (· + ·) 0
  let parts := partsOf 8191 (sel.length + 1) sel
  let blind := (st.filter (fun x => x.blind)).length + (d.regions.length - st.length)
  (32768 * (d.regions.length - blind) / max 1 d.regions.length,
   (List.zip (List.range parts.length) parts).map (fun q =>
    leBytes 2 q.1 ++ leBytes 2 parts.length ++ leBytes 4 q.2.length ++ leBytes 4 (sum (·.births)) ++
      leBytes 4 (sum (·.deletions)) ++ leBytes 4 (sum (·.dropped)) ++ leBytes 4 (sum (·.masked)) ++
      leBytes 4 (sum (·.refused)) ++ leBytes 4 (sum (·.faults)) ++
      q.2.flatMap (fun t => s.trackEntry t (compact ts))))

/-! Host requests (R269). -/

def State.trackAnswer (s : State) (ep : Nat) (h : CmdHdr) (op outcome cause : Nat) (result : Bytes) : State :=
  (s.answer blockFusion outcome cause).completeIn ep h op outcome cause 0 result

/-- TRACK_READ as it runs: an entry by identifier, or a region's committed list, written to the reply address; `RESULT`
holds the bytes written (the reply's form is the model's choice, assumption 21). -/
def State.runTrackRead (s : State) (ep : Nat) (h : CmdHdr) (region : Option Nat) (id reply : Nat) : State :=
  let bs : Option Bytes :=
    match region with
    | some r => some ((s.track.committed.filter (fun t => t.region == r)).flatMap trackBytes)
    | none => (s.track.committed.find? (fun t => t.id == id)).map trackBytes
  match bs with
  | some bs => (s.hostWrite reply bs).trackAnswer ep h 0x20 served 0 (leBytes 4 bs.length)
  | none => s.trackAnswer ep h 0x20 refused 0x3C []

/-- TRACK_PREDICT as it runs: a committed state predicted to a device time. -/
def State.runTrackPredict (s : State) (ep : Nat) (h : CmdHdr) (id time reply : Nat) : State :=
  if 2 ≤ (s.fusion.rungs.getD 4 default).level then s.trackAnswer ep h 0x21 refused 0x0D []
  else
    match s.track.committed.find? (fun t => t.id == id) with
    | none => s.trackAnswer ep h 0x21 refused 0x3C []
    | some t =>
      if time < t.time ∨ t.time + 60000000000 < time then s.trackAnswer ep h 0x21 refused 0x3D []
      else
        let bs := s.trackEntry t time
        (s.hostWrite reply bs).trackAnswer ep h 0x21 served 0 (leBytes 4 bs.length)

def State.runTrackHead (s : State) (q : HostReq) : State :=
  match q.cmd with
  | .trackRead h region id reply _ => s.runTrackRead q.epoch h region id.toNat reply
  | .trackPredict h id time reply _ => s.runTrackPredict q.epoch h id.toNat time.toNat reply
  | _ => s

/-- Every queued request runs, in order: the engine is idle. -/
def State.drainTrack (s : State) : State := s.trackQueue.foldl State.runTrackHead { s with trackQueue := [] }

/-- A request enters the engine's queue of 64, and the queue runs when the engine is idle. -/
def State.trackRequest (s : State) (h : CmdHdr) (op : Nat) (idle : Bool) (cmd : Instr) : State :=
  s.hostCommand h op (fun s =>
    if 64 ≤ s.trackQueue.length then (s.trackEvent 3).trackAnswer s.host.epoch h op refused 0x0B []
    else
      let q := s.trackQueue ++ [(⟨cmd, s.host.epoch⟩ : HostReq)]
      let s := { s with trackQueue := q }
      let s := s.setFld ⟨0xA1002C, 8, 7⟩ (max q.length (s.fld ⟨0xA1002C, 8, 7⟩))
      if idle then s.drainTrack else s)

/-- TRACK_READ (R269). -/
def effTrackRead (h : CmdHdr) (region : Option Nat) (id : BitVec 32) (reply : Nat) (idle : Bool) (s : State) : State :=
  s.trackRequest h 0x20 idle (.trackRead h region id reply idle)

/-- TRACK_PREDICT (R269). -/
def effTrackPredict (h : CmdHdr) (id : BitVec 32) (time : BitVec 64) (reply : Nat) (idle : Bool) (s : State) : State :=
  s.trackRequest h 0x21 idle (.trackPredict h id time reply idle)

/-- TRACK_VIEW_SAMPLE (R271): a read of `TRACK_VIEW_0` samples both views of the selected slot. -/
def effTrackViewSample (s : State) : State :=
  if !s.readable then s.replyWith 0
  else
    let t := (s.track.committed.find? (fun t => t.slot == s.fld ⟨0xA10020, 0, 14⟩)).getD default
    let s := (s.setReg 0xA10024 t.id).setReg 0xA10028
      (t.state + t.cls % 32 * 8 + t.region % 256 * 256 + t.missRun * 65536)
    s.replyWith t.id

def execTrackEngineStep (lists : List (Nat × Nat)) (s : State) : Host.Outcome State Fault Refusal :=
  .next (effTrackEngineStep lists s)

def execTrackRead (h : CmdHdr) (region : Option Nat) (id : BitVec 32) (reply : Nat) (idle : Bool) (s : State) :
    Host.Outcome State Fault Refusal := .next (effTrackRead h region id reply idle s)

def execTrackPredict (h : CmdHdr) (id : BitVec 32) (time : BitVec 64) (reply : Nat) (idle : Bool) (s : State) :
    Host.Outcome State Fault Refusal := .next (effTrackPredict h id time reply idle s)

def execTrackViewSample (s : State) : Host.Outcome State Fault Refusal := .next (effTrackViewSample s)

end Sys2Proof.Machine
end

