-- ==== Sys2Proof/Machine/Solver.lean ====
section
/-! DEFINITION. The incremental sparse solver (09): delta blocks, the elimination order and supernodes, the multifrontal
factorisation with its pivot rules, the solves, and result statuses. -/

namespace Sys2Proof.Machine

def State.solverDecl (s : State) : SolverDecl := (s.steps.image.map (·.solver)).getD default

def solverEvents : Nat := 0xC0000C
def State.solverEvent (s : State) (bit : Nat) : State := s.event solverEvents bit (s.activeFld ⟨0xC00008, 26, 1⟩ == 1) 16

/-- Scalars of the block a key names (R308). -/
def keyDim (k : Nat) : Nat := if bitAt k 31 then 3 else 6

def maxScalars : Nat := 16777216
def maxDeltas : Nat := 1048576

def State.tauExp (s : State) : Nat := min 60 (max 20 (s.activeFld ⟨0xC00008, 0, 6⟩))
def State.lambdaExp (s : State) : Nat := min (s.tauExp - 1) (max 1 (s.activeFld ⟨0xC00008, 6, 6⟩))
def State.regLimit (s : State) : Nat := s.activeFld ⟨0xC00008, 12, 8⟩
def State.wildfireExp (s : State) : Nat := min 52 (max 10 (s.activeFld ⟨0xC00008, 20, 6⟩))

/-! Delta blocks (R310, R314). -/

/-- A delta block. -/
structure Delta where
  op : Nat
  type : Nat
  dimA : Nat
  dimB : Nat
  fid : Nat
  keyA : Nat
  keyB : Nat
  h : FVec
  rhs : FVec
  deriving DecidableEq, Repr, Inhabited

def opFactor : Nat := 0
def opDelete : Nat := 1
def opLinpoint : Nat := 2
def opRetire : Nat := 3

def f64s (b : Bytes) (off n : Nat) : FVec := (List.range n).map (fun i => leAt b (off + 8 * i) 8)

def deltaOf (b : Bytes) : Delta :=
  let op := leAt b 0 1
  let da := leAt b 2 1
  let n := da + leAt b 3 1
  { op := op, type := leAt b 1 1, dimA := da, dimB := leAt b 3 1, fid := leAt b 4 4, keyA := leAt b 8 4
    keyB := leAt b 0xC 4
    h := if op = opLinpoint then f64s b 0x30 (if da = 6 then 7 else 3) else f64s b 0x30 (n * (n + 1) / 2)
    rhs := f64s b 0x2A0 n }

/-- The bytes of a delta block. -/
def deltaBytes (d : Delta) : Bytes :=
  fitBytes 768 (leBytes 1 d.op ++ leBytes 1 d.type ++ leBytes 1 d.dimA ++ leBytes 1 d.dimB ++ leBytes 4 d.fid ++
    leBytes 4 d.keyA ++ leBytes 4 d.keyB ++ leBytes 32 0 ++ fitBytes 624 (d.h.flatMap (leBytes 8)) ++
    fitBytes 96 (d.rhs.flatMap (leBytes 8)))

/-- The address of the i-th delta block: 42 to a tile (R310). -/
def deltaAddr (base i : Nat) : Nat := base + i / 42 * tileBytes + i % 42 * 768

/-- A delta that concerns a factor. -/
def Delta.onFactor (d : Delta) : Bool := d.op == opFactor || d.op == opDelete

/-- The blocks a delta names. -/
def Delta.keys (d : Delta) : List Nat := d.keyA :: (if d.onFactor && d.dimB != 0 then [d.keyB] else [])

/-- The dimensions of a delta match its keys, and its codes are assigned (R310, R314). -/
def Delta.ok (d : Delta) : Bool :=
  decide (d.op ≤ 3) && d.dimA == keyDim d.keyA &&
    (if d.onFactor then decide (d.type ≤ 4) && (d.dimB == 0 || d.dimB == keyDim d.keyB) else d.dimB == 0)

/-- No key stands twice in a list. -/
def noRepeat (xs : List Nat) : Bool := (distinct xs).length == xs.length

/-- The checks of R314 on a submission by an occurrence that has made none yet. -/
def SolverUnit.wellFormed (u : SolverUnit) (ds : List Delta) : Bool :=
  let known := u.blocks.map (·.key)
  let retired := (ds.filter (fun d => d.op == opRetire)).map (·.keyA)
  let created := (ds.filter (fun d => d.op == opLinpoint)).map (·.keyA)
  let now := known.filter (fun k => !retired.contains k) ++ created
  let fids := (ds.filter Delta.onFactor).map (·.fid)
  let given (f : SolFactor) : Bool := ds.any (fun d => d.onFactor && d.fid == f.id)
  ds.all Delta.ok && noRepeat fids &&
    ds.all (fun d => d.op != opFactor || d.keys.all (fun k => now.contains k)) &&
    ds.all (fun d => d.op != opDelete || d.keys.all (fun k => known.contains k || created.contains k)) &&
    ds.all (fun d => d.op != opDelete || u.factors.any (fun f => f.id == d.fid)) &&
    ds.all (fun d => d.op != opLinpoint || !known.contains d.keyA ||
      u.factors.all (fun f => !f.keys.contains d.keyA || given f))

/-! Applying a submission (R311–R313). -/

/-- A contribution without the rows and columns of a block (R313). -/
def SolFactor.retire (f : SolFactor) (key : Nat) : SolFactor :=
  if !f.keys.contains key then f
  else
    let dims := f.keys.map keyDim
    let n := dims.foldl (· + ·) 0
    let m := fromUpper n f.h
    let off (i : Nat) : Nat := ((dims.take i).foldl (· + ·) 0)
    let keep := (List.range f.keys.length).flatMap (fun i =>
      if f.keys.getD i 0 = key then [] else (List.range (dims.getD i 0)).map (fun j => off i + j))
    { f with
      keys := f.keys.filter (fun k => k != key)
      h := toUpper (mkMat keep.length keep.length (fun i j => mget m (keep.getD i 0) (keep.getD j 0)))
      rhs := keep.map (fun i => vget f.rhs i) }

/-- Bytes a contribution takes (R312). -/
def SolFactor.bytes (f : SolFactor) : Nat := 16 + 8 * (f.h.length + f.rhs.length)

def SolverUnit.contribBytes (u : SolverUnit) : Nat := sumBy SolFactor.bytes u.factors
def SolverUnit.scalars (u : SolverUnit) : Nat := sumBy (fun b => keyDim b.key) u.blocks

/-- A new block (R311). -/
def newBlock (key : Nat) (theta : FVec) : SolBlock :=
  ⟨key, theta, List.replicate (keyDim key) 0, List.replicate 6 0, false⟩

/-- One delta applied; a contribution that the store of `cap` bytes cannot hold is not kept (R325). The flag tells that
one was not. -/
def SolverUnit.apply (cap : Nat) (a : SolverUnit × Bool) (d : Delta) : SolverUnit × Bool :=
  let u := a.1
  if d.op = opRetire then
    ({ u with
        order := u.order.filter (fun k => k != d.keyA)
        blocks := u.blocks.filter (fun b => b.key != d.keyA)
        factors := u.factors.map (fun f => f.retire d.keyA) }, a.2)
  else if d.op = opLinpoint then
    if u.blocks.any (fun b => b.key == d.keyA) then
      let upd (b : SolBlock) : SolBlock :=
        if b.key = d.keyA then { b with theta := d.h, delta := List.replicate (keyDim b.key) 0 } else b
      ({ u with blocks := u.blocks.map upd }, a.2)
    else
      ({ u with order := u.order ++ [d.keyA], blocks := u.blocks ++ [newBlock d.keyA d.h] }, a.2)
  else
    let rest := u.factors.filter (fun f => f.id != d.fid)
    if d.op = opDelete then ({ u with factors := rest }, a.2)
    else
      let f : SolFactor := ⟨d.fid, d.type, d.keys, d.h, d.rhs⟩
      let u' := { u with factors := insertSorted (fun x y => decide (x.id ≤ y.id)) f rest }
      if cap < u'.contribBytes then (u, true) else (u', a.2)

/-- The order of R311. -/
def orderedDeltas (ds : List Delta) : List Delta :=
  let byKey (x y : Delta) : Bool := decide (x.keyA ≤ y.keyA)
  sortList byKey (ds.filter (fun d => d.op == opRetire)) ++ sortList byKey (ds.filter (fun d => d.op == opLinpoint)) ++
    sortList (fun x y => decide (x.fid ≤ y.fid)) (ds.filter Delta.onFactor)

/-! Elimination order and supernodes (R315–R318). -/

/-- The neighbours of a block: blocks that share a live factor with it. -/
def neighbours (fs : List SolFactor) (k : Nat) : List Nat :=
  distinct ((fs.filter (fun f => f.keys.contains k)).flatMap (fun f => f.keys.filter (fun x => x != k)))

/-- Minimum external degree in scalars, ties to the lower key, on a graph of blocks (R316). -/
def minDegree : Nat → List (Nat × List Nat) → List Nat
  | 0, _ => []
  | fuel + 1, g =>
    let deg (p : Nat × List Nat) : Nat := sumBy keyDim p.2
    let better (p q : Nat × List Nat) : Bool := decide (deg p < deg q) || (deg p == deg q && decide (p.1 ≤ q.1))
    match sortList better g with
    | [] => []
    | p :: _ =>
      let join (q : Nat × List Nat) : Nat × List Nat :=
        if q.2.contains p.1 then (q.1, distinct (q.2.filter (fun x => x != p.1) ++ p.2.filter (fun x => x != q.1))) else q
      p.1 :: minDegree fuel ((g.filter (fun q => q.1 != p.1)).map join)

def SolverUnit.reorderKeys (u : SolverUnit) : List Nat :=
  minDegree u.blocks.length (u.blocks.map (fun b => (b.key, neighbours u.factors b.key)))

def posOf (order : List Nat) (k : Nat) : Nat := (order.findIdx? (fun x => x == k)).getD order.length

/-- The column structure below the diagonal of every block, in elimination order: later neighbours, and what its
children in the elimination tree pass on. -/
def structures (order : List Nat) (fs : List SolFactor) : List (Nat × List Nat) :=
  order.foldl (fun acc k =>
    let own := (neighbours fs k).filter (fun x => decide (posOf order k < posOf order x))
    let passed := (acc.filter (fun p => p.2.headD k == k && !p.2.isEmpty)).flatMap (fun p => p.2.filter (fun x => x != k))
    acc ++ [(k, sortList (fun a b => decide (posOf order a ≤ posOf order b)) (distinct (own ++ passed)))]) []

/-- A supernode's shape. -/
structure Shape where
  blocks : List Nat
  rows : List Nat
  deriving DecidableEq, Repr, Inhabited

/-- The block after another joins its supernode (R317): its only child is the block before it, the structures agree, and
the supernode stays within 256 scalars. -/
def joins (st : List (Nat × List Nat)) (sh : Shape) (p : Nat × List Nat) : Bool :=
  sh.rows == p.1 :: p.2 && (st.filter (fun q => q.2.headD 0 == p.1 && !q.2.isEmpty)).length == 1 &&
    decide (sumBy keyDim sh.blocks + keyDim p.1 ≤ 256)

/-- The supernodes in elimination order. -/
def shapes (st : List (Nat × List Nat)) : List Shape :=
  st.foldl (fun acc p =>
    match acc.getLast? with
    | some sh => if joins st sh p then acc.dropLast ++ [⟨sh.blocks ++ [p.1], p.2⟩] else acc ++ [⟨[p.1], p.2⟩]
    | none => [⟨[p.1], p.2⟩]) []

/-- The index of a supernode's parent: the one that holds its first separator block. -/
def parentOf (shs : List Shape) (i : Nat) : Option Nat :=
  match (shs.getD i default).rows with
  | [] => none
  | r :: _ => shs.findIdx? (fun s => s.blocks.contains r)

def childrenOf (shs : List Shape) (i : Nat) : List Nat :=
  (List.range shs.length).filter (fun j => parentOf shs j == some i)

/-- Supernodes below and including one, children first, siblings ascending. -/
def postFrom (shs : List Shape) : Nat → Nat → List Nat
  | 0, i => [i]
  | fuel + 1, i => (childrenOf shs i).flatMap (postFrom shs fuel) ++ [i]

/-- The postorder of R319. -/
def postorder (shs : List Shape) : List Nat :=
  ((List.range shs.length).filter (fun i => (parentOf shs i).isNone)).flatMap (postFrom shs shs.length)

/-- A supernode and its ancestors. -/
def upFrom (shs : List Shape) : Nat → Nat → List Nat
  | 0, i => [i]
  | fuel + 1, i => i :: (match parentOf shs i with | some p => upFrom shs fuel p | none => [])

/-- The stored numeric data of a shape, if it has any. -/
def storedNode (nodes : List SolNode) (sh : Shape) : Option SolNode :=
  nodes.find? (fun n => n.blocks == sh.blocks && n.rows == sh.rows)

/-- The affected set (R318): supernodes that hold a touched block or that have no stored factor, and their ancestors. -/
def affectedSet (shs : List Shape) (nodes : List SolNode) (touched : List Nat) (all : Bool) : List Nat :=
  distinct ((List.range shs.length).flatMap (fun i =>
    let sh := shs.getD i default
    if all || sh.blocks.any (fun k => touched.contains k) || (storedNode nodes sh).isNone then upFrom shs shs.length i
    else []))

/-! Assembly (R312). -/

/-- The scalars of blocks, in order. -/
def scalarsOf (ks : List Nat) : List (Nat × Nat) := ks.flatMap (fun k => (List.range (keyDim k)).map (fun c => (k, c)))

/-- The place of a scalar in a contribution. -/
def SolFactor.place (f : SolFactor) (p : Nat × Nat) : Option Nat :=
  (f.keys.findIdx? (fun k => k == p.1)).map (fun i => sumBy keyDim (f.keys.take i) + p.2)

/-- The assembled value of a matrix entry: contributions from +0, ascending by factor. -/
def assembledH (fs : List SolFactor) (p q : Nat × Nat) : Nat :=
  fs.foldl (fun acc f =>
    match f.place p, f.place q with
    | some i, some j => add64 acc (mget (fromUpper (sumBy keyDim f.keys) f.h) i j)
    | _, _ => acc) 0

def assembledB (fs : List SolFactor) (p : Nat × Nat) : Nat :=
  fs.foldl (fun acc f => match f.place p with | some i => add64 acc (vget f.rhs i) | none => acc) 0

/-- M: the largest assembled diagonal entry over all free scalars. -/
def SolverUnit.maxDiag (u : SolverUnit) : Nat :=
  match (scalarsOf u.order).map (fun p => assembledH u.factors p p) with
  | [] => 0
  | x :: xs => xs.foldl (fun a b => if !isFin64 a then a else if !isFin64 b then b else if lt64 a b then b else a) x

/-! Factorisation (R319, R322, R323). -/

/-- The pivot limits of a solve: τ·M and λ exactly, and the count allowed. -/
structure Limits where
  tauM : Flt
  lambda : Flt
  regLimit : Nat
  deriving DecidableEq, Repr

/-- The pivot rule: d' and whether it was regularised, or the cause that stops the solve. -/
def pivot (lim : Limits) (count d : Nat) : Except Nat (Nat × Bool) :=
  let v := fltOf fp64 d
  if !v.isFinite then .error 0x49
  else if v.abs.lt lim.tauM then
    let d' := roundInf fp64 (v.add lim.lambda)
    if !isFin64 d' then .error 0x49 else if lim.regLimit < count + 1 then .error 0x48 else .ok (d', true)
  else if v.le lim.tauM.neg then .error 0x4A
  else .ok (d, false)

/-- What factoring the columns of a front has given so far. -/
structure Front where
  f : FMat
  l : List FVec
  d : FVec
  reg : List Bool
  deriving DecidableEq, Repr, Inhabited

/-- One column k of a front of `n` rows; `count` pivots were regularised before. A stop gives its cause and which of the
front's pivots so far were regularised (R322: the pivot beyond the limit is one of them). -/
def frontColumn (lim : Limits) (n count : Nat) (a : Front) (k : Nat) : Except (Nat × List Bool) Front :=
  match pivot lim (count + (a.reg.filter id).length) (mget a.f k k) with
  | .error c => .error (c, a.reg ++ [c == 0x48])
  | .ok (d', r) =>
    let l := mkVec n (fun i => if i ≤ k then 0 else div64 (mget a.f i k) d')
    let f := mkMat n n (fun i j =>
      if k < j ∧ j ≤ i then fma64 (neg64 (vget l i)) (mul64 (vget l j) d') (mget a.f i j) else mget a.f i j)
    if allFin64 l && f.all allFin64 then .ok ⟨f, a.l ++ [l], a.d ++ [d'], a.reg ++ [r]⟩
    else .error (0x49, a.reg ++ [r])

def frontColumns (lim : Limits) (n count : Nat) : Nat → Nat → Front → Except (Nat × List Bool) Front
  | 0, _, a => .ok a
  | m + 1, k, a =>
    match frontColumn lim n count a k with
    | .error c => .error c
    | .ok a => frontColumns lim n count m (k + 1) a

/-- Index of a scalar among the scalars of a front. -/
def indexOf (xs : List (Nat × Nat)) (p : Nat × Nat) : Option Nat := xs.findIdx? (fun x => x == p)

/-- The front of a supernode before factorisation: assembled entries, then each child's update matrix. -/
def assembleFront (fs : List SolFactor) (sh : Shape) (kids : List SolNode) : FMat :=
  let cs := scalarsOf sh.blocks
  let all := cs ++ scalarsOf sh.rows
  let n := all.length
  let base := mkMat n n (fun i j =>
    if j < cs.length ∧ j ≤ i then assembledH fs (all.getD i default) (all.getD j default) else 0)
  kids.foldl (fun f c =>
    let rows := scalarsOf c.rows
    mkMat n n (fun i j =>
      match indexOf rows (all.getD i default), indexOf rows (all.getD j default) with
      | some x, some y => if j ≤ i then add64 (mget f i j) (mget c.upd (max x y) (min x y)) else mget f i j
      | _, _ => mget f i j)) base

/-- Where a solve stopped (R323): the cause, the pivots regularised and the number of supernodes refactored by then. -/
structure Stop where
  cause : Nat
  regs : List (Nat × Nat)
  done : Nat
  deriving DecidableEq, Repr, Inhabited

/-- The scalars of the first columns of blocks whose pivots were regularised. -/
def regScalars (ks : List Nat) (reg : List Bool) : List (Nat × Nat) :=
  ((List.zip (scalarsOf ks) reg).filter (fun p => p.2)).map (·.1)

/-- One supernode factored; its forward values are filled in later. -/
def factorNode (fs : List SolFactor) (lim : Limits) (count : Nat) (sh : Shape) (kids : List SolNode) :
    Except (Nat × List Bool) SolNode :=
  let m := (scalarsOf sh.blocks).length
  let f := assembleFront fs sh kids
  if !f.all allFin64 then .error (0x49, [])
  else
    match frontColumns lim f.length count m 0 ⟨f, [], [], []⟩ with
    | .error c => .error c
    | .ok a =>
      let r := f.length - m
      .ok { (default : SolNode) with
        blocks := sh.blocks, rows := sh.rows, l := a.l, d := a.d, reg := a.reg
        upd := mkMat r r (fun i j => mget a.f (m + i) (m + j)) }

/-- The stored node of a shape among those computed so far. -/
def nodeAt (nodes : List SolNode) (sh : Shape) : SolNode := (storedNode nodes sh).getD default

/-- Affected supernodes factored in postorder; `done` holds every node known so far, newest first, and `st` the pivots
regularised and the supernodes refactored so far. -/
def factorAll (fs : List SolFactor) (lim : Limits) (shs : List Shape) :
    List Nat → Stop → List SolNode → Except Stop (List SolNode)
  | [], _, done => .ok done
  | i :: is, st, done =>
    let sh := shs.getD i default
    match factorNode fs lim st.regs.length sh ((childrenOf shs i).map (fun j => nodeAt done (shs.getD j default))) with
    | .error c => .error { st with cause := c.1, regs := st.regs ++ regScalars sh.blocks c.2 }
    | .ok n =>
      factorAll fs lim shs is { st with regs := st.regs ++ regScalars sh.blocks n.reg, done := st.done + 1 } (n :: done)

/-! The solves (R320). -/

/-- The forward values of one supernode. -/
def forwardNode (fs : List SolFactor) (n : SolNode) (kids : List SolNode) : Option SolNode :=
  let cs := scalarsOf n.blocks
  let all := cs ++ scalarsOf n.rows
  let v0 := (List.range all.length).map (fun i => if i < cs.length then assembledB fs (all.getD i default) else 0)
  let v1 := kids.foldl (fun v c =>
    let rows := scalarsOf c.rows
    (List.range all.length).map (fun i =>
      match indexOf rows (all.getD i default) with
      | some x => add64 (vget v i) (vget c.up x)
      | none => vget v i)) v0
  let v := (List.range cs.length).foldl (fun (v : FVec) k =>
    let l := n.l.getD k []
    mkVec all.length (fun i => if k < i then fma64 (neg64 (vget l i)) (vget v k) (vget v i) else vget v i)) v1
  if allFin64 v then some { n with y := v.take cs.length, up := v.drop cs.length } else none

def replaceNode (nodes : List SolNode) (n : SolNode) : List SolNode :=
  n :: nodes.filter (fun x => !(x.blocks == n.blocks && x.rows == n.rows))

def forwardAll (fs : List SolFactor) (shs : List Shape) : List Nat → List SolNode → Option (List SolNode)
  | [], nodes => some nodes
  | i :: is, nodes =>
    let sh := shs.getD i default
    match forwardNode fs (nodeAt nodes sh) ((childrenOf shs i).map (fun j => nodeAt nodes (shs.getD j default))) with
    | none => none
    | some n => forwardAll fs shs is (replaceNode nodes n)

/-- Δ of a scalar. -/
def deltaAt (bs : List SolBlock) (p : Nat × Nat) : Nat :=
  match bs.find? (fun b => b.key == p.1) with | some b => vget b.delta p.2 | none => 0

/-- Some separator Δ has moved by more than 2^−w since the supernode was last solved. -/
def moved (w : Nat) (now old : FVec) : Bool :=
  (List.range now.length).any (fun i =>
    ((Flt.fin false 1 (-(w : Int))).lt ((fltOf fp64 (vget now i)).sub (fltOf fp64 (vget old i))).abs))

/-- The backward solve of one supernode: the Δ of its columns. -/
def backwardNode (n : SolNode) (sep : FVec) : FVec :=
  let m := n.d.length
  (List.range m).foldl (fun (x : FVec) t =>
    let k := m - 1 - t
    -- x holds Δ of columns k+1 … m−1, ascending
    let xs := x ++ sep
    let l := n.l.getD k []
    let z := div64 (vget n.y k) (vget n.d k)
    let v := (List.range xs.length).foldl (fun acc i => fma64 (neg64 (vget l (k + 1 + i))) (vget xs i) acc) z
    v :: x) []

/-- Δ written into the blocks of a supernode. -/
def setDeltas (bs : List SolBlock) (keys : List Nat) (x : FVec) : List SolBlock :=
  let cs := scalarsOf keys
  bs.map (fun b =>
    if keys.contains b.key then
      { b with delta := (List.range (keyDim b.key)).map (fun c => vget x ((indexOf cs (b.key, c)).getD 0)) }
    else b)

/-- What the backward solve has reached. -/
structure Back where
  blocks : List SolBlock
  nodes : List SolNode
  entered : List Nat
  deriving DecidableEq, Repr, Inhabited

def backwardAll (w : Nat) (shs : List Shape) (affected : List Nat) : List Nat → Back → Option Back
  | [], a => some a
  | i :: is, a =>
    let sh := shs.getD i default
    let n := nodeAt a.nodes sh
    let sep := (scalarsOf sh.rows).map (deltaAt a.blocks)
    if affected.contains i || moved w sep n.sep then
      let x := backwardNode n sep
      if allFin64 x then
        backwardAll w shs affected is
          ⟨setDeltas a.blocks sh.blocks x, replaceNode a.nodes { n with sep := sep }, a.entered ++ [i]⟩
      else none
    else backwardAll w shs affected is a

/-! Selected inversion (R321). -/

/-- H⁻¹ over the rows of a supernode, its separator part known. -/
def invertNode (n : SolNode) (sep : FMat) : FMat :=
  let m := n.d.length
  let r := sep.length
  -- the trailing part grows from the separator towards the first column
  (List.range m).foldl (fun (z : FMat) t =>
    let k := m - 1 - t
    let l := n.l.getD k []
    let q := z.length
    let col := mkVec q (fun i =>
      (List.range q).foldl (fun acc j => fma64 (neg64 (mget z i j)) (vget l (k + 1 + j)) acc) 0)
    let dkk := (List.range q).foldl (fun acc i => fma64 (neg64 (vget l (k + 1 + i))) (vget col i) acc)
      (div64 one64 (vget n.d k))
    (dkk :: col) :: (List.range q).map (fun i => vget col i :: z.getD i []))
    (mkMat r r (fun i j => mget sep i j))

/-- The inverses of supernodes from the root down, each over its scalars. -/
def invertAll (shs : List Shape) (nodes : List SolNode) : List Nat → List (List (Nat × Nat) × FMat) →
    List (List (Nat × Nat) × FMat)
  | [], acc => acc
  | i :: is, acc =>
    let sh := shs.getD i default
    let rows := scalarsOf sh.rows
    let sep : FMat :=
      match parentOf shs i with
      | none => []
      | some p =>
        match acc.find? (fun q => q.1 == scalarsOf (shs.getD p default).blocks ++ scalarsOf (shs.getD p default).rows) with
        | some q => mkMat rows.length rows.length (fun x y =>
            mget q.2 ((indexOf q.1 (rows.getD x default)).getD 0) ((indexOf q.1 (rows.getD y default)).getD 0))
        | none => []
    invertAll shs nodes is ((scalarsOf sh.blocks ++ rows, invertNode (nodeAt nodes sh) sep) :: acc)

/-- The standard deviations of a block in FP32; `none` when one is not finite. -/
def blockSds (inv : List (List (Nat × Nat) × FMat)) (shs : List Shape) (key : Nat) : Option (List Nat) :=
  match shs.find? (fun s => s.blocks.contains key) with
  | none => none
  | some sh =>
    match inv.find? (fun q => q.1 == scalarsOf sh.blocks ++ scalarsOf sh.rows) with
    | none => none
    | some q =>
      let v := (List.range (keyDim key)).map (fun c =>
        let i := (indexOf q.1 (key, c)).getD 0
        fSqrt fp64 (mget q.2 i i))
      if allFin64 v then some (fitNats 6 (v.map n32)) else none

/-! One solve (R318–R324). -/

/-- What a numeric solve gives. -/
structure Solved where
  blocks : List SolBlock
  nodes : List SolNode
  entered : List Nat
  deriving DecidableEq, Repr, Inhabited

/-- The regularised pivots of affected supernodes, in elimination order. -/
def regPivots (shs : List Shape) (nodes : List SolNode) (affected : List Nat) : List (Nat × Nat) :=
  ((List.range shs.length).filter (fun i => affected.contains i)).flatMap (fun i =>
    let sh := shs.getD i default
    regScalars sh.blocks (nodeAt nodes sh).reg)

/-- The numeric work over the structure: the first cause found, or the solution. -/
def SolverUnit.numeric (u : SolverUnit) (shs : List Shape) (affected : List Nat) (m : Nat) (lim : Limits) (w : Nat) :
    Except Stop Solved :=
  let late (nodes : List SolNode) : Stop := ⟨0x49, regPivots shs nodes affected, affected.length⟩
  if !isFin64 m || !lt64 0 m then .error ⟨0x49, [], 0⟩
  else
    let post := postorder shs
    let kept := shs.filterMap (storedNode u.nodes)
    match factorAll u.factors lim shs (post.filter (fun i => affected.contains i)) ⟨0, [], 0⟩ kept with
    | .error c => .error c
    | .ok nodes =>
      match forwardAll u.factors shs (post.filter (fun i => affected.contains i)) nodes with
      | none => .error (late nodes)
      | some nodes =>
        match backwardAll w shs affected post.reverse ⟨u.blocks, nodes, []⟩ with
        | none => .error (late nodes)
        | some b =>
          let inv := invertAll shs b.nodes post.reverse []
          let keys := b.entered.flatMap (fun i => (shs.getD i default).blocks)
          let sds := keys.map (fun k => (k, blockSds inv shs k))
          if sds.any (fun p => p.2.isNone) then .error (late nodes)
          else
            let set (x : SolBlock) : SolBlock :=
              match (lookupKey x.key sds).join with
              | some v => { x with sd := v, dirty := false }
              | none => { x with dirty := false }
            .ok ⟨b.blocks.map set, shs.map (nodeAt b.nodes), keys⟩

/-- θ ⊞ Δ (R309): position, and quaternion for a keyframe. -/
def boxPlus (ver : Nat) (b : SolBlock) : FVec × FVec :=
  let p := vadd (b.theta.take 3) (b.delta.take 3)
  if keyDim b.key = 3 then (p, [0, 0, 0, 0])
  else
    let r := b.delta.drop 3
    let phi := norm64 r
    let hp := mul64 phi half64
    let sn := Config.sin64 ver hp
    let e := if (fltOf fp64 phi).eqv (fltInt 0) then [one64, 0, 0, 0]
      else Config.cos64 ver hp :: r.map (fun x => div64 (mul64 sn x) phi)
    let q := qmul (b.theta.drop 3) e
    let nq := norm64 q
    (p, q.map (fun x => div64 x nq))

/-- A block holds a regularised pivot. -/
def blockRegular (nodes : List SolNode) (key : Nat) : Bool :=
  nodes.any (fun n => n.blocks.contains key &&
    (List.zip (scalarsOf n.blocks) n.reg).any (fun p => p.1.1 == key && p.2))

/-- The solution entries of the blocks whose Δ was recomputed, in elimination order (R326). -/
def solutionEntries (ver : Nat) (order : List Nat) (sv : Solved) : List SolEntry :=
  (order.filter (fun k => sv.entered.contains k)).filterMap (fun k =>
    (sv.blocks.find? (fun b => b.key == k)).map (fun b =>
      let v := boxPlus ver b
      ⟨k, blockRegular sv.nodes k, v.1, v.2, b.sd⟩))

/-- The parameters of a solve. -/
structure SolveCfg where
  tau : Nat
  lam : Nat
  regLimit : Nat
  wild : Nat
  factorCap : Nat
  contribCap : Nat
  ver : Nat
  deriving DecidableEq, Repr, Inhabited

/-- A well-formed submission applied and solved (R311–R325). -/
def SolverUnit.solve (u : SolverUnit) (cfg : SolveCfg) (ds : List Delta) (epoch : Nat) (reorder : Bool) :
    SolverUnit × SolveResult :=
  let none_ : SolveResult := ⟨0, 0, [], [], epoch, 0, 0, 0, false⟩
  if ds = [] ∧ !u.blocks.any (fun b => b.dirty) then (u, none_)
  else
    let retired := (ds.filter (fun d => d.op == opRetire)).map (·.keyA)
    let a := (orderedDeltas ds).foldl (SolverUnit.apply cfg.contribCap) (u, false)
    let v := a.1
    let v := if reorder then { v with order := v.reorderKeys } else v
    let touched := distinct (ds.flatMap Delta.keys ++ retired.flatMap (neighbours u.factors) ++
      (u.blocks.filter (fun b => b.dirty)).map (·.key))
    let shs := shapes (structures v.order v.factors)
    let affected := affectedSet shs v.nodes touched reorder
    let m := v.maxDiag
    let mf := fltOf fp64 m
    let lim : Limits := ⟨mf.scale (-(cfg.tau : Int)), mf.scale (-(cfg.lam : Int)), cfg.regLimit⟩
    let size (sh : Shape) : Nat × Nat := (sumBy keyDim sh.blocks, sumBy keyDim sh.rows)
    let store := sumBy (fun sh => Config.nodeBytes (size sh).1 (size sh).2) shs
    let sizes := affected.map (fun i => size (shs.getD i default))
    let r : Except Stop Solved :=
      if maxScalars < v.scalars then .error ⟨0x4C, [], 0⟩
      else if a.2 || decide (cfg.factorCap < store) then .error ⟨0x4B, [], 0⟩
      else v.numeric shs affected m lim cfg.wild
    match r with
    | .ok sv =>
      let regs := regPivots shs sv.nodes affected
      ({ v with blocks := sv.blocks, nodes := sv.nodes },
       ⟨if regs = [] then 0 else 1, 0, regs, solutionEntries cfg.ver v.order sv, epoch, m,
        Config.solveFlops sizes ((shs.filter (fun sh => sh.blocks.any (fun k => sv.entered.contains k))).map size) 0
          affected.length, affected.length, reorder⟩)
    | .error c =>
      let inserted (f : SolFactor) : Bool := f.type == 2 && !u.factors.any (fun x => x.id == f.id)
      let keep (b : SolBlock) : SolBlock := if touched.contains b.key then { b with dirty := true } else b
      -- every Δ keeps its value from before the submission
      let old (b : SolBlock) : SolBlock :=
        match u.blocks.find? (fun x => x.key == b.key) with | some x => { b with delta := x.delta } | none => b
      ({ v with blocks := v.blocks.map (fun b => keep (old b)), factors := v.factors.filter (fun f => !inserted f) },
       ⟨2, c.cause, (scalarsOf v.order).filter (fun p => c.regs.contains p), [], epoch, m,
        if c.cause = 0x4B ∨ c.cause = 0x4C then 0 else Config.solveFlops sizes [] c.cause c.done, c.done, reorder⟩)

/-! The command (R325–R327). -/

/-- The 256-byte result status (R326). -/
def resultBytes (r : SolveResult) : Bytes :=
  let item (p : Nat × Nat) : Bytes := leBytes 4 p.1 ++ leBytes 1 p.2 ++ leBytes 3 0
  fitBytes 256 (leBytes 1 r.status ++ leBytes 1 r.cause ++ leBytes 2 (min r.regs.length 65535) ++
    leBytes 4 r.entries.length ++ leBytes 8 r.epoch ++ leBytes 8 r.maxDiag ++ leBytes 8 r.flops ++
    leBytes 4 r.supernodes ++ leBytes 1 (b2n r.reordered) ++ leBytes 3 0 ++
    fitBytes 128 ((r.regs.take 16).flatMap item))

/-- A 96-byte solution entry (R326). -/
def entryOf (e : SolEntry) : Bytes :=
  fitBytes 96 (leBytes 4 e.key ++ leBytes 2 (b2n e.regularised) ++ leBytes 2 0 ++ e.pos.flatMap (leBytes 8) ++
    e.quat.flatMap (leBytes 8) ++ (fitNats 6 e.sd).flatMap (leBytes 4))

def State.solveCfg (s : State) : SolveCfg :=
  let d := s.solverDecl
  ⟨s.tauExp, s.lambdaExp, s.regLimit, s.wildfireExp, d.factorMib * 2 ^ 20, d.contribMib * 2 ^ 20, s.tableVer⟩

/-- The result written into groundsheet `M` and its lantern raised. -/
def State.writeResult (s : State) (occ : Occurrence) (r : SolveResult) : State :=
  let d := s.solverDecl
  let n := r.entries.length
  let s := (List.range (ceilDiv n 341)).foldl (fun s t =>
    s.cstore d.cadence d.unit (d.solutionBase + t * tileBytes)
      (fitBytes tileBytes (((r.entries.drop (341 * t)).take 341).flatMap entryOf))) s
  (s.storeTile (engineRegion 3) d.cadence d.unit d.resultLantern (resultBytes r)).raiseLantern d.unit d.resultLantern
    (s.stepTime occ.step) occ.step

/-- SOLVER_SUBMISSION (R310–R327): the header's delta count, epoch, reorder flag and address. -/
def effSolverSubmission (count epoch : Nat) (reorder : Bool) (addr : Nat) (s : State) : State :=
  let decl := s.solverDecl
  match s.occOf decl.cadence with
  | none => s
  | some occ =>
    if !s.mayIssue decl.cadence then s
    else if !s.inService (engineRegion 3) then s.answer blockSolver refused 0x0A
    else
      let ds := (List.range count).map (fun i => deltaOf (s.load (deltaAddr addr i) 768))
      if maxDeltas < count || s.solver.submitted == some occ.step || !s.solver.wellFormed ds then
        (s.answer blockSolver refused 0x0C).badDescriptor (engineRegion 3) 0x0C ⟨decl.cadence, addr⟩
      else
        let r := s.solver.solve s.solveCfg ds epoch reorder
        let s := { s with solver := { r.1 with submitted := some occ.step, result := some r.2 } }
        let s := if r.2.status = 1 then s.solverEvent 0 else s
        let s := if r.2.status = 2 then s.solverEvent 1 else s
        let s := if r.2.cause = 0x4B then s.solverEvent 2 else s
        let s := if r.2.reordered then s.solverEvent 3 else s
        let s := s.writeResult occ r.2
        if r.2.status = 2 then s.answer blockSolver shed r.2.cause else s.answer blockSolver served 0

/-- The registers of the latest committed solve (R328), at the commit of the mapping occurrence. -/
def State.commitSolve (s : State) : State :=
  match s.solver.result with
  | none => s
  | some r =>
    let s := s.setReg 0xC00028 (r.status + r.cause * 256 + min r.regs.length 65535 * 65536)
    let s := (s.setReg 0xC0002C r.supernodes).setReg64 0xC00030 r.flops
    let s := s.addReg64 0xC00038 r.regs.length
    let s := if r.status = 2 then s.satReg 0xC00040 1 else s
    let s := s.setReg 0xC00044 ((r.regs.head?.map (·.1)).getD 0)
    { s with solver := { s.solver with result := none } }

def execSolverSubmission (count epoch : Nat) (reorder : Bool) (addr : Nat) (s : State) :
    Host.Outcome State Fault Refusal := .next (effSolverSubmission count epoch reorder addr s)

end Sys2Proof.Machine
end

