-- ==== Sys2Proof/Machine/Map.lean ====
section
/-! DEFINITION. The map engine (08): the store and its epochs, insertion lists, frozen variables, loop closure, the
submission to the solver, commits, map records and host requests. -/

namespace Sys2Proof.Machine

def State.mapDecl (s : State) : MapDecl := (s.steps.image.map (·.map)).getD default

def mapEvents : Nat := 0xB00010
def State.mapEvent (s : State) (bit : Nat) : State := s.event mapEvents bit (s.activeFld ⟨0xB00008, 31, 1⟩ == 1) 15

def awningKfs : Nat := 65536
def awningLms : Nat := 4194304
def awningFacs : Nat := 4194304

/-! The store at an epoch (R278, R286). -/

/-- The slot a read at epoch e uses: the largest epoch at or below e. -/
def slotAt (a b : PoseSlot) (e : Nat) : PoseSlot :=
  if b.epoch ≤ e ∧ (e < a.epoch ∨ a.epoch < b.epoch) then b else a

end Sys2Proof.Machine

namespace Sys2Proof

open Sys2Proof.Machine

def Keyframe.at (k : Keyframe) (e : Nat) : PoseSlot := slotAt k.slotA k.slotB e
def Landmark.at (l : Landmark) (e : Nat) : PoseSlot := slotAt l.slotA l.slotB e

def Landmark.live (l : Landmark) : Bool := l.epochDel == liveEpoch
def MapFactor.live (f : MapFactor) : Bool := f.epochDel == liveEpoch
def Landmark.inMap (l : Landmark) (e : Nat) : Bool := decide (l.epochIn ≤ e ∧ e < l.epochDel)
def MapFactor.inMap (f : MapFactor) (e : Nat) : Bool := decide (f.epochIn ≤ e ∧ e < f.epochDel)
def Keyframe.inMap (k : Keyframe) (e : Nat) : Bool := decide (k.epochIn ≤ e)

def Keyframe.frozen (k : Keyframe) : Bool := bitAt k.flags 0
def Keyframe.anchor (k : Keyframe) : Bool := bitAt k.flags 1
def Landmark.frozen (l : Landmark) : Bool := bitAt l.flags 0

/-- A factor whose first variable is a landmark (R279). -/
def MapFactor.landmarkA (f : MapFactor) : Bool := f.type == 3 && bitAt f.flags 0

/-- The keyframes a factor names. -/
def MapFactor.kfs (f : MapFactor) : List Nat :=
  match f.type with
  | 0 => [f.varA]
  | 1 | 2 => [f.varA, f.varB]
  | _ => if f.landmarkA then [] else [f.varA]

/-- The landmarks a factor names. -/
def MapFactor.lms (f : MapFactor) : List Nat :=
  match f.type with
  | 0 => [f.varB]
  | _ => if f.landmarkA then [f.varA] else []

end Sys2Proof

namespace Sys2Proof.Machine

def MapUnit.kf (m : MapUnit) (id : Nat) : Option Keyframe := m.keyframes.find? (fun k => k.id == id)
def MapUnit.lm (m : MapUnit) (id : Nat) : Option Landmark := m.landmarks.find? (fun l => l.id == id)

/-- The epoch the running occurrence creates (R285). -/
def MapUnit.e1 (m : MapUnit) : Nat := m.epoch + 1

/-- `OBS`: projection factors on a landmark that are in the map at epoch e (R278). -/
def MapUnit.obsAt (m : MapUnit) (e id : Nat) : Nat :=
  (m.factors.filter (fun f => f.inMap e && f.type == 0 && f.varB == id)).length

/-- The landmarks a keyframe observes in the map at epoch e, ascending. -/
def MapUnit.lmsAt (m : MapUnit) (e kf : Nat) : List Landmark :=
  m.landmarks.filter (fun l =>
    l.inMap e && m.factors.any (fun f => f.inMap e && f.type == 0 && f.varA == kf && f.varB == l.id))

/-- Free scalars (R284). -/
def MapUnit.freeScalars (m : MapUnit) : Nat :=
  6 * (m.keyframes.filter (fun k => !k.frozen)).length + 3 * (m.landmarks.filter (fun l => l.live && !l.frozen)).length

/-- Awning entries of each part (R288). -/
def MapUnit.awnKfs (m : MapUnit) : Nat := (m.keyframes.filter (fun k => decide (m.merged < k.epochIn))).length
def MapUnit.awnLms (m : MapUnit) : Nat := (m.landmarks.filter (fun l => decide (m.merged < l.epochIn))).length
def deletedAfter (merged del : Nat) : Bool := del != liveEpoch && decide (merged < del)
def MapUnit.awnFacs (m : MapUnit) : Nat :=
  (m.factors.filter (fun f => decide (m.merged < f.epochIn))).length +
    (m.factors.filter (fun f => deletedAfter m.merged f.epochDel)).length +
    (m.landmarks.filter (fun l => deletedAfter m.merged l.epochDel)).length
def MapUnit.awningFill (m : MapUnit) : Nat := m.awnKfs + m.awnLms + m.awnFacs

def setBit (v n : Nat) (b : Bool) : Nat := putBits v n 1 (b2n b)

/-- The map of a run's start (R280): the base map, its entries of epoch 0 and marked, and the peg table. -/
def startMap (d : MapDecl) (pegs : List Peg) : MapUnit :=
  let top (xs : List Nat) : Nat := xs.foldl max 0 + 1
  { keyframes := d.baseKfs.map (fun (k : Keyframe) => { k with epochIn := 0, flags := setBit k.flags 2 true })
    landmarks := d.baseLms.map (fun (l : Landmark) =>
      { l with epochIn := 0, epochDel := liveEpoch, flags := setBit l.flags 1 true })
    factors := d.baseFacs.map (fun (f : MapFactor) =>
      { f with epochIn := 0, epochDel := liveEpoch, flags := setBit f.flags 1 true })
    epoch := 0
    nextKf := top (d.baseKfs.map (·.id)), nextLm := top (d.baseLms.map (·.id)), nextFac := top (d.baseFacs.map (·.id))
    merged := 0, pegs := [(0, pegs.map (fun p => { p with epochSet := 0 }))], pegEdges := [], work := default }

/-! Deletions and insertion (R282, R283). -/

/-- What an insertion has built so far: the map, identifiers given to the list's keyframes and landmarks or the cause of
their refusal, and the causes met. -/
structure Inserting where
  m : MapUnit
  kfIds : List (Except Nat Nat)
  lmIds : List (Except Nat Nat)
  causes : List Nat

def MapUnit.deleteFactors (m : MapUnit) (p : MapFactor → Bool) : MapUnit :=
  { m with factors := m.factors.map (fun f => if f.live && p f then { f with epochDel := m.e1 } else f) }

/-- A deletion in list order; a landmark takes its live factors with it. -/
def Inserting.delete (a : Inserting) (d : MapDelete) : Inserting :=
  match d with
  | .landmark id =>
    if a.m.landmarks.any (fun l => l.id == id && l.live) then
      let m := a.m.deleteFactors (fun f => f.lms.contains id)
      let mark (l : Landmark) : Landmark := if l.id = id && l.live then { l with epochDel := m.e1 } else l
      { a with m := { m with landmarks := m.landmarks.map mark } }
    else { a with causes := 0x43 :: a.causes }
  | .factor id =>
    if a.m.factors.any (fun f => f.id == id && f.live) then { a with m := a.m.deleteFactors (fun f => f.id == id) }
    else { a with causes := 0x43 :: a.causes }

/-- The cause that refuses an insert into a part (R283), or 0. -/
def partCause (awning awningCap store storeCap : Nat) : Nat :=
  if awningCap ≤ awning then 0x40 else if storeCap ≤ store then 0x41 else 0

/-- A factor enters the map, or the cause of its refusal. -/
def MapUnit.insertFactor (m : MapUnit) (cap : Nat) (f : MapFactor) : Except Nat MapUnit :=
  match partCause m.awnFacs awningFacs m.factors.length cap with
  | 0 => .ok { m with
      factors := m.factors ++ [{ f with id := m.nextFac, epochIn := m.e1, epochDel := liveEpoch, linA := [], linB := [] }]
      nextFac := m.nextFac + 1
      work := { m.work with facs := m.work.facs + 1 } }
  | c => .error c

/-- A factor's outcome recorded. -/
def Inserting.note (a : Inserting) (r : Except Nat MapUnit) : Inserting :=
  match r with
  | .ok m => { a with m := m }
  | .error c => { a with causes := c :: a.causes }

/-- A keyframe candidate, with the relative-pose factor it brings, which a refusal takes along. -/
def Inserting.keyframe (d : MapDecl) (a : Inserting) (k : KfCandidate) : Inserting :=
  match partCause a.m.awnKfs awningKfs a.m.keyframes.length d.kfCap with
  | 0 =>
    let id := a.m.nextKf
    let prev := ((a.m.keyframes.filter (fun x => x.sensor == k.sensor)).getLast?).map (·.id)
    let kf : Keyframe :=
      ⟨id, k.sensor, 0, k.stamp, a.m.e1, ⟨a.m.e1, k.pose, k.sd⟩, ⟨0, List.replicate 7 0, List.replicate 6 0⟩, sentinelId⟩
    let m := { a.m with
      keyframes := a.m.keyframes ++ [kf]
      nextKf := id + 1
      work := { a.m.work with kfs := a.m.work.kfs + 1, vectors := a.m.work.vectors ++ [(id, k.vector)] } }
    let a := { a with m := m, kfIds := a.kfIds ++ [.ok id] }
    match prev, k.odometry with
    | some p, some o =>
      a.note (m.insertFactor d.facCap ⟨0, 1, o.kernel, 0, id, p, 0, 0, fitNats 7 o.z, fitNats 6 o.sigma, o.kernelK, [], []⟩)
    | _, _ => a
  | c =>
    let named := a.m.keyframes.any (fun x => x.sensor == k.sensor) && k.odometry.isSome
    { a with kfIds := a.kfIds ++ [.error c], causes := List.replicate (1 + b2n named) c ++ a.causes }

/-- A new landmark; a refused candidate takes it along. -/
def Inserting.landmark (d : MapDecl) (a : Inserting) (l : NewLandmark) : Inserting :=
  let own : Nat := match a.kfIds[l.observer]? with | some (.error c) => c | some (.ok _) => 0 | none => 0x43
  let c := if own ≠ 0 then own else partCause a.m.awnLms awningLms a.m.landmarks.length d.lmCap
  if c = 0 then
    let id := a.m.nextLm
    let lm : Landmark := ⟨id, 0, a.m.e1, liveEpoch, ⟨a.m.e1, l.pos, []⟩, ⟨0, [0, 0, 0], []⟩, fitBytes 32 l.desc⟩
    { a with
      m := { a.m with landmarks := a.m.landmarks ++ [lm], nextLm := id + 1, work := { a.m.work with lms := a.m.work.lms + 1 } }
      lmIds := a.lmIds ++ [.ok id] }
  else { a with lmIds := a.lmIds ++ [.error c], causes := c :: a.causes }

/-- A keyframe or landmark named by a factor. -/
def Inserting.resolve (a : Inserting) (landmark : Bool) (r : VarRef) : Except Nat Nat :=
  match r with
  | .old id =>
    if landmark then (if a.m.landmarks.any (fun l => l.id == id && l.live) then .ok id else .error 0x43)
    else if a.m.keyframes.any (fun k => k.id == id) then .ok id else .error 0x43
  | .new i => ((if landmark then a.lmIds else a.kfIds)[i]?).getD (.error 0x43)

/-- A peg is defined in a table (R283). -/
def pegDefined (pegs : List Peg) (i : Nat) : Bool := pegs.any (fun p => p.peg == i && bitAt p.flags 0)

/-- A new factor of the list. -/
def Inserting.factor (d : MapDecl) (pegs : List Peg) (a : Inserting) (f : NewFactor) : Inserting :=
  let ra := a.resolve (f.type == 3 && f.landmarkA) f.a
  let rb : Except Nat Nat :=
    match f.type, f.b with
    | 0, r => a.resolve true r
    | 1, r | 2, r => a.resolve false r
    | 3, .old i => if pegDefined pegs i then .ok i else .error 0x43
    | 4, _ => .ok 0
    | _, _ => .error 0x43
  let causes := (match ra with | .error c => [c] | .ok _ => []) ++ (match rb with | .error c => [c] | .ok _ => [])
  match ra, rb with
  | .ok x, .ok y =>
    a.note (a.m.insertFactor d.facCap
      ⟨0, f.type, f.kernel, b2n (f.type == 3 && f.landmarkA), x, y, 0, 0, fitNats 7 f.z, fitNats 6 f.sigma, f.kernelK, [], []⟩)
  | _, _ => { a with causes := pickCause causes :: a.causes }

/-! Gauge and frozen variables (R276, R284). -/

/-- The gauge anchor: the keyframe with the lowest identifier while no live factor of type 3 or 4 exists. -/
def MapUnit.setGauge (m : MapUnit) : MapUnit :=
  let gauge := m.factors.any (fun f => f.live && (f.type == 3 || f.type == 4))
  let low := (m.keyframes.map (·.id)).foldl min liveEpoch
  let mark (k : Keyframe) : Keyframe := { k with flags := setBit k.flags 1 (!gauge && k.id == low) }
  { m with keyframes := m.keyframes.map mark }

/-- A slot pair with the value of epoch e in both slots. -/
def hold (a b : PoseSlot) (e : Nat) : PoseSlot × PoseSlot :=
  let v := slotAt a b e
  ({ a with value := v.value, sd := v.sd }, { b with value := v.value, sd := v.sd })

end Sys2Proof.Machine

namespace Sys2Proof

open Sys2Proof.Machine

def Keyframe.freeze (k : Keyframe) (e : Nat) : Keyframe :=
  let h := hold k.slotA k.slotB e
  { k with flags := setBit k.flags 0 true, slotA := h.1, slotB := h.2 }

def Landmark.freeze (l : Landmark) (e : Nat) : Landmark :=
  let h := hold l.slotA l.slotB e
  { l with flags := setBit l.flags 0 true, slotA := h.1, slotB := h.2 }

end Sys2Proof

namespace Sys2Proof.Machine

/-- Landmarks chosen by `p` whose live projection factors all name frozen keyframes become frozen. -/
def MapUnit.freezeLms (m : MapUnit) (p : Landmark → Bool) : MapUnit :=
  let frozenKf (id : Nat) : Bool := m.keyframes.any (fun k => k.id == id && k.frozen)
  let fs (l : Landmark) : List MapFactor := m.factors.filter (fun f => f.live && f.type == 0 && f.varB == l.id)
  let upd (l : Landmark) : Landmark :=
    if l.live && !l.frozen && p l && !(fs l).isEmpty && (fs l).all (fun f => frozenKf f.varA) then l.freeze m.e1 else l
  { m with landmarks := m.landmarks.map upd }

/-- Keyframes freeze, lowest identifier first, while the free scalars exceed the limit. -/
def MapUnit.freezeTo (limit : Nat) : Nat → MapUnit → MapUnit
  | 0, m => m
  | fuel + 1, m =>
    if m.freeScalars ≤ limit then m
    else
      match m.keyframes.find? (fun k => !k.frozen && !k.anchor) with
      | none => m
      | some k =>
        let upd (x : Keyframe) : Keyframe := if x.id = k.id then x.freeze m.e1 else x
        MapUnit.freezeTo limit fuel (({ m with keyframes := m.keyframes.map upd }).freezeLms (fun _ => true))

def State.freeLimit (s : State) : Nat := min 256 (max 1 (s.activeFld ⟨0xB00008, 0, 9⟩)) * 65536

/-! Geometry (R293, R294): FP64, each operation rounded, sums in ascending order (R212). -/

abbrev V3 := FVec

def cross (a b : V3) : V3 :=
  let m (i j : Nat) : Nat := mul64 (vget a i) (vget b j)
  [sub64 (m 1 2) (m 2 1), sub64 (m 2 0) (m 0 2), sub64 (m 0 1) (m 1 0)]

def scaleV (v : V3) (d : Nat) : V3 := v.map (fun x => div64 x d)
def unitV (v : V3) : V3 := scaleV v (norm64 v)

/-- The rotation matrix of a unit quaternion w, x, y, z. -/
def quatRot (q : FVec) : FMat :=
  let w := vget q 0
  let x := vget q 1
  let y := vget q 2
  let z := vget q 3
  let two := int64 2
  let p (a b : Nat) : Nat := mul64 a b
  [[sub64 one64 (p two (add64 (p y y) (p z z))), p two (sub64 (p x y) (p w z)), p two (add64 (p x z) (p w y))],
   [p two (add64 (p x y) (p w z)), sub64 one64 (p two (add64 (p x x) (p z z))), p two (sub64 (p y z) (p w x))],
   [p two (sub64 (p x z) (p w y)), p two (add64 (p y z) (p w x)), sub64 one64 (p two (add64 (p x x) (p y y)))]]

def applyM (m : FMat) (v : FVec) : FVec := m.map (fun row => dot64 row v)
def mulM (a b : FMat) : FMat := a.map (fun row => (List.range (cols b)).map (fun j => dot64 row (b.map (fun r => vget r j))))

/-- A plant position in the body frame of a pose. -/
def toBody (pose : FVec) (p : V3) : V3 := applyM (tr (quatRot (pose.drop 3))) (vsub p (pose.take 3))

/-- The unit quaternion of a rotation matrix, by its largest diagonal sum. -/
def quatOf (r : FMat) : FVec :=
  let g (i j : Nat) : Nat := mget r i j
  let t := add64 (add64 (g 0 0) (g 1 1)) (g 2 2)
  let root (v : Nat) : Nat := mul64 half64 (fSqrt fp64 v)
  let quarter (v s : Nat) : Nat := div64 v (mul64 (int64 4) s)
  if lt64 0 t then
    let w := root (add64 one64 t)
    [w, quarter (sub64 (g 2 1) (g 1 2)) w, quarter (sub64 (g 0 2) (g 2 0)) w, quarter (sub64 (g 1 0) (g 0 1)) w]
  else if le64 (g 1 1) (g 0 0) && le64 (g 2 2) (g 0 0) then
    let x := root (sub64 (sub64 (add64 one64 (g 0 0)) (g 1 1)) (g 2 2))
    [quarter (sub64 (g 2 1) (g 1 2)) x, x, quarter (add64 (g 0 1) (g 1 0)) x, quarter (add64 (g 0 2) (g 2 0)) x]
  else if le64 (g 2 2) (g 1 1) then
    let y := root (sub64 (add64 (sub64 one64 (g 0 0)) (g 1 1)) (g 2 2))
    [quarter (sub64 (g 0 2) (g 2 0)) y, quarter (add64 (g 0 1) (g 1 0)) y, y, quarter (add64 (g 1 2) (g 2 1)) y]
  else
    let z := root (add64 (sub64 (sub64 one64 (g 0 0)) (g 1 1)) (g 2 2))
    [quarter (sub64 (g 1 0) (g 0 1)) z, quarter (add64 (g 0 2) (g 2 0)) z, quarter (add64 (g 1 2) (g 2 1)) z, z]

/-- Columns e1, e2, e3 of three points (R294). -/
def frame3 (p0 p1 p2 : V3) : FMat :=
  let e1 := unitV (vsub p1 p0)
  let e3 := unitV (cross e1 (vsub p2 p0))
  tr [e1, cross e3 e1, e3]

def mean3 (p0 p1 p2 : V3) : V3 := scaleV (vadd (vadd p0 p1) p2) (int64 3)

/-! The seeded generator (R72, R75). -/

/-- Word `i` of a stream: block i / 4, word i mod 4, big-endian. -/
def drawWord (seed : Bytes) (step unit stream i : Nat) : Nat :=
  beAt (aes256 (fitBytes 32 seed) (beBytes 8 step ++ beBytes 2 unit ++ beBytes 2 stream ++ beBytes 4 (i / 4))) (4 * (i % 4)) 4

/-- A uniform integer in [0, m). -/
def uniform (w m : Nat) : Nat := w * m / 2 ^ 32

/-- The three indices of hypothesis h among m correspondences (R294). -/
def pick3 (w0 w1 w2 m : Nat) : Nat × Nat × Nat :=
  let i0 := uniform w0 m
  let i1 := uniform w1 (m - 1)
  let i1 := if i0 ≤ i1 then i1 + 1 else i1
  let i2 := uniform w2 (m - 2)
  let i2 := if min i0 i1 ≤ i2 then i2 + 1 else i2
  let i2 := if max i0 i1 ≤ i2 then i2 + 1 else i2
  (i0, i1, i2)

/-! Verification (R293–R296). -/

/-- Correspondences: each landmark of the new keyframe takes the candidate's nearest unused landmark. -/
def correspond (hmax : Nat) (news cands : List Landmark) : List (Landmark × Landmark) :=
  (news.foldl (fun (a : List (Landmark × Landmark) × List Nat) l =>
    let free := cands.filter (fun c => !a.2.contains c.id && decide (hamming l.desc c.desc ≤ hmax))
    let best := free.foldl (fun (b : Option Landmark) c =>
      match b with
      | none => some c
      | some x => if hamming l.desc c.desc < hamming l.desc x.desc then some c else some x) none
    match best with
    | none => a
    | some c => (a.1 ++ [(l, c)], c.id :: a.2)) ([], [])).1

/-- The transform of a hypothesis, or none when its triangles are too small. -/
def hypothesis (ab : List (V3 × V3)) (i : Nat × Nat × Nat) : Option (FMat × V3) :=
  let p (k : Nat) : V3 × V3 := ab.getD k default
  let a0 := (p i.1).1
  let a1 := (p i.2.1).1
  let a2 := (p i.2.2).1
  let b0 := (p i.1).2
  let b1 := (p i.2.1).2
  let b2 := (p i.2.2).2
  let area (x y z : V3) : Nat := norm64 (cross (vsub y x) (vsub z x))
  let least := div64 one64 (int64 100)
  if lt64 (area a0 a1 a2) least || lt64 (area b0 b1 b2) least then none
  else
    let rot := mulM (frame3 b0 b1 b2) (tr (frame3 a0 a1 a2))
    some (rot, vsub (mean3 b0 b1 b2) (applyM rot (mean3 a0 a1 a2)))

/-- The residual Rot · a + t − b. -/
def residual (rot : FMat) (t : V3) (p : V3 × V3) : V3 := vsub (vadd (applyM rot p.1) t) p.2

def inlier (tol : Nat) (rot : FMat) (t : V3) (p : V3 × V3) : Bool := le64 (norm64 (residual rot t p)) tol

/-- The Jacobian rows of a residual: position, then rotation increments about the body axes (R308). -/
def jacobian (rot : FMat) (a : V3) : FMat :=
  let skew : FMat := [[0, neg64 (vget a 2), vget a 1], [vget a 2, 0, neg64 (vget a 0)], [neg64 (vget a 1), vget a 0, 0]]
  let rs := mulM rot skew
  (List.range 3).map (fun i => (eyeMat 3).getD i [] ++ (rs.getD i []).map neg64)

/-- The normal matrix and the gradient over inliers, terms ascending. -/
def normalEq (rot : FMat) (t : V3) (ps : List (V3 × V3)) : FMat × FVec :=
  let rows := ps.flatMap (fun p => List.zip (jacobian rot p.1) (residual rot t p))
  (mkMat 6 6 (fun i j => sum64 (rows.map (fun r => mul64 (vget r.1 i) (vget r.1 j)))),
   mkVec 6 (fun i => sum64 (rows.map (fun r => mul64 (vget r.1 i) r.2))))

/-- Gauss–Newton iterations on translation and quaternion; none when a factorisation fails. -/
def gaussNewton (ver : Nat) (ps : List (V3 × V3)) : Nat → V3 × FVec → Option (V3 × FVec)
  | 0, x => some x
  | k + 1, x =>
    let ne := normalEq (quatRot x.2) x.1 ps
    match cholesky ne.1 with
    | none => none
    | some ls =>
      let d := (cholSolve ls ne.2).map neg64
      let nx := boxPlus ver ⟨0, x.1 ++ x.2, d, [], false⟩
      gaussNewton ver ps k nx

/-- The verdict on a candidate: its correspondences and best score, and when verified the transform and its standard
deviations (FP32). -/
structure Verdict where
  m : Nat
  score : Nat
  pass : Option (List Nat × List Nat × List Nat)
  deriving DecidableEq, Repr, Inhabited

/-- What verification reads of the registers and the image. -/
structure VerifyCfg where
  seed : Bytes
  step : Nat
  unit : Nat
  hyps : Nat
  tol : Nat
  minInliers : Nat
  minRatio : Nat
  ver : Nat
  deriving DecidableEq, Repr, Inhabited

/-- The best hypothesis: highest score, ties to the lower h; a score of 0 here stands for −1 and 0 alike where no
triangle was large enough (R294). -/
def bestHyp (c : VerifyCfg) (stream : Nat) (ab : List (V3 × V3)) : Option (Nat × FMat × V3) :=
  (List.range c.hyps).foldl (fun (b : Option (Nat × FMat × V3)) h =>
    let w (i : Nat) : Nat := drawWord c.seed c.step c.unit stream (3 * h + i)
    match hypothesis ab (pick3 (w 0) (w 1) (w 2) ab.length) with
    | none => b
    | some (rot, t) =>
      let n := (ab.filter (inlier c.tol rot t)).length
      match b with
      | none => some (n, rot, t)
      | some x => if x.1 < n then some (n, rot, t) else some x) none

/-- Geometric verification of one candidate (R294, R295). -/
def verify (c : VerifyCfg) (stream : Nat) (ab : List (V3 × V3)) : Verdict :=
  if ab.length < 3 then ⟨ab.length, 0, none⟩
  else
    match bestHyp c stream ab with
    | none => ⟨ab.length, 0, none⟩
    | some (n, rot, t) =>
      let ins := ab.filter (inlier c.tol rot t)
      let ok := decide (c.minInliers ≤ n ∧ c.minRatio * ab.length ≤ 100 * n)
      match (if ok then gaussNewton c.ver ins 4 (t, quatOf rot) else none) with
      | none => ⟨ab.length, n, none⟩
      | some (t', q) =>
        let nm := (normalEq (quatRot q) t' ins).1
        match cholesky nm with
        | none => ⟨ab.length, n, none⟩
        | some ls =>
          if le64 (Config.conditionNumber (nm.flatMap id)) (int64 1000000) then
            let inv (i : Nat) : Nat := vget (cholSolve ls ((eyeMat 6).getD i [])) i
            ⟨ab.length, n, some (t'.map n32, q.map n32, (List.range 6).map (fun i => n32 (fSqrt fp64 (inv i))))⟩
          else ⟨ab.length, n, none⟩

def State.verifyCfg (s : State) (step : Nat) : VerifyCfg :=
  let f (lo w : Nat) : Nat := s.activeFld ⟨0xB0000C, lo, w⟩
  { seed := (s.steps.image.map (·.seed)).getD [], step := step, unit := s.mapDecl.unit
    hyps := 32 * 2 ^ f 21 3, tol := div64 (int64 (max 1 (f 24 8))) (int64 1000)
    minInliers := if f 6 8 = 0 then 3 else f 6 8, minRatio := min 100 (f 14 7), ver := s.tableVer }

/-! Place recognition (R292). -/

/-- The filter of R292 as terms of R348. -/
def placeFilter (sensor firstRecent : Nat) : List Term := [⟨32, 16, 1, sensor⟩, ⟨0, 32, 2, firstRecent⟩]

/-- The first keyframe that the sensor inserted within the last `RECENT_S` seconds of a stamp. -/
def MapUnit.firstRecent (m : MapUnit) (k : Keyframe) (recentS : Nat) : Nat :=
  ((m.keyframes.find? (fun x => x.sensor == k.sensor && decide (k.stamp ≤ x.stamp + recentS * 1000000000))).map (·.id)).getD k.id

/-- The candidates of a keyframe in rank order at the committed epoch E, or none when the query is not served. -/
def State.placeQuery (s : State) (k : Keyframe) (vec : List Nat) : Option (List Nat) × State :=
  let decl := s.mapDecl
  let r : QueryReq := {
    (default : QueryReq) with
    coll := decl.collection, flags := 2 + b2n (decl.nprobe == 0), k := max 1 (s.activeFld ⟨0xB0000C, 0, 6⟩)
    nprobe := decl.nprobe, queries := 1
    filter := placeFilter k.sensor (s.map.firstRecent k (s.activeFld ⟨0xB00008, 9, 11⟩)) }
  if !s.inService (engineRegion 4) || s.collCause r.coll != 0 then (none, s)
  else
    let d := s.collDecl r.coll
    let a := runQuery d (s.coll r.coll) s.map.epoch r.k (decl.nprobe == 0) true r.nprobe r.filter vec
    let s := (s.countBatch r ⟨s.map.epoch, served, 0, [a]⟩).answer blockSearch served 0
    (some (a.best.map (fun c => c.tag % 2 ^ 32)), s)

/-- The candidates examined in rank order until one is verified; what stood first is reported when none is. -/
def MapUnit.examine (m : MapUnit) (c : VerifyCfg) (pos : Nat) (k : Keyframe) :
    List (Nat × Nat) → Option (Nat × Verdict) → Nat × Verdict × Bool
  | [], first => match first with | some x => (x.1, x.2, false) | none => (0, default, false)
  | (rank, id) :: rest, first =>
    let ab : List (V3 × V3) :=
      match m.kf id with
      | none => []
      | some kc =>
        (correspond Config.hammingMax (m.lmsAt m.e1 k.id) (m.lmsAt m.e1 id)).map (fun p =>
          (toBody (k.at m.e1).value (p.1.at m.e1).value, toBody (kc.at m.e1).value (p.2.at m.e1).value))
    let v := verify c (64 * pos + rank) ab
    if v.pass.isSome then (id, v, true) else m.examine c pos k rest (some (first.getD (id, v)))

/-- Loop closure of one marked keyframe (R292–R296). -/
def State.closeLoop (s : State) (occ : Occurrence) (pos id : Nat) (vec : List Nat) : State :=
  match s.map.kf id with
  | none => s
  | some k =>
    let q := s.placeQuery k vec
    let s := match q.1 with | none => (q.2.mapEvent 4).answer blockMap shed 0x46 | some _ => q.2
    let cands := q.1.getD []
    let r := s.map.examine (s.verifyCfg occ.step) pos k (List.zip (List.range cands.length) cands) none
    let entry (res fac : Nat) (t qn : List Nat) : Closure := ⟨res, id, r.1, r.2.1.score, r.2.1.m, fac, t, qn⟩
    let add (m : MapUnit) (c : Closure) : MapUnit := { m with work := { m.work with closures := m.work.closures ++ [c] } }
    match r.2.1.pass with
    | none => { s with map := add s.map (entry 1 0 [0, 0, 0] [0, 0, 0, 0]) }
    | some (t, qn, sg) =>
      let decl := s.mapDecl
      match s.map.insertFactor decl.facCap ⟨0, 2, decl.kernel, 0, id, r.1, 0, 0, t ++ qn, sg, decl.kernelK, [], []⟩ with
      | .ok m => { s with map := add m (entry 0 s.map.nextFac t qn) }
      | .error c =>
        let m := { s.map with work := { s.map.work with refused := s.map.work.refused + 1 } }
        ({ s with map := add m (entry 1 0 t qn) }).answer blockMap refused c

/-- The marked keyframes in order; those after 64 verified closures are skipped (R296). -/
def State.closeLoops (s : State) (occ : Occurrence) (xs : List (Nat × Nat × List Nat)) : State :=
  xs.foldl (fun s x =>
    if 64 ≤ (s.map.work.closures.filter (fun c => c.result == 0)).length then
      ({ s with map := { s.map with work := { s.map.work with skipped := s.map.work.skipped + 1 } } }).mapEvent 5
    else s.closeLoop occ x.1 x.2.1 x.2.2) s

/-! The submission (R297, R308–R310). -/

def lmKey (id : Nat) : Nat := 2 ^ 31 + id

/-- The free blocks of the map: keyframes neither frozen nor the anchor, and live landmarks not frozen. -/
def MapUnit.freeBlocks (m : MapUnit) : List Nat :=
  (m.keyframes.filter (fun k => !k.frozen && !k.anchor)).map (·.id) ++
    (m.landmarks.filter (fun l => l.live && !l.frozen)).map (fun l => lmKey l.id)

/-- The value of a block at the map's epoch, new entries at their initial values. -/
def MapUnit.value (m : MapUnit) (key : Nat) : FVec :=
  if bitAt key 31 then ((m.lm (key - 2 ^ 31)).map (fun l => (l.at m.e1).value)).getD []
  else ((m.kf key).map (fun k => (k.at m.e1).value)).getD []

end Sys2Proof.Machine

namespace Sys2Proof

open Sys2Proof.Machine

/-- The keys of a factor's variables, first and second; a peg or prior has none. -/
def MapFactor.keyA (f : MapFactor) : Nat := if f.landmarkA then lmKey f.varA else f.varA
def MapFactor.keyB (f : MapFactor) : Option Nat :=
  match f.type with
  | 0 => some (lmKey f.varB)
  | 1 | 2 => some f.varB
  | _ => none

end Sys2Proof

namespace Sys2Proof.Machine

/-- A value has moved from where it was linearised by more than the thresholds. -/
def movedFrom (ver mm mdeg : Nat) (now lin : FVec) : Bool :=
  if lin = [] then false
  else
    let dp := norm64 (vsub (now.take 3) (lin.take 3))
    let limP := div64 (int64 mm) (int64 1000)
    let rot : Bool :=
      if now.length < 7 then false
      else
        let d := qmul (qconj (lin.drop 3)) (now.drop 3)
        let ang := mul64 (int64 2) (Config.atan264 ver (norm64 (d.drop 1)) (fAbs fp64 (vget d 0)))
        -- thousandths of a degree, ten to a unit, in radians
        lt64 (mul64 (div64 (int64 (10 * mdeg)) (int64 1000)) (div64 0x400921FB54442D18 (int64 180))) ang
    lt64 limP dp || rot

def calData (c : Calibration) : List Nat := [c.model, c.fx, c.fy, c.cx, c.cy] ++ c.coeffs ++ c.rot ++ c.trans

/-- The calibration or peg data a linearisation reads. -/
def State.factorData (s : State) (occ : Occurrence) (pegs : List Peg) (f : MapFactor) : List Nat :=
  if f.type = 3 then ((pegs.find? (fun p => p.peg == f.varB)).map (·.pos)).getD []
  else if f.type = 0 then
    match (s.map.kf f.varA).bind (fun k => (s.steps.image.bind (fun i => i.egos[k.sensor]?))) with
    | none => []
    | some e =>
      match occ.calibrations.find? (fun c => c.sensor == e.slot * 65536 + e.stream) with
      | some c => calData c
      | none => []
  else []

/-- The 128-byte factor record (R279). -/
def factorBytes (f : MapFactor) : Bytes :=
  fitBytes 128 (leBytes 4 f.id ++ leBytes 1 f.type ++ leBytes 1 f.kernel ++ leBytes 2 f.flags ++ leBytes 4 f.varA ++
    leBytes 4 f.varB ++ leBytes 8 f.epochIn ++ leBytes 8 f.epochDel ++ (fitNats 7 f.z).flatMap (leBytes 4) ++
    (fitNats 6 f.sigma).flatMap (leBytes 4) ++ leBytes 4 f.kernelK)

/-- What the occurrence submits: its deltas, and the factors with their new linearisation values. -/
structure Submission where
  deltas : List Delta
  factors : List MapFactor
  deriving DecidableEq, Repr, Inhabited

/-- The submission of an occurrence (R297): blocks that left, blocks that appear or moved, and the factors inserted,
deleted or to be linearised again. -/
def State.submission (s : State) (occ : Occurrence) (pegs : List Peg) : Submission :=
  let m := s.map
  let ver := s.tableVer
  let mm := s.activeFld ⟨0xB00008, 20, 6⟩
  let mdeg := s.activeFld ⟨0xB00008, 26, 5⟩
  let free := m.freeBlocks
  let known := s.solver.blocks.map (·.key)
  let retired := known.filter (fun k => !free.contains k)
  let created := free.filter (fun k => !known.contains k)
  let live := m.factors.filter MapFactor.live
  let onFree (f : MapFactor) : Bool := free.contains f.keyA || (f.keyB.map free.contains).getD false
  let movedB (k : Nat) : Bool :=
    live.any (fun f => (f.keyA == k && movedFrom ver mm mdeg (m.value k) f.linA) ||
      (f.keyB == some k && movedFrom ver mm mdeg (m.value k) f.linB))
  let movers := free.filter (fun k => known.contains k && movedB k)
  let lin := created ++ movers
  let theta (k : Nat) : FVec :=
    if lin.contains k then m.value k
    else match s.solver.blocks.find? (fun b => b.key == k) with | some b => b.theta | none => m.value k
  let touches (f : MapFactor) : Bool := lin.contains f.keyA || (f.keyB.map lin.contains).getD false
  let fresh (f : MapFactor) : Bool := f.live && onFree f && (f.epochIn == m.e1 || touches f)
  let held (f : MapFactor) : Bool := s.solver.factors.any (fun x => x.id == f.id)
  let deltaF (f : MapFactor) : Delta :=
    let ks := (f.keyA :: f.keyB.toList).filter free.contains
    let da := keyDim (ks.getD 0 0)
    let db := if ks.length = 2 then keyDim (ks.getD 1 0) else 0
    let n := da + db
    let e (i : Nat) : Nat :=
      Config.factorEntry (factorBytes f) (theta f.keyA) ((f.keyB.map theta).getD []) (s.factorData occ pegs f) i
    ⟨opFactor, f.type, da, db, f.id, ks.getD 0 0, ks.getD 1 0, (List.range (n * (n + 1) / 2)).map e,
     (List.range n).map (fun i => e (n * (n + 1) / 2 + i))⟩
  let del (f : MapFactor) : Option Delta :=
    if f.epochDel == m.e1 && held f then
      let x := (s.solver.factors.find? (fun x => x.id == f.id)).getD default
      let ka := x.keys.getD 0 f.keyA
      let kb := x.keys.getD 1 0
      some ⟨opDelete, f.type, keyDim ka, if x.keys.length = 2 then keyDim kb else 0, f.id, ka, kb, [], []⟩
    else none
  let note (f : MapFactor) : MapFactor :=
    if fresh f then { f with linA := theta f.keyA, linB := (f.keyB.map theta).getD [] } else f
  { deltas := retired.map (fun k => ⟨opRetire, 0, keyDim k, 0, 0, k, 0, [], []⟩) ++
      lin.map (fun k => ⟨opLinpoint, 0, keyDim k, 0, 0, k, 0, theta k, []⟩) ++
      sortList (fun x y => decide (x.fid ≤ y.fid)) (m.factors.filterMap del ++ (m.factors.filter fresh).map deltaF)
    factors := m.factors.map note }

/-- The submission written into its buffer, and the header's lantern raised; the header's own bytes have no layout in the
manual, so it stands in the occurrence's work (R310). -/
def State.submit (s : State) (occ : Occurrence) (pegs : List Peg) : State :=
  let decl := s.mapDecl
  let sub := s.submission occ pegs
  let s := (List.zip (List.range sub.deltas.length) sub.deltas).foldl (fun s p =>
    s.cstore decl.cadence decl.unit (deltaAddr decl.deltaBase p.1) (deltaBytes p.2)) s
  let reorder := decl.reorderEvery != 0 && occ.step % decl.reorderEvery == decl.reorderPhase
  let m := s.map
  let s := { s with map := { m with
      factors := sub.factors
      work := { m.work with header := some (sub.deltas.length, m.e1, reorder, decl.deltaBase) } } }
  (s.fillLantern decl.unit decl.headerLantern).raiseLantern decl.unit decl.headerLantern (s.stepTime occ.step) occ.step

/-! The commands. -/

/-- The peg table in force at the step edge of a mapping occurrence (R275). -/
def State.pegsFor (s : State) (step : Nat) : List Peg :=
  (lookupKey step s.map.pegEdges).getD s.sec.site.pegs

/-- At the step edge of step n, the peg table of a mapping occurrence of that step is fixed (R275), and kept while the occurrence
is still to close or has not committed. -/
def State.notePegs (s : State) (n : Nat) : State :=
  let k := s.mapDecl.cadence
  match s.cadences[k]?, s.steps.run with
  | some c, some r =>
    let keep (m : Nat) : Bool :=
      decide (r.nextClose.getD k 0 ≤ m) || s.steps.occs.any (fun o => o.cadence == k && o.step == m)
    if n % max 1 c.multiple = c.phase then
      { s with map := { s.map with pegEdges := (n, s.sec.site.pegs) :: s.map.pegEdges.filter (fun p => keep p.1) } }
    else s
  | _, _ => s

/-- Events and the answer of refused inserts (R283, R305). -/
def State.insertAnswer (s : State) (causes : List Nat) : State :=
  let s := if causes.contains 0x40 then s.mapEvent 0 else s
  let s := if causes.contains 0x41 then s.mapEvent 1 else s
  if causes = [] then s.answer blockMap served 0 else s.answer blockMap refused (pickCause causes)

/-- The candidates that became keyframes of the occurrence, with their identifiers (R294 counts their positions). -/
def insertedKfs (xs : List (KfCandidate × Except Nat Nat)) : List (KfCandidate × Nat) :=
  xs.filterMap (fun p => match p.2 with | .ok id => some (p.1, id) | .error _ => none)

/-- INSERTION_LIST (R281–R284, R292–R297). -/
def effInsertionList (l : InsertList) (s : State) : State :=
  let decl := s.mapDecl
  match s.occOf decl.cadence with
  | none => s
  | some occ =>
    if !s.mayIssue decl.cadence then s
    else if !s.inService (engineRegion 2) then s.answer blockMap refused 0x0A
    else
      let pegs := s.pegsFor occ.step
      let a : Inserting := ⟨s.map, [], [], []⟩
      let a := l.deletes.foldl Inserting.delete a
      let a := l.keyframes.foldl (Inserting.keyframe decl) a
      let a := l.landmarks.foldl (Inserting.landmark decl) a
      let a := l.factors.foldl (Inserting.factor decl pegs) a
      let m := a.m.freezeLms (fun x => x.epochIn == a.m.e1)
      let m := { m with work := { m.work with refused := m.work.refused + a.causes.length } }
      let s := ({ s with map := m }).insertAnswer a.causes
      let marked := (List.zip (List.range l.keyframes.length) (insertedKfs (List.zip l.keyframes a.kfIds))).filterMap (fun p =>
        if p.2.1.place then some (p.1, p.2.2, p.2.1.vector) else none)
      let s := s.closeLoops occ marked
      let m := s.map.setGauge
      let m := MapUnit.freezeTo s.freeLimit m.keyframes.length m
      ({ s with map := m }).submit occ pegs

/-- MERGE (R287): awning entries enter the main store's indexes, and entries deleted at least two epochs before the one
the occurrence creates are removed. -/
def effMerge (s : State) : State :=
  let decl := s.mapDecl
  if !s.mayIssue decl.cadence then s
  else if !s.inService (engineRegion 2) then s.answer blockMap refused 0x0A
  else
    let m := s.map
    let keep (del : Nat) : Bool := decide (m.e1 < del + 2)
    { s with map := { m with
        landmarks := m.landmarks.filter (fun l => keep l.epochDel)
        factors := m.factors.filter (fun f => keep f.epochDel)
        work := { m.work with merged := true } } }

/-! Commit (R276, R278, R285, R291, R298, R299). -/

/-- The slot of the new epoch gets the value: the one with the smaller epoch, or the slot with a new entry's initial value, which
is of the same epoch (DESIGN CHOICE, assumption 41). -/
def writeSlot (a b : PoseSlot) (e1 : Nat) (v sd : List Nat) : PoseSlot × PoseSlot :=
  if a.epoch = e1 then (⟨e1, v, sd⟩, b)
  else if b.epoch = e1 then (a, ⟨e1, v, sd⟩)
  else if a.epoch ≤ b.epoch then (⟨e1, v, sd⟩, b)
  else (a, ⟨e1, v, sd⟩)

/-- Solved values in the pose slots (R298). -/
def MapUnit.writeSolved (m : MapUnit) (es : List SolEntry) : MapUnit :=
  let find (key : Nat) : Option SolEntry := es.find? (fun e => e.key == key)
  let kf (k : Keyframe) : Keyframe :=
    match find k.id with
    | none => k
    | some e =>
      let w := writeSlot k.slotA k.slotB m.e1 (e.pos ++ e.quat) e.sd
      { k with slotA := w.1, slotB := w.2 }
  let lm (l : Landmark) : Landmark :=
    match find (lmKey l.id) with
    | none => l
    | some e =>
      let w := writeSlot l.slotA l.slotB m.e1 e.pos (e.sd.take 3)
      { l with slotA := w.1, slotB := w.2 }
  { m with keyframes := m.keyframes.map kf, landmarks := m.landmarks.map lm }

/-- Closure factors of the occurrence deleted at the epoch it creates (R299). -/
def MapUnit.withdraw (m : MapUnit) : MapUnit :=
  let m := m.deleteFactors (fun f => f.type == 2 && f.epochIn == m.e1)
  let w (c : Closure) : Closure := if c.result = 0 then { c with result := 2 } else c
  { m with work := { m.work with closures := m.work.closures.map w } }

/-- Each moving sensor's latest keyframe pose replaces its held pose and covariance (R229). -/
def State.posesToFusion (s : State) : State :=
  let due := (List.range s.fusion.egos.length).filterMap (fun j =>
    ((s.map.keyframes.filter (fun k => k.sensor == j)).getLast?).map (fun k =>
      let v := k.at s.map.e1
      let var (i : Nat) : Nat := let x := w64 (v.sd.getD i 0); mul64 x x
      (j, v.value, (List.range 36).map (fun i => if i / 6 = i % 6 then var (i / 6) else 0))))
  { s with fusion := { s.fusion with poseDue := s.fusion.poseDue ++ due } }

/-- The solve status of an occurrence as a map record reports it: a solve that was not served counts as ill-posed. -/
def State.solveStatus (s : State) : Nat := (s.solver.result.map (·.status)).getD 2

/-- The vectors of the occurrence's keyframes enter the keyframe collection (R291), and their identifiers the records. -/
def State.insertVectors (s : State) : State :=
  let i := s.mapDecl.collection
  s.map.work.vectors.foldl (fun s p =>
    let d := s.collDecl i
    let c := s.coll i
    let sensor := ((s.map.kf p.1).map (·.sensor)).getD 0
    let r := c.insertVec d (c.epoch + 1) (p.1 % 2 ^ 32 + sensor % 65536 * 2 ^ 32) p.2
    let set (k : Keyframe) : Keyframe := if k.id = p.1 && r.2 == 0 then { k with vectorId := c.nextId } else k
    let s := (s.setColl i r.1).refusalEvents [r.2]
    let s := if r.2 = 0 then s.answer blockSearch served 0 else s.answer blockSearch refused r.2
    { s with map := { s.map with keyframes := s.map.keyframes.map set } }) s

/-- The peg table of the epoch: records that changed hold from it (R274, R286). -/
def pegTable (old : List Peg) (now : List Peg) (e1 : Nat) : List Peg :=
  now.map (fun p =>
    match old.find? (fun q => q.peg == p.peg) with
    | some q => if { p with epochSet := q.epochSet } = q then q else { p with epochSet := e1 }
    | none => { p with epochSet := e1 })

/-- The values and withdrawals of a commit, before its map records are formed; a solve not served is ill-posed (R299, R564). -/
def State.settleMap (s : State) : State :=
  let ill (s : State) : State :=
    if s.map.work.closures.any (fun c => c.result == 0) then
      (({ s with map := s.map.withdraw }).mapEvent 3).answer blockMap shed 0x44
    else s
  match s.solver.result with
  | none => ill s
  | some r => if r.status ≤ 1 then ({ s with map := s.map.writeSolved r.entries }).posesToFusion else ill s

/-- The new epoch, with what a commit counts and fixes (R276, R285, R288). -/
def State.advanceMap (s : State) (step : Nat) : State :=
  let m := s.map
  let acc := (m.work.closures.filter (fun c => c.result == 0)).length
  let wd := (m.work.closures.filter (fun c => c.result == 2)).length
  let s := (s.satFld ⟨0xB00030, 0, 16⟩ acc).satFld ⟨0xB00030, 16, 16⟩ wd
  let s := if 0 < acc then s.mapEvent 2 else s
  let ill := match s.solver.result with | some r => r.status == 2 | none => true
  let table := pegTable ((m.pegs.headD (0, [])).2) (s.pegsFor step) m.e1
  let s := { s with
    fusion := { s.fusion with illPosed := if ill then s.fusion.illPosed + 1 else 0 }
    map := { m with
      epoch := m.e1
      merged := if m.work.merged then m.e1 else m.merged
      pegs := if table = (m.pegs.headD (0, [])).2 then m.pegs else (m.e1, table) :: m.pegs.take 7
      pegEdges := m.pegEdges.filter (fun p => decide (step < p.1))
      work := default } }
  s.commitSolve

/-! Map records (R300–R302). -/

def poseEntry (k : Keyframe) (e : Nat) : Bytes :=
  let v := k.at e
  fitBytes 80 (leBytes 1 1 ++ leBytes 1 (k.flags % 8) ++ leBytes 2 k.sensor ++ leBytes 4 k.id ++ leBytes 8 k.stamp ++
    (fitNats 3 v.value).flatMap (leBytes 8) ++ (fitNats 4 (v.value.drop 3)).flatMap (fun x => leBytes 4 (n32 x)) ++
    (fitNats 6 v.sd).flatMap (leBytes 4))

def closureEntry (c : Closure) : Bytes :=
  fitBytes 80 (leBytes 1 2 ++ leBytes 1 c.result ++ leBytes 2 0 ++ leBytes 4 c.kfA ++ leBytes 4 c.kfB ++
    leBytes 4 c.inliers ++ leBytes 4 c.m ++ leBytes 4 c.factor ++ (fitNats 3 c.trans).flatMap (leBytes 4) ++
    (fitNats 4 c.quat).flatMap (leBytes 4))

/-- The payloads of a stream's map record at the commit that creates epoch `e1`, before the epoch advances. -/
def State.mapPayloads (s : State) (d : MapStream) : List Bytes :=
  let m := s.map
  let e1 := m.e1
  let mine (sensor : Nat) : Bool := d.sensors.contains sensor
  let poses := m.keyframes.filter (fun k => mine k.sensor && (k.epochIn == e1 || k.slotA.epoch == e1 || k.slotB.epoch == e1))
  let closures := m.work.closures.filter (fun c => ((m.kf c.kfA).map (fun k => mine k.sensor)).getD false)
  let entries := poses.map (fun k => poseEntry k e1) ++ closures.map closureEntry
  let parts := partsOf 13105 (entries.length + 1) entries
  (List.zip (List.range parts.length) parts).map (fun q =>
    leBytes 2 q.1 ++ leBytes 2 parts.length ++ leBytes 4 q.2.length ++ leBytes 8 e1 ++
      leBytes 4 (m.keyframes.filter (fun k => k.inMap e1)).length ++
      leBytes 4 (m.landmarks.filter (fun l => l.inMap e1)).length ++
      leBytes 4 (m.factors.filter (fun f => f.inMap e1)).length ++ leBytes 4 m.work.kfs ++ leBytes 4 m.work.lms ++
      leBytes 4 m.work.facs ++ leBytes 4 m.work.refused ++
      leBytes 2 (m.work.closures.filter (fun c => c.result != 1)).length ++
      leBytes 2 (m.work.closures.filter (fun c => c.result == 1)).length ++ leBytes 1 s.solveStatus ++ leBytes 7 0 ++
      leBytes 4 m.freeScalars ++ leBytes 4 0 ++ q.2.flatMap id)

/-- `CONFIDENCE` of a map record (R302) before R246. -/
def State.mapConfidence (s : State) : Nat :=
  match s.solveStatus with | 0 => 0x8000 | 1 => 0x6000 | _ => 0x2000

/-! Host requests (R289, R290, R303). -/

/-- The map as committed: what a running mapping occurrence has done to it is not read (R290). -/
def State.committedMap (s : State) : MapUnit :=
  match s.checkpoints.find? (fun c => c.cadence == s.mapDecl.cadence) with
  | some c => if c.map.epoch = s.map.epoch then { c.map with pegs := s.map.pegs } else s.map
  | none => s.map

/-- A keyframe record with the one slot that epoch e selects. -/
def keyframeBytes (m : MapUnit) (k : Keyframe) (e : Nat) : Bytes :=
  let v := k.at e
  fitBytes 256 (leBytes 4 k.id ++ leBytes 2 k.sensor ++ leBytes 2 k.flags ++ leBytes 8 k.stamp ++ leBytes 8 k.epochIn ++
    (leBytes 8 v.epoch ++ (fitNats 7 v.value).flatMap (leBytes 8) ++ (fitNats 6 v.sd).flatMap (leBytes 4)) ++
    leBytes 88 0 ++ leBytes 8 k.vectorId ++ leBytes 4 (m.lmsAt e k.id).length)

def landmarkBytes (m : MapUnit) (l : Landmark) (e : Nat) : Bytes :=
  let v := l.at e
  fitBytes 128 (leBytes 4 l.id ++ leBytes 2 l.flags ++ leBytes 2 (m.obsAt e l.id) ++ leBytes 8 l.epochIn ++
    leBytes 8 l.epochDel ++ (leBytes 8 v.epoch ++ (fitNats 3 v.value).flatMap (leBytes 8)) ++ leBytes 32 0 ++
    fitBytes 32 l.desc)

def pegBytes (p : Peg) : Bytes :=
  fitBytes 64 (leBytes 2 p.peg ++ leBytes 2 p.flags ++ leBytes 4 0 ++ (fitNats 3 p.pos).flatMap (leBytes 8) ++
    (fitNats 3 p.sigma).flatMap (leBytes 4) ++ fitBytes 8 p.label ++ leBytes 8 p.epochSet)

def datumBytes (d : Datum) : Bytes := leBytes 8 d.lat ++ leBytes 8 d.lon ++ leBytes 8 d.height ++ leBytes 4 d.code

/-- A point inside a plant box given as its two corners. -/
def inBox (box : List Nat) (p : V3) : Bool :=
  (List.range 3).all (fun i => le64 (box.getD i 0) (vget p i) && le64 (vget p i) (box.getD (3 + i) 0))

/-- The peg table at an epoch (R286). -/
def MapUnit.pegsAt (m : MapUnit) (e : Nat) : List Peg :=
  ((m.pegs.find? (fun p => decide (p.1 ≤ e))).map (·.2)).getD []

/-- The entries a request selects, with their identifiers, ascending. -/
def State.mapSelect (s : State) (kind e first : Nat) (args : List Nat) : List (Nat × Bytes) :=
  let m := s.committedMap
  match kind with
  | 0 => (m.keyframes.filter (fun k => k.inMap e && decide (first ≤ k.id))).map (fun k => (k.id, keyframeBytes m k e))
  | 1 => (m.landmarks.filter (fun l => l.inMap e && decide (first ≤ l.id))).map (fun l => (l.id, landmarkBytes m l e))
  | 2 => (m.landmarks.filter (fun l => l.inMap e && decide (first ≤ l.id) && inBox args (l.at e).value)).map
      (fun l => (l.id, landmarkBytes m l e))
  | 3 => (m.factors.filter (fun f => f.inMap e && decide (first ≤ f.id))).map (fun f => (f.id, factorBytes f))
  | 4 => (sortList (fun (a b : Peg) => decide (a.peg ≤ b.peg)) ((m.pegsAt e).filter (fun p => decide (first ≤ p.peg)))).map
      (fun p => (p.peg, pegBytes p))
  | 5 => (m.keyframes.filter (fun k => k.inMap e && decide (first ≤ k.id) && k.sensor == args.getD 0 0 &&
      decide (args.getD 1 0 ≤ k.stamp ∧ k.stamp ≤ args.getD 2 0))).map (fun k => (k.id, keyframeBytes m k e))
  | _ => match s.sec.site.datum with | some d => [(0, datumBytes d)] | none => []

def State.mapAnswer (s : State) (ep : Nat) (h : CmdHdr) (outcome cause : Nat) (result : Bytes) : State :=
  (s.answer blockMap outcome cause).completeIn ep h 0x30 outcome cause 0 result

/-- MAP_READ as it runs. -/
def State.runMapRead (s : State) (ep : Nat) (h : CmdHdr) (kind epoch first page : Nat) (args : List Nat) (reply : Nat) :
    State :=
  let big := s.map.epoch
  let e := if epoch = liveEpoch then big else epoch
  if page = 0 ∨ 4096 < page ∨ 6 < kind then s.mapAnswer ep h refused 0x0C []
  else if !s.inService (engineRegion 2) then s.mapAnswer ep h refused 0x0A []
  else if e + 1 < big then s.mapAnswer ep h refused 0x42 []
  else if big < e then s.mapAnswer ep h refused 0x47 []
  else
    let xs := s.mapSelect kind e first args
    let out := xs.take page
    let next := ((xs[page]?).map (·.1)).getD 0
    (s.hostWrite reply (out.flatMap (·.2))).mapAnswer ep h served 0
      (leBytes 8 e ++ leBytes 4 out.length ++ leBytes 4 next)

def State.runMapHead (s : State) (q : HostReq) : State :=
  match q.cmd with
  | .mapRead h kind epoch first page args reply _ => s.runMapRead q.epoch h kind epoch.toNat first page args reply
  | _ => s

/-- Every queued request runs, in order: the engine is idle. -/
def State.drainMap (s : State) : State := s.mapQueue.foldl State.runMapHead { s with mapQueue := [] }

/-- MAP_READ (R289, R290, R303): `idle` tells whether the engine finds an idle interval now. -/
def effMapRead (h : CmdHdr) (kind : Nat) (epoch : BitVec 64) (first page : Nat) (args : List Nat) (reply : Nat) (idle : Bool)
    (s : State) : State :=
  s.hostCommand h 0x30 (fun s =>
    if 64 ≤ s.mapQueue.length then s.mapAnswer s.host.epoch h refused 0x0B []
    else
      let q := s.mapQueue ++ [(⟨.mapRead h kind epoch first page args reply idle, s.host.epoch⟩ : HostReq)]
      let s := { s with mapQueue := q }
      let s := s.setFld ⟨0xB00034, 8, 7⟩ (max q.length (s.fld ⟨0xB00034, 8, 7⟩))
      if idle then s.drainMap else s)

/-- A peg record is unusable (R275): a coordinate that is not finite, or a deviation not above 0. -/
def pegBad (p : Peg) : Bool :=
  !p.pos.all isFin64 || !p.sigma.all (fun x => finite32 x && (fltInt 0).lt (fltOf fp32 x))

def execInsertionList (l : InsertList) (s : State) : Host.Outcome State Fault Refusal := .next (effInsertionList l s)
def execMerge (s : State) : Host.Outcome State Fault Refusal := .next (effMerge s)
def execMapRead (h : CmdHdr) (kind : Nat) (epoch : BitVec 64) (first page : Nat) (args : List Nat) (reply : Nat) (idle : Bool)
    (s : State) : Host.Outcome State Fault Refusal := .next (effMapRead h kind epoch first page args reply idle s)

end Sys2Proof.Machine
end

