-- ==== Sys2Proof/Machine/Arrays.lean ====
section
/-! DEFINITION. The tensor arrays (03): descriptors, weight slices, exact accumulation, block-scaled operands, the drain
commands, and the seeded generator. -/

namespace Sys2Proof.Machine

def opLoadW : Nat := 1
def opStream : Nat := 2
def opDrain : Nat := 3
def opJoin : Nat := 4
def opVec : Nat := 5
def opReduce : Nat := 6
def opGen : Nat := 7
def opWait : Nat := 8
def opRaise : Nat := 9
def opStage : Nat := 0xA
def opEnd : Nat := 0xB

/-! Descriptors (R131–R133). -/

/-- The 60 bytes that `CHECK` covers. -/
def arrayBytes (op : Nat) (d : ArrayDesc) : Bytes :=
  leBytes 1 op ++ leBytes 1 d.flags.toNat ++ leBytes 2 d.unit.toNat ++ leBytes 1 d.fmtA.toNat ++ leBytes 1 d.fmtW.toNat ++
    leBytes 1 d.fmtOut.toNat ++ leBytes 1 d.fn.toNat ++ leBytes 4 d.m.toNat ++ leBytes 4 d.k.toNat ++ leBytes 4 d.n.toNat ++
    leBytes 4 d.pass.toNat ++ leBytes 8 d.srcA.toNat ++ leBytes 8 d.srcW.toNat ++ leBytes 8 d.dst.toNat ++
    leBytes 8 d.param.toNat ++ leBytes 2 d.wait.toNat ++ leBytes 2 d.raise.toNat

def aFlag (d : ArrayDesc) (b : Nat) : Bool := d.flags.getLsbD b
def blockScaled (d : ArrayDesc) : Bool := aFlag d 2

/-- A format code of R132 that exists. -/
def fmtOk (f : Nat) : Bool := [0, 1, 2, 3, 4, 5, 8, 9, 0xA, 0xB, 0xC].contains f

/-- Width in bits of an element. -/
def fmtBits (f : Nat) : Nat :=
  match f with
  | 0 | 1 => 4
  | 2 | 3 | 8 | 9 => 8
  | 0xC => 32
  | _ => 16

def fmtInt (f : Nat) : Bool := decide (f < 6)
def fmtSigned (f : Nat) : Bool := decide (6 ≤ f) || f % 2 == 0

/-- 16-bit operand pairs (R101, R107): an operand of 16 bits on either side. -/
def widePair (d : ArrayDesc) : Bool := fmtBits d.fmtA.toNat == 16 || fmtBits d.fmtW.toNat == 16

/-- K indices per pass (R97, R124): 256 when both operands are 4-bit. -/
def passK (d : ArrayDesc) : Nat := if fmtBits d.fmtA.toNat = 4 ∧ fmtBits d.fmtW.toNat = 4 then 256 else 128

/-- The operands of a product fit together (R106, R107). -/
def pairOk (d : ArrayDesc) : Bool :=
  let a := d.fmtA.toNat
  let w := d.fmtW.toNat
  fmtOk a && fmtOk w && a != 0xC && w != 0xC && fmtInt a == fmtInt w && blockScaled d == !fmtInt a

def fnOk (f : Nat) : Bool := decide (f ≤ 0xC) || decide (0x20 ≤ f ∧ f ≤ 0x23)

/-- Products per accumulation (R103, R111). -/
def accumLimit (d : ArrayDesc) : Nat := if blockScaled d && widePair d then 8192 else 65536

/-- An address that array `a` reaches: its own pack, or mapped memory outside packs and line buffers (R98, R161, R458). A pack
is reached from the groundsheet of its die alone (`stageOk`). -/
def State.arrayAddr (s : State) (a x n : Nat) : Bool :=
  s.mapped x n && (decide (x < packBase 0) || decide (packBase a ≤ x ∧ x + n ≤ packBase a + packBytes))

def inPack (x : Nat) : Bool := decide (packBase 0 ≤ x ∧ x < packBase 4)

/-- The stage path (R98): a pack exchanges data with its die's groundsheet and within itself. -/
def stageOk (a : Nat) (d : ArrayDesc) : Bool :=
  let own (x : Nat) : Bool := decide (gsBase (a / 2) ≤ x ∧ x < gsBase (a / 2) + gsSlots (a / 2) * tileBytes) || inPack x
  let x := d.srcA.toNat
  let y := d.dst.toNat
  !(inPack x || inPack y) || (own x && own y)

/-- The addresses and sizes a descriptor uses are valid for its opcode. -/
def State.arrayShapeOk (s : State) (a op : Nat) (d : ArrayDesc) : Bool :=
  let m := d.m.toNat
  let k := d.k.toNat
  let n := d.n.toNat
  let rows := decide (1 ≤ m ∧ m ≤ 2048)
  let cols := decide (1 ≤ n ∧ n ≤ 512)
  let x := s.arrayAddr a d.srcA.toNat 1
  let w := s.arrayAddr a d.srcW.toNat 1
  let o := s.arrayAddr a d.dst.toNat 1
  let pars := s.arrayAddr a d.param.toNat (16 * n)
  let float := decide (8 ≤ d.fmtOut.toNat ∧ d.fmtOut.toNat ≤ 0xC)
  if op = opLoadW then pairOk d && decide (1 ≤ k ∧ k ≤ passK d) && cols && w
  else if op = opStream then
    pairOk d && rows && decide (1 ≤ k ∧ k ≤ passK d) && cols && decide (1 ≤ d.pass.toNat % 8 ∧ d.pass.toNat % 8 ≤ 4) && x &&
      decide ((if aFlag d 0 then 0 else (s.arrays.getD a default).kSum) + k ≤ accumLimit d) &&
      (!aFlag d 0 || blockScaled d || pars)
  else if op = opDrain then rows && cols && ([2, 4].contains d.fmtOut.toNat || float) && o && pars
  else if op = opJoin then rows && cols && o && (aFlag d 0 || w)
  else if op = opVec ∨ op = opReduce then float && decide (1 ≤ m ∧ 1 ≤ n) && x && o
  else if op = opGen then o
  else if op = opStage then x && o && stageOk a d
  else true

/-- A descriptor the sequencer issues (R133, R148, R152, R458). -/
def State.arrayOk (s : State) (a op : Nat) (d : ArrayDesc) : Bool :=
  d.check.toNat == crc32 (arrayBytes op d) && decide (d.flags.toNat < 32) && decide (d.pass.toNat < 256) &&
    fmtOk d.fmtA.toNat && fmtOk d.fmtW.toNat && fmtOk d.fmtOut.toNat &&
    fnOk d.fn.toNat && lanternOk d.wait.toNat && lanternOk d.raise.toNat && decide (d.unit.toNat < 0xF000) &&
    !(d.wait.toNat != noLantern && lanternSheet d.wait.toNat != a / 2 &&
      !(s.planUses d.wait.toNat).any (fun u => u.producer == d.unit.toNat)) &&
    s.arrayShapeOk a op d

/-! Elements in memory: row-major, packed, least significant bits first. -/

/-- Elements of a format from bytes. -/
def elemsOf (f : Nat) : Bytes → List Nat
  | [] => []
  | b :: bs =>
    match fmtBits f with
    | 4 => (b.toNat % 16) :: (b.toNat / 16) :: elemsOf f bs
    | 8 => b.toNat :: elemsOf f bs
    | 16 =>
      match bs with
      | c :: cs => (b.toNat + 256 * c.toNat) :: elemsOf f cs
      | [] => [b.toNat]
    | _ =>
      match bs with
      | c :: e :: g :: cs => leVal [b, c, e, g] :: elemsOf f cs
      | _ => [leVal (b :: bs)]

/-- Bytes of elements. -/
def elemBytes (f : Nat) : List Nat → Bytes
  | [] => []
  | x :: xs =>
    match fmtBits f with
    | 4 =>
      match xs with
      | y :: ys => BitVec.ofNat 8 (x % 16 + 16 * (y % 16)) :: elemBytes f ys
      | [] => [BitVec.ofNat 8 (x % 16)]
    | 8 => leBytes 1 x ++ elemBytes f xs
    | 16 => leBytes 2 x ++ elemBytes f xs
    | _ => leBytes 4 x ++ elemBytes f xs

def elemSpan (f count : Nat) : Nat := ceilDiv (count * fmtBits f) 8

/-- A matrix of `r` rows by `c` columns. -/
def rowsOf (c : Nat) : Nat → List Nat → List (List Nat)
  | 0, _ => []
  | r + 1, xs => xs.take c :: rowsOf c r (xs.drop c)

def State.readMat (s : State) (addr f r c : Nat) : List (List Nat) := rowsOf c r (elemsOf f (s.load addr (elemSpan f (r * c))))

def intElem (f x : Nat) : Int := if fmtSigned f then signedOf (fmtBits f) x else x

/-- An element as an FP32 value, exactly or rounded once from an integer. -/
def elemFp32 (f x : Nat) : Nat :=
  match floatFmt f with
  | some g => if (fltOf g x).isNan then canonNan32 else roundInf fp32 (fltOf g x)
  | none => fOfInt fp32 (intElem f x)

/-! Block-scaled form (R106–R110). -/

/-- Fraction bits f and window D of a pair. -/
def fracOf (d : ArrayDesc) : Nat := if widePair d then 14 else 6
def windowOf (d : ArrayDesc) : Int := if widePair d then 2 else 8

/-- The unbiased exponent e of an element (R106). -/
def elemExp (g : FloatFmt) (x : Nat) : Int :=
  match fltOf g x with
  | .fin _ m e => if m = 0 then g.emin else max g.emin ((Nat.log2 m : Int) + e)
  | _ => g.emin

def maxExp (g : FloatFmt) (xs : List Nat) : Int := xs.foldl (fun a x => max a (elemExp g x)) g.emin

/-- The exponents E′ of the blocks of 32 of a vector with floor L. -/
def blockExps (g : FloatFmt) (floor : Int) (xs : List Nat) : List Int :=
  (List.range (ceilDiv xs.length 32)).map (fun b => max (maxExp g ((xs.drop (32 * b)).take 32)) floor)

/-- A significand (R109): 0 for a non-finite element. -/
def significand (g : FloatFmt) (f : Nat) (e : Int) (x : Nat) : Int :=
  let v := fltOf g x
  if v.isFinite then (v.scale ((f : Int) - e)).roundInt else 0

def signifs (g : FloatFmt) (f : Nat) (es : List Int) (xs : List Nat) : List Int :=
  (List.zip (List.range xs.length) xs).map (fun p => significand g f (es.getD (p.1 / 32) 0) p.2)

/-- The anchor tables that hold an address, those of weight columns or those of rows, newest first (R110). -/
def State.anchorTable (s : State) (columns : Bool) (addr : Nat) : Option AnchorTable :=
  (s.anchors ++ (s.steps.image.map (·.anchors)).getD []).find? (fun t =>
    decide (t.base ≤ addr ∧ addr < t.base + t.bytes) && (t.stride == 0) == columns)

/-- The anchor recorded for row `i` counted from an address (R110). -/
def State.anchorAt (s : State) (addr i : Nat) : Option Int :=
  (s.anchorTable false addr).bind (fun t =>
    t.anchors[(addr - t.base) % max 1 (t.anchors.length * t.stride) / t.stride + i]?)

/-- The anchor recorded for weight column `j` of the tensor that holds an address (R110). -/
def State.columnAnchorAt (s : State) (addr j : Nat) : Option Int := (s.anchorTable true addr).bind (fun t => t.anchors[j]?)

/-- A row or column in block-scaled form: floor, block exponents, significands and its NF bit. -/
structure Scaled where
  floor : Int
  exps : List Int
  q : List Int
  nf : Bool

def scaleVector (g : FloatFmt) (f : Nat) (floor : Int) (xs : List Nat) : Scaled :=
  let es := blockExps g floor xs
  ⟨floor, es, signifs g f es xs, xs.any (fun x => !(fltOf g x).isFinite)⟩

/-! State of an array. -/

def State.array (s : State) (a : Nat) : ArrayUnit := s.arrays.getD a default

def State.updArray (s : State) (a : Nat) (f : ArrayUnit → ArrayUnit) : State := { s with arrays := s.arrays.modify a f }

def arrayReg (a off : Nat) : Nat := blockArray a + off

def State.arrayEvent (s : State) (a bit : Nat) : State :=
  s.event (arrayReg a 0x34) bit (s.activeFld ⟨arrayReg a 0x30, 16, 1⟩ == 1) (7 + a)

/-- The count of a cadence's uncommitted work on an array. -/
def ArrayUnit.countOf (u : ArrayUnit) (k : Nat) : ArrayCount := (u.counts.find? (fun c => c.cadence == k)).getD ⟨k, 0, 0, 0⟩

/-- Saturations, non-finite elements and outputs, and products of a descriptor (R117, R138). -/
def State.countArray (s : State) (a k sat nf ops : Nat) : State :=
  let s := s.updArray a (fun u =>
    let c := u.countOf k
    { u with counts := ⟨k, c.sat + sat, c.nonfin + nf, c.ops + ops⟩ :: u.counts.filter (fun x => x.cadence != k) })
  s.count (1 + a / 2) 0x13 (a % 2) sat

/-- A store by an array: groundsheet tiles it writes as their producer begin to fill (R150). -/
def State.arrayStore (s : State) (d : ArrayDesc) (addr : Nat) (bs : Bytes) : State :=
  (s.fillRange d.unit.toNat addr bs.length).cstore d.ctx.cadence d.unit.toNat addr bs

/-- What is kept of a stored tensor (R104, R117). -/
def State.noteTensor (s : State) (t : TensorNote) : State := { s with tensors := t :: s.tensors }

/-! LOAD_W and STREAM. -/

/-- Columns of a matrix. -/
def columnsOf (n : Nat) (rows : List (List Nat)) : List (List Nat) := (List.range n).map (fun j => rows.map (fun r => r.getD j 0))

/-- Non-finite elements of an operand (R109); an integer one has none. -/
def nonFinite (g : Option FloatFmt) (xs : List Nat) : Nat :=
  match g with
  | some g => (xs.filter (fun x => !(fltOf g x).isFinite)).length
  | none => 0

/-- LOAD_W (R97, R109, R110): the slice in the cells. -/
def State.loadSlice (s : State) (a : Nat) (d : ArrayDesc) : State :=
  let k := d.k.toNat
  let n := d.n.toNat
  let f := d.fmtW.toNat
  let rows := s.readMat d.srcW.toNat f k n
  let slice : Slice :=
    match (if blockScaled d then floatFmt f else none) with
    | none => ⟨f, k, n, rows.map (fun r => r.map (intElem f)), [], [], []⟩
    | some g =>
      let cols := (List.zip (List.range n) (columnsOf n rows)).map (fun p =>
        scaleVector g (fracOf d) ((s.columnAnchorAt d.srcW.toNat p.1).getD (maxExp g p.2) - windowOf d) p.2)
      ⟨f, k, n, (List.range k).map (fun i => cols.map (fun c => c.q.getD i 0)),
       (List.range (ceilDiv k 32)).map (fun b => cols.map (fun c => c.exps.getD b 0)), cols.map (·.floor), cols.map (·.nf)⟩
  (s.updArray a (fun u => { u with slice := some slice })).countArray a d.ctx.cadence 0
    (nonFinite (if blockScaled d then floatFmt f else none) rows.flatten) 0

/-- The part of an operand that a sub-pass multiplies (R101): the whole of a narrow one; the signed high or unsigned low
byte of a 16-bit one. -/
def passPart (wide signed high : Bool) (x : Int) : Int :=
  if !wide then x
  else if high then (if signed then x / 256 else (ofSigned 16 x / 256 : Nat))
  else x % 256

/-- Sub-pass p takes the activation's and the weight's high bytes. -/
def passHigh (actWide wWide : Bool) (p : Nat) : Bool × Bool :=
  if actWide ∧ wWide then (decide (p ≤ 2), p == 1 || p == 3) else (decide (p ≤ 2), decide (p ≤ 2))

/-- One activation row against the slice: the sum that each column adds (R101, R111), before the pass shift. -/
def rowSums (sl : Slice) (acts : List Int) (exps : List Int) (floor : Int) : List Int :=
  (List.range sl.n).map (fun j =>
    if sl.blocks.isEmpty then
      (List.zipWith (fun x r => x * (r.getD j 0)) acts sl.values).foldl (· + ·) 0
    else
      (List.range (ceilDiv sl.k 32)).foldl (fun acc b =>
        let seg := (List.zipWith (fun x (r : List Int) => x * (r.getD j 0)) ((acts.drop (32 * b)).take 32)
          ((sl.values.drop (32 * b)).take 32)).foldl (· + ·) 0
        let sh := (exps.getD b 0 - floor) + ((sl.blocks.getD b []).getD j 0 - sl.floors.getD j 0)
        acc + seg * 2 ^ sh.toNat) 0)

/-- The signed 32-bit bias of a column, from its drain parameters (R105, R131). -/
def State.columnBias (s : State) (d : ArrayDesc) (j : Nat) : Int := signedOf 32 (leVal (s.load (d.param.toNat + 16 * j) 4))

/-- The first entries of a list replaced. -/
def overlay {α : Type} (new old : List α) : List α := new ++ old.drop new.length

/-- NF bits after a pass: those of the pass, with the earlier ones but on the first. -/
def mergeNf (first : Bool) (new old : List Bool) : List Bool :=
  overlay ((List.zip (List.range new.length) new).map (fun p => p.2 || (!first && old.getD p.1 false))) old

/-- STREAM (R96, R97, R100–R102, R108–R112): products added to the entries of the rows and columns in flight, modulo 2⁴⁸; every
other entry keeps its value. Signs come from the format codes, not from `FLAGS`[3] and [4] (DESIGN CHOICE, assumption 86). -/
def State.streamRows (s : State) (a : Nat) (d : ArrayDesc) : State :=
  let u := s.array a
  match u.slice with
  | none => s
  | some sl =>
    let m := d.m.toNat
    let k := min d.k.toNat sl.k
    let n := min d.n.toNat sl.n
    let sl := { sl with n := n }
    let fa := d.fmtA.toNat
    let p := d.pass.toNat % 8
    let shift := bitsOf d.pass.toNat 3 5
    let first := aFlag d 0
    let gf := if blockScaled d then floatFmt fa else none
    let raw := s.readMat d.srcA.toNat fa m k
    let scaled : List Scaled :=
      match gf with
      | none => raw.map (fun r => ⟨0, [], r.map (intElem fa), false⟩)
      | some g =>
        (List.zip (List.range m) raw).map (fun q =>
          let floor := match s.anchorAt d.srcA.toNat q.1 with
            | some e => e - windowOf d
            | none => if first then maxExp g q.2 - windowOf d else u.rowFloors.getD q.1 (maxExp g q.2 - windowOf d)
          scaleVector g (fracOf d) floor q.2)
    let actWide := fmtBits fa == 16 || (blockScaled d && widePair d)
    let wWide := fmtBits sl.fmt == 16 || (blockScaled d && widePair d)
    let hi := passHigh actWide wWide p
    let wpart := { sl with values := sl.values.map (fun r => r.map (passPart wWide (fmtSigned sl.fmt) hi.2)) }
    let bias := (List.range n).map (fun j => if blockScaled d then 0 else s.columnBias d j)
    let row (q : Nat × Scaled) : List Nat :=
      let sums := rowSums wpart (q.2.q.map (passPart actWide (fmtSigned fa) hi.1)) q.2.exps q.2.floor
      overlay ((List.zip (List.range n) sums).map (fun c =>
        let old : Int := if first then bias.getD c.1 0 else (((u.accum.getD q.1 []).getD c.1 0 : Nat) : Int)
        ofSigned 48 (old + c.2 * 2 ^ shift))) (u.accum.getD q.1 [])
    let s := s.updArray a (fun u => { u with
      accum := overlay ((List.zip (List.range m) scaled).map row) u.accum
      signed := fmtSigned fa || fmtSigned sl.fmt
      frac := if blockScaled d then 2 * fracOf d else 0
      rowFloors := overlay (scaled.map (·.floor)) u.rowFloors
      rowNf := mergeNf first (scaled.map (·.nf)) u.rowNf
      colFloors := overlay (sl.floors.take n) u.colFloors
      colNf := mergeNf first ((List.range n).map (fun j => sl.nf.getD j false)) u.colNf
      kSum := (if first then 0 else u.kSum) + (if p = 1 then k else 0) })
    if p = 1 then s.countArray a d.ctx.cadence 0 (nonFinite gf raw.flatten) (m * k * n) else s

/-! DRAIN and JOIN. -/

/-- An entry as R102 reads it. -/
def entryInt (u : ArrayUnit) (x : Nat) : Int := if u.signed then signedOf 48 x else x

/-- The exact integers that a drain or a join reads. -/
def ArrayUnit.sums (u : ArrayUnit) : List (List Int) := u.accum.map (fun r => r.map (entryInt u))

/-- The NF flag of an entry: that of its activation row or its weight column (R112). -/
def ArrayUnit.entryNf (u : ArrayUnit) (i j : Nat) : Bool := u.rowNf.getD i false || u.colNf.getD j false

/-- JOIN (R104): the entries added to the 64-bit partials of the second operand, or to 0 for the first accumulation. The
sums are kept at the destination with their NF flags, and the drain takes them after the last. -/
def State.joinRows (s : State) (a : Nat) (d : ArrayDesc) : State :=
  let u := s.array a
  let m := d.m.toNat
  let n := d.n.toNat
  let first := aFlag d 0
  let before := ((s.tensors.find? (fun t => t.base == d.srcW.toNat)).map (·.nf)).getD []
  let old (i j : Nat) : Int := if first then 0 else signedOf 64 (leVal (s.load (d.srcW.toNat + 8 * (i * n + j)) 8))
  let new := (List.range m).map (fun i => (List.range n).map (fun j =>
    signedOf 64 (ofSigned 64 (old i j + (u.sums.getD i []).getD j 0))))
  let bs := new.flatten.flatMap (fun x => leBytes 8 (ofSigned 64 x))
  let nf := (List.range m).map (fun i => (List.range n).map (fun j =>
    u.entryNf i j || (!first && (before.getD i []).getD j false)))
  let s := s.updArray a (fun u => { u with joined := if aFlag d 1 then some new else none, joinNf := nf })
  (s.arrayStore d d.dst.toNat bs).noteTensor ⟨d.dst.toNat, bs.length, nf, 0, 0⟩

/-- The drain parameters of a column (R131). -/
structure ColParam where
  bias : Nat
  mult : Int
  sh : Nat
  zero : Int
  scale : Nat

def State.colParam (s : State) (d : ArrayDesc) (j : Nat) : ColParam :=
  let b := s.load (d.param.toNat + 16 * j) 16
  ⟨leAt b 0 4, signedOf 32 (leAt b 4 4), leAt b 8 1 % 64, signedOf 16 (leAt b 10 2), leAt b 12 4⟩

/-- A row function of the drain: softmax, or a normalisation whose ε, γ and β stand at the second operand, ε and then γ and β of
each column, with the group size of K (DESIGN CHOICE, assumption 89). -/
def State.rowFn (s : State) (img : Image) (d : ArrayDesc) (xs : List Nat) : List DVal :=
  let n := xs.length
  let par (i : Nat) : Nat := leVal (s.load (d.srcW.toNat + 4 * i) 4)
  let gam := (List.range n).map (fun j => par (1 + j))
  let bet := (List.range n).map (fun j => par (1 + n + j))
  match d.fn.toNat with
  | 0x20 => softmax img xs
  | 0x21 => normalise img true (par 0) xs gam bet
  | 0x22 =>
    let g := max 1 d.k.toNat
    (List.range (ceilDiv n g)).flatMap (fun i =>
      normalise img true (par 0) ((xs.drop (i * g)).take g) ((gam.drop (i * g)).take g) ((bet.drop (i * g)).take g))
  | _ => normalise img false (par 0) xs gam bet

/-- Row anchors recorded beside a tensor of float format `f` at an address, its rows `stride` bytes long (R110). -/
def State.recordAnchors (s : State) (f addr bytes stride : Nat) (rows : List (List Nat)) : State :=
  match floatFmt f with
  | none => s
  | some g => { s with anchors := ⟨addr, bytes, rows.map (maxExp g), stride⟩ :: s.anchors }

/-- A result tensor written, with its anchors, its note and its counts (R110, R117). -/
def State.writeTensor (s : State) (a : Nat) (d : ArrayDesc) (out : List (List DOut)) : State :=
  let f := d.fmtOut.toNat
  let vals := out.map (fun r => r.map (·.v))
  let bs := elemBytes f vals.flatten
  let sat := (out.flatten.map (·.sat)).foldl (· + ·) 0
  let nf := (out.flatten.map (·.nf)).foldl (· + ·) 0
  let s := (s.arrayStore d d.dst.toNat bs).recordAnchors f d.dst.toNat bs.length (elemSpan f (vals.headD []).length) vals
  (s.noteTensor ⟨d.dst.toNat, bs.length, [], sat, nf⟩).countArray a d.ctx.cadence sat nf 0

/-- Bias and then scale of a column, skipped where they change nothing (R114). -/
def ColParam.plain (p : ColParam) : Bool := p.bias == 0 && p.scale == one32
def ColParam.apply (p : ColParam) (y : DVal) : DVal := if p.plain then y else (y.bind (dAdd · p.bias)).bind (dMul · p.scale)

/-- DRAIN (R112–R119): entries or joined sums converted to the output format and stored. A column without bias, scale and
function is rounded once. -/
def State.drainRows (s : State) (a : Nat) (d : ArrayDesc) : State :=
  let u := s.array a
  let img := s.steps.image.getD default
  let n := d.n.toNat
  let fo := d.fmtOut.toNat
  let fn := d.fn.toNat
  let ps := (List.range n).map (fun j => (j, s.colParam d j))
  let sums := u.joined.getD u.sums
  let nf (i j : Nat) : Bool := if u.joined.isSome then (u.joinNf.getD i []).getD j false else u.entryNf i j
  let k (i j : Nat) : Int := if u.frac = 0 then 0 else u.rowFloors.getD i 0 + u.colFloors.getD j 0 - (u.frac : Int)
  let row (i : Nat) : List DOut :=
    let x (j : Nat) : Int := (sums.getD i []).getD j 0
    match floatFmt fo with
    | none => ps.map (fun q => drainInt (fmtBits fo) (nf i q.1) (x q.1) (k i q.1) q.2.mult q.2.sh q.2.zero)
    | some g =>
      let value (q : Nat × ColParam) : DVal := q.2.apply (drainValue (nf i q.1) (x q.1) (k i q.1))
      if 0x20 ≤ fn then
        let ys := ps.map value
        (addCost ys (s.rowFn img d (ys.map (·.v)))).map (DVal.narrow g)
      else
        ps.map (fun q =>
          if fn = 0 ∧ q.2.plain then drainConvert g (nf i q.1) (x q.1) (k i q.1)
          else ((value q).bind (drainFn img fn)).narrow g)
  (s.writeTensor a d ((List.range d.m.toNat).map row)).updArray a (fun u => { u with joined := none })

/-! VEC and REDUCE. -/

/-- The elementwise operation of VEC without a function on x and y, with the column's parameters (R118, R119): sum, difference,
product, maximum, minimum, absolute value, sign, ReLU, leaky ReLU, clamp to [bias, scale], multiply-add of both operands and the
column's bias; else x. -/
def vectorOp (code : Nat) (p : ColParam) (x y : Nat) : DVal :=
  match code with
  | 1 => dAdd x y
  | 2 => dSub x y
  | 3 => dMul x y
  | 4 => dMax x y
  | 5 => dMin x y
  | 6 => if fpNan x then .nan else .pure (fAbs fp32 x)
  | 7 => if fpNan x then .nan else .pure (if lt32 0 x then one32 else if lt32 x 0 then 0xBF800000 else 0)
  | 8 => dMax x 0
  | 9 => if lt32 x 0 then dMul x y else dOp [x] (fltOf fp32 x)
  | 10 => (dMax x p.bias).bind (dMin · p.scale)
  | 11 => dFma x y p.bias
  | _ => dOp [x] (fltOf fp32 x)

/-- Results stored in the output format. -/
def State.storeResults (s : State) (a : Nat) (d : ArrayDesc) (rows : List (List DVal)) : State :=
  s.writeTensor a d (rows.map (fun r => r.map (DVal.narrow ((floatFmt d.fmtOut.toNat).getD fp32))))

/-- An operand of the drain as FP32 rows. -/
def State.readFp32 (s : State) (d : ArrayDesc) (addr : BitVec 64) : List (List Nat) :=
  (s.readMat addr.toNat d.fmtA.toNat d.m.toNat d.n.toNat).map (fun r => r.map (elemFp32 d.fmtA.toNat))

/-- VEC (R118–R121). -/
def State.vecRows (s : State) (a : Nat) (d : ArrayDesc) : State :=
  let img := s.steps.image.getD default
  let xs := s.readFp32 d d.srcA
  let ys := s.readFp32 d d.srcW
  let fn := d.fn.toNat
  let op := Config.vectorOp d.pass.toNat
  let one (r t : List Nat) : List DVal :=
    (List.zip (List.range r.length) (List.zip r t)).map (fun q => vectorOp op (s.colParam d q.1) q.2.1 q.2.2)
  let rows :=
    if fn = 0 then List.zipWith one xs ys
    else if fn < 0x20 then xs.map (fun r => r.map (drainFn img fn))
    else xs.map (s.rowFn img d)
  s.storeResults a d rows

/-- A row reduced (R120, R123): to its sum, maximum, minimum, mean or arg-maximum, or to its `k` largest elements or their
places. The numbers of the reductions are the model's own (assumption 89). -/
def reduceRow (op k : Nat) (r : List Nat) : List DVal :=
  match op with
  | 0 => [drainSum r]
  | 1 => [drainMax r]
  | 2 => [drainMin r]
  | 3 => [(drainSum r).bind (fun t => dMul t (fDiv fp32 one32 (fOfInt fp32 r.length)))]
  | 5 => ((sortedPlaces r).take k).map (fun i => .pure (r.getD i 0))
  | 6 => ((sortedPlaces r).take k).map (fun (i : Nat) => DVal.pure (fOfInt fp32 (i : Int)))
  | _ => [.pure (fOfInt fp32 (argMax r))]

/-- The elements of a reduced row. -/
def reduceWidth (op n k : Nat) : Nat := if op = 5 ∨ op = 6 then min n k else 1

/-- REDUCE (R120, R123). -/
def State.reduceRows (s : State) (a : Nat) (d : ArrayDesc) : State :=
  s.storeResults a d ((s.readFp32 d d.srcA).map (reduceRow (Config.reduceOp d.fn.toNat d.pass.toNat) d.k.toNat))

/-! GEN and STAGE. -/

/-- The next draw index of a unit's stream in an occurrence, advanced by `n` blocks (R74). -/
def State.takeDraws (s : State) (k step unit stream n : Nat) : Nat × State :=
  let hit (x : DrawIndex) : Bool := x.cadence == k && x.step == step && x.unit == unit && x.stream == stream
  let i := ((s.steps.draws.find? hit).map (·.next)).getD 0
  (i, { s with steps := { s.steps with draws := ⟨k, step, unit, stream, i + n⟩ :: s.steps.draws.filter (fun x => !hit x) } })

def State.seed (s : State) : Bytes := (s.steps.image.map (·.seed)).getD []

/-- GEN (R72–R75, R122): M blocks of the generator, as they are or as a distribution makes values of their words. -/
def State.genBlocks (s : State) (a : Nat) (d : ArrayDesc) : State :=
  let occ := (s.occOf d.ctx.cadence).getD default
  let img := s.steps.image.getD default
  let m := d.m.toNat
  let stream := d.k.toNat % 65536
  let r := s.takeDraws d.ctx.cadence occ.step d.unit.toNat stream m
  let s := r.2
  let ws := (List.range (4 * m)).map (fun i => drawWord s.seed occ.step d.unit.toNat stream (4 * r.1 + i))
  let raw := ws.flatMap (beBytes 4)
  let par (i : Nat) : Nat := leVal (s.load (d.param.toNat + 4 * i) 4)
  let put (vs : List DVal) : State :=
    (s.arrayStore d d.dst.toNat (vs.flatMap (fun v => leBytes 4 v.v))).countArray a d.ctx.cadence
      ((vs.map (·.sat)).foldl (· + ·) 0) (vs.filter (fun v => fpNan v.v)).length 0
  match Config.genForm d.fn.toNat d.fmtOut.toNat with
  | 0 => s.arrayStore d d.dst.toNat raw
  | 1 => put (ws.map (fun w => .pure (uniform32 w)))
  | 2 => s.arrayStore d d.dst.toNat
      ((List.range (2 * m)).flatMap (fun i => leBytes 8 (uniform64 (ws.getD (2 * i) 0) (ws.getD (2 * i + 1) 0))))
  | 3 => put (ws.map (fun w => .pure (bernoulli w (par 0))))
  | 4 => put (ws.map (normal01 img))
  | 5 => put (ws.map (fun w => normalDraw img w (par 0) (par 1)))
  | 6 =>
    let weights := (List.range d.n.toNat).map (fun i => leVal (s.load (d.srcW.toNat + 4 * i) 4))
    put (ws.map (fun w => .pure (categorical w weights)))
  | 7 => put ((List.zip (List.range ws.length) ws).map (fun p => dropout p.2 (par 0) (leVal (s.load (d.srcA.toNat + 4 * p.1) 4))))
  | _ => put (ws.map (fun w => .pure (uniform w d.n.toNat)))

/-- Where an element (row, column) of M × K stands in slices of `w` columns, M rows each. -/
def slicePlace (m k w i c : Nat) : Nat := c / w * w * m + i * min w (k - c / w * w) + c % w

/-- What a plain move carries along: the anchors and notes of tensors that lie in the moved bytes (R110). -/
def State.carryNotes (s : State) (src n dst : Nat) : State :=
  let inside (base : Nat) : Bool := decide (src ≤ base ∧ base < src + n)
  let old := s.anchors ++ (s.steps.image.map (·.anchors)).getD []
  { s with
    anchors := (old.filter (fun t => inside t.base)).map (fun t => { t with base := t.base - src + dst }) ++ s.anchors
    tensors := (s.tensors.filter (fun t => inside t.base)).map (fun t => { t with base := t.base - src + dst }) ++ s.tensors }

/-- The whole groundsheet tiles of [a, a + n), moved plainly to or from object space, equal their copy in a lower tier (R147). -/
def State.cleanTiles (s : State) (a n other : Nat) : State :=
  if objectSpaceEnd ≤ other then s
  else
    (slotsIn a n).foldl (fun s i =>
      if a ≤ lanternAddr i ∧ lanternAddr i + tileBytes ≤ a + n then s.setLantern { s.lantern i with dirty := false } else s) s

/-- STAGE (R98, R110, R123): M × K elements moved between groundsheet and pack. A gather names the source element of each, or
none for an inserted zero, and lays them out in slices of K; the anchors of rows that no drain recorded are found on the way
(DESIGN CHOICE, assumption 88). -/
def State.stageBytes (s : State) (d : ArrayDesc) (gather : List (Option Nat)) : State :=
  let f := d.fmtA.toNat
  let m := d.m.toNat
  let k := d.k.toNat
  let src := d.srcA.toNat
  let dst := d.dst.toNat
  let span := elemSpan f (m * k)
  let known := s.anchorTable false src |>.isSome
  if gather = [] then
    let bs := s.load src span
    let t := (((s.arrayStore d dst bs).cleanTiles src span dst).cleanTiles dst span src).carryNotes src span dst
    if known || (s.anchorTable true src).isSome then t else t.recordAnchors f dst span (elemSpan f k) (rowsOf k m (elemsOf f bs))
  else
    let w := passK d
    let count := (gather.filterMap id).foldl max 0 + 1
    let xs := elemsOf f (s.load src (elemSpan f count))
    let ys := gather.map (fun g => match g with | some i => xs.getD i 0 | none => 0)
    let rows := (List.range m).map (fun i => (List.range k).map (fun c => ys.getD (slicePlace m k w i c) 0))
    (s.arrayStore d dst (elemBytes f ys)).recordAnchors f dst span (elemSpan f (min w k)) rows

/-! The commands. -/

/-- The bytes a descriptor reads and writes, as addresses and lengths, for the check of R153. -/
def arrayReads (j : ArrayJob) : List (Nat × Nat) :=
  let op := j.op
  let d := j.desc
  let m := d.m.toNat
  let k := d.k.toNat
  let n := d.n.toNat
  let mat := elemSpan d.fmtA.toNat (m * n)
  let rowFn : List (Nat × Nat) := if 0x21 ≤ d.fn.toNat then [(d.srcW.toNat, 4 + 8 * n)] else []
  if op = opLoadW then [(d.srcW.toNat, elemSpan d.fmtW.toNat (k * n))]
  else if op = opStream then
    (d.srcA.toNat, elemSpan d.fmtA.toNat (m * k)) ::
      (if aFlag d 0 ∧ !blockScaled d then [(d.param.toNat, 16 * n)] else [])
  else if op = opDrain then (d.param.toNat, 16 * n) :: rowFn
  else if op = opJoin then (if aFlag d 0 then [] else [(d.srcW.toNat, 8 * (m * n))])
  else if op = opVec then
    (d.srcA.toNat, mat) :: (if d.fn = 0 then [(d.srcW.toNat, mat), (d.param.toNat, 16 * n)] else rowFn)
  else if op = opReduce then [(d.srcA.toNat, mat)]
  else if op = opGen then
    match Config.genForm d.fn.toNat d.fmtOut.toNat with
    | 3 => [(d.param.toNat, 4)]
    | 5 => [(d.param.toNat, 8)]
    | 6 => [(d.srcW.toNat, 4 * n)]
    | 7 => [(d.param.toNat, 4), (d.srcA.toNat, 16 * m)]
    | _ => []
  else if op = opStage then
    [(d.srcA.toNat, elemSpan d.fmtA.toNat (if j.gather = [] then m * k else (j.gather.filterMap id).foldl max 0 + 1))]
  else []

def arrayWrites (j : ArrayJob) : List (Nat × Nat) :=
  let op := j.op
  let d := j.desc
  let m := d.m.toNat
  let n := d.n.toNat
  if op = opDrain ∨ op = opVec then [(d.dst.toNat, elemSpan d.fmtOut.toNat (m * n))]
  else if op = opJoin then [(d.dst.toNat, 8 * (m * n))]
  else if op = opReduce then
    [(d.dst.toNat, elemSpan d.fmtOut.toNat (m * reduceWidth (Config.reduceOp d.fn.toNat d.pass.toNat) n d.k.toNat))]
  else if op = opGen then [(d.dst.toNat, 16 * m)]
  else if op = opStage then [(d.dst.toNat, elemSpan d.fmtA.toNat (m * d.k.toNat))]
  else []

/-- What a descriptor does; WAIT, RAISE and END do nothing beside waiting and raising. -/
def State.arrayWork (s : State) (a : Nat) (j : ArrayJob) : State :=
  let d := j.desc
  match j.op with
  | 1 => s.loadSlice a d
  | 2 => s.streamRows a d
  | 3 => s.drainRows a d
  | 4 => s.joinRows a d
  | 5 => s.vecRows a d
  | 6 => s.reduceRows a d
  | 7 => s.genBlocks a d
  | 0xA => s.stageBytes d j.gather
  | _ => s

/-- A unit's descriptor completes (R150): it raises its lantern with the tag of its occurrence, and releases the one it waited
on as a consumer. -/
def State.completeDesc (s : State) (k unit wait raise : Nat) : State :=
  let n := ((s.occOf k).getD default).step
  let s := if raise = noLantern then s else s.raiseLantern unit raise (s.stepTime n) n
  if wait = noLantern then s else s.releaseLantern k unit wait

/-- A descriptor is issued, works and completes (R99, R134, R138). -/
def State.finishArray (s : State) (a : Nat) (j : ArrayJob) : State :=
  let d := j.desc
  let s := (s.answer (blockArray a) served 0).count (1 + a / 2) 0x11 (a % 2) 1
  ((s.arrayWork a j).completeDesc d.ctx.cadence d.unit.toNat d.wait.toNat d.raise.toNat).satReg (arrayReg a 0x28) 1

/-- The descriptor at the head of an array's list: refused while the array is out of service or when malformed, else issued once
its tiles are its own and its lantern wait is granted, or stopped by an order error (R99, R133, R134, R155, R162). The answer
tells whether it is done with. -/
def State.arrayIssue (s : State) (a : Nat) (j : ArrayJob) : State × Bool :=
  let d := j.desc
  let k := d.ctx.cadence
  let r := arrayRegion a
  if !s.arrayOk a j.op d then ((s.answer (blockArray a) refused 0x0C).badDescriptor r 0x0C d.ctx, true)
  else if !s.inService r then (s.answer (blockArray a) refused 0x0A, true)
  else
    let s := s.setReg64 (arrayReg a 0x20) d.ctx.addr
    let acc := arrayReads j ++ arrayWrites j
    if s.memoryWaits r acc then (s.noteMemoryWait r k acc, false)
    else
      let w := s.await k d.unit.toNat d.wait.toNat
      if !w.2 then (w.1, false)
      else
        match s.orderBroken d.unit.toNat [d.wait.toNat] (arrayReads j) (arrayWrites j) with
        | some i => (w.1.orderError r i d.ctx, true)
        | none => (w.1.finishArray a j, true)

/-- A descriptor reaches its array's sequencer, which issues descriptors in order (R99). -/
def State.arrayCommand (s : State) (a : Nat) (j : ArrayJob) : State :=
  if !s.mayIssue j.desc.ctx.cadence then s
  else if (s.array a).queue ≠ [] then s.updArray a (fun u => { u with queue := u.queue ++ [j] })
  else
    let r := s.arrayIssue a j
    if r.2 then r.1 else r.1.updArray a (fun u => { u with queue := [j] })

/-- The waiting descriptors of an array go on, until one waits again. -/
def State.resumeArray : Nat → State → Nat → State
  | 0, s, _ => s
  | fuel + 1, s, a =>
    match (s.array a).queue with
    | [] => s
    | j :: _ =>
      let r := s.arrayIssue a j
      if r.2 then State.resumeArray fuel (r.1.updArray a (fun u => { u with queue := u.queue.drop 1 })) a else r.1

def effLoadW (a : Fin 4) (d : ArrayDesc) (s : State) : State := s.arrayCommand a ⟨opLoadW, d, []⟩
def effStream (a : Fin 4) (d : ArrayDesc) (s : State) : State := s.arrayCommand a ⟨opStream, d, []⟩
def effDrain (a : Fin 4) (d : ArrayDesc) (s : State) : State := s.arrayCommand a ⟨opDrain, d, []⟩
def effJoin (a : Fin 4) (d : ArrayDesc) (s : State) : State := s.arrayCommand a ⟨opJoin, d, []⟩
def effVec (a : Fin 4) (d : ArrayDesc) (s : State) : State := s.arrayCommand a ⟨opVec, d, []⟩
def effReduce (a : Fin 4) (d : ArrayDesc) (s : State) : State := s.arrayCommand a ⟨opReduce, d, []⟩
def effGen (a : Fin 4) (d : ArrayDesc) (s : State) : State := s.arrayCommand a ⟨opGen, d, []⟩

/-- WAIT (R151): the descriptor ends once its lantern is granted. -/
def effWait (a : Fin 4) (d : ArrayDesc) (s : State) : State := s.arrayCommand a ⟨opWait, d, []⟩

/-- RAISE (R150): the named lantern is raised. -/
def effRaise (a : Fin 4) (d : ArrayDesc) (s : State) : State := s.arrayCommand a ⟨opRaise, d, []⟩

def effStage (a : Fin 4) (d : ArrayDesc) (gather : List (Option Nat)) (s : State) : State := s.arrayCommand a ⟨opStage, d, gather⟩

/-- END (R131): the sequencer's list ends. -/
def effArrayEnd (a : Fin 4) (d : ArrayDesc) (s : State) : State := s.arrayCommand a ⟨opEnd, d, []⟩

/-! Commits (R117, R138). -/

/-- The cadence that counts of committed work stand under until the `CADENCE_0` commit that shows them. -/
def committedCadence : Nat := 0xFFFF

def ArrayUnit.shown (u : ArrayUnit) : ArrayCount :=
  let x := u.countOf committedCadence
  let y := u.countOf 0
  ⟨0, x.sat + y.sat, x.nonfin + y.nonfin, x.ops + y.ops⟩

/-- The counts of a cadence that commits join those of committed work. -/
def ArrayUnit.commitCounts (k : Nat) (u : ArrayUnit) : ArrayUnit :=
  let x := u.countOf committedCadence
  let y := u.countOf k
  { u with counts := ⟨committedCadence, x.sat + y.sat, x.nonfin + y.nonfin, x.ops + y.ops⟩ ::
      u.counts.filter (fun c => c.cadence != k && c.cadence != committedCadence) }

/-- At a `CADENCE_0` commit the counts of the step are shown, judged and begun anew (R138); at the commit of another cadence they
wait for it. -/
def State.commitArrays (s : State) (k : Nat) : State :=
  if k ≠ 0 then { s with arrays := s.arrays.map (ArrayUnit.commitCounts k) }
  else
    (List.range s.arrays.length).foldl (fun s a =>
      let c := (s.array a).shown
      let s := (s.setReg64 (arrayReg a 0x10) c.sat).setReg64 (arrayReg a 0x18) c.nonfin
      let s := s.setReg64 (arrayReg a 0x38) c.ops
      let s := if s.activeFld ⟨arrayReg a 0x30, 0, 16⟩ ≤ c.sat then s.arrayEvent a 0 else s
      let s := if 0 < c.nonfin then s.event (arrayReg a 0x34) 1 false 0 else s
      s.updArray a (fun u => { u with counts := u.counts.filter (fun c => c.cadence != 0 && c.cadence != committedCadence) })) s

/-- Descriptors done are counted from the step edge (R138). -/
def State.arraysAtEdge (s : State) : State :=
  (List.range s.arrays.length).foldl (fun s a => s.setReg (arrayReg a 0x28) 0) s

def execLoadW (a : Fin 4) (d : ArrayDesc) (s : State) : Host.Outcome State Fault Refusal := .next (effLoadW a d s)
def execStream (a : Fin 4) (d : ArrayDesc) (s : State) : Host.Outcome State Fault Refusal := .next (effStream a d s)
def execDrain (a : Fin 4) (d : ArrayDesc) (s : State) : Host.Outcome State Fault Refusal := .next (effDrain a d s)
def execJoin (a : Fin 4) (d : ArrayDesc) (s : State) : Host.Outcome State Fault Refusal := .next (effJoin a d s)
def execVec (a : Fin 4) (d : ArrayDesc) (s : State) : Host.Outcome State Fault Refusal := .next (effVec a d s)
def execReduce (a : Fin 4) (d : ArrayDesc) (s : State) : Host.Outcome State Fault Refusal := .next (effReduce a d s)
def execGen (a : Fin 4) (d : ArrayDesc) (s : State) : Host.Outcome State Fault Refusal := .next (effGen a d s)
def execWait (a : Fin 4) (d : ArrayDesc) (s : State) : Host.Outcome State Fault Refusal := .next (effWait a d s)
def execRaise (a : Fin 4) (d : ArrayDesc) (s : State) : Host.Outcome State Fault Refusal := .next (effRaise a d s)
def execStage (a : Fin 4) (d : StageDesc) (s : State) : Host.Outcome State Fault Refusal := .next (effStage a d.desc d.gather s)
def execArrayEnd (a : Fin 4) (d : ArrayDesc) (s : State) : Host.Outcome State Fault Refusal := .next (effArrayEnd a d s)

end Sys2Proof.Machine
end

