-- ==== Sys2Proof/Machine/Inputs.lean ====
section
/-! DEFINITION. Inputs and the trail (R57, R84, R86, R91, R479): the bodies of INPUT and EXCLUDED records, the archive
ring, and the counting of admitted and excluded inputs. -/

namespace Sys2Proof.Machine

/-! The archive ring (R479). -/

def archivePage : Nat := 4096

/-- Bytes a payload takes in the archive ring. -/
def archiveSize (bs : Bytes) : Nat := ceilDiv bs.length archivePage * archivePage

def State.archiveBytes (s : State) : Nat := s.reg 0x60006C * tileBytes

/-- Unified address of the archive ring. -/
def State.archiveBase (s : State) : Nat :=
  match s.tiers.archiveObj with
  | some i => ((s.tiers.objects.find? (fun o => o.id == i)).map (fun o => o.baseTile * tileBytes)).getD 0
  | none => 0

def State.archiveFree (s : State) : Nat := ringFree s.archiveBytes (s.reg 0x600070) (s.reg 0x600074)

/-- A payload appended when it fits with 4 KiB left free. -/
def State.archiveAppend (s : State) (bs : Bytes) : Option State :=
  let size := archiveSize bs
  let n := s.archiveBytes
  let w := s.reg 0x600070
  if size + archivePage ≤ s.archiveFree then
    let base := s.archiveBase
    let s := s.store (base + w) (bs.take (n - w))
    let s := if n - w < bs.length then s.store base (bs.drop (n - w)) else s
    some (s.setReg 0x600070 ((w + size) % n))
  else none

/-- A payload archived at the next 4 KiB boundary, with its unified address. Without room it waits under a hold. -/
def State.archive (s : State) (bs : Bytes) : State × Nat :=
  let ahead := (s.trail.archiveWaiting.map archiveSize).foldl (· + ·) 0
  let addr := s.archiveBase + (s.reg 0x600070 + ahead) % max 1 s.archiveBytes
  let wait (s : State) : State :=
    ({ s with trail := { s.trail with archiveWaiting := s.trail.archiveWaiting ++ [bs], archiveHold := true } }).setHold
  if s.trail.archiveWaiting.isEmpty then
    match s.archiveAppend bs with
    | some t => (t, addr)
    | none => (wait s, addr)
  else (wait s, addr)

/-- Payloads that waited, appended while they fit. -/
def State.archivePump : Nat → State → State
  | 0, s => s
  | fuel + 1, s =>
    match s.trail.archiveWaiting with
    | [] => s
    | bs :: rest =>
      match s.archiveAppend bs with
      | some t => State.archivePump fuel { t with trail := { t.trail with archiveWaiting := rest } }
      | none => s

/-! Records. -/

/-- The body of an EXCLUDED record (R84). -/
def excludedBody (slot stream mask : Nat) (ranges : List (Nat × Nat)) : Bytes :=
  leBytes 2 slot ++ leBytes 2 stream ++ leBytes 2 mask ++ leBytes 2 ranges.length ++
    ranges.flatMap (fun r => leBytes 8 r.1 ++ leBytes 8 r.2)

/-- The base step whose interval holds a stamp (R86). A stamp at or before Tₛ(−1) lies in no step's interval; the record then
names the step of the next step edge (DESIGN CHOICE, assumption 82). -/
def State.stepOfStamp (s : State) (t : Nat) : Nat :=
  match s.steps.run with
  | some r =>
    match r.occurrenceOf { (default : CadenceDecl) with multiple := 1, phase := 0 } t with
    | some n => n
    | none => s.nextStep
  | none => 0

/-- The step from whose fusion work on the histories hold what occurrence `n` of cadence `k` admits first (R221): `n` for
`CADENCE_0`, else the first step that closes at or after this close. -/
def State.feedStep (s : State) (k n : Nat) : Nat :=
  match s.steps.run, s.cadences[0]?, s.cadences[k]? with
  | some r, some c0, some c => if k = 0 then n else ceilDiv (r.close c n - r.close c0 0) r.base
  | _, _, _ => n

/-- An input whose payload is not kept in its record (R86). -/
def Input.form1 (i : Input) : Bool := i.frame || decide (256 < i.payload.length)

/-- The body of an INPUT record (R86). -/
def inputBody (i : Input) (mask : Nat) (addr : Option Nat) : Bytes :=
  leBytes 2 i.slot ++ leBytes 2 i.stream ++ leBytes 2 mask ++ leBytes 1 (b2n addr.isSome) ++ leBytes 1 0 ++
    leBytes 8 i.seq ++ leBytes 4 i.count ++ leBytes 4 i.payload.length ++ fullTimeBytes i.arrival ++ leBytes 4 0 ++
    (match addr with
      | some a => sha384 i.payload ++ leBytes 8 a
      | none => i.payload)

/-- An INPUT record (R86). -/
def State.logInput (s : State) (i : Input) (mask : Nat) (addr : Option Nat) : State :=
  s.trailWrite ⟨kInput, 0, 0, s.stepOfStamp i.stamp, i.stamp, inputBody i mask addr⟩

/-! Counts (R57, R91, R93). -/

/-- Codes under which an input has been counted: class 0 late, 1 shed otherwise, 2 admitted; overall and by step. -/
def countCode (cls : Nat) (step : Option Nat) : Nat :=
  match step with
  | none => cls
  | some n => 3 * (n + 1) + cls

/-- A class of a step's summary increased by one. -/
def bumpStats (cls : Nat) (x : StepStats) : StepStats :=
  match cls with
  | 0 => { x with late := x.late + 1 }
  | 1 => { x with shedOther := x.shedOther + 1 }
  | _ => { x with admitted := x.admitted + 1 }

/-- An input counted in a class: once in the run's count and once in the step's summary. -/
def State.countInput (s : State) (i : Input) (cls n : Nat) : State × Input :=
  let s := if cls = 2 ∨ i.counted.contains (countCode cls none) then s
    else s.addReg64 (if cls = 0 then 0x10280 else 0x10288) 1
  let s := if i.counted.contains (countCode cls (some n)) then s else s.updStats n (bumpStats cls)
  (s, { i with counted := countCode cls none :: countCode cls (some n) :: i.counted })

/-- An occurrence of a cadence lost an input of a stream as late (R40, R58). -/
def State.noteLate (s : State) (k n slot stream : Nat) : State :=
  let x := (k, n, slot, stream)
  if s.steps.late.contains x then s else { s with steps := { s.steps with late := s.steps.late ++ [x] } }

/-- The occurrence of cadence `k` whose admission interval holds a stamp; `n` where none of the run does. -/
def State.occurrenceFor (s : State) (k stamp n : Nat) : Nat :=
  match s.steps.run, s.cadences[k]? with
  | some r, some c => (r.occurrenceOf c stamp).getD n
  | _, _ => n

/-- The cause an exclusion is reported with: 0x03 for an input that a delay queue released too late (R451). -/
def Input.exclusionCause (i : Input) (cause : Nat) : Nat := if cause = 4 ∧ i.delayNs.isSome then 3 else cause

/-- An input is excluded from its occurrences of the cadences `ks` (R57, R59, R60): counted at step `n`, and its one record
written with that step. -/
def State.exclude (s : State) (i : Input) (ks : List Nat) (n cause : Nat) (ranges : List (Nat × Nat)) : State × Input :=
  let c := i.exclusionCause cause
  let r := s.countInput i (if c = 4 then 0 else 1) n
  let s := if c = 4 then ks.foldl (fun s k => s.noteLate k (s.occurrenceFor k i.stamp n) i.slot i.stream) r.1 else r.1
  (s.trailWrite ⟨kExcluded, shed, c, n, i.stamp, excludedBody i.slot i.stream (maskOf ks) ranges⟩, r.2)

/-- The sequence numbers of a whole input. -/
def Input.range (i : Input) : List (Nat × Nat) := [(i.seq, i.seq + max i.count 1 - 1)]

end Sys2Proof.Machine
end

