-- ==== Sys2Proof/Machine/Tiers.lean ====
section
/-! DEFINITION. The memory tiers (R457–R489): quotas, the host window's slots and their sealing, placement, moves and
loss. -/

namespace Sys2Proof.Machine

def windowNone : Nat := 0
def windowGranted : Nat := 1
def windowWithdrawing : Nat := 2
def windowLost : Nat := 3

def State.windowUsable (s : State) : Bool :=
  s.tiers.windowState == windowGranted || s.tiers.windowState == windowWithdrawing

/-! The window (R474, R475). -/

def State.grantBytes (s : State) : Nat := (s.tiers.ranges.map (·.2)).foldl (· + ·) 0

/-- The slots of a grant: 32 KiB each, with 64 bytes of sidecar at the end of the grant. -/
def State.slotCount (s : State) : Nat := s.grantBytes / (tileBytes + 64)

/-- The host address of an offset in the grant. -/
def hostAt : List (Nat × Nat) → Nat → Nat
  | [], _ => 0
  | (base, len) :: rest, off => if off < len then base + off else hostAt rest (off - len)

def State.slotAddr (s : State) (k : Nat) : Nat := hostAt s.tiers.ranges (k * tileBytes)
def State.sidecarAddr (s : State) (k : Nat) : Nat := hostAt s.tiers.ranges (s.grantBytes - 64 * s.slotCount + 64 * k)

def State.slotEntry (s : State) (k : Nat) : T4Slot :=
  (s.tiers.slots.find? (fun x => x.slot == k)).getD { (default : T4Slot) with slot := k }

def State.setSlot (s : State) (x : T4Slot) : State :=
  { s with tiers := { s.tiers with
      slots := insertSorted (fun a b => decide (a.slot ≤ b.slot)) x (s.tiers.slots.filter (fun y => y.slot != x.slot)) } }

/-- Slots that hold a tile. -/
def State.slotsHeld (s : State) : List Nat := (s.tiers.slots.filter (fun x => x.tile.isSome)).map (·.slot)

/-! Objects, quotas and usage (R472, R473). -/

def Obj.isHostClient (o : Obj) : Bool := o.cls == .host && decide (0x8000 ≤ o.tenant ∧ o.tenant ≤ 0x80FF)

def State.quotaOf (s : State) (tenant : Nat) : Quota :=
  (s.tiers.quotas.find? (fun q => q.tenant == tenant)).getD { (default : Quota) with tenant := tenant }

def State.tenantOf (s : State) (t : Tile) : Option Nat := (s.objectAt (t.index * tileBytes)).map (·.tenant)

/-- The tiles of a tenant that satisfy `p`. -/
def State.countTiles (s : State) (tenant : Nat) (p : Tile → Bool) : Nat :=
  (s.tiers.tiles.filter (fun t => p t && s.tenantOf t == some tenant)).length

def Tile.inT3 (t : Tile) : Bool := t.frame?.isSome

/-- A tile that holds a T4 slot, as its only or its second copy. -/
def Tile.slot? (t : Tile) : Option Nat :=
  match t.loc with
  | .t4 k => some k
  | _ => t.home

/-- The flag `T4_COPY` (R466): a slot holds a copy identical to the current one. -/
def Tile.t4Copy (t : Tile) : Bool := t.slot?.isSome && !t.dirty

def State.t3Used (s : State) (tenant : Nat) : Nat := s.countTiles tenant Tile.inT3
def State.t2Used (s : State) (tenant : Nat) : Nat := s.countTiles tenant Tile.isLent
def State.t4Used (s : State) (tenant : Nat) : Nat := s.countTiles tenant (fun t => t.slot?.isSome)

/-- A spill counts against a tenant (R473). -/
def State.spill (s : State) (tenant n : Nat) : State :=
  if n = 0 then s
  else
    let k := (lookupKey tenant s.tiers.spills).getD 0
    ({ s with tiers := { s.tiers with spills := putKey tenant (k + n) s.tiers.spills } }).memEvent 7

/-- The reserves in T3 frames (R465): tag array, tier map, host-tier directory, the sizes of the boot configuration and
the pre-run buffer of 4,096 records (R614). -/
def State.reservedFrames (s : State) : Nat :=
  let mib := s.fld ⟨0x10028, 0, 16⟩ + s.fld ⟨0x10002C, 0, 16⟩ + s.fld ⟨0x400010, 0, 16⟩
  576 + ceilDiv (8 * s.tiers.tiles.length) tileBytes + ceilDiv (s.grantBytes * 8192) (2 ^ 40) + mib * 32 +
    (if s.windowUsable then 0 else s.reg 0x60006C) + 32

/-- Frames that can still be allocated (R465, R489). -/
def State.t3Free (s : State) : Nat :=
  framesPerPc * s.pcsIn.length - (s.reservedFrames + s.framesUsed + s.tiers.retired.length)

/-- The classes that may lie in T4 and in T2 (R461). -/
def classT4 (c : ObjClass) : Bool := c == .weights || c == .cold || c == .scratch || c == .archive || c == .host
def classT2 (c : ObjClass) : Bool := c == .state || c == .weights || c == .scratch

def Obj.pinned (o : Obj) : Bool := o.cls == .system || o.cls == .input

/-- The flag `PINNED` of a tile (R466): of a class that stays in T3, which holds the admitted inputs too, or a checkpointed
object's tile of which a running occurrence's checkpoint keeps a version. -/
def State.tilePinned (s : State) (t : Tile) : Bool :=
  match s.objectAt (t.index * tileBytes) with
  | none => false
  | some o => o.pinned || (o.cls == .state && s.writersOf (t.index * tileBytes) tileBytes != [])

/-! Sealing (R476, R477). -/

/-- The 24-byte tag of an object tile (R145). -/
def tileTagBytes (t : TileTag) : Bytes :=
  leBytes 8 t.validTime ++ leBytes 8 t.step ++ leBytes 4 t.owner ++ leBytes 2 t.producer ++ leBytes 2 0

def tagOfBytes (b : Bytes) : TileTag := ⟨leAt b 0 8, leAt b 8 8, leAt b 16 4, leAt b 20 2⟩

def sealIv (slot counter : Nat) : Bytes := beBytes 4 slot ++ beBytes 8 counter
def sealAad (slot owner index : Nat) : Bytes := leBytes 8 slot ++ leBytes 4 owner ++ leBytes 4 index

/-- The slot and sidecar bytes of a tile. -/
def sealTile (key : Bytes) (archive : Bool) (slot counter owner index : Nat) (tile tag : Bytes) : Bytes × Bytes :=
  let iv := sealIv slot counter
  let aad := sealAad slot owner index
  if archive then
    (tile, tag ++ gcmTag key iv (aad ++ tile ++ tag) [] ++ leBytes 8 counter ++ leBytes 16 0)
  else
    let ct := gcmCrypt key iv (tile ++ tag)
    (ct.take tileBytes, ct.drop tileBytes ++ gcmTag key iv aad ct ++ leBytes 8 counter ++ leBytes 16 0)

/-- The tile and tag that a slot and sidecar give, when their authentication tag matches. -/
def openTile (key : Bytes) (archive : Bool) (slot counter owner index : Nat) (data side : Bytes) :
    Option (Bytes × Bytes) :=
  let iv := sealIv slot counter
  let aad := sealAad slot owner index
  let tag := sliceBytes 24 16 side
  let data := fitBytes tileBytes data
  let first := fitBytes 24 side
  if archive then
    if gcmTag key iv (aad ++ data ++ first) [] = tag then some (data, first) else none
  else
    let ct := data ++ first
    if gcmTag key iv aad ct = tag then
      let pt := gcmCrypt key iv ct
      some (pt.take tileBytes, pt.drop tileBytes)
    else none

/-! Moves (R467, R473). -/

def State.setTile (s : State) (x : Tile) : State :=
  { s with tiers := { s.tiers with tiles := s.tiers.tiles.map (fun y => if y.index = x.index then x else y) } }

def channelOf (frame : Nat) : Nat := frame % 32 / 2

/-- Tiles of the archive ring take the first slots in object order (R477, R479). -/
def State.archiveSlots (s : State) : Nat := if s.reg 0x60006C ≤ s.slotCount then s.reg 0x60006C else 0

/-- The slot a tile takes: its place for the archive, else the lowest free slot. -/
def State.pickSlot (s : State) (o : Obj) (t : Tile) : Option Nat :=
  if o.cls == .archive then
    let k := t.index - o.baseTile
    if k < s.archiveSlots ∧ !s.tiers.withdrawn.contains k then some k else none
  else
    let used := s.slotsHeld ++ s.tiers.withdrawn ++ ((s.tiers.withdraw.map (·.slots)).getD [])
    (List.range (used.length + 1)).map (· + s.archiveSlots) |>.find? (fun k => !used.contains k && decide (k < s.slotCount))

/-- A dirty tile written to a T4 slot (R467, R475): the slot's counter advances, the sealed bytes go to the host. -/
def State.writeBack (s : State) (o : Obj) (t : Tile) (k : Nat) : State :=
  let e := s.slotEntry k
  let arch := o.cls == .archive
  let b := sealTile s.tiers.hostKey arch k (e.counter + 1) o.id (t.index - o.baseTile)
    (s.load (t.index * tileBytes) tileBytes) (tileTagBytes t.tag)
  let s := s.setSlot { e with counter := e.counter + 1, tile := some t.index, archive := arch }
  ((s.hostWrite (s.slotAddr k) b.1).hostWrite (s.sidecarAddr k) b.2).count 0 0x44 0 1

/-- The lent tile count of a move into or out of lent memory (R588). -/
def State.countLent (s : State) (l : TileLoc) : State :=
  match l with
  | .t2 m _ => s.count (lentDie m) 0x46 0 1
  | .t3 f => s.count 3 0x40 (channelOf f) 1
  | _ => s

/-- A tile leaves T3 or T2 for T4; a clean tile with a copy is dropped (R467). `none`: T4 cannot take it, or the write waits for a
quarantined security block (R563). -/
def State.moveToT4 (s : State) (o : Obj) (t : Tile) : Option State :=
  let away (s : State) (k : Nat) : State :=
    ((s.countLent t.loc).setTile { t with loc := .t4 k, home := some k, dirty := false, dest := none }).endLentWaits
  if !s.windowUsable ∨ !classT4 o.cls ∨ s.tilePinned t then none
  else
    match t.home with
    | some k =>
      if !t.dirty then some (away s k) else if s.sec.quarantined then none else some (away (s.writeBack o t k) k)
    | none =>
      if s.sec.quarantined then none else
      match s.pickSlot o t with
      | some k => if s.t4Used o.tenant < (s.quotaOf o.tenant).t4 then some (away (s.writeBack o t k) k) else none
      | none => none

/-- A tile comes into T3 from lent memory; over quota it goes on to T4 where its class allows (R473). -/
def State.moveToT3 (s : State) (o : Obj) (t : Tile) : State :=
  let f := s.pickFrame o t.index
  let here (s : State) : State :=
    (((s.countLent t.loc).count 3 0x41 (channelOf f) 1).setTile { t with loc := .t3 f, dest := none }).endLentWaits
  if s.t3Used o.tenant < (s.quotaOf o.tenant).t3 ∧ 0 < s.t3Free then here s
  else
    match s.moveToT4 o t with
    | some x => x.spill o.tenant 1
    | none => here s

/-- A tile goes into lent memory while its window is open and its tile free (R161, R469, R473). -/
def State.moveToT2 (s : State) (o : Obj) (t : Tile) (m k : Nat) : State :=
  let openNow := s.sheets.open_.any (fun w => w.memory == m && decide (w.first ≤ k ∧ k ≤ w.last))
  let taken := s.tiers.tiles.any (fun y => y.loc == .t2 m k)
  let owner := if m < 4 then arrayRegion m else 0x1000 + (m - 4)
  if !s.inService owner then s.answer blockMemory refused 0x0A
  else if !openNow ∨ taken ∨ !classT2 o.cls ∨ o.policy ≠ .lend ∨ s.tilePinned t then s
  else if (s.quotaOf o.tenant).t2 ≤ s.t2Used o.tenant then s.spill o.tenant 1
  else
    let s := (s.countLent t.loc).setTile { t with loc := .t2 m k, dest := none }
    s.count (lentDie m) 0x46 0 1

/-- The stall that a move or fetch ended, if it ended one (R68, R481); that of an owner of lent memory is counted when the last
tile has left (R162). -/
def State.moveStall (s : State) (st : Option Stall) : State :=
  match st with
  | some x => if x.cause = 5 then s else s.endStall x
  | none => s

/-! The end of the window (R480). -/

/-- Archive bytes that host software has not read (R479, R480). -/
def State.archiveUnread (s : State) (o : Obj) (t : Nat) : Bool :=
  let n := s.archiveBytes
  let off := (t - o.baseTile) * tileBytes
  let held := n - s.archiveFree
  let first := (off + n - s.reg 0x600074) % max 1 n
  held != 0 && (decide (first < held) || decide (n < first + tileBytes))

/-- One tile that a lost window held (R480): by class. -/
def State.loseT4Tile (s : State) (e : ErrRec) (t : Tile) : State :=
  match t.loc, s.objectAt (t.index * tileBytes) with
  | .t4 _, some o =>
    match o.cls with
    | .weights => s
    | .scratch =>
      let occs := s.allLive.filter (fun p => p.2 == t.tag.step)
      if occs = [] then s
      else
        let seq := s.nextTrailSeq
        let s := (s.faultRecord e 1 0x0F 1 occs noSeq s.stepNow).openWindow e occs
        occs.foldl (fun s p => s.reexecute seq p) s
    | .archive =>
      if s.archiveUnread o t.index then
        s.faultRecord { e with address := t.index * tileBytes, detail := leBytes 8 tileBytes } 4 0x0F 0 [] noSeq s.stepNow
      else s
    | _ => (s.loseTile e t.index).1
  | _, _ => s

/-- The window is lost (R480): every T4 tile is gone at once. -/
def State.loseWindow (s : State) : State :=
  if !s.windowUsable then s
  else
    let lost := s.tiers.tiles.filter (fun t => match t.loc with | .t4 _ => true | _ => false)
    let x := if lost = [] then (default, s) else s.newError (dieRegion 0) 1
    let s := lost.foldl (fun s t => s.loseT4Tile x.1 t) x.2
    let tiles := s.tiers.tiles.map s.afterLoss
    let free (y : T4Slot) : T4Slot := { y with tile := none }
    { s with tiers := { s.tiers with
        tiles := tiles, slots := s.tiers.slots.map free, ranges := [], windowState := windowLost, withdraw := none
        withdrawn := [] } }.memEvent 6

end Sys2Proof.Machine
end

