-- ==== Sys2Proof/Machine/MemoryTiers.lean ====
section
/-! DEFINITION. The commands of the memory tiers and of host memory (R457–R489, R157). -/

namespace Sys2Proof.Machine

/-- TILE_MOVE_COMPLETE (R467–R469, R473): a tier move of a tile completes. A tile in T4 comes back by T4_FETCH_COMPLETE,
whose check it needs. -/
def effTileMoveComplete (tile : Nat) (to_ : MoveTo) (stall : Option Stall) (s : State) : State :=
  match s.tileAt tile, s.objectAt (tile * tileBytes) with
  | some t, some o =>
    if !s.up then s
    else
      let s := s.moveStall stall
      match t.loc, to_ with
      | .t2 .., .t3 => s.moveToT3 o t
      | .t3 _, .t2 m k => s.moveToT2 o t m k
      | .t3 _, .t4 => (s.moveToT4 o t).getD s
      | .t2 .., .t4 => (s.moveToT4 o t).getD s
      | _, _ => s
  | _, _ => s

/-- A fetched tile that passed its check lies clean in T3 and keeps its T4 copy, unless its slot is being withdrawn
(R467, R480). -/
def State.acceptTile (s : State) (o : Obj) (t : Tile) (k : Nat) (b : Bytes × Bytes) : State :=
  let f := match t.loc with | .t3 f => f | _ => s.pickFrame o t.index
  let leaving := match s.tiers.withdraw with | some w => w.slots.contains k | none => false
  let s := { s with
    mem := Memory.setBytes s.mem (t.index * tileBytes) b.1
    tiers := { s.tiers with refetched := s.tiers.refetched.filter (fun x => x != t.index) } }
  let s := if leaving then s.setSlot { s.slotEntry k with tile := none } else s
  (s.setTile { t with
    loc := .t3 f, dest := none, dirty := leaving, home := if leaving then none else some k, tag := tagOfBytes b.2 }).count
      3 0x41 (channelOf f) 1

/-- T4_FETCH_COMPLETE (R476, R477, R483, R488): the tile is accepted when its tag matches. The first failure of an
attempt starts a re-fetch; the second is an uncorrectable error. While the security block is quarantined the access waits
(R563). -/
def effT4FetchComplete (tile : Nat) (data sidecar : Bytes) (stall : Option Stall) (s : State) : State :=
  match s.tileAt tile, s.objectAt (tile * tileBytes) with
  | some t, some o =>
    match t.slot? with
    | none => s
    | some k =>
      if !s.up ∨ !s.windowUsable ∨ s.sec.quarantined then s
      else
        let s := (s.moveStall stall).count 0 0x43 0 1
        let e := s.slotEntry k
        match openTile s.tiers.hostKey e.archive k e.counter o.id (t.index - o.baseTile) data sidecar with
        | some b => s.acceptTile o t k b
        | none =>
          let n := (s.tiers.refetched.filter (fun x => x == tile)).length
          let s := ((s.satReg 0x600034 1).memEvent 2).count 0 0x45 0 1
          let s := s.answer blockMemory shed 0x0F
          let s := { s with tiers := { s.tiers with refetched := tile :: s.tiers.refetched } }
          if n % 2 = 0 then
            let x := s.newError (dieRegion 0) 0
            (x.2.faultRecord { x.1 with address := tile * tileBytes } 0 0x0F 0 [] noSeq s.stepNow).satReg 0x600038 1
          else
            let named := match stall with | some st => [(st.cadence, st.step)] | none => []
            let waits := (s.tiers.tierWaits.filter (fun w => w.tile == tile)).map (fun w => (w.cadence, w.step))
            let occs := (s.liveOf (named ++ waits)).eraseDups
            s.detect (dieRegion 0) 1 0x0F (tile * tileBytes) [] occs [tile] 1
  | _, _ => s

/-! The window (R474, R480). -/

/-- A range of the window is aligned and sized in 2 MiB (R474). -/
def rangeOk (r : Nat × Nat) : Bool := r.1 % 0x200000 == 0 && r.2 % 0x200000 == 0 && decide (0 < r.2)

/-- WINDOW_GRANT (R474, R488). A grant is taken while no window is granted. -/
def effWindowGrant (h : CmdHdr) (ranges : List (Nat × Nat)) (s : State) : State :=
  s.hostCommand h 0x0003 fun s =>
    let total := (ranges.map (·.2)).foldl (· + ·) 0
    if ranges.isEmpty ∨ !ranges.all rangeOk ∨ 2 ^ 41 < total ∨ s.windowUsable then
      (s.answer blockMemory refused 0x0C).complete h 0x0003 refused 0x0C 0 []
    else
      let s := { s with tiers := { s.tiers with ranges := ranges, windowState := windowGranted, withdrawn := [] } }
      (s.answer blockMemory served 0).complete h 0x0003 served 0 0 []

/-- A `SCRATCH` tile whose occurrence has committed (R480). -/
def State.scratchDone (s : State) (o : Obj) (t : Tile) : Bool :=
  o.cls == .scratch && !s.allLive.any (fun p => p.2 == t.tag.step)

/-- A tile that a withdrawal must move to T3: it lies in a withdrawn slot and is not dropped. -/
def State.mustMove (s : State) (slots : List Nat) (t : Tile) : Bool :=
  match t.loc, s.objectAt (t.index * tileBytes) with
  | .t4 k, some o => slots.contains k && !s.scratchDone o t
  | _, _ => false

/-- What a withdrawal does to a tile at once: second copies go, committed `SCRATCH` is dropped, the rest begins to move. -/
def State.withdrawTile (s : State) (slots : List Nat) (t : Tile) : State :=
  match t.slot?, s.objectAt (t.index * tileBytes) with
  | some k, some o =>
    if !slots.contains k then s
    else if t.inT4 then
      if s.scratchDone o t then
        (s.setTile { t with loc := .never, home := none, dirty := false, dest := none }).setSlot
          { s.slotEntry k with tile := none }
      else s.setTile { t with dest := some (.t3 (s.pickFrame o t.index)) }
    else (s.setTile { t with home := none, dirty := true }).setSlot { s.slotEntry k with tile := none }
  | _, _ => s

/-- WINDOW_WITHDRAW (R480): refused with cause 0x01 when T3 quotas cannot take the tiles; otherwise it completes when the
slots are empty. -/
def effWindowWithdraw (h : CmdHdr) (slots : List Nat) (s : State) : State :=
  s.hostCommand h 0x0004 fun s =>
    let ok := !slots.isEmpty && slots.all (fun k => decide (k < s.slotCount) && !s.tiers.withdrawn.contains k)
    if s.tiers.windowState ≠ windowGranted ∨ !ok then
      (s.answer blockMemory refused 0x0C).complete h 0x0004 refused 0x0C 0 []
    else
      let move := s.tiers.tiles.filter (s.mustMove slots)
      let tenants := (move.filterMap s.tenantOf).eraseDups
      let fits (tn : Nat) : Bool :=
        decide (s.t3Used tn + (move.filter (fun t => s.tenantOf t == some tn)).length ≤ (s.quotaOf tn).t3)
      if !tenants.all fits ∨ s.t3Free < move.length then
        (s.answer blockMemory refused 0x01).complete h 0x0004 refused 0x01 0 []
      else
        let s := s.tiers.tiles.foldl (fun s t => s.withdrawTile slots t) s
        let s := { s with tiers := { s.tiers with
            windowState := windowWithdrawing, withdraw := some ⟨slots, h, s.host.epoch⟩ } }
        s.answer blockMemory served 0

/-- WINDOW_WITHDRAW_COMPLETE (R480): the withdrawn slots are empty. -/
def effWindowWithdrawComplete (s : State) : State :=
  match s.tiers.withdraw with
  | none => s
  | some w =>
    if !s.up ∨ w.slots.any (fun k => s.slotsHeld.contains k) then s
    else
      let gone := w.slots ++ s.tiers.withdrawn
      let all := decide (s.slotCount ≤ gone.length)
      let s := { s with tiers := { s.tiers with
          withdraw := none
          windowState := if all then windowNone else windowGranted
          ranges := if all then [] else s.tiers.ranges
          withdrawn := if all then [] else gone } }
      s.completeIn w.epoch w.hdr 0x0004 served 0 0 []

/-! Host objects (R460, R469, R472, R473). -/

/-- First and last tile of the runtime and host objects' part of object space (R457). -/
def runtimeFirstTile : Nat := firstRuntimeTile
def runtimeLastTile : Nat := 0x080000000000 / tileBytes

def freshTile (i : Nat) : Tile :=
  { (default : Tile) with index := i, loc := .never, dirty := false, home := none, dest := none }

/-- A runtime or host object takes the next address, identifier and base pseudo-channel (R460, R464). -/
def State.addObject (s : State) (cls : ObjClass) (policy : Policy) (tenant n : Nat) : State :=
  let o : Obj := ⟨s.tiers.nextId, cls, policy, tenant, s.tiers.nextTile, n, s.tiers.nextPc⟩
  { s with tiers := { s.tiers with
      objects := s.tiers.objects ++ [o]
      tiles := s.tiers.tiles ++ (List.range n).map (fun i => freshTile (s.tiers.nextTile + i))
      nextId := s.tiers.nextId + 1, nextTile := s.tiers.nextTile + n, nextPc := (s.tiers.nextPc + 1) % 32 } }

/-- Tiles a tenant's objects hold, written or not. -/
def State.allocated (s : State) (tenant : Nat) : Nat :=
  ((s.tiers.objects.filter (fun o => o.tenant == tenant)).map (·.tiles)).foldl (· + ·) 0

/-- OBJ_ALLOC (R460, R464, R473, R488): a host object within quota, in T3 and what spills over in T4. The result is its
identifier and address. -/
def effObjAlloc (h : CmdHdr) (tiles : Nat) (s : State) : State :=
  s.hostCommand h 0x0005 fun s =>
    let tn := h.tenant.toNat
    let q := s.quotaOf tn
    let have_ := s.allocated tn
    let room3 := min (q.t3 - have_) s.t3Free
    let room4 := if s.tiers.windowState = windowGranted then
        min (q.t4 - (have_ - q.t3)) (s.slotCount - (s.slotsHeld.length + s.tiers.withdrawn.length)) else 0
    if tiles = 0 ∨ tn < 0x8000 ∨ 0x80FF < tn then
      (s.answer blockMemory refused 0x0C).complete h 0x0005 refused 0x0C 0 []
    else if room3 + room4 < tiles ∨ runtimeLastTile < s.tiers.nextTile + tiles ∨ 0xFFFFFFFE < s.tiers.nextId then
      (s.answer blockMemory refused 0x01).complete h 0x0005 refused 0x01 0 []
    else
      let res := leBytes 4 s.tiers.nextId ++ leBytes 8 (s.tiers.nextTile * tileBytes)
      let s := (s.addObject .host .hot tn tiles).spill tn (tiles - room3)
      (s.answer blockMemory served 0).complete h 0x0005 served 0 0 res

/-- An object and its tiles cease to be allocated. -/
def State.dropObject (s : State) (o : Obj) : State :=
  let inside (t : Nat) : Bool := decide (o.baseTile ≤ t ∧ t < o.baseTile + o.tiles)
  let free (x : T4Slot) : T4Slot :=
    match x.tile with
    | some t => if inside t then { x with tile := none } else x
    | none => x
  { s with
    mem := Memory.clear s.mem (o.baseTile * tileBytes) (o.tiles * tileBytes)
    tiers := { s.tiers with
      objects := s.tiers.objects.filter (fun x => x.id != o.id)
      tiles := s.tiers.tiles.filter (fun t => !inside t.index)
      slots := s.tiers.slots.map free } }

/-- OBJ_FREE (R460): the tenant's own host object. -/
def effObjFree (h : CmdHdr) (id : BitVec 32) (s : State) : State :=
  s.hostCommand h 0x0006 fun s =>
    match s.tiers.objects.find? (fun o => o.id == id.toNat && o.isHostClient && o.tenant == h.tenant.toNat) with
    | none => (s.answer blockMemory refused 0x0C).complete h 0x0006 refused 0x0C 0 []
    | some o => ((s.dropObject o).answer blockMemory served 0).complete h 0x0006 served 0 0 []

/-! BAR2 (R157, R458, R487, R505). -/

def bar2Size : Nat := 2 ^ 36

def State.bar2Base (s : State) : Nat := s.reg64 0x600010 / bar2Size * bar2Size

/-- A byte of the trail ring as the records in it lay it out (R81, R93). -/
def ringByteOf (n off : Nat) : List TrailRec → Byte
  | [] => 0
  | r :: rs =>
    let d := (off + n - r.at_) % n
    if d < recSize r.draft then (recBytes r.seq r.prev r.draft).getD d 0 else ringByteOf n off rs

/-- A stored byte: the trail ring's from its records, any other from memory. -/
def State.storedByte (s : State) (a : Nat) : Byte :=
  let base := s.reg64 0x10020
  let n := s.ringBytes
  if base ≤ a ∧ a < base + n then ringByteOf n (a - base) s.trail.records else Memory.get s.mem a

/-- A tile held only in T4. -/
def State.onlyT4 (s : State) (a : Nat) : Bool := ((s.tileAt (a / tileBytes)).map Tile.inT4).getD false

def State.bar2Byte (s : State) (a : Nat) : Byte :=
  if !s.mapped a 1 then 0 else if s.onlyT4 a then 0xFF else s.storedByte a

/-- BAR2_READ (R487, R505): stored bytes; all ones for a tile held only in T4, which is counted. -/
def effBar2Read (x n : Nat) (s : State) : State :=
  let reply (s : State) (b : BusReply) : State := { s with host := { s.host with reply := b } }
  if s.power.resetHeld ∨ s.power.perstHeld ∨ s.power.safe ∨ bar2Size < x + n then s
  else if !s.power.ready then reply s (.bytes (List.replicate n 0xFF))
  else
    let a := s.bar2Base + x
    let cold := (List.range n).any (fun i => s.mapped (a + i) 1 && s.onlyT4 (a + i))
    let b := BusReply.bytes ((List.range n).map (fun i => s.bar2Byte (a + i)))
    reply (if cold then s.satReg 0x600048 1 else s) b

/-- BAR2_WRITE (R157, R487, R488): applied to host objects of host clients; any other write is discarded, and refused
where the address is mapped. -/
def effBar2Write (x : Nat) (data : Bytes) (s : State) : State :=
  if !s.up ∨ !s.host.linkUp ∨ data.isEmpty ∨ bar2Size < x + data.length then s
  else
    let a := s.bar2Base + x
    if !s.mapped a data.length then s
    else
      match s.objectAt a with
      | some o =>
        if o.isHostClient then (s.store a data).answer blockMemory served 0
        else (s.satReg 0x600044 1).answer blockMemory refused 0x09
      | none =>
        let s := match lanternAt a with
          | some l => s.satReg (0x700000 + 0x10000 * lanternSheet l + 0x1C) 1
          | none => s
        (s.satReg 0x600044 1).answer blockMemory refused 0x09

/-! Views (R489). -/

/-- The state of the tile that holds an address, as `TILE_QUERY_RESULT`. -/
def State.tileView (s : State) (a : Nat) : Nat :=
  match s.objectAt a, s.tileAt (a / tileBytes) with
  | some _, some t =>
    let p := match t.loc with
      | .never => (0, 0)
      | .t3 f => (1, f)
      | .t4 k => (2, k)
      | .t2 _ k => (3, k)
    let loc := if t.dest.isSome then 4 else p.1
    loc + b2n t.dirty * 8 + b2n t.t4Copy * 16 + b2n (s.tilePinned t) * 32 + p.2 % 2 ^ 26 * 64
  | _, _ => 7

/-- TILE_QUERY (R489): a write of `TILE_QUERY_HI` samples the tile of the address. -/
def effTileQuery (hi : Word) (s : State) : State :=
  if !s.up then s
  else
    let a := s.loForCommit 0x600060 true + hi.toNat * 2 ^ 32
    let s := (s.consumeLo 0x600060).setReg64 0x600060 a
    s.setReg 0x600068 (s.tileView a)

/-- TENANT_VIEW_SAMPLE (R489). -/
def effTenantViewSample (s : State) : State :=
  if !s.readable then s.replyWith 0
  else
    let tn := s.fld ⟨0x60004C, 0, 16⟩
    let q := s.quotaOf tn
    let pair (a b : Nat) : Nat := min a (2 ^ 20 - 1) + min b 2047 * 2 ^ 20
    let v0 := pair q.t3 q.t2
    let s := s.setReg 0x600050 v0
    let s := s.setReg 0x600054 (pair (s.t3Used tn) (s.t2Used tn))
    let s := s.setReg 0x600058 (min q.t4 (2 ^ 27 - 1))
    let sp := (lookupKey tn s.tiers.spillsLast).getD 0
    let s := s.setReg 0x60005C (min (s.t4Used tn) (2 ^ 27 - 1) + min sp 31 * 2 ^ 27)
    s.replyWith v0

/-- SOFT_ROW_REPAIR_COMPLETE (R485): the pseudo-channel's traffic goes on. -/
def effSoftRowRepairComplete (row : Nat) (s : State) : State :=
  if s.up ∧ s.tiers.repairing.contains row then
    (({ s with tiers := { s.tiers with
        repairing := s.tiers.repairing.filter (fun r => r != row)
        heldPcs := s.tiers.heldPcs.filter (fun p => p.1 != row) } }).satReg
      0x60003C 1).memEvent 3
  else s

/-- The spills of the step become those of the last committed step (R489). -/
def State.commitTiers (s : State) : State :=
  { s with tiers := { s.tiers with spillsLast := s.tiers.spills, spills := [] } }

def execWindowGrant (h : CmdHdr) (ranges : List (Nat × Nat)) (s : State) : Host.Outcome State Fault Refusal :=
  .next (effWindowGrant h ranges s)

def execWindowWithdraw (h : CmdHdr) (slots : List Nat) (s : State) : Host.Outcome State Fault Refusal :=
  .next (effWindowWithdraw h slots s)

def execWindowWithdrawComplete (s : State) : Host.Outcome State Fault Refusal := .next (effWindowWithdrawComplete s)

def execObjAlloc (h : CmdHdr) (tiles : Nat) (s : State) : Host.Outcome State Fault Refusal := .next (effObjAlloc h tiles s)

def execBar2Read (x n : Nat) (s : State) : Host.Outcome State Fault Refusal := .next (effBar2Read x n s)

def execBar2Write (x : Nat) (data : Bytes) (s : State) : Host.Outcome State Fault Refusal := .next (effBar2Write x data s)

def execTileQuery (hi : Word) (s : State) : Host.Outcome State Fault Refusal := .next (effTileQuery hi s)

def execTenantViewSample (s : State) : Host.Outcome State Fault Refusal := .next (effTenantViewSample s)

end Sys2Proof.Machine
end

