-- ==== Sys2Proof/Machine/Boot.lean ====
section
/-! DEFINITION. Slots and booting (R507–R516, R577): what a slot must pass, what a boot loads, and the runtime's start. -/

namespace Sys2Proof

/-- Objects that the start image keeps in T3 (R461, R469). -/
def ObjectDecl.inT3 (o : ObjectDecl) : Bool := o.policy == .pinT3 || o.policy == .hot || o.policy == .lend

def Component.image? (c : Component) : Option (Image × Bool) :=
  match c.body with
  | .image i st => some (i, st)
  | _ => none

def Component.config? (c : Component) : Option (List BootRecord) :=
  match c.body with
  | .bootConfig r => some r
  | _ => none

def Component.runtime? (c : Component) : Option Nat :=
  match c.body with
  | .runtime v => some v
  | _ => none

def Slot.startImage (x : Slot) : Option Image :=
  (x.components.filterMap Component.image?).findSome? (fun p => if p.2 then some p.1 else none)

def Slot.config (x : Slot) : Option (List BootRecord) := x.components.findSome? Component.config?
def Slot.runtime (x : Slot) : Option Nat := x.components.findSome? Component.runtime?

end Sys2Proof

namespace Sys2Proof.Machine

/-! Life-cycle states (R541). -/

def lcFab : Nat := 0
def lcProvision : Nat := 1
def lcService : Nat := 2
def lcReturn : Nat := 3
def lcEnd : Nat := 4

/-- The state is the code of the highest programmed word. -/
def State.lc (s : State) : Nat := s.sec.lcWords.getLast?.getD 0

/-! The boot configuration block (R514, R515). -/

/-- A type 1 record names bits of class B of one register. -/
def registerRecordOk (off mask value : Nat) : Bool :=
  match findReg off with
  | some r => (mask ||| fieldMask (fun f => f.cls == .bootStatic) r.fields) == fieldMask (fun f => f.cls == .bootStatic) r.fields
      && (value ||| mask) == mask
  | none => false

/-- The value of a class B register that the records give. -/
def recordedReg (rs : List BootRecord) (off : Nat) : Nat :=
  rs.foldl (fun v r =>
    match r with
    | .register o mask value => if o = off then (v &&& (2 ^ 32 - 1 - mask)) ||| (value &&& mask) else v
    | _ => v) (regReset off).toNat

/-- The PTP profile of a domain allows its other values (R414). -/
def ptpProfileOk (v : Nat) : Bool :=
  decide (bitsOf v 8 2 ≤ 2) && decide (bitsOf v 10 3 ≤ 5) && decide (bitsOf v 14 2 ≤ 2) &&
    (bitsOf v 8 2 == 0 || (bitAt v 13 && bitsOf v 14 2 == 0)) && decide (2 ≤ bitsOf v 17 4)

/-- `PORT_CFG_n` is in range (R455): a mode that exists and an MTU from 1,500 to 9,216. -/
def portConfigOk (v : Nat) : Bool := decide (bitsOf v 0 2 ≤ 2 ∧ 1500 ≤ bitsOf v 16 14 ∧ bitsOf v 16 14 ≤ 9216)

/-- A size that type 1 records set lies in its range (R93, R455, R514, R524). -/
def sizeRecordOk (rs : List BootRecord) (off width lo hi : Nat) : Bool :=
  let named := rs.any (fun r => match r with | .register o mask _ => o == off && bitsOf mask 0 width != 0 | _ => false)
  let v := bitsOf (recordedReg rs off) 0 width
  !named || decide (lo ≤ v ∧ v ≤ hi)

/-- The class B values that the records give are in range (R515). -/
def bootValuesOk (rs : List BootRecord) : Bool :=
  ptpProfileOk (recordedReg rs 0x300100) && ptpProfileOk (recordedReg rs 0x300180) &&
    (List.range 4).all (fun n => portConfigOk (recordedReg rs (0x401000 + 0x100 * n))) &&
    sizeRecordOk rs 0x10028 16 16 4096 && sizeRecordOk rs 0x10002C 16 16 4096 && sizeRecordOk rs 0x400010 16 64 4096 &&
    sizeRecordOk rs 0x60006C 32 32 131072

/-- The sizes record, when there is exactly one within its ranges. -/
def sizesOf (rs : List BootRecord) : Option (Nat × Nat × Nat × Nat) :=
  match rs.filterMap (fun r => match r with | .sizes t o p a => some (t, o, p, a) | _ => none) with
  | [(t, o, p, a)] =>
    if 16 ≤ t ∧ t ≤ 4096 ∧ 16 ≤ o ∧ o ≤ 4096 ∧ 64 ≤ p ∧ p ≤ 4096 ∧ 32 ≤ a ∧ a ≤ 131072 then some (t, o, p, a) else none
  | _ => none

def quotasOf (rs : List BootRecord) : List Quota := rs.filterMap (fun r => match r with | .quota q => some q | _ => none)

/-- Frames of 31 pseudo-channels less the reserves of R465, for given sizes; no window is granted at boot. -/
def planFrames (sizes : Nat × Nat × Nat × Nat) (tiles : Nat) : Nat :=
  31 * framesPerPc - (576 + ceilDiv (8 * tiles) tileBytes + (sizes.1 + sizes.2.1 + sizes.2.2.1) * 32 + sizes.2.2.2 + 32)

def sumTiles (os : List ObjectDecl) : Nat := (os.map (·.tiles)).foldl (· + ·) 0

/-- The check of the boot configuration block against the start image (R515). -/
def configOk (rs : List BootRecord) (img : Option Image) : Bool :=
  let regs := rs.all (fun r => match r with | .register o m v => registerRecordOk o m v | _ => true)
  match sizesOf rs with
  | none => false
  | some z =>
    let os := (img.map (·.objects)).getD []
    let room := planFrames z (sumTiles os)
    let host := quotasOf rs
    let all := host ++ ((img.map (·.quotas)).getD [])
    regs && bootValuesOk rs &&
      decide (sumTiles (os.filter ObjectDecl.inT3) ≤ room) && host.all (fun q => decide (0x8000 ≤ q.tenant ∧ q.tenant ≤ 0x80FF))
      && decide ((all.map (·.t3)).foldl (· + ·) 0 ≤ room)

/-! Slots (R509, R510, R513). -/

/-- The components that a life-cycle state loads (R513). -/
def loads (lc : Nat) (c : Component) : Bool :=
  match c.body with
  | .runtime _ => true
  | .bootConfig _ => lc == lcProvision || lc == lcService
  | .image _ _ => lc == lcService

/-- A component's signature verifies under the key of its kind (R509, R540). -/
def State.signedOk (s : State) (c : Component) : Bool :=
  match c.body with
  | .runtime _ => ecdsaVerify Config.makerKey c.digest c.sigR c.sigS
  | .bootConfig _ =>
    match s.sec.site.configKey with
    | some k => ecdsaVerify k c.digest c.sigR c.sigS
    | none => false
  | .image _ _ => s.sec.site.imageKeys.any (fun k => ecdsaVerify k c.digest c.sigR c.sigS)

/-- A slot's result (R510, R524): 0 passes; else the first check that fails. -/
def State.slotResult (s : State) (lc : Nat) (x : Option Slot) : Nat :=
  match x with
  | none => 1
  | some x =>
    let cs := x.components.filter (loads lc)
    if !x.committed then 1
    else if !ecdsaVerify Config.makerKey (sha384 x.manifest) x.sigR x.sigS then 2
    else if x.securityVersion < s.sec.minVersion then 3
    else if cs.any (fun c => sha384 c.bytes != c.digest) then 4
    else if cs.any (fun c => !s.signedOk c) then 5
    else if loads lc ⟨[], [], 0, 0, .bootConfig []⟩ && !(match x.config with | some r => configOk r x.startImage | none => false) then 6
    else 0

/-- Slots in descending `SLOT_SEQ`: the first that passes, and both results (7: not tried). -/
def State.chooseSlot (s : State) (lc : Nat) : Option Nat × Nat × Nat :=
  let seqOf (x : Option Slot) : Nat := (x.map (·.slotSeq)).getD 0
  let a := s.slotResult lc s.flash.slotA
  let b := s.slotResult lc s.flash.slotB
  if seqOf s.flash.slotB ≤ seqOf s.flash.slotA then
    if a = 0 then (some 0, 0, 7) else if b = 0 then (some 1, a, 0) else (none, a, b)
  else if b = 0 then (some 1, 7, 0)
  else if a = 0 then (some 0, 0, b)
  else (none, a, b)

def State.slotAt (s : State) (i : Nat) : Option Slot := if i = 0 then s.flash.slotA else s.flash.slotB

def State.activeSlot (s : State) : Option Slot := s.power.slot.bind s.slotAt

/-! Loading (R516, R517, R465). -/

/-- Class B values take effect (R516). -/
def State.applyRecord (s : State) (r : BootRecord) : State :=
  match r with
  | .register o mask value => s.setReg o ((s.reg o &&& (2 ^ 32 - 1 - mask)) ||| (value &&& mask))
  | .sizes t o p a =>
    (((s.setFld ⟨0x10028, 0, 16⟩ t).setFld ⟨0x10002C, 0, 16⟩ o).setFld ⟨0x400010, 0, 16⟩ p).setReg 0x60006C a
  | .quota q => { s with tiers := { s.tiers with quotas := s.tiers.quotas ++ [q] } }
  | .portAddr .. => s

/-- An image object is placed with its initial contents (R460, R464). -/
def State.placeObject (s : State) (d : ObjectDecl) : State :=
  let o : Obj := ⟨d.id, d.cls, d.policy, d.tenant, d.baseTile, d.tiles, s.tiers.nextPc⟩
  let s := { s with tiers := { s.tiers with
      objects := s.tiers.objects ++ [o]
      tiles := s.tiers.tiles ++ (List.range d.tiles).map (fun i => freshTile (d.baseTile + i))
      nextPc := (s.tiers.nextPc + 1) % 32 } }
  s.store (d.baseTile * tileBytes) (d.init.take (d.tiles * tileBytes))

/-- The start image's objects are placed and the image stands ready (R48, R510). -/
def State.placeImage (s : State) (img : Image) : State :=
  let s := img.objects.foldl State.placeObject s
  { s with
    tiers := { s.tiers with quotas := img.quotas ++ s.tiers.quotas }
    search := { s.search with colls := img.collections.map freshColl }
    steps := { s.steps with image := some img } }

/-- The active image's objects and quotas go; objects with an identifier in `keep` stay. -/
def State.dropImage (s : State) (keep : List Nat) : State :=
  let gone := s.tiers.objects.filter (fun o => decide (o.id < 0x80000000) && !keep.contains o.id)
  let s := gone.foldl State.dropObject s
  let host := (s.host.bootConfig.filterMap (fun r => match r with | .quota q => some q | _ => none))
  { s with
    tiers := { s.tiers with quotas := host }, search := { s.search with colls := [] }
    steps := { s.steps with image := none } }

/-- Trail ring and archive are runtime objects (R461, R479). -/
def State.placeRings (s : State) : State :=
  let base := s.tiers.nextTile * tileBytes
  let s := (s.addObject .system .pinT3 0 (s.fld ⟨0x10028, 0, 16⟩ * 32)).setReg64 0x10020 base
  let id := s.tiers.nextId
  let s := s.addObject .archive .archive 0 (s.reg 0x60006C)
  { s with tiers := { s.tiers with archiveObj := some id } }

/-- What a slot gives the device in a life-cycle state (R513). -/
def State.loadSlot (s : State) (lc : Nat) (x : Slot) : State :=
  let s := s.setReg 0x14 ((x.runtime).getD 0)
  let dig (p : Component → Bool) : Bytes := ((x.components.find? p).map (·.digest)).getD []
  let s := { s with power := { s.power with runtimeDigest := dig (fun c => c.runtime?.isSome) } }
  let s :=
    if lc = lcProvision ∨ lc = lcService then
      let rs := x.config.getD []
      let s := { s with
        power := { s.power with configDigest := dig (fun c => c.config?.isSome) }, host := { s.host with bootConfig := rs } }
      (rs.foldl State.applyRecord s).placeRings
    else s
  if lc = lcService then
    match x.startImage with
    | some img => s.placeImage img
    | none => s
  else s

/-! The runtime's start (R48, R511). -/

/-- A run falls due from now where a schedule covers the units in service; otherwise there is no run (R511). -/
def State.startService (s : State) : State :=
  match s.selectSchedule s.faults.out with
  | some i => { s with faults := { s.faults with schedule := i }, steps := { s.steps with runDue := some s.now } }
  | none =>
    let x := s.newError 0xA000 4
    x.2.faultRecord x.1 4 0x88 0 [] noSeq 0

/-! Power-on (R510, R577). -/

/-- Repairs in the log are applied at boot (R569): failed columns, spare lane groups and banks, rows. -/
def State.applyRepair (s : State) (e : RepairEntry) : State :=
  match e.kind with
  | 0 => { s with arrays := s.arrays.modify (regionInst e.region) (fun a =>
      if a.failedCols.contains e.index then a else { a with failedCols := a.failedCols ++ [e.index] }) }
  | 2 => { s with tiers := { s.tiers with spareRows := Config.rowBankGroup e.index :: s.tiers.spareRows } }
  | _ => { s with faults := { s.faults with spares := spareKey e.region :: s.faults.spares } }

/-- A unit that fails its power-on test is unusable (R511, R577); a bank or lane group takes its spare while free. -/
def State.unusableUnit (s : State) (r : Nat) : State :=
  let cls := regionClass r
  if (cls = 2 ∨ cls = 4) ∧ !s.faults.spares.contains (spareKey r) then
    { s with faults := { s.faults with spares := spareKey r :: s.faults.spares } }
  else
    let r := if cls = 2 then dieRegion (sheetDie (regionInst r / 1024))
      else if cls = 4 then dieRegion (guyLoss (regionInst r / 32)) else r
    { s with faults := { s.faults with out := r :: s.faults.out, unusable := r :: s.faults.unusable } }

/-- `BOOT_UNUSABLE` (R524). -/
def unusableWord (out : List Nat) (standbyBad : Bool) : Nat :=
  let bits (base n lo : Nat) : Nat := maskOf (((List.range n).filter (fun i => out.contains (base + i))).map (· + lo))
  bits 0 4 0 ||| bits 0x1000 8 4 ||| bits 0x7000 8 12 ||| bits 0x5000 4 20 ||| (if standbyBad then 2 ^ 24 else 0)

/-- The copy of the site store that a boot uses (R547). -/
def bootSite (f : Flash) : SiteStore :=
  match f.siteA, f.siteB with
  | some a, some b => if b.seq < a.seq then a else b
  | some a, none => a
  | none, some b => b
  | none, none => default

/-- The safe state a boot ends in at steps 1 and 2, if any (R506, R511). -/
def bootFailure (f : Flash) (b : BootInputs) : Option Nat :=
  if !f.descriptorOk then some 0xA
  else if !b.pllLocks then some 0xE
  else if !b.securityOk then some 9
  else if !b.bootPathOk then some 0xA
  else if !b.pair0Ok && !b.pair1Ok then some 0xB
  else if !b.hbmTrains then some 0xF
  else none

/-- The host-tier key and the entropy source at a boot (R476, R527). -/
def State.drawHostKey (s : State) : State :=
  { s with
    free := s.free + 1
    tiers := { s.tiers with hostKey := leBytes 32 (Config.freeNat s.free) }
    sec := { s.sec with selfTestOk := true, entropyOk := true, site := bootSite s.flash } }

/-- The boot ROM from release to the runtime's start (R510, R513, R577). -/
def State.boot (s : State) (b : BootInputs) : State :=
  let s := { s with
    flash := b.flash.getD s.flash
    power := { s.power with resetHeld := false }
    host := { s.host with gen := b.pcieGen, width := b.pcieWidth, flit := b.pcieGen == 6, linkUp := !s.power.perstHeld } }
  match bootFailure s.flash b with
  | some c => s.enterSafe c
  | none =>
    let s := (s.flash.repairLog.foldl State.applyRepair s).drawHostKey
    let s := b.failing.foldl State.unusableUnit s
    let bad := (if b.pair0Ok then [] else [0]) ++ (if b.pair1Ok then [] else [1])
    let s := s.setReg 8 (unusableWord s.faults.out (!bad.isEmpty))
    let eth := maskOf (((List.range 4).filter (fun n => !s.isOut (portRegion n))).map (· + 3))
    let s := s.setReg 0x20000 (b2n s.flash.ref25 + 2 + 4 + eth)
    let s := { s with power := { s.power with
        activePair := if b.pair0Ok then 0 else 1, standby := bad.isEmpty, pairsUnusable := bad } }
    if s.lc = lcEnd then s.enterSafe 0xD
    else
      let c := s.chooseSlot s.lc
      let s := (s.setFld ⟨4, 8, 4⟩ c.2.1).setFld ⟨4, 12, 4⟩ c.2.2
      match c.1 with
      | none => s.enterSafe 0xC
      | some i =>
        let s := ({ s with power := { s.power with slot := some i } }).setStage 4
        match s.slotAt i with
        | some x => s.loadSlot s.lc x
        | none => s

/-- RUNTIME_READY (R48, R510, R511, R513). -/
def effRuntimeReady (s : State) : State :=
  if s.power.resetHeld ∨ s.power.ready ∨ s.power.safe ∨ s.power.stage ≠ 4 then s
  else
    let s := ({ s with power := { s.power with ready := true, devReady := true } }).setStage 5
    if s.lc = lcService ∧ s.steps.image.isSome then s.startService else s

def execRuntimeReady (s : State) : Host.Outcome State Fault Refusal := .next (effRuntimeReady s)

end Sys2Proof.Machine
end

