-- ==== Sys2Proof/Machine/Counters.lean ====
section
/-! DEFINITION. The event counters (18). -/

namespace Sys2Proof.Machine

/-- Whether an event and instance exist on a die (R588). An event without instances takes instance 0. -/
def eventExists (die event inst : Nat) : Bool :=
  let compute := die == 1 || die == 2
  let groups := match die with | 1 => 4 | 2 => 4 | 3 => 6 | _ => 0
  let lines := match die with | 0 => [3, 4, 5] | 1 => [0, 2, 4] | 2 => [1, 2, 5] | _ => [0, 1, 3]
  if event = 0x01 ∨ event = 0x02 then inst == 0
  else if 0x10 ≤ event ∧ event ≤ 0x14 then compute && decide (inst < 2)
  else if 0x20 ≤ event ∧ event ≤ 0x22 then compute && decide (inst < 4)
  else if 0x30 ≤ event ∧ event ≤ 0x34 then decide (inst < groups)
  else if 0x40 ≤ event ∧ event ≤ 0x42 then die == 3
  else if 0x43 ≤ event ∧ event ≤ 0x45 then die == 0 && inst == 0
  else if event = 0x46 then compute && inst == 0
  else if 0x50 ≤ event ∧ event ≤ 0x55 then die == 0 && decide (inst < 4)
  else if event = 0x58 then lines.contains inst
  else if event = 0x60 ∨ event = 0x61 then decide (1 ≤ inst ∧ inst ≤ 7)
  else if event = 0x70 ∨ event = 0x71 then die == 0 && decide (inst < 8)
  else if event = 0x78 then die == 3 && decide (inst < 5)
  else false

def State.counter (s : State) (die k : Nat) : Counter :=
  (s.counters.find? (fun c => c.die == die && c.k == k)).getD { (default : Counter) with die := die, k := k }

/-- A counter in its place; one that is as after reset is not listed. -/
def State.setCounter (s : State) (c : Counter) : State :=
  let rest := s.counters.filter (fun x => !(x.die == c.die && x.k == c.k))
  let blank : Counter := { (default : Counter) with die := c.die, k := c.k }
  { s with counters := if c = blank then rest
      else insertSorted (fun a b => decide (a.die * 64 + a.k ≤ b.die * 64 + b.k)) c rest }

def counterPage (die : Nat) : Nat := 0xF00000 + 0x10000 * die

/-- The page of a lost die reads 0 and ignores writes (R585). -/
def State.pageLost (s : State) (die : Nat) : Bool := s.faults.out.contains (0xA000 + die)

/-- CNT_LATCH (R586): a read of `CNT_k_LO` latches the counter with its overflow bit and the device time. -/
def effCntLatch (d : Fin 4) (k : Fin 64) (s : State) : State :=
  if !s.readable || s.pageLost d.val then s.replyWith 0
  else
    let c := s.counter d.val k.val
    let hi := counterPage d.val + 0x104 + 8 * k.val
    let s := { s with latches := putKey hi (BitVec.ofNat 32 (c.value / 2 ^ 32 + b2n c.ovf * 2 ^ 31)) s.latches }
    (s.setReg64 (counterPage d.val + 0x310) (compact s.now)).replyWith (c.value % 2 ^ 32)

/-- CNT_CFG_WRITE (R583): a write that changes the selection or mode clears the counter and its overflow bit. -/
def effCntCfgWrite (d : Fin 4) (k : Fin 64) (v : Word) (s : State) : State :=
  if !s.up || s.pageLost d.val then s
  else
    let c := s.counter d.val k.val
    let ev := bitsOf v.toNat 0 8
    let inst := bitsOf v.toNat 8 4
    let lv := bitAt v.toNat 12
    let same := c.event == ev && c.instNo == inst && c.level == lv
    s.setCounter { c with
      event := ev, instNo := inst, level := lv, sat := bitAt v.toNat 13
      value := if same then c.value else 0, ovf := same && c.ovf }

/-- CNT_CLEAR (R590): a write of `CNT_CLEAR_HI` clears every counter named, and consumes the held low half (R6). -/
def effCntClear (d : Fin 4) (hi : Word) (s : State) : State :=
  if !s.up || s.pageLost d.val then s
  else
    let lo := counterPage d.val + 0x308
    let mask := s.loForCommit lo false + hi.toNat * 2 ^ 32
    let clear (c : Counter) : Counter := { c with value := 0, ovf := false }
    let s := s.consumeLo lo
    (s.counters.filter (fun c => c.die == d.val && bitAt mask c.k)).foldl (fun s c => s.setCounter (clear c)) s

/-- The overflow bits of a die (R590). -/
def State.overflows (s : State) (die : Nat) : Nat :=
  maskOf ((s.counters.filter (fun c => c.die == die && c.ovf)).map (·.k))

/-- Overflow bits cleared by a write of ones (R590). -/
def State.clearOverflows (s : State) (die mask : Nat) : State :=
  (s.counters.filter (fun c => c.die == die && bitAt mask c.k)).foldl (fun s c => s.setCounter { c with ovf := false }) s

/-- `CNT_CFG_k` as it reads (R590). -/
def State.counterCfg (s : State) (die k : Nat) : Nat :=
  let c := s.counter die k
  c.event + c.instNo * 2 ^ 8 + b2n c.level * 2 ^ 12 + b2n c.sat * 2 ^ 13 + b2n (eventExists die c.event c.instNo) * 2 ^ 15

def execCntLatch (d : Fin 4) (k : Fin 64) (s : State) : Host.Outcome State Fault Refusal := .next (effCntLatch d k s)

def execCntCfgWrite (d : Fin 4) (k : Fin 64) (v : Word) (s : State) : Host.Outcome State Fault Refusal :=
  .next (effCntCfgWrite d k v s)

def execCntClear (d : Fin 4) (hi : Word) (s : State) : Host.Outcome State Fault Refusal := .next (effCntClear d hi s)

end Sys2Proof.Machine
end

