-- ==== Sys2Proof/Machine/Gates.lean ====
section
/-! DEFINITION. The commands of the fusion engine that judge a step (R232–R250): the stream state vector, grid fusion, the
consistency gates, the degradation ladder and the answers of the block. Each acts on the running occurrence of `CADENCE_0`. -/

namespace Sys2Proof.Machine

/-! What fusion writes into the groundsheets. -/

def State.fusionUnit (s : State) : Nat := (s.steps.image.map (·.fusionUnit)).getD 0

/-- A write of the fusion engine, when every slot that it touches is free for the engine's use (R151, R153): the slots fill, the
bytes are stored, and the lanterns are raised (R150). Otherwise its waits are issued and it stays due. -/
def State.fusionWrite (s : State) (w : FusionWrite) : State :=
  let u := s.fusionUnit
  let slots := slotsIn w.addr w.bytes.length
  if slots.all (s.waitGranted u) then
    let s := slots.foldl (fun s i => (s.dropWait u i).fillLantern u i) s
    let s := s.cstore 0 u w.addr w.bytes
    slots.foldl (fun s i => s.raiseLantern u i (s.stepTime w.step) w.step) s
  else
    let s := slots.foldl (fun s i => if s.waitGranted u i then s else s.issueWait 0 u i) s
    { s with fusion := { s.fusion with due := s.fusion.due ++ [w] } }

/-- Writes that were due are tried again, in their order. -/
def State.resumeFusion (s : State) (unit : Nat) : State :=
  if unit = s.fusionUnit then
    s.fusion.due.foldl State.fusionWrite { s with fusion := { s.fusion with due := [] } }
  else s

/-- The frame of a slot that selector 0 names in an occurrence (R167). -/
def Occurrence.frameNow (o : Occurrence) (slot : Nat) : Option FrameRec :=
  (o.frames.find? (fun f => f.slot == slot)).bind (·.current)

/-- A privileged record (R236). -/
def State.privilegedRecord (s : State) (o : Occurrence) (ts i : Nat) (d : StreamDecl) (f : FStream) : Bytes :=
  let value :=
    if d.kind = 3 then
      match o.frameNow d.slot with
      | some r => leBytes 8 (compact r.stamp) ++ leBytes 4 r.entry ++ leBytes 20 0
      | none => leBytes 32 0
    else
      match f.value with
      | some v => fitBytes 32 ((v.take 8).flatMap (leBytes 4))
      | none => (List.replicate 8 nan32).flatMap (leBytes 4)
  let els := if d.kind = 3 then 0 else match f.value with | some v => min v.length 8 | none => 0
  value ++ leBytes 4 (if d.kind = 3 then 0 else f.variances.headD 0) ++ leBytes 2 (s.streamBits d f) ++ leBytes 2 i ++
    leBytes 1 els ++ leBytes 1 (s.maskCause d f) ++ leBytes 6 0 ++ leBytes 8 o.step ++ leBytes 8 (compact ts)

/-- The stream state vector (R234). -/
def State.stateVector (s : State) : Bytes := s.streamPairs.flatMap (fun p => leBytes 2 (s.streamBits p.1 p.2))

/-- The stream state vector and after it the privileged records, written into every groundsheet that compiled work reads
(R234–R236). -/
def State.writeStreamState (s : State) (o : Occurrence) : State :=
  match s.steps.image with
  | none => s
  | some img =>
    let ts := (s.steps.run.map (fun r => r.instant o.step)).getD 0
    let pairs := s.streamPairs
    let idx := (List.zip (List.range pairs.length) pairs).filter (fun q => q.2.1.privileged)
    let recs := idx.flatMap (fun q => s.privilegedRecord o ts q.1 q.2.1 q.2.2)
    let vec := s.stateVector
    let s := img.vectorBase.foldl (fun s a => s.fusionWrite ⟨a, vec, o.step⟩) s
    if idx = [] then s else img.privilegedBase.foldl (fun s a => s.fusionWrite ⟨a, recs, o.step⟩) s

/-! The gates. -/

/-- What the gates decide for the streams: verdicts by region, and the streams after masks, contests and reinstatement runs
(R239–R241). -/
structure GateResult where
  masked : List Nat
  regions : List Nat
  streams : List FStream
  nonfinite : Bool
  deriving DecidableEq, Repr, Inhabited

/-- The gates (R238–R241): regions in ascending order, eligibility fixed at the start. -/
def State.gateResult (s : State) (scores : List (Nat × Nat × Nat)) : GateResult :=
  let checks := (s.steps.image.map (·.checks)).getD []
  let indexed := List.zip (List.range checks.length) checks
  let usable := s.streamPairs.map (fun p => s.usable p.1 p.2)
  let eligible (i : Nat) : Bool := usable.getD i false
  let verdicts := indexed.map (fun rc => (rc.1, s.decideRegion rc.1 rc.2 eligible scores))
  let masked := verdicts.flatMap (fun v => v.2.1)
  let contested := verdicts.flatMap (fun v => v.2.2)
  let reinst (i : Nat) (f : FStream) : FStream :=
    if s.rejudgeable i then
      let js := indexed.flatMap (fun rc =>
        if rc.2.streams.contains i then
          (s.judged rc.1 rc.2 (fun j => j == i || eligible j) scores).filter (fun j => j.1.a == i || j.1.b == i)
        else [])
      if js = [] then f
      else if js.any (fun j => j.2) then { f with reinstate := 0 }
      else { f with reinstate := f.reinstate + 1, outlierNext := decide (s.reinstateSteps ≤ f.reinstate + 1) }
    else f
  let one (p : Nat × FStream) : FStream :=
    let f := reinst p.1 p.2
    let f := if masked.contains p.1 then { f with outlier := true, reinstate := 0 } else f
    { f with contested := contested.contains p.1 }
  let bad (rc : Nat × CheckRegion) : Bool :=
    (List.zip (List.range rc.2.pairs.length) rc.2.pairs).any (fun kp =>
      eligible kp.2.a && eligible kp.2.b && (s.rawDistance rc.1 kp.1 kp.2 scores).any (fun d => !finite32 d))
  { masked := masked, regions := (verdicts.filter (fun v => v.2.2 ≠ [])).map (·.1)
    streams := (List.zip (List.range s.fusion.streams.length) s.fusion.streams).map one, nonfinite := indexed.any bad }

/-- CONSISTENCY_GATE (R238–R241), once for the running occurrence of `CADENCE_0`: `maps` are the grid features that metric 2
reads, and `scores` the learned scores of metric 3. The stream state vector follows, with what the gates decided (R234; where
the image declares no check region it is written as the occurrence begins: DESIGN CHOICE, assumption 78). -/
def effConsistencyGate (maps : List (Nat × List (Nat × List Nat))) (scores : List (Nat × Nat × Nat)) (s : State) : State :=
  match s.occOf 0 with
  | none => s
  | some o =>
    if !s.up || !s.inRun || s.fusion.gated then s
    else
      let s := { s with fusion := { s.fusion with maps := maps.map (fun (m : Nat × List (Nat × List Nat)) => (⟨m.1, m.2⟩ : GridMap)) } }
      let g := s.gateResult scores
      let s := { s with fusion := { s.fusion with streams := g.streams, contestedRegions := g.regions, gated := true } }
      let s := if g.masked ≠ [] then s.fusionEvent 1 else s
      let s := if g.regions ≠ [] then s.fusionEvent 2 else s
      let s := if g.nonfinite then s.fusionEvent 6 else s
      if (s.steps.image.map (·.checks)).getD [] = [] then s else s.writeStreamState o

/-! Grid fusion. -/

/-- A fused feature; a result that is not finite is absent, and the grid holds 0 there (R212, R232). -/
def fusedFeature (conf : Nat → Nat) (maps : List (Nat × List (Nat × List Nat))) (cell ch : Nat) : Nat × Bool :=
  let f := fuseCell conf maps cell ch
  if finite32 f then (f, false) else (0, true)

/-- What one cell gets: its 32 stored values, the saturations among them, whether one was not finite, and its status (R233). -/
def State.gridCell (s : State) (img : Image) (maps : List (Nat × List (Nat × List Nat))) (cell : Nat) :
    Bytes × Nat × Bool × Nat :=
  let pair (i : Nat) : StreamDecl × FStream := (s.streamDecls.getD i default, s.fusion.streams.getD i default)
  let conf (i : Nat) : Nat := s.confOf (pair i).1 (pair i).2
  let covering := maps.filter (fun m => (lookupKey cell m.2).isSome)
  let weighted := covering.filter (fun m => (fltInt 0).lt (fltOf fp32 (conf m.1)))
  let vals := (List.range 32).map (fun ch => (ch, fusedFeature conf maps cell ch))
  let q (v : Nat × Nat × Bool) : Nat × Bool := gridInt8 v.2.1 (img.gridScales.getD v.1 0)
  let data := vals.flatMap (fun v =>
    if img.gridBf16 then leBytes 2 (roundSat bf16 (fltOf fp32 v.2.1)).1 else leBytes 1 (q v).1)
  let sat := if img.gridBf16 then 0 else (vals.filter (fun v => (q v).2)).length
  let inContested := s.fusion.contestedRegions.any (fun r => (img.checks.getD r default).cells.contains cell)
  (data, sat, vals.any (fun v => v.2.2),
    min weighted.length 15 + 16 * b2n inContested + 32 * b2n (covering.any (fun m => (pair m.1).2.outlier)) +
      64 * b2n covering.isEmpty)

/-- One cell of the grid and of the status raster. -/
def State.writeCell (s : State) (img : Image) (maps : List (Nat × List (Nat × List Nat))) (cell : Nat) : State :=
  let col := cell % img.gridCols
  let row := cell / img.gridCols
  let c := s.gridCell img maps cell
  let at1 := img.gridBase + gridOffset img.gridCols img.gridBf16 col row
  let at2 := img.statusBase + rasterOffset img.gridCols col row
  let s := ((s.fillRange img.fusionUnit at1 c.1.length).cstore 0 img.fusionUnit at1 c.1)
  let s := ((s.fillRange img.fusionUnit at2 2).cstore 0 img.fusionUnit at2 (leBytes 2 c.2.2.2))
  let s := { s with fusion := { s.fusion with gridSat := s.fusion.gridSat + c.2.1 } }
  if c.2.2.1 then s.fusionEvent 6 else s

/-- GRID_FUSION (R232, R233): `maps` holds each contributing stream's features by cell (column + row · columns). -/
def effGridFusion (maps : List (Nat × List (Nat × List Nat))) (s : State) : State :=
  match s.steps.image, s.occOf 0 with
  | some img, some _ =>
    if !s.up || !s.inRun then s
    else
      let maps := sortList (fun a b => decide (a.1 ≤ b.1)) maps
      let s := { s with fusion := { s.fusion with maps := maps.map (fun m => (⟨m.1, m.2⟩ : GridMap)), gridSat := 0 } }
      (List.range (img.gridCols * img.gridRows)).foldl (fun s cell => s.writeCell img maps cell) s
  | _, _ => s

/-! The ladder and the answers of the block. -/

/-- The answers of a step (R39, R237, R248): one for each fusion stream, and cause 0x34 where a privileged set is declared and
every privileged stream is unusable. -/
def State.fusionAnswers (s : State) : List (Nat × Nat) :=
  let priv := s.streamPairs.filter (fun p => p.1.privileged)
  s.streamPairs.map (fun p => if s.usable p.1 p.2 then (served, 0) else (shed, s.maskCause p.1 p.2)) ++
    (if !priv.isEmpty && priv.all (fun p => !s.usable p.1 p.2) then [(shed, 0x34)] else [])

/-- The block answers a step's requests together (R39). -/
def State.answerFusion (s : State) : State :=
  let xs := s.fusionAnswers
  if xs = [] then s else s.answer blockFusion (pickAnswer xs).1 (pickAnswer xs).2

/-- LADDER_UPDATE (R242–R245, R248), once for the running occurrence of `CADENCE_0`, after its gates and grid fusion:
perception, tracking, mapping, forecasting, fault detection; then the step's answers. -/
def effLadderUpdate (s : State) : State :=
  match s.occOf 0 with
  | none => s
  | some o =>
    if !s.up || !s.inRun || s.fusion.laddered then s
    else
      let s := [0, 4, 1, 2, 3].foldl (State.ladderOne o.step) s
      { s with fusion := { s.fusion with laddered := true } }.answerFusion

/-- STREAM_STAT_SAMPLE (R249): a read of `STREAM_STAT_0` samples the four registers of the selected stream together. -/
def effStreamStatSample (s : State) : State :=
  if !s.readable then s.replyWith 0
  else
    let i := s.fld ⟨0xA00040, 0, 13⟩
    let vals : List Nat :=
      match s.streamDecls[i]?, s.fusion.streams[i]? with
      | some d, some f =>
        let al := s.fusion.align.getD i default
        let f := { f with unaligned := al.unaligned, cause := al.cause }
        let run := if f.unaligned then al.run else if f.outlier then f.reinstate
          else match d.ego with | some j => (if s.egoMasked d then (s.fusion.egos.getD j default).run else 0) | none => 0
        let conf := (fltOf fp32 (fMul fp32 (s.confOf d f) 0x47000000)).roundInt.toNat
        [d.slot + d.stream * 2 ^ 16,
         s.streamBits d f + min run 255 * 2 ^ 8 + s.maskCause d f * 2 ^ 16 + s.timeClass d.slot * 2 ^ 24,
         ofSigned 32 (max (-2147483647) (min 2147483647 al.errNs)), conf]
      | _, _ => [0, 0, 0, 0]
    let s := (List.range 4).foldl (fun s k => s.setReg (0xA00044 + 4 * k) (vals.getD k 0)) s
    s.replyWith (vals.getD 0 0)

def execGridFusion (maps : List (Nat × List (Nat × List Nat))) (s : State) : Host.Outcome State Fault Refusal :=
  .next (effGridFusion maps s)

def execConsistencyGate (g : GateInputs) (s : State) : Host.Outcome State Fault Refusal :=
  .next (effConsistencyGate g.maps g.scores s)

def execLadderUpdate (s : State) : Host.Outcome State Fault Refusal := .next (effLadderUpdate s)

def execStreamStatSample (s : State) : Host.Outcome State Fault Refusal := .next (effStreamStatSample s)

end Sys2Proof.Machine
end

