-- ==== Sys2Proof/Machine/Ego.lean ====
section
/-! DEFINITION. Ego-motion (R225–R231): the estimates of moving sensors' poses, their holds and masks, the pose records that
projection reads, and the flow prediction fields. What the manual leaves of the numerics is free (assumption 91). -/

namespace Sys2Proof.Machine

/-! Estimates (R225–R227). A pose is translation and unit quaternion w, x, y, z in FP64, from the body to the plant frame. -/

/-- What an estimate reads of the image, the step and the registers. -/
structure EgoCtx where
  entry : EgoEntry
  cal : Calibration
  tab : List (List Nat)
  ver : Nat
  seed : Bytes
  step : Nat
  unit : Nat
  stream : Nat

/-- A source's result: pose, normal matrix, inliers and residual RMS (FP32). -/
structure EgoCandidate where
  pose : List Nat
  normal : FMat
  inliers : Nat
  rms : Nat

/-- The distance in pixels between a match and its point's projection under a pose. -/
def EgoCtx.reproject (c : EgoCtx) (pose : List Nat) (m : EgoMatch) : Option Nat :=
  let body := (toBody pose m.point).map n32
  let p := matVec (transpose3 c.cal.rot) (vecSub body c.cal.trans)
  match project c.tab c.cal p with
  | .at u v =>
    let du := sub32 u (m.pixel.getD 0 0)
    let dv := sub32 v (m.pixel.getD 1 0)
    some (fSqrt fp32 (fma32 du du (mul32 dv dv)))
  | _ => none

def EgoCtx.isInlier (c : EgoCtx) (pose : List Nat) (m : EgoMatch) : Bool :=
  (c.reproject pose m).any (fun d => le32 d c.entry.reprojPx)

def EgoCtx.score (c : EgoCtx) (ms : List EgoMatch) (pose : List Nat) : Nat := (ms.filter (c.isInlier pose)).length

/-- The better of two scored poses; the earlier on a tie. -/
def betterPose (best : Option (Nat × List Nat)) (x : Nat × List Nat) : Option (Nat × List Nat) :=
  match best with
  | some b => if b.1 < x.1 then some x else some b
  | none => some x

/-- Hypothesis `h` (R226): the root of its minimal set with the most inliers; none where it scores −1. -/
def EgoCtx.hypothesis (c : EgoCtx) (ms : List EgoMatch) (h : Nat) : Option (Nat × List Nat) :=
  let w (i : Nat) : Nat := drawWord c.seed c.step c.unit c.stream (3 * h + i)
  let i := pick3 (w 0) (w 1) (w 2) ms.length
  let three := [ms.getD i.1 default, ms.getD i.2.1 default, ms.getD i.2.2 default]
  let p (k : Nat) : V3 := (three.getD k default).point
  let area := mul64 half64 (norm64 (cross (vsub (p 1) (p 0)) (vsub (p 2) (p 0))))
  if lt64 area (div64 one64 (int64 100)) then none
  else
    let roots := (Config.minimalPose (three.flatMap (·.point)) (three.flatMap (·.pixel)) (calData c.cal)).filter allFin64
    roots.foldl (fun b r => betterPose b (c.score ms r, r)) none

/-- Gauss–Newton iterations on a pose (R225): `entries` are the upper triangle of the normal matrix and the right-hand side; the
pose with the last normal matrix, or none where a factorisation fails. -/
def refinePose (ver : Nat) (entries : List Nat → List Nat) : Nat → List Nat → Option (List Nat × FMat)
  | 0, pose => some (pose, fromUpper 6 ((entries pose).take 21))
  | k + 1, pose =>
    let es := entries pose
    match cholesky (fromUpper 6 (es.take 21)) with
    | none => none
    | some ls =>
      let x := boxPlus ver ⟨0, pose, cholSolve ls (es.drop 21), [], false⟩
      refinePose ver entries k (x.1 ++ x.2)

/-- The feature estimate: the best hypothesis, refined over its inliers by 4 iterations. -/
def EgoCtx.fromFeatures (c : EgoCtx) (ms : List EgoMatch) : Option EgoCandidate :=
  if ms.length < 3 then none
  else
    let hyps := (List.range c.entry.hypotheses).filterMap (c.hypothesis ms)
    match hyps.foldl betterPose none with
    | none => none
    | some (n, pose) =>
      let ins := ms.filter (c.isInlier pose)
      let entries (x : List Nat) : List Nat := mkVec 27 (fun i =>
        sum64 (ins.map (fun m => Config.reprojEntry x m.point m.pixel (calData c.cal) i)))
      (refinePose c.ver entries 4 pose).map (fun r => ⟨r.1, r.2, n, 0⟩)

/-- The lidar estimate: 8 point-to-plane iterations from the prediction; none without an earlier scan. -/
def EgoCtx.fromLidar (c : EgoCtx) (predicted scan before : List Nat) : Option EgoCandidate :=
  if scan = [] ∨ before = [] then none
  else
    let entries (x : List Nat) : List Nat := mkVec 27 (Config.lidarEntry x scan before)
    (refinePose c.ver entries 8 predicted).map (fun r => ⟨r.1, r.2, 0, Config.lidarRms r.1 scan before⟩)

/-- The covariance of an estimate: the inverse of its normal matrix, row-major. -/
def normalInverse (n : FMat) : Option (List Nat) :=
  (cholesky n).map (fun ls =>
    let colsOf := (List.range 6).map (fun j => cholSolve ls ((eyeMat 6).getD j []))
    (List.range 36).map (fun i => vget (colsOf.getD (i % 6) []) (i / 6)))

/-- An accepted estimate: pose and covariance (R225, R227); a value that is not finite is absent (R212). -/
def egoAccept (e : EgoEntry) (feature : Bool) (c : EgoCandidate) : Option (List Nat × List Nat) :=
  let enough := if feature then decide (e.minInliers ≤ c.inliers) else le32 c.rms e.maxRms
  if enough && le64 (Config.conditionNumber (c.normal.flatMap id)) (int64 1000000) then
    ((normalInverse c.normal).map (fun v => (c.pose, v))).filter (fun x => allFin64 (x.1 ++ x.2))
  else none

def trace6 (cov : List Nat) : Nat := sum64 ((List.range 6).map (fun i => cov.getD (7 * i) 0))

/-- The accepted estimate with the smaller covariance trace; the feature estimate on a tie (R225). -/
def egoChoose (feature lidar : Option (List Nat × List Nat)) : Option (List Nat × List Nat) :=
  match feature, lidar with
  | some a, some b => if lt64 (trace6 b.2) (trace6 a.2) then some b else some a
  | some a, none => some a
  | none, x => x

/-! Holds and masks (R227, R228). -/

/-- √(trace of a diagonal block) exceeds a limit, in FP64: block 0 position, 3 rotation. -/
def egoOver (cov : List Nat) (at_ : Nat) (limit scale : Nat) : Bool :=
  let tr := sum64 [cov.getD (7 * at_) 0, cov.getD (7 * (at_ + 1)) 0, cov.getD (7 * (at_ + 2)) 0]
  (fltOf fp64 limit).lt (fltOf fp64 (fMul fp64 (fSqrt fp64 tr) scale))

/-- A pose enters the history, which holds the last four. -/
def EgoState.remember (x : EgoState) (stamp : Nat) : EgoState :=
  let h := x.history.filter (fun p => decide (p.1 < stamp)) ++ [(stamp, x.quat ++ x.trans)]
  { x with stamp := stamp, history := h.drop (h.length - 4) }

/-- An entry after its attempt of a step: an accepted estimate, or the hold with Q × B of `bSec` seconds (R227). -/
def EgoState.settle (x : EgoState) (e : EgoEntry) (bSec : Nat) (stamp : Option Nat) (est : Option (List Nat × List Nat)) :
    EgoState :=
  let y :=
    match est with
    | some (pose, cov) => { x with quat := pose.drop 3, trans := pose.take 3, cov := cov, held := false, run := x.run + 1 }
    | none =>
      { x with
        cov := (List.range 36).map (fun i => fAdd fp64 (x.cov.getD i 0) (fMul fp64 (e.q.getD i 0) bSec))
        held := true, run := 0 }
  match stamp with
  | some t => y.remember t
  | none => y

/-- Whether an entry is ego-masked after its attempt (R228). -/
def State.egoMaskAfter (s : State) (was : Bool) (x : EgoState) : Bool :=
  let pos := fDiv fp64 (fOfInt fp64 (s.activeFld ⟨0xA0000C, 0, 16⟩)) (fOfInt fp64 100)
  let rot := fDiv fp64 (fOfInt fp64 (s.activeFld ⟨0xA0000C, 16, 15⟩)) (fOfInt fp64 1000)
  let beyond := egoOver x.cov 0 pos one64 || egoOver x.cov 3 rot 0x404CA5DC1A63C1F8
  if was then !decide (s.realignSteps ≤ x.run) else beyond

/-! Poses at an instant (R230). -/

/-- The horizon of the fusion stream of an entry's sensor; 0 where it has none (DESIGN CHOICE, assumption 92). -/
def State.egoHorizon (s : State) (e : EgoEntry) : Nat :=
  ((s.streamDecls.find? (fun d => d.slot == e.slot && d.stream == e.stream)).map (·.horizon)).getD 0

/-- The pose of an entry at an instant, as the 9 and 3 FP32 values of a pose record: `SLERP` and `LINEAR` of R221 on its
history, all NaN while the sensor is ego-masked or the history is stale. -/
def State.egoPoseAt (s : State) (e : EgoEntry) (x : EgoState) (t : Nat) : Pose :=
  let ver := (s.steps.image.map (·.fusionTables)).getD 0
  let decl (m : Method) : StreamDecl := { (default : StreamDecl) with method := m, horizon := s.egoHorizon e }
  let q := evalStream ver (decl .slerp) (x.history.map (fun p => (p.1, (p.2.take 4).map n32))) t
  let p := evalStream ver (decl .linear) (x.history.map (fun p => (p.1, (p.2.drop 4).map n32))) t
  match q, p with
  | some q, some p =>
    if x.masked then ⟨List.replicate 9 nan32, List.replicate 3 nan32⟩ else ⟨((quatRot (q.map w64)).flatMap id).map n32, p⟩
  | _, _ => ⟨List.replicate 9 nan32, List.replicate 3 nan32⟩

/-- The 48-byte pose record. -/
def poseRecord (p : Pose) : Bytes := (fitNats 9 p.rot ++ fitNats 3 p.trans).flatMap (leBytes 4)

/-- The frame of a slot that a selector names in the running occurrence of a cadence (R167). -/
def State.frameSelOf (s : State) (k slot : Nat) (previous : Bool) : Option FrameRec :=
  (s.occOf k).bind (fun o => (o.frames.find? (fun f => f.slot == slot)).bind (fun f => if previous then f.previous else f.current))

/-- The pose record of an entry for a descriptor of cadence `k` that names the sensor's tether, at an address. -/
def State.writePose (s : State) (o : Occurrence) (e : EgoEntry) (x : EgoState) (p : Nat × Nat) : State :=
  match s.frameSelOf p.2 e.slot false with
  | some f => s.fusionWrite ⟨p.1, poseRecord (s.egoPoseAt e x f.stamp), o.step⟩
  | none => s.fusionWrite ⟨p.1, poseRecord ⟨List.replicate 9 nan32, List.replicate 3 nan32⟩, o.step⟩

/-- A sensor's calibration in an occurrence (R194). -/
def Occurrence.calFor (o : Occurrence) (slot stream : Nat) : Option Calibration :=
  o.calibrations.find? (fun c => c.sensor == slot * 65536 + stream)

/-- What entry `j` reads for its attempt in an occurrence. -/
def State.egoCtx (s : State) (o : Occurrence) (j : Nat) (e : EgoEntry) : EgoCtx :=
  let img := s.steps.image.getD default
  { entry := e, cal := (o.calFor e.slot e.stream).getD default, tab := img.projTable, ver := img.fusionTables
    seed := img.seed, step := o.step, unit := img.fusionUnit, stream := 0x100 + j }

/-- The attempt of an entry in an occurrence (R225): the better of the estimates from its features and from its lidar scan at the
stamp of its latest admitted frame; none without a frame or an accepted estimate. -/
def State.egoAttempt (s : State) (o : Occurrence) (j : Nat) (e : EgoEntry) (x : EgoState) (inp : EgoInputs) :
    Option (List Nat × List Nat) :=
  let c := s.egoCtx o j e
  (o.frameNow e.slot).bind (fun f =>
    let predicted :=
      Config.egoPredict (x.trans ++ x.quat) (x.history.flatMap (fun p => p.1 :: p.2)) f.stamp inp.motion
    egoChoose
      (if e.features then (c.fromFeatures inp.matches_).bind (egoAccept e true) else none)
      (if e.lidar then (c.fromLidar predicted inp.scan x.scan).bind (egoAccept e false) else none))

/-- EGO_ESTIMATE (R225–R228, R230) for entry `j`, once for the running occurrence of `CADENCE_0`: the attempt at the stamp of
its latest admitted frame, and a pose record for each projection descriptor that names the sensor. -/
def effEgoEstimate (j : Nat) (inp : EgoInputs) (poses : List (Nat × Nat)) (s : State) : State :=
  match s.occOf 0, s.steps.image.bind (fun i => i.egos[j]?), s.fusion.egos[j]? with
  | some o, some e, some x =>
    if !s.up || !s.inRun || s.fusion.egoDone.contains j then s
    else
      let frame := o.frameNow e.slot
      let est := s.egoAttempt o j e x inp
      let bSec := fDiv fp64 (fOfInt fp64 s.baseUs) (fOfInt fp64 1000000)
      let y := x.settle e bSec (frame.map (·.stamp)) est
      let y := { y with masked := s.egoMaskAfter x.masked y, scan := if frame.isSome then inp.scan else x.scan }
      let s := { s with fusion := { s.fusion with egos := s.fusion.egos.set j y, egoDone := j :: s.fusion.egoDone } }
      let s := if !x.masked && y.masked then (s.fusionEvent 3).answer blockFusion shed 0x30 else s
      poses.foldl (fun s p => s.writePose o e y p) s
  | _, _, _ => s

/-! Flow prediction (R231). -/

/-- The motion from the R frame to the Q frame of a sensor, from its poses at both stamps. -/
def relativeMotion (r q : Pose) : Pose :=
  let qt := transpose3 q.rot
  ⟨matMul qt r.rot, matVec qt (vecSub r.trans q.trans)⟩

/-- The field that a flow descriptor of cadence `k` reads for a tether's stream, in the format of R178 at level-0 size. -/
def State.predictionField (s : State) (k slot stream : Nat) (backward : Bool) : Bytes :=
  let img := s.steps.image.getD default
  let size := match img.tethers.find? (fun t => t.slot == slot && t.stream == stream) with
    | some t => (t.width, t.height)
    | none => (0, 0)
  let entry := (List.zip img.egos s.fusion.egos).find? (fun p => p.1.slot == slot && p.1.stream == stream)
  let cal := (s.occOf k).bind (fun o => o.calFor slot stream)
  let motion : Option Pose :=
    match entry, cal, s.frameSelOf k slot true, s.frameSelOf k slot false with
    | some p, some c, some old, some new =>
      let at_ (f : FrameRec) : Pose := sensorToPlant (s.egoPoseAt p.1 p.2 f.stamp) c
      some (if backward then relativeMotion (at_ new) (at_ old) else relativeMotion (at_ old) (at_ new))
    | _, _, _, _ => none
  let elem (x y : Nat) : Bytes :=
    match entry, motion, cal with
    | none, _, _ => leBytes 4 0
    | some p, some m, some c =>
      let q := flowPred ⟨c.fx, c.fy, c.cx, c.cy, m⟩ p.1.predDepth p.2.masked (x / 16 * 16 + 8) (y / 16 * 16 + 8)
      leBytes 2 q.1 ++ leBytes 2 q.2
    | _, _, _ => leBytes 2 0x8000 ++ leBytes 2 3
  (tilesOf size.1 size.2 128 64 elem (leBytes 2 0x8000 ++ leBytes 2 4)).flatten

/-- FLOW_PREDICTION_FIELD (R231). -/
def effFlowPredictionField (k : Fin 16) (slot stream : Nat) (backward : Bool) (dst : Nat) (s : State) : State :=
  match s.occOf 0 with
  | none => s
  | some o =>
    if !s.up || !s.inRun then s else s.fusionWrite ⟨dst, s.predictionField k slot stream backward, o.step⟩

def execEgoEstimate (j : Nat) (matches_ : List EgoMatch) (scan motion : List Nat) (poses : List (Nat × Nat)) (s : State) :
    Host.Outcome State Fault Refusal := .next (effEgoEstimate j ⟨matches_, scan, motion⟩ poses s)

def execFlowPredictionField (k : Fin 16) (dst : Nat) (f : FieldSource) (s : State) : Host.Outcome State Fault Refusal :=
  .next (effFlowPredictionField k f.slot f.stream f.backward dst s)

end Sys2Proof.Machine
end

