-- ==== Sys2Proof/Machine/Critical.lean ====
section
/-! DEFINITION. Critical commands (R535–R540): the frame, its check, rights, the COMMAND record, and acceptance at once or
at a step edge. -/

namespace Sys2Proof.Machine

def roleMaker : Nat := 1
def roleInstaller : Nat := 2
def roleOperator : Nat := 3

/-! Rights (R540). -/

/-- A row of the rights table: first and last opcode, role, and the states it may be used in. -/
structure Right where
  first : Nat
  last : Nat
  role : Nat
  states : List Nat
  deriving DecidableEq, Repr

/-- The rights of the roles. -/
def rightTable : List Right :=
  let notEnd := [lcFab, lcProvision, lcService, lcReturn]
  let site := [lcProvision, lcService]
  [⟨0x0100, 0x0101, roleMaker, [lcFab, lcProvision, lcReturn]⟩, ⟨0x0100, 0x0101, roleInstaller, site⟩,
   ⟨0x0100, 0x0101, roleOperator, [lcService]⟩,
   ⟨0x0102, 0x0103, roleMaker, notEnd⟩, ⟨0x0102, 0x0103, roleInstaller, notEnd⟩, ⟨0x0102, 0x0103, roleOperator, notEnd⟩,
   ⟨0x0104, 0x0104, roleMaker, [lcProvision]⟩,
   ⟨0x0110, 0x0110, roleMaker, [lcFab]⟩, ⟨0x0110, 0x0110, roleInstaller, [lcService]⟩,
   ⟨0x0111, 0x0111, roleInstaller, [lcProvision]⟩, ⟨0x0112, 0x0112, roleInstaller, site⟩,
   ⟨0x0113, 0x0113, roleMaker, [lcFab, lcReturn]⟩,
   ⟨0x0120, 0x0126, roleInstaller, site⟩, ⟨0x0127, 0x0127, roleInstaller, [lcService]⟩,
   ⟨0x0140, 0x0141, roleOperator, [lcService]⟩, ⟨0x0043, 0x0045, roleOperator, [lcService]⟩,
   ⟨0x0180, 0x019F, roleOperator, [lcService]⟩, ⟨0x01A0, 0x01BF, roleMaker, [lcFab, lcReturn]⟩,
   ⟨0x0200, 0x0201, roleOperator, [lcService]⟩, ⟨0x0202, 0x0203, roleInstaller, [lcService]⟩]

def rightsOf (op role : Nat) : List Right :=
  rightTable.filter (fun r => decide (r.first ≤ op ∧ op ≤ r.last) && r.role == role)

/-- The role holds the opcode's right. -/
def hasRight (op role : Nat) : Bool := !(rightsOf op role).isEmpty

/-- The life-cycle state allows the role the opcode. -/
def stateAllows (op role lc : Nat) : Bool := (rightsOf op role).any (fun r => r.states.contains lc)

/-! The frame (R535). -/

def opKeyAgree : Nat := 0x0100

/-- The frame is well formed for the entry's opcode. -/
def frameOk (f : CritFrame) (op : Nat) : Bool :=
  let p := f.params.length
  f.opcode.toNat == op && f.version.toNat == 1 && decide (1 ≤ f.role.toNat ∧ f.role.toNat ≤ 3) &&
    f.reserved == 0 && f.paramBytes.toNat == p &&
    (if op = opKeyAgree then decide (p ≤ 3968) && f.check.length == 96 && f.keyId == 0 && f.counter == 0
      else decide (p ≤ 4032) && f.check.length == 32)

def State.roleKey (s : State) (role : Nat) : Option RoleKey := s.sec.keys.find? (fun k => k.role == role)

/-- The keyed check verifies under the command key that `KEY_ID` names (R534, R535). -/
def State.checkOk (s : State) (f : CritFrame) : Bool :=
  match s.roleKey f.role.toNat with
  | some k => k.id == f.keyId.toNat && (hmac384 k.key (frameBytes f)).take 32 == f.check
  | none => false

def State.counterOf (s : State) (role : Nat) : Nat := s.sec.counters.getD (role - 1) 0

def State.setCounterOf (s : State) (role n : Nat) : State :=
  { s with sec := { s.sec with counters := s.sec.counters.set (role - 1) n } }

def State.refuseCritical (s : State) (f : CritFrame) (op ep cause : Nat) : State :=
  s.endCritical f op ep refused cause 0 s.stepNow []

/-- A command that takes effect at once (R538). -/
def State.serveCritical (s : State) (f : CritFrame) (op ep : Nat) (result : Bytes) : State :=
  s.endCritical f op ep served 0 0 s.stepNow result

/-! The check (R537). -/

/-- The checks after the frame's own: counter, right and state. -/
def State.checkRights (s : State) (f : CritFrame) (op : Nat) (go : State → State) : State :=
  let ep := s.host.epoch
  let role := f.role.toNat
  if !hasRight op role then s.refuseCritical f op ep 0x08
  else if !stateAllows op role s.lc then s.refuseCritical f op ep 0x09
  else go s

/-- A critical command taken from its ring and checked; `keyed` replaces the keyed check of KEY_AGREE by its signature. -/
def State.critical (s : State) (f : CritFrame) (op : Nat) (keyed : Option Bool) (go : State → State) : State :=
  match s.take f.hdr op true with
  | .nothing => s
  | .stopped s => s
  | .refusedAtOnce s =>
    ((s.commandRecord f refused 0x0C s.stepNow).satReg 0x200044 1).answerCritical op refused 0x0C
  | .taken s =>
    let ep := s.host.epoch
    if !frameOk f op then s.refuseCritical f op ep 0x0C
    else if s.sec.quarantined then s.refuseCritical f op ep 0x0A
    else if !(keyed.getD (s.checkOk f)) then s.refuseCritical f op ep 0x06
    else if keyed.isSome then s.checkRights f op go
    else if f.counter.toNat ≤ s.counterOf f.role.toNat then s.refuseCritical f op ep 0x07
    else (s.setCounterOf f.role.toNat f.counter.toNat).checkRights f op go

/-- A bulk object matches the digest of its reference and is at most 64 MiB (R536). -/
def bulkOk (b : Bulk) : Bool := decide (b.bytes.length ≤ 2 ^ 26) && sha384 b.bytes == b.digest

/-! Effect at a step edge (R539). -/

/-- The edge at which a command takes effect, during a run. -/
def State.effectStep (s : State) (f : CritFrame) : Nat := max f.effectStep.toNat s.nextStep

/-- The delay of a command that takes effect after the step it named. -/
def State.effectDelay (s : State) (f : CritFrame) (n : Nat) : Nat :=
  if f.effectStep.toNat = 0 then 0 else min ((n - f.effectStep.toNat) * s.baseUs * 1000) (2 ^ 32 - 1)

/-- An accepted command waits for the edge of step `n`. -/
def State.waitFor (s : State) (f : CritFrame) (cmd : Instr) (n : Nat) : State :=
  { s with sec := { s.sec with waiting := s.sec.waiting ++ [(⟨cmd, f, n, s.host.epoch⟩ : WaitingCmd)] } }

/-- A command marked "step edge" is accepted: it waits for its edge, or takes effect now while no run is in progress. -/
def State.acceptAtEdge (s : State) (f : CritFrame) (cmd : Instr) (now : State → State) : State :=
  if s.inRun then s.waitFor f cmd (s.effectStep f) else now s

/-- A command takes effect at the edge of step `n` (R538, R539): rechecked against the life-cycle state, applied by
`apply` (none: refused with the cause), recorded and completed. -/
def State.effectAt (s : State) (f : CritFrame) (op ep n : Nat) (apply : State → Except Nat State) : State :=
  if !stateAllows op f.role.toNat s.lc then s.endCritical f op ep refused 0x09 0 n []
  else
    match apply s with
    | .error c => s.endCritical f op ep refused c 0 n []
    | .ok t =>
      let d := s.effectDelay f n
      t.endCritical f op ep (if d = 0 then served else delayed) 0 d n []

/-- A signature of the identity key with a free per-signature secret; without an identity key its value is open. -/
def State.identitySign (s : State) (digest : Bytes) : (Nat × Nat) × State :=
  match s.sec.identity with
  | some d => (ecdsaSign d (1 + Config.freeNat s.free % (p384N - 1)) digest, { s with free := s.free + 1 })
  | none => ((Config.freeNat s.free % p384N, Config.freeNat (s.free + 1) % p384N), { s with free := s.free + 2 })

def sigBytes (p : Nat × Nat) : Bytes := beBytes 48 p.1 ++ beBytes 48 p.2

/-! The site store (R546, R547). -/

/-- A changed site store is written to the copy that does not hold the current sequence number, then takes effect;
`none`: the flash write fails. -/
def State.writeSite (s : State) (ok : Bool) (f : SiteStore → SiteStore) : Except Nat State :=
  if !ok then .error 0x0F
  else
    let x := { f s.sec.site with seq := s.sec.site.seq + 1 }
    let inA := match s.flash.siteA with | some a => a.seq == s.sec.site.seq | none => false
    let fl := if inA then { s.flash with siteB := some x } else { s.flash with siteA := some x }
    .ok { s with flash := fl, sec := { s.sec with site := x } }

end Sys2Proof.Machine
end

