-- ==== Sys2Proof/Machine/Hold.lean ====
section
/-! DEFINITION. The trail hold (R89, R90, R479, R563): how it ends. -/

namespace Sys2Proof.Machine

/-- The TRAIL_GAP record of the steps lost in the hold (R84); none where no step edge fell in it. -/
def State.gapDrafts (s : State) : List TrailDraft :=
  match s.trail.gapSteps with
  | [] => []
  | first :: rest =>
    [⟨kTrailGap, 0, 0, s.stepNow, s.now, leBytes 8 first ++ leBytes 8 (rest.getLastD first) ++
      leBytes 4 s.trail.gapInputs ++ leBytes 4 s.trail.gapOutputs⟩]

/-- At least one eighth of the trail ring is free (R89). -/
def State.trailRoom (s : State) : Bool := decide (s.ringBytes ≤ 8 * s.trailFree)

/-- What still holds after host software or the security block has gone on: the trail ring and the archive ring each
until an eighth of it is free, a due SEAL until the security block serves. -/
def State.easeHold (s : State) : State :=
  let t := s.trail
  let s := { s with trail := { t with
      lowSpace := t.lowSpace && !s.trailRoom
      ringHold := t.ringHold && !s.trailRoom
      sealHold := t.sealHold && s.sec.quarantined } }
  if s.trail.archiveHold && decide (s.archiveBytes ≤ 8 * s.archiveFree) then
    let s := s.archivePump s.trail.archiveWaiting.length
    { s with trail := { s.trail with archiveHold := !s.trail.archiveWaiting.isEmpty } }
  else s

/-- A record that waited carries the time of its writing, but for the kinds with another time (R82) and the records `pre`
that arose before the run (R614). -/
def restamp (pre : List TrailDraft) (now : Nat) (d : TrailDraft) : TrailDraft :=
  if d.kind = kInput ∨ d.kind = kExcluded ∨ d.kind = kOutput ∨ pre.contains d then d else { d with time := now }

/-- The hold ends when nothing holds any more: the records that waited, one TRAIL_GAP and a due SEAL are written, and
the signal chains restart at the next step edge (R89, R90). -/
def State.tryRelease (s : State) : State :=
  let s := s.easeHold
  let t := s.trail
  if !t.hold || t.ringHold || t.archiveHold || t.sealHold then s
  else
    let ds := t.waiting.map (restamp t.preWaiting s.now) ++ s.gapDrafts
    let s := { s with trail := { t with
        hold := false, waiting := [], preWaiting := [], gapSteps := [], gapInputs := 0, gapOutputs := 0
        restartSignal := t.restartSignal || !t.gapSteps.isEmpty } }
    s.trailPump (2 * ds.length + 2) ds

end Sys2Proof.Machine
end

