-- ==== Sys2Proof/Machine/Faults.lean ====
section
/-! DEFINITION. Errors, self-test and the clock check as commands (R555–R577): ERROR_DETECT, ERROR_HANDLE,
LOCKSTEP_MISMATCH, DIE_HEARTBEAT_LOSS, SECURITY_RETEST_COMPLETE, the BIST and repair-log commands, PLL_CHECK_WINDOW. -/

namespace Sys2Proof.Machine

/-- The device detects and handles errors: out of reset and not in a safe state. -/
def State.alive (s : State) : Bool := !s.power.resetHeld && !s.power.safe

/-! Detection. -/

/-- A W1C event flag without an interrupt of its own. -/
def State.flag (s : State) (off bit : Nat) : State := s.event off bit false 0

/-- What the block of an error's region reports (R129, R143, R157, R207, R483). -/
def State.blockError (s : State) (e : ErrorInfo) : State :=
  let i := regionInst e.region
  match regionClass e.region with
  | 0 => if e.kind = 2 then s.flag (0x800034 + 0x40000 * (i % 4)) 2 else s
  | 1 =>
    let b := blockVision (i / 4 % 2)
    if e.kind = 0 then s.flag (b + 0xC) 4 else if e.kind = 1 then s.flag (b + 0xC) 5 else s
  | 2 =>
    let g := i / 1024 % 3
    let off := 0x70000C + g * 0x10000
    if e.kind = 0 then (s.addReg64 (off + 4) 1).flag off 0
    else if e.kind = 1 then s.flag off 1
    else if e.kind = 3 then s.flag off 2
    else s
  | 3 =>
    if e.kind = 0 then (s.addReg64 0x600028 1).memEvent 0
    else if e.kind = 1 then (s.satReg 0x600030 1).memEvent 1
    else s
  | _ => s

/-- A corrected error counts in `CE_TOTAL` and in the second's alert (R579). -/
def State.countCe (s : State) : State :=
  let sec := s.now / secUnits
  let n := if s.faults.ceSecond = sec then s.faults.ceCount + 1 else 1
  let s := s.addReg64 0xE0002C 1
  let s := { s with faults := { s.faults with ceSecond := sec, ceCount := n } }
  if s.fld ⟨0xE00004, 8, 16⟩ ≤ n then s.faultEvent 0 else s

/-- The corrected errors of an HBM3 row in this run, this one included (R483); 1 elsewhere. -/
def State.rowCount (s : State) (e : ErrorInfo) : Nat :=
  if regionClass e.region = 3 ∧ e.kind = 0 then (lookupKey e.address s.tiers.rowCounts).getD 0 + 1 else 1

/-- ERROR_DETECT (R555, R566, R567). -/
def effErrorDetect (e : ErrorInfo) (s : State) : State :=
  if !s.alive then s
  else
    let n := s.rowCount e
    let s := if regionClass e.region = 3 ∧ e.kind = 0 then
        { s with tiers := { s.tiers with rowCounts := putKey e.address n s.tiers.rowCounts } }
      else s
    let s := s.blockError e
    let s := if e.kind = 0 then s.countCe else s
    s.detect e.region e.kind e.cause e.address e.detail e.occs e.lost n

/-- ERROR_HANDLE (R566). -/
def effErrorHandle (s : State) : State := if s.up then s.handleHead else s

/-- An error that the runtime takes up at once when no earlier record waits. -/
def State.detectNow (s : State) (region kind address : Nat) : State :=
  let idle := s.faults.queue.isEmpty
  let s := s.detect region kind 0 address [] s.allLive [] 1
  if idle then s.handleHead else s

/-- LOCKSTEP_MISMATCH (R570, R563): the pair stops and the other takes over. -/
def effLockstepMismatch (pair : Fin 2) (s : State) : State :=
  if !s.alive then s
  else
    let x := s.newError (pairRegion pair.val) 5
    if x.2.underTest (pairRegion pair.val) then x.2.testFailed x.1 0 0 0 else x.2.losePair x.1 pair.val

/-- DIE_HEARTBEAT_LOSS (R555, R562, R563). -/
def effDieHeartbeatLoss (die : Fin 4) (s : State) : State :=
  if !s.alive ∨ s.isOut (dieRegion die.val) then s else s.detectNow (dieRegion die.val) 4 0

/-- A FAULT record of a unit's return (R560, R574). -/
def State.returned (s : State) (r n : Nat) : State :=
  let x := s.newError r 4
  (x.2.faultRecord x.1 7 0 0 [] noSeq n).faultEvent 4

/-- SECURITY_RETEST_COMPLETE (R574, R563). -/
def effSecurityRetestComplete (pass : Bool) (s : State) : State :=
  if !s.alive ∨ !s.faults.secRetest then s
  else
    let s := { s with faults := { s.faults with secRetest := false } }
    if pass then
      let s := { s.bringBack securityRegion with sec := { s.sec with quarantined := false } }
      (s.refreshStage.returned securityRegion s.stepNow).tryRelease
    else
      let x := s.newError securityRegion 4
      x.2.serviceEnd x.1 0x84 9

/-! The clock check (R575). -/

/-- The region a PLL's failure is charged to: 0 root, 1–4 ports, 5–10 guy lines, 11 HBM3 PHY, 12 PCIe. -/
def pllRegion (i : Nat) : Nat :=
  if 1 ≤ i ∧ i ≤ 4 then portRegion (i - 1)
  else if 5 ≤ i ∧ i ≤ 10 then 0x4000 + (i - 5) * 32
  else if i = 11 then dieRegion 3
  else dieRegion 0

/-- A deviation beyond ±200 ppm, in units of 0.01 ppm. -/
def pllBeyond (d : Int) : Bool := decide (d < -20000 ∨ 20000 < d)

/-- PLL_CHECK_WINDOW (R575): the deviations of the PLLs in the window that ends, in units of 0.01 ppm. -/
def effPllCheckWindow (devs : List Int) (s : State) : State :=
  if !s.alive then s
  else
    let bad := (List.range 13).filter (fun i => pllBeyond (devs.getD i 0))
    let fail := bad.filter (fun i => s.faults.pllBad.contains i && !bitAt s.faults.pllFail i)
    let s := s.setFld ⟨0xE00048, 0, 16⟩ (ofSigned 16 (clampSigned 16 (devs.getD 0 0)))
    let mask := s.faults.pllFail ||| maskOf (fail.filter (fun i => i != 12))
    let s := { s with faults := { s.faults with pllBad := bad, pllFail := mask } }
    let s := s.setFld ⟨0xE00048, 16, 12⟩ mask
    fail.foldl (fun s i => if s.alive then s.detectNow (pllRegion i) 6 i else s) s

/-! Self-test (R571–R573). -/

/-- Banks and lane groups of the device (R140, R21). -/
def regionsOf (cls : Nat) : List Nat :=
  match cls with
  | 0 => List.range 4
  | 1 => (List.range 8).map (0x1000 + ·)
  | 2 => [(0, 36), (1, 36), (2, 54)].flatMap (fun g => (List.range g.2).map (fun b => 0x2000 + g.1 * 1024 + b))
  | 3 => (List.range 32).map (0x3000 + ·)
  | 4 => (List.range 12).flatMap (fun d => (List.range 9).map (fun k => 0x4000 + d * 16 + k))
  | 5 => (List.range 4).map (0x5000 + ·)
  | 6 => (List.range 2).map (0x6000 + ·)
  | 7 => (List.range 8).map (0x7000 + ·)
  | 8 => [0x8000]
  | 9 => (List.range 5).map (0x9000 + ·)
  | 0xA => (List.range 4).map (0xA000 + ·)
  | _ => []

def regionExists (r : Nat) : Bool := (regionsOf (regionClass r)).contains r

/-- Without the region a schedule of the active image covers what is out of service. -/
def State.coveredBySchedule (s : State) (r : Nat) : Bool :=
  s.steps.image.isNone || (s.selectSchedule (r :: s.faults.out)).isSome

/-- The region's cover under R554 is not exhausted. -/
def State.hasCover (s : State) (r : Nat) : Bool :=
  match regionClass r with
  | 0 | 1 => s.coveredBySchedule r
  | 2 | 4 => !s.faults.spares.contains (spareKey r)
  | 3 => decide (s.framesUsed ≤ framesPerPc * (s.pcsIn.length - 1))
  | 5 => s.portPaired (regionInst r)
  | 6 => s.power.standby && s.power.activePair != regionInst r
  | _ => false

/-- A region that may be tested without cover: ports, lanes and the map-die engines but fusion, whose loss is that of
die `M` (R564, R573). -/
def forceable (r : Nat) : Bool :=
  regionClass r == 5 || regionClass r == 7 || (regionClass r == 9 && regionInst r != 0)

/-- BIST_RUN is not permitted now (R572). -/
def State.bistRefused (s : State) (r : Nat) (force : Bool) : Bool :=
  s.faults.bist.isSome || !s.faults.testing.isEmpty || !s.faults.windows.isEmpty ||
    regionClass r == 8 || regionClass r == 0xA || (regionClass r == 6 && s.power.activePair == regionInst r) ||
    !(s.isOut r || s.hasCover r || (force && forceable r)) || !s.coveredBySchedule r

def State.setBist (s : State) (b : Option Bist) : State := { s with faults := { s.faults with bist := b } }

/-- The schedule for the units in service applies without any restart (R560, R573). -/
def State.applySchedule (s : State) : State :=
  match s.selectSchedule s.faults.out with
  | some i => if s.inRun then s.setSchedule i else s
  | none => s

/-- The unit is isolated at the edge of step `n` (R573). -/
def State.isolate (s : State) (b : Bist) (n : Nat) : State :=
  let r := b.region
  let s :=
    match regionClass r with
    | 2 | 4 =>
      if s.faults.spares.contains (spareKey r) then s
      else { s with faults := { s.faults with spares := spareKey r :: s.faults.spares } }
    | 3 => (s.markOut r).relocatePc (regionInst r)
    | 6 => { s.markOut r with power := { s.power with standby := false } }
    | _ => s.markOut r
  s.applySchedule.setBist (some { b with state := 2, step := n })

/-- Isolation at a step edge, once every earlier occurrence has committed (R573). -/
def State.isolateDue (s : State) (n : Nat) : State :=
  match s.faults.bist with
  | some b => if b.state = 1 ∧ b.step ≤ n ∧ s.steps.occs = [] then s.isolate b n else s
  | none => s

/-- A test is begun: isolation waits for its edge, or is done now while no run is in progress. -/
def State.beginBist (s : State) (b : Bist) : State :=
  if s.inRun then s.setBist (some b) else s.isolate b 0

/-- A unit returns to service at the edge of step `n` (R560). -/
def State.returnUnit (s : State) (r n : Nat) : State :=
  let s := (s.bringBack r).applySchedule.refreshStage
  let s := { s with faults := { s.faults with returning := s.faults.returning.filter (fun x => x != r) } }
  let s :=
    match s.faults.bist with
    | some b => if b.region = r ∧ b.state = 3 then s.setBist none else s
    | none => s
  s.returned r n

/-- Units that passed their test return at the first edge at which every earlier occurrence has committed (R560). -/
def State.returnDue (s : State) (n : Nat) : State :=
  if s.steps.occs = [] then s.faults.returning.foldl (fun s r => s.returnUnit r n) s else s

/-- A unit that passed is to return: at a step edge, or now while no run is in progress. -/
def State.toReturn (s : State) (r : Nat) : State :=
  if s.inRun then { s with faults := { s.faults with returning := s.faults.returning ++ [r] } } else s.returnUnit r 0

/-- BIST_RUN (R571–R573). -/
def effBistRun (f : CritFrame) (region : BitVec 16) (force : Bool) (s : State) : State :=
  s.critical f 0x0180 none (fun s =>
    let r := region.toNat
    if !regionExists r then s.refuseCritical f 0x0180 s.host.epoch 0x0C
    else if s.bistRefused r force then s.refuseCritical f 0x0180 s.host.epoch 0x85
    else s.beginBist ⟨r, 1, some (f, s.host.epoch), s.effectStep f, false⟩)

/-- BIST_ABORT (R571): the unit under test is reinitialised and returned under R560. -/
def effBistAbort (f : CritFrame) (s : State) : State :=
  s.critical f 0x0181 none (fun s =>
    let ep := s.host.epoch
    let s :=
      match s.faults.bist with
      | some b =>
        if b.full ∨ b.state = 3 then s
        else
          let t := s.finishBist b.region 0 0 0 0 refused 0x85
          if b.state = 2 then (t.setBist (some { b with state := 3, command := none })).toReturn b.region else t
      | none => s
    s.serveCritical f 0x0181 ep [])

/-- BIST_CYCLE (R571). -/
def effBistCycle (f : CritFrame) (interval : BitVec 32) (mask : BitVec 16) (s : State) : State :=
  s.critical f 0x0182 none (fun s =>
    let s := { s with faults := { s.faults with
        cycleSteps := interval.toNat, cycleMask := mask.toNat, cycleAt := s.stepNow + interval.toNat } }
    s.serveCritical f 0x0182 s.host.epoch [])

/-- The covered regions in service of the named classes, in ascending identifier (R571); the security block never (R574). -/
def State.cycleRegions (s : State) : List Nat :=
  ((List.range 11).filter (fun c => bitAt s.faults.cycleMask c && c != 8)).flatMap (fun c =>
    (regionsOf c).filter (fun r => !s.isOut r && !s.bistRefused r false))

/-- BIST_CYCLE_INTERVAL (R571): the next covered region is tested; an interval in which none may be tested now passes. -/
def effBistCycleInterval (s : State) : State :=
  if !s.up ∨ !s.inRun ∨ s.faults.cycleSteps = 0 ∨ s.stepNow < s.faults.cycleAt then s
  else
    let s := { s with faults := { s.faults with cycleAt := s.stepNow + s.faults.cycleSteps } }
    let rs := s.cycleRegions
    match (rs.find? (fun r => decide (s.faults.cycleLast < r))).orElse (fun _ => rs.head?) with
    | some r => { s with faults := { s.faults with cycleLast := r } }.beginBist ⟨r, 1, none, s.nextStep, false⟩
    | none => s

/-- BIST_FULL (R576): accepted in FAB and RETURN; it leaves no run in progress and overwrites every memory. -/
def effBistFull (f : CritFrame) (s : State) : State :=
  s.critical f 0x01A0 none (fun s =>
    let ep := s.host.epoch
    if s.faults.bist.isSome then s.refuseCritical f 0x01A0 ep 0x85
    else
      let s := if s.inRun then { s with steps := { s.steps with endRun := true } } else s
      { s with mem := [] }.setBist (some ⟨0xFFFF, 2, some (f, ep), s.stepNow, true⟩))

/-- The bytes of the repair log as REPAIR_LOG_READ writes them (the model's layout). -/
def repairLogBytes (log : List RepairEntry) : Bytes :=
  log.flatMap (fun e => leBytes 2 e.kind ++ leBytes 2 e.region ++ leBytes 4 e.index)

/-- REPAIR_LOG_READ (R571). -/
def effRepairLogRead (f : CritFrame) (reply : Nat) (s : State) : State :=
  s.critical f 0x01A1 none (fun s =>
    let bs := repairLogBytes s.flash.repairLog
    (s.hostWrite reply bs).serveCritical f 0x01A1 s.host.epoch (leBytes 4 bs.length))

/-- REPAIR_LOG_CLEAR (R571): only in RETURN. -/
def effRepairLogClear (f : CritFrame) (s : State) : State :=
  s.critical f 0x01A2 none (fun s =>
    if s.lc ≠ lcReturn then s.refuseCritical f 0x01A2 s.host.epoch 0x09
    else { s with flash := { s.flash with repairLog := [] } }.serveCritical f 0x01A2 s.host.epoch [])

/-! The end of a test (R128–R130, R560, R569, R571). -/

/-- An entry of the repair log (R569). -/
def State.logEntry (s : State) (e : RepairEntry) : State :=
  if s.flash.repairLog.contains e then s else { s with flash := { s.flash with repairLog := s.flash.repairLog ++ [e] } }

/-- A failed column is marked, up to the four spares (R128, R129). -/
def State.markColumn (s : State) (a c : Nat) : State :=
  let u := s.arrays.getD a default
  if u.failedCols.contains c ∨ 4 ≤ u.failedCols.length then s
  else ({ s with arrays := s.arrays.modify a (fun u => { u with failedCols := u.failedCols ++ [c] }) }).logEntry
    ⟨0, arrayRegion a, c⟩

/-- The test fails: its verdict says so, or a fifth column fails (R130). -/
def State.testFails (s : State) (v : BistVerdict) : Bool :=
  !(v.outcome == 1 || v.outcome == 2) ||
    (v.outcome == 2 && regionClass v.region == 0 &&
      decide (4 ≤ (s.arrays.getD (regionInst v.region) default).failedCols.length))

/-- A bank or lane group is repaired by its spare (R144, R21, R569). -/
def State.logSpare (s : State) (e : RepairEntry) : State :=
  let key := spareKey e.region
  let s := if s.faults.spares.contains key then s
    else { s with faults := { s.faults with spares := key :: s.faults.spares } }
  s.logEntry e

/-- What a repair writes to the repair log (R569). -/
def State.logRepair (s : State) (v : BistVerdict) : State :=
  if v.outcome ≠ 2 then s
  else
    match regionClass v.region with
    | 0 => s.markColumn (regionInst v.region) (v.firstFail % 1024)
    | 2 => s.logSpare ⟨3, v.region, regionInst v.region % 1024⟩
    | 3 => s.logEntry ⟨2, v.region, v.firstFail⟩
    | 4 => s.logSpare ⟨1, v.region, regionInst v.region % 16⟩
    | _ => s

/-- BIST_COMPLETE (R560, R571, R576). -/
def effBistComplete (v : BistVerdict) (s : State) : State :=
  let r := v.region
  if !s.up then s
  else if (match s.faults.bist with | some b => b.full | none => false) then
    if s.testFails v then
      let x := (s.markOut r).newError r 4
      (x.2.testFailed x.1 v.coverage v.durationUs v.firstFail).finishBist r 3 v.coverage v.durationUs v.firstFail served 0
    else (s.logRepair v).finishBist r v.outcome v.coverage v.durationUs v.firstFail served 0
  else if !s.underTest r then s
  else if s.testFails v then
    let x := s.newError r 4
    x.2.testFailed x.1 v.coverage v.durationUs v.firstFail
  else
    let commanded := !s.faults.testing.contains r
    let s := { s.logRepair v with faults := { s.faults with testing := s.faults.testing.filter (fun x => x != r) } }
    let s :=
      if commanded then
        let s := s.finishBist r v.outcome v.coverage v.durationUs v.firstFail served 0
        let x := s.newError r 4
        x.2.faultRecord x.1 8 0 0 [] noSeq s.stepNow
      else s
    let kept := v.outcome == 2 && (regionClass r == 2 || regionClass r == 4)
    if kept then (if commanded then s.setBist none else s) else s.toReturn r

def execErrorDetect (e : ErrorInfo) (s : State) : Host.Outcome State Fault Refusal := .next (effErrorDetect e s)

def execErrorHandle (s : State) : Host.Outcome State Fault Refusal := .next (effErrorHandle s)

def execLockstepMismatch (pair : Fin 2) (s : State) : Host.Outcome State Fault Refusal :=
  .next (effLockstepMismatch pair s)

def execDieHeartbeatLoss (die : Fin 4) (s : State) : Host.Outcome State Fault Refusal :=
  .next (effDieHeartbeatLoss die s)

def execSecurityRetestComplete (pass : Bool) (s : State) : Host.Outcome State Fault Refusal :=
  .next (effSecurityRetestComplete pass s)

def execPllCheckWindow (devs : List Int) (s : State) : Host.Outcome State Fault Refusal :=
  .next (effPllCheckWindow devs s)

def execBistRun (f : CritFrame) (region : BitVec 16) (force : Bool) (s : State) : Host.Outcome State Fault Refusal :=
  .next (effBistRun f region force s)

def execBistAbort (f : CritFrame) (s : State) : Host.Outcome State Fault Refusal := .next (effBistAbort f s)

def execBistCycle (f : CritFrame) (interval : BitVec 32) (mask : BitVec 16) (s : State) :
    Host.Outcome State Fault Refusal := .next (effBistCycle f interval mask s)

def execBistCycleInterval (s : State) : Host.Outcome State Fault Refusal := .next (effBistCycleInterval s)

def execBistFull (f : CritFrame) (s : State) : Host.Outcome State Fault Refusal := .next (effBistFull f s)

def execBistComplete (v : BistVerdict) (s : State) : Host.Outcome State Fault Refusal := .next (effBistComplete v s)

def execRepairLogRead (f : CritFrame) (reply : Nat) (s : State) : Host.Outcome State Fault Refusal :=
  .next (effRepairLogRead f reply s)

def execRepairLogClear (f : CritFrame) (s : State) : Host.Outcome State Fault Refusal := .next (effRepairLogClear f s)

end Sys2Proof.Machine
end

