-- ==== Sys2Proof/Machine/Security.lean ====
section
/-! DEFINITION. Identity, roles and life-cycle (R526–R552): certificates and command keys, attestation, life-cycle
transitions, the site items, pipelines and the test access port. -/

namespace Sys2Proof.Machine

/-! Certificates (R530–R532). -/

def certBytes (c : Cert) : Bytes := c.tbs ++ sigBytes (c.sigR, c.sigS)
def certDigest (c : Cert) : Bytes := sha384 (certBytes c)
def pointBytes (q : Nat × Nat) : Bytes := leBytes 1 4 ++ beBytes 48 q.1 ++ beBytes 48 q.2
def keyDigest (q : Nat × Nat) : Bytes := sha384 (pointBytes q)

/-- `c` is signed by the holder of a key. -/
def signedBy (c : Cert) (pub : Nat × Nat) : Bool := ecdsaVerify pub (sha384 c.tbs) c.sigR c.sigS
def selfSigned (c : Cert) : Bool := signedBy c c.pub

/-- Each certificate of a chain, leaf first, is signed by the next. -/
def chainLinks : List Cert → Bool
  | a :: b :: rest => signedBy a b.pub && chainLinks (b :: rest)
  | _ => true

/-- At most 4 certificates of at most 2,048 bytes, linked. -/
def chainShape (cs : List Cert) : Bool :=
  !cs.isEmpty && decide (cs.length ≤ 4) && cs.all (fun c => decide (c.size ≤ 2048)) && chainLinks cs

/-- A chain ends at the maker root (R526). -/
def endsAtMaker (cs : List Cert) : Bool := (cs.getLast?.map (fun c => keyDigest c.pub == Config.makerRootDigest)).getD false

/-- A chain ends at a site root: its last certificate is the root or is signed by it. -/
def endsAt (cs : List Cert) (root : Cert) : Bool := (cs.getLast?.map (fun c => c == root || signedBy c root.pub)).getD false

/-- The root a role's chain is agreed under, as a digest; `none`: the chain does not verify (R530, R532). -/
def State.chainRoot (s : State) (role : Nat) (cs : List Cert) : Option Bytes :=
  let leafOk := (cs.head?.map (fun c => c.ou == role && c.signUsage)).getD false
  if !chainShape cs || !leafOk then none
  else if role = roleMaker then (if endsAtMaker cs then some Config.makerRootDigest else none)
  else
    match s.sec.site.root with
    | some r => if endsAt cs r then some (certDigest r) else none
    | none =>
      if role = roleInstaller ∧ s.lc = lcProvision then
        match cs.getLast? with
        | some c => if selfSigned c then some (certDigest c) else none
        | none => none
      else none

def State.revoked (s : State) (cs : List Cert) : Bool := cs.any (fun c => s.sec.site.revoked.contains c.serial)

/-! Command keys (R533, R534). -/

def State.dropKeys (s : State) (p : RoleKey → Bool) : State :=
  { s with sec := { s.sec with keys := s.sec.keys.filter (fun k => !p k) } }

/-- The reply and key of an accepted KEY_AGREE; `none`: Q_h is no point of the curve. -/
def State.agreeKey (s : State) (f : CritFrame) (leaf : Cert) (root : Bytes) (qh : Nat × Nat) (nh : Bytes) (reply : Nat) :
    Option State :=
  let d := 1 + Config.freeNat s.free % (p384N - 1)
  let nd := leBytes 16 (Config.freeNat (s.free + 1))
  let id := 1 + Config.freeNat (s.free + 2) % (2 ^ 32 - 1)
  match ecdh d qh with
  | none => none
  | some z =>
    let role := f.role.toNat
    let key := hmac384 z (leBytes 4 0x314B4351 ++ leBytes 1 role ++ leBytes 4 id ++ fitBytes 16 nh ++ nd)
    let out := pointBytes (ecPublic d) ++ nd ++ leBytes 4 id
    let s := { s with free := s.free + 3 }
    let sg := s.identitySign (sha384 (sha384 (frameBytes f ++ f.check) ++ out))
    let s := sg.2.dropKeys (fun k => k.role == role)
    let k : RoleKey := ⟨role, id, key, leaf.serial, root⟩
    let pend := if role = roleInstaller ∧ s.sec.site.root.isNone then some root else s.sec.pendingRoot
    let s := { s with sec := { s.sec with keys := s.sec.keys ++ [k], pendingRoot := pend } }
    some ((s.setCounterOf role 0).hostWrite reply (out ++ sigBytes sg.1))

/-- KEY_AGREE (R533). -/
def effKeyAgree (f : CritFrame) (chain : List Cert) (bulk : Bulk) (qh : Nat × Nat) (nh : Bytes) (reply : Nat) (s : State) :
    State :=
  let sigOk := match chain with
    | c :: _ => ecdsaVerify c.pub (sha384 (frameBytes f)) (beAt f.check 0 48) (beAt f.check 48 48)
    | [] => false
  s.critical f opKeyAgree (some sigOk) fun s =>
    let ep := s.host.epoch
    let no (c : Nat) : State := s.refuseCritical f opKeyAgree ep c
    if !bulkOk bulk then no 0x0F
    else if !s.sec.entropyOk then no 0x76
    else
      match s.chainRoot f.role.toNat chain, chain with
      | some root, leaf :: _ =>
        if s.revoked chain then no 0x71
        else
          match s.agreeKey f leaf root qh nh reply with
          | some t => (t.secEvent 5).serveCritical f opKeyAgree ep []
          | none => no 0x0C
      | _, _ => no 0x70

/-- KEY_RETIRE (R534). -/
def effKeyRetire (f : CritFrame) (s : State) : State :=
  s.critical f 0x0101 none fun s =>
    (s.dropKeys (fun k => k.role == f.role.toNat)).serveCritical f 0x0101 s.host.epoch []

/-! Attestation (R548). -/

/-- Images known to the device with their flags and digests: active slot's, then staged ones. -/
def State.imageEntries (s : State) : List Bytes :=
  let act := (s.steps.image.map (·.id)).getD 0
  let entry (c : Component) (staged : Nat) : Option Bytes :=
    c.image?.map (fun p =>
      let fl := b2n (staged == 0 && p.1.id == act) + staged * 2 + b2n p.2 * 4
      leBytes 4 p.1.id ++ leBytes 4 fl ++ fitBytes 48 c.digest ++ fitBytes 48 (Config.modelTableDigest p.1.id) ++ leBytes 8 0)
  let of (x : Option Slot) (staged : Nat) : List Bytes := ((x.map (·.components)).getD []).filterMap (fun c => entry c staged)
  (of s.activeSlot 0 ++ of (s.host.stagedSlot.bind s.slotAt) 1).take 15

/-- Offsets of all registers of a row. -/
def rowOffsets (base : Nat) : List (Nat × Nat) → List Nat
  | [] => [base]
  | (n, st) :: rest => (List.range n).flatMap (fun i => rowOffsets (base + i * st) rest)

/-- Registers with class S fields, in ascending offset (R548). -/
def stepLatchedOffsets : List Nat :=
  ((regTable.filter (fun r => r.fields.any (fun f => f.cls == .stepLatched))).flatMap (fun r => rowOffsets r.base r.insts)).mergeSort

def State.activeDigest (s : State) : Bytes :=
  sha384 (stepLatchedOffsets.flatMap (fun o => leBytes 4 o ++ leBytes 4 (s.activeReg o &&& shadowMask o)))

/-- A calibration entry of the site store (R546). -/
def calibrationBytes (c : Calibration) : Bytes :=
  fitBytes 128 (leBytes 1 c.model ++ leBytes 1 0 ++ leBytes 2 c.width ++ leBytes 2 c.height ++ leBytes 2 0 ++
    [c.fx, c.fy, c.cx, c.cy].flatMap (leBytes 4) ++ (fitNats 8 c.coeffs).flatMap (leBytes 4) ++ leBytes 4 c.thetaMax ++
    (fitNats 9 c.rot).flatMap (leBytes 4) ++ (fitNats 3 c.trans).flatMap (leBytes 4))

/-- An item of the site store: its type, the length of its body, and the body padded to 8 bytes (R546). -/
def siteItem (kind : Nat) (body : Bytes) : Bytes :=
  leBytes 2 kind ++ leBytes 4 body.length ++ leBytes 2 0 ++ fitBytes (ceilDiv body.length 8 * 8) body

/-- The items that a site store holds, by rising type (R546). -/
def siteItems (x : SiteStore) (storageKey : Option Bytes) : List Bytes :=
  let item (kind : Nat) (present : Bool) (body : Bytes) : List Bytes := if present then [siteItem kind body] else []
  let root := (x.root.map (fun r => fitBytes 2048 (certBytes r))).getD (fitBytes 2048 [])
  let opens (kind : Nat) : Bytes := Config.siteBody kind x storageKey
  item 1 x.root.isSome (root ++ fitBytes 2048 x.siteCert) ++ item 2 x.configKey.isSome (opens 2) ++
    item 3 (!x.imageKeys.isEmpty) (opens 3) ++ item 4 (!x.revoked.isEmpty) (opens 4) ++
    item 5 (!x.calibrations.isEmpty) (x.calibrations.flatMap calibrationBytes) ++ item 6 (!x.roster.isEmpty) (opens 6) ++
    item 7 (!x.pegs.isEmpty) (x.pegs.flatMap pegBytes) ++
    (match x.datum with | some d => item 8 true (datumBytes d) | none => [])

/-- The bytes of a site store before their signature (R546): the header of 64 bytes and the items. -/
def siteBytes (x : SiteStore) (storageKey : Option Bytes) : Bytes :=
  let items := siteItems x storageKey
  leBytes 4 0x51545353 ++ leBytes 2 Config.siteVersion ++ leBytes 2 0 ++ leBytes 8 x.seq ++ leBytes 4 items.length ++
    leBytes 4 (64 + items.flatten.length + 96) ++ fitBytes 12 (Config.siteIv x.seq) ++ leBytes 28 0 ++ items.flatten

/-- The report for a role and nonce. -/
def State.report (s : State) (role : Nat) (nonce : Bytes) : Bytes × State :=
  let es := s.imageEntries
  let rid := (s.steps.run.map (·.id)).getD []
  let body := leBytes 4 0x51544154 ++ leBytes 2 1 ++ leBytes 1 s.lc ++ leBytes 1 role ++ fitBytes 16 Config.deviceSerial ++
    fitBytes 32 nonce ++ leBytes 4 Config.romRev ++ leBytes 4 s.sec.minVersion ++ fitBytes 48 Config.romDigest ++
    fitBytes 48 s.power.runtimeDigest ++ fitBytes 48 s.power.configDigest ++ sha384 (siteBytes s.sec.site s.sec.storageKey) ++
    s.activeDigest ++ fitBytes 16 rid ++ leBytes 8 s.stepNow ++ fullTimeBytes s.now ++ leBytes 4 es.length ++
    leBytes 8 s.trail.nextSeq ++ es.flatten
  let sg := s.identitySign (sha384 body)
  (body ++ sigBytes sg.1, sg.2)

/-- ATTEST (R548). -/
def effAttest (f : CritFrame) (nonce : Bytes) (reply : Nat) (s : State) : State :=
  s.critical f 0x0102 none fun s =>
    if !s.sec.entropyOk then s.refuseCritical f 0x0102 s.host.epoch 0x76
    else
      let r := s.report f.role.toNat nonce
      (r.2.hostWrite reply r.1).serveCritical f 0x0102 s.host.epoch (sha384 r.1)

/-- CERT_READ (R528): the device certificate chain, or before it is installed a signed certification request. -/
def effCertRead (f : CritFrame) (reply : Nat) (s : State) : State :=
  s.critical f 0x0103 none fun s =>
    match s.sec.deviceCert with
    | some cs =>
      let bs := cs.flatMap certBytes
      (s.hostWrite reply bs).serveCritical f 0x0103 s.host.epoch (leBytes 4 bs.length)
    | none =>
      let req := Config.certRequest Config.deviceSerial (ecPublic (s.sec.identity.getD 0))
      let sg := s.identitySign (sha384 req)
      let bs := req ++ sigBytes sg.1
      (sg.2.hostWrite reply bs).serveCritical f 0x0103 s.host.epoch (leBytes 4 bs.length)

/-- DEVICE_CERT_INSTALL (R528). -/
def effDeviceCertInstall (f : CritFrame) (bulk : Bulk) (chain : List Cert) (s : State) : State :=
  s.critical f 0x0104 none fun s =>
    let no (c : Nat) : State := s.refuseCritical f 0x0104 s.host.epoch c
    let leafOk := match chain.head?, s.sec.identity with
      | some c, some d => c.pub == ecPublic d
      | _, _ => false
    if s.sec.deviceCert.isSome then no 0x09
    else if !bulkOk bulk then no 0x0F
    else if !(chainShape chain && endsAtMaker chain && leafOk) then no 0x70
    else ({ s with sec := { s.sec with deviceCert := some chain } }).serveCritical f 0x0104 s.host.epoch []

/-! Life-cycle (R541–R544). -/

/-- A transition programs the next word. -/
def State.setLc (s : State) (code : Nat) : State :=
  ({ s with sec := { s.sec with lcWords := s.sec.lcWords ++ [code] } }).secEvent 4

/-- First entry into PROVISION draws the identity and storage keys (R527, R529). -/
def State.drawKeys (s : State) : State :=
  if s.sec.identity.isSome then s
  else { s with
    free := s.free + 2
    sec := { s.sec with
      identity := some (1 + Config.freeNat s.free % (p384N - 1))
      storageKey := some (leBytes 32 (Config.freeNat (s.free + 1))) } }

/-- A session begins closing (R446). -/
def State.closeSessions (s : State) (p : Session → Bool) (reason : Nat) : State :=
  let upd (x : Session) : Session := if x.state = 1 && p x then { x with state := 2, reason := reason } else x
  { s with ports := { s.ports with sessions := s.ports.sessions.map upd } }

/-- SERVICE ends (R542): the run ends at this edge, tethers close with reason 4, sampled-value tethers stop. -/
def State.leaveService (s : State) : State :=
  let s := s.closeSessions (fun _ => true) 4
  let s := if s.inRun then s else s.dropImage []
  { s with
    ports := { s.ports with sv := [] }
    steps := { s.steps with endRun := s.inRun, runDue := none, switch := none } }

/-- Entry to RETURN erases the user keys and the site store (R544). -/
def State.eraseUser (s : State) : State :=
  { s with
    sec := { s.sec with storageKey := none, keys := [], counters := [0, 0, 0], pendingRoot := none, site := default }
    flash := { s.flash with siteA := none, siteB := none } }

/-- Words left after one more transition (R541). -/
def State.lcFree (s : State) : Nat := 64 - s.sec.lcWords.length

/-- LC_PROVISION from SERVICE, at its edge. -/
def effectLcProvision (s : State) : Except Nat State :=
  if s.lcFree < 5 then .error 0x75 else .ok (s.leaveService.setLc lcProvision)

/-- LC_PROVISION (R542). -/
def effLcProvision (f : CritFrame) (s : State) : State :=
  s.critical f 0x0110 none fun s =>
    if s.lc = lcFab then (s.drawKeys.setLc lcProvision).serveCritical f 0x0110 s.host.epoch []
    else if s.lcFree < 5 then s.refuseCritical f 0x0110 s.host.epoch 0x75
    else s.acceptAtEdge f (.lcProvision f) (fun s => s.effectAt f 0x0110 s.host.epoch s.stepNow effectLcProvision)

/-- Sampled-value tethers of the roster, live in SERVICE (R449). -/
def State.startSv (s : State) : State :=
  let keep (e : RosterEntry) : SvTether :=
    (s.ports.sv.find? (fun t => t.entry == e)).getD
      { (default : SvTether) with entry := e, tokPkts := 64 * 65536 * secUnits, tokAt := s.now }
  { s with ports := { s.ports with
      sv := if s.lc = lcService then (s.sec.site.roster.filter (fun e => e.kind == 1)).map keep else [] } }

/-- LC_SERVICE (R542): with its preconditions, the slot's images are loaded and the start image starts. -/
def effLcService (f : CritFrame) (s : State) : State :=
  s.critical f 0x0111 none fun s =>
    let c := s.chooseSlot lcService
    let st := s.sec.site
    let ok := s.sec.deviceCert.isSome && st.root.isSome && st.configKey.isSome && !st.imageKeys.isEmpty && c.1.isSome
    match c.1.bind s.slotAt with
    | some x =>
      if !ok then s.refuseCritical f 0x0111 s.host.epoch 0x77
      else
        let t := ({ s.setLc lcService with power := { s.power with slot := c.1 } }).startSv
        let t := t.serveCritical f 0x0111 s.host.epoch []
        match x.startImage with
        | some img => (t.placeImage img).startService
        | none => t
    | none => s.refuseCritical f 0x0111 s.host.epoch 0x77

/-- LC_RETURN, from PROVISION at once and from SERVICE at its edge. -/
def effectLcReturn (s : State) : Except Nat State := .ok (s.leaveService.eraseUser.setLc lcReturn)

/-- LC_RETURN (R542, R544). -/
def effLcReturn (f : CritFrame) (s : State) : State :=
  s.critical f 0x0112 none fun s =>
    if s.lc = lcProvision then (s.eraseUser.setLc lcReturn).serveCritical f 0x0112 s.host.epoch []
    else s.acceptAtEdge f (.lcReturn f) (fun s => s.effectAt f 0x0112 s.host.epoch s.stepNow effectLcReturn)

/-- LC_END (R542, R544): the identity key goes too, and the device holds the safe state 0xD. -/
def effLcEnd (f : CritFrame) (s : State) : State :=
  s.critical f 0x0113 none fun s =>
    let t := s.eraseUser.setLc lcEnd
    let t := { t with sec := { t.sec with identity := none } }
    (t.serveCritical f 0x0113 s.host.epoch []).enterSafe 0xD

/-! Site items (R531, R540, R546, R547). -/

/-- The cause for which a SITE_INSTALL is refused, if any (R531, R532). -/
def State.siteRootCause (s : State) (f : CritFrame) (root : Option Cert) (rootSig : Option (Nat × Nat)) : Option Nat :=
  let key := (s.roleKey f.role.toNat).map (·.root)
  match s.sec.site.root, root with
  | none, none => some 0x70
  | none, some r => if key = some (certDigest r) then none else some 0x70
  | some old, none => if key = some (certDigest old) then none else some 0x70
  | some old, some r =>
    if key ≠ some (certDigest old) then some 0x70
    else if r = old then none
    else
      match rootSig with
      | some g => if ecdsaVerify old.pub (certDigest r) g.1 g.2 then none else some 0x72
      | none => some 0x72

/-- SITE_INSTALL at its edge: the store is written, and keys of revoked certificates retire (R550). -/
def effectSiteInstall (f : CritFrame) (root : Option Cert) (siteCert : Bytes) (revoked : List Bytes)
    (rootSig : Option (Nat × Nat)) (ok : Bool) (s : State) : Except Nat State :=
  match s.siteRootCause f root rootSig with
  | some c => .error c
  | none =>
    match s.writeSite ok (fun x => { x with
        root := match root with | some r => some r | none => x.root, siteCert := siteCert, revoked := revoked }) with
    | .error c => .error c
    | .ok t => .ok (t.dropKeys (fun k => revoked.contains k.serial))

/-- SITE_INSTALL (R531). -/
def effSiteInstall (f : CritFrame) (bulk : Bulk) (root : Option Cert) (siteCert : Bytes) (revoked : List Bytes)
    (rootSig : Option (Nat × Nat)) (flashOk : Bool) (s : State) : State :=
  s.critical f 0x0120 none fun s =>
    let no (c : Nat) : State := s.refuseCritical f 0x0120 s.host.epoch c
    if 64 < revoked.length ∨ revoked.any (fun r => decide (20 < r.length)) ∨ 2048 < siteCert.length then no 0x0C
    else if !bulkOk bulk then no 0x0F
    else
      match s.siteRootCause f root rootSig with
      | some c => no c
      | none =>
        s.acceptAtEdge f (.siteInstall f bulk root siteCert revoked rootSig flashOk)
          (fun s => s.effectAt f 0x0120 s.host.epoch s.stepNow (effectSiteInstall f root siteCert revoked rootSig flashOk))

/-- CONFIG_KEY_SET: written at once, used from the next boot (R540). -/
def effConfigKeySet (f : CritFrame) (key : Nat × Nat) (flashOk : Bool) (s : State) : State :=
  s.critical f 0x0121 none fun s =>
    if !p384OnCurve key then s.refuseCritical f 0x0121 s.host.epoch 0x0C
    else
      match s.writeSite flashOk (fun x => { x with configKey := some key }) with
      | .error c => s.refuseCritical f 0x0121 s.host.epoch c
      | .ok t => t.serveCritical f 0x0121 s.host.epoch []

/-- IMAGE_KEYS_SET at its edge. -/
def effectImageKeysSet (keys : List (Nat × Nat)) (ok : Bool) (s : State) : Except Nat State :=
  s.writeSite ok (fun x => { x with imageKeys := keys })

/-- IMAGE_KEYS_SET (R540): at most 8 keys. -/
def effImageKeysSet (f : CritFrame) (keys : List (Nat × Nat)) (flashOk : Bool) (s : State) : State :=
  s.critical f 0x0122 none fun s =>
    if 8 < keys.length ∨ !keys.all p384OnCurve then s.refuseCritical f 0x0122 s.host.epoch 0x0C
    else s.acceptAtEdge f (.imageKeysSet f keys flashOk)
      (fun s => s.effectAt f 0x0122 s.host.epoch s.stepNow (effectImageKeysSet keys flashOk))

/-- CALIBRATION_SET at its edge: entries replace those of their sensors. -/
def effectCalibrationSet (entries : List Calibration) (ok : Bool) (s : State) : Except Nat State :=
  s.writeSite ok (fun x => { x with
    calibrations := x.calibrations.filter (fun c => !entries.any (fun e => e.sensor == c.sensor)) ++ entries })

/-- CALIBRATION_SET (R194, R546): at most 1,024 sensors in the store. -/
def effCalibrationSet (f : CritFrame) (bulk : Bulk) (entries : List Calibration) (flashOk : Bool) (s : State) : State :=
  s.critical f 0x0123 none fun s =>
    let kept := s.sec.site.calibrations.filter (fun c => !entries.any (fun e => e.sensor == c.sensor))
    if 1024 < kept.length + entries.length then s.refuseCritical f 0x0123 s.host.epoch 0x0C
    else if !bulkOk bulk then s.refuseCritical f 0x0123 s.host.epoch 0x0F
    else s.acceptAtEdge f (.calibrationSet f bulk entries flashOk)
      (fun s => s.effectAt f 0x0123 s.host.epoch s.stepNow (effectCalibrationSet entries flashOk))

/-- ROSTER_SET at its edge: sessions whose slot's entry changed close with reason 3 (R446). -/
def effectRosterSet (entries : List RosterEntry) (ok : Bool) (s : State) : Except Nat State :=
  match s.writeSite ok (fun x => { x with roster := entries }) with
  | .error c => .error c
  | .ok t => .ok ((t.closeSessions (fun x => !entries.contains x.entry) 3).startSv)

/-- The summed `PPS` and `BURST_PKTS` of the live sessions with those of sampled-value tethers (R434). -/
def tetherSums (xs : List Session) (svs : List RosterEntry) : Nat × Nat :=
  ((xs.map (·.pps)).foldl (· + ·) 0 + (svs.map (·.frameRate)).foldl (· + ·) 0,
   (xs.map (·.burstPkts)).foldl (· + ·) 0 + 64 * svs.length)

def sumsFit (p : Nat × Nat) : Bool := decide (p.1 ≤ 20000000 ∧ p.2 ≤ 131072)

def State.liveSessions (s : State) : List Session := s.ports.sessions.filter (fun x => x.state == 1)

def svEntries (es : List RosterEntry) : List RosterEntry := es.filter (fun e => e.kind == 1)

/-- A roster gives no slot a `smpRate` other than the one its channels are built for (R365). -/
def ratesFit (chans : List ChannelDecl) (es : List RosterEntry) : Bool :=
  (svEntries es).all (fun e => chans.all (fun d => d.slot != e.slot || d.svRate == e.smpRate))

/-- ROSTER_SET (R434, R365, R447): at most 8,192 entries of slots 0 to 4,095. -/
def effRosterSet (f : CritFrame) (bulk : Bulk) (entries : List RosterEntry) (flashOk : Bool) (s : State) : State :=
  s.critical f 0x0124 none fun s =>
    let bad (e : RosterEntry) : Bool := decide (4095 < e.slot) || decide (1 < e.kind) || decide (34 < e.svid.length)
    let chans := (s.steps.image.map (·.channels)).getD []
    if 8192 < entries.length ∨ entries.any bad ∨ !ratesFit chans entries then s.refuseCritical f 0x0124 s.host.epoch 0x0C
    else if !bulkOk bulk then s.refuseCritical f 0x0124 s.host.epoch 0x0F
    else if !sumsFit (tetherSums s.liveSessions (svEntries entries)) then s.refuseCritical f 0x0124 s.host.epoch 0x01
    else s.acceptAtEdge f (.rosterSet f bulk entries flashOk)
      (fun s => s.effectAt f 0x0124 s.host.epoch s.stepNow (effectRosterSet entries flashOk))

/-- PEG_SET at its edge: records replace those of their pegs (R275). -/
def effectPegSet (pegs : List Peg) (ok : Bool) (s : State) : Except Nat State :=
  s.writeSite ok (fun x => { x with pegs := x.pegs.filter (fun p => !pegs.any (fun q => q.peg == p.peg)) ++ pegs })

/-- PEG_SET (R274, R275): an unusable record refuses the command with cause 0x45. -/
def effPegSet (f : CritFrame) (bulk : Bulk) (pegs : List Peg) (flashOk : Bool) (s : State) : State :=
  s.critical f 0x0125 none fun s =>
    if pegs.any (fun p => decide (65535 < p.peg)) then s.refuseCritical f 0x0125 s.host.epoch 0x0C
    else if !bulkOk bulk then s.refuseCritical f 0x0125 s.host.epoch 0x0F
    else if pegs.any pegBad then s.refuseCritical f 0x0125 s.host.epoch 0x45
    else s.acceptAtEdge f (.pegSet f bulk pegs flashOk)
      (fun s => s.effectAt f 0x0125 s.host.epoch s.stepNow (effectPegSet pegs flashOk))

/-- DATUM_SET at its edge. -/
def effectDatumSet (d : Datum) (ok : Bool) (s : State) : Except Nat State :=
  s.writeSite ok (fun x => { x with datum := some d })

/-- DATUM_SET (R273). -/
def effDatumSet (f : CritFrame) (d : Datum) (flashOk : Bool) (s : State) : State :=
  s.critical f 0x0126 none fun s =>
    s.acceptAtEdge f (.datumSet f d flashOk)
      (fun s => s.effectAt f 0x0126 s.host.epoch s.stepNow (effectDatumSet d flashOk))

/-- SECURITY_VERSION_RAISE (R540). -/
def effSecurityVersionRaise (f : CritFrame) (v : BitVec 32) (s : State) : State :=
  s.critical f 0x0127 none fun s =>
    let top := (s.activeSlot.map (·.securityVersion)).getD 0
    if v.toNat ≤ s.sec.minVersion ∨ top < v.toNat then s.refuseCritical f 0x0127 s.host.epoch 0x74
    else ({ s with sec := { s.sec with minVersion := v.toNat } }).serveCritical f 0x0127 s.host.epoch []

/-! Pipelines (R540, R511). -/

/-- The pipelines of the active image, as `TENANT` names them (R40). -/
def State.pipelines (s : State) : List Nat :=
  match s.steps.image with
  | none => []
  | some i =>
    i.outputs.map (·.tenant) ++ i.track.streams.map (·.tenant) ++ i.map.streams.map (·.tenant) ++
      i.collections.map (·.tenant)

/-- PIPELINE_START at its edge. -/
def effectPipelineStart (p : Nat) (s : State) : Except Nat State :=
  if s.steps.image.isSome && (s.selectSchedule s.faults.out).isNone then .error 0x0A
  else .ok { s with out := { s.out with stopped := s.out.stopped.filter (fun x => x != p) } }

/-- PIPELINE_START (R540): refused with cause 0x0A while no schedule covers the units in service (R511). -/
def effPipelineStart (f : CritFrame) (pipeline : BitVec 16) (s : State) : State :=
  s.critical f 0x0140 none fun s =>
    if !s.pipelines.contains pipeline.toNat then s.refuseCritical f 0x0140 s.host.epoch 0x0C
    else if (s.selectSchedule s.faults.out).isNone then s.refuseCritical f 0x0140 s.host.epoch 0x0A
    else s.acceptAtEdge f (.pipelineStart f pipeline)
      (fun s => s.effectAt f 0x0140 s.host.epoch s.stepNow (effectPipelineStart pipeline.toNat))

/-- PIPELINE_STOP at its edge. -/
def effectPipelineStop (p : Nat) (s : State) : Except Nat State :=
  .ok { s with out := { s.out with stopped := p :: s.out.stopped.filter (fun x => x != p) } }

/-- PIPELINE_STOP (R540). -/
def effPipelineStop (f : CritFrame) (pipeline : BitVec 16) (s : State) : State :=
  s.critical f 0x0141 none fun s =>
    if !s.pipelines.contains pipeline.toNat then s.refuseCritical f 0x0141 s.host.epoch 0x0C
    else s.acceptAtEdge f (.pipelineStop f pipeline)
      (fun s => s.effectAt f 0x0141 s.host.epoch s.stepNow (effectPipelineStop pipeline.toNat))

/-! The entropy source and the test access port (R545, R550). -/

/-- ENTROPY_HEALTH_FAIL (R550). -/
def effEntropyHealthFail (s : State) : State :=
  if s.power.resetHeld ∨ s.power.safe ∨ !s.sec.entropyOk then s
  else
    let s := ({ s with sec := { s.sec with entropyOk := false } }).secEvent 6
    let x := s.newError securityRegion 4
    x.2.faultRecord x.1 0 0x76 0 [] noSeq s.stepNow

/-- Debug is open in FAB and RETURN (R543). -/
def State.jtagOpen (s : State) : Bool := s.lc == lcFab || s.lc == lcReturn

/-- The instruction that the test access port acts on (R545). -/
def State.jtagActs (s : State) (j : JtagOp) : JtagOp :=
  match j with
  | .bypass => .bypass
  | .idcode => .idcode
  | .samplePreload => .samplePreload
  | .extest => if s.power.resetHeld then .extest else .bypass
  | .clamp => if s.power.resetHeld then .clamp else .bypass
  | .debug => if s.jtagOpen then .debug else .bypass
  | .other => .bypass

/-- JTAG_INSTRUCTION (R545). -/
def effJtagInstruction (j : JtagOp) (s : State) : State := { s with sec := { s.sec with jtag := s.jtagActs j } }

def execKeyAgree (f : CritFrame) (chain : List Cert) (bulk : Bulk) (qh : Nat × Nat) (nh : Bytes) (reply : Nat) (s : State) :
    Host.Outcome State Fault Refusal := .next (effKeyAgree f chain bulk qh nh reply s)
def execKeyRetire (f : CritFrame) (s : State) : Host.Outcome State Fault Refusal := .next (effKeyRetire f s)
def execAttest (f : CritFrame) (nonce : Bytes) (reply : Nat) (s : State) : Host.Outcome State Fault Refusal :=
  .next (effAttest f nonce reply s)
def execCertRead (f : CritFrame) (reply : Nat) (s : State) : Host.Outcome State Fault Refusal := .next (effCertRead f reply s)
def execDeviceCertInstall (f : CritFrame) (bulk : Bulk) (chain : List Cert) (s : State) : Host.Outcome State Fault Refusal :=
  .next (effDeviceCertInstall f bulk chain s)
def execLcProvision (f : CritFrame) (s : State) : Host.Outcome State Fault Refusal := .next (effLcProvision f s)
def execLcService (f : CritFrame) (s : State) : Host.Outcome State Fault Refusal := .next (effLcService f s)
def execLcReturn (f : CritFrame) (s : State) : Host.Outcome State Fault Refusal := .next (effLcReturn f s)
def execLcEnd (f : CritFrame) (s : State) : Host.Outcome State Fault Refusal := .next (effLcEnd f s)
def execSiteInstall (f : CritFrame) (bulk : Bulk) (root : Option Cert) (siteCert : Bytes) (revoked : List Bytes)
    (rootSig : Option (Nat × Nat)) (flashOk : Bool) (s : State) : Host.Outcome State Fault Refusal :=
  .next (effSiteInstall f bulk root siteCert revoked rootSig flashOk s)
def execConfigKeySet (f : CritFrame) (key : Nat × Nat) (flashOk : Bool) (s : State) : Host.Outcome State Fault Refusal :=
  .next (effConfigKeySet f key flashOk s)
def execImageKeysSet (f : CritFrame) (keys : List (Nat × Nat)) (flashOk : Bool) (s : State) :
    Host.Outcome State Fault Refusal := .next (effImageKeysSet f keys flashOk s)
def execCalibrationSet (f : CritFrame) (bulk : Bulk) (entries : List Calibration) (flashOk : Bool) (s : State) :
    Host.Outcome State Fault Refusal := .next (effCalibrationSet f bulk entries flashOk s)
def execRosterSet (f : CritFrame) (bulk : Bulk) (entries : List RosterEntry) (flashOk : Bool) (s : State) :
    Host.Outcome State Fault Refusal := .next (effRosterSet f bulk entries flashOk s)
def execPegSet (f : CritFrame) (bulk : Bulk) (pegs : List Peg) (flashOk : Bool) (s : State) :
    Host.Outcome State Fault Refusal := .next (effPegSet f bulk pegs flashOk s)
def execDatumSet (f : CritFrame) (d : Datum) (flashOk : Bool) (s : State) : Host.Outcome State Fault Refusal :=
  .next (effDatumSet f d flashOk s)
def execSecurityVersionRaise (f : CritFrame) (v : BitVec 32) (s : State) : Host.Outcome State Fault Refusal :=
  .next (effSecurityVersionRaise f v s)
def execPipelineStart (f : CritFrame) (pipeline : BitVec 16) (s : State) : Host.Outcome State Fault Refusal :=
  .next (effPipelineStart f pipeline s)
def execPipelineStop (f : CritFrame) (pipeline : BitVec 16) (s : State) : Host.Outcome State Fault Refusal :=
  .next (effPipelineStop f pipeline s)
def execEntropyHealthFail (s : State) : Host.Outcome State Fault Refusal := .next (effEntropyHealthFail s)
def execJtagInstruction (j : JtagOp) (s : State) : Host.Outcome State Fault Refusal := .next (effJtagInstruction j s)

end Sys2Proof.Machine
end

