-- ==== Sys2Proof/Machine/Updates.lean ====
section
/-! DEFINITION. Hitless update of images and runtime (R520–R523), and the operator's writes to collections (R351). -/

namespace Sys2Proof.Machine

/-! Staging (R520, R540). -/

def State.inactiveSlot (s : State) : Nat := 1 - s.power.slot.getD 0

def State.setSlotAt (s : State) (i : Nat) (x : Option Slot) : State :=
  { s with flash := if i = 0 then { s.flash with slotA := x } else { s.flash with slotB := x } }

/-- The slot a staging builds on: the staged one, else the active one. -/
def State.stageBase (s : State) : Option Slot :=
  match s.host.stagedSlot with
  | some i => s.slotAt i
  | none => s.activeSlot

/-- Components written into the inactive slot; those not given are copied (R520). -/
def State.stageSlot (s : State) (cs : List Component) : State :=
  match s.stageBase, s.activeSlot with
  | some b, some a =>
    (s.setSlotAt s.inactiveSlot (some { b with committed := false, slotSeq := a.slotSeq + 1, components := cs })) |> fun t =>
      { t with host := { t.host with stagedSlot := some s.inactiveSlot } }
  | _, _ => s

/-- The staged slot is erased (R523). -/
def State.eraseStaged (s : State) : State :=
  let t := s.setSlotAt s.inactiveSlot none
  { t with host := { t.host with stagedSlot := none, stagedImage := none, stagedRuntime := none } }

/-- The update status has changed: vector 0 (R497). -/
def State.updateEvent (s : State) : State := if s.fld ⟨0xE00004, 0, 1⟩ = 1 then s.msix 0 else s

/-- An image component with a replacement seed, if one is given (R71, R540). -/
def withSeed (seeds : List (Nat × Bytes)) (c : Component) : Component :=
  match c.body with
  | .image i st =>
    match lookupKey i.id seeds with
    | some sd => { c with body := .image { i with seed := sd } st }
    | none => c
  | _ => c

def Comp.clearStart (c : Component) : Component :=
  match c.body with
  | .image i _ => { c with body := .image i false }
  | _ => c

/-- The components of the new slot: those given, then the active slot's others; a given start image is the only one. -/
def stagedComponents (base images : List Component) (config : Option Component) : List Component :=
  let given := (images.filterMap Component.image?).map (fun p => p.1.id)
  let hasStart := (images.filterMap Component.image?).any (fun p => p.2)
  let keep (c : Component) : Bool :=
    match c.body with
    | .image i _ => !given.contains i.id
    | .bootConfig _ => config.isNone
    | .runtime _ => true
  let old := base.filter keep
  (if hasStart then old.map Comp.clearStart else old) ++ config.toList ++ images

/-- IMAGE_STAGE (R520, R523, R540). A replacement seed (R71) is an operand beside the frame (DESIGN CHOICE, assumption 81). -/
def effImageStage (f : CritFrame) (bulks : List Bulk) (images : List Component) (config : Option Component)
    (seeds : List (Nat × Bytes)) (flashOk : Bool) (s : State) : State :=
  s.critical f 0x0200 none fun s =>
    let ep := s.host.epoch
    match s.activeSlot with
    | none => s.refuseCritical f 0x0200 ep 0x0C
    | some a =>
      let cs := (stagedComponents a.components (images.map (withSeed seeds)) config)
      let imgs := cs.filterMap Component.image?
      let start := imgs.findSome? (fun p => if p.2 then some p.1 else none)
      let need := (start.map (fun i => sumTiles (i.objects.filter ObjectDecl.inT3))).getD 0
      let cfg := cs.findSome? Component.config?
      if images.any (fun c => c.image?.isNone) ∨ config.any (fun c => c.config?.isNone) ∨ 15 < imgs.length ∨
          (imgs.filter (fun p => p.2)).length ≠ 1 ∨ seeds.any (fun p => p.2.length != 32) ∨
          imgs.any (fun p => !ratesFit p.1.channels s.sec.site.roster) then
        s.refuseCritical f 0x0200 ep 0x0C
      else if bulks.any (fun b => !bulkOk b) then s.refuseCritical f 0x0200 ep 0x0F
      else if images.any (fun c => !s.signedOk c) then s.refuseCritical f 0x0200 ep 0x73
      else if !flashOk ∨ (images ++ config.toList).any (fun c => sha384 c.bytes != c.digest) ∨
          config.any (fun c => !s.signedOk c) ∨ !configOk (cfg.getD []) start then
        (s.eraseStaged.refuseCritical f 0x0200 ep 0x0F).updateEvent
      else if s.t3Free < need then s.refuseCritical f 0x0200 ep 0x01
      else
        let t := s.stageSlot cs
        let t := ({ t with host := { t.host with stagedImage := start } }).updateEvent
        t.serveCritical f 0x0200 ep (leBytes 4 ((start.map (·.id)).getD 0))

/-! The switch (R521). -/

/-- The largest cadence multiple of the image. -/
def largestMultiple (img : Image) : Nat := max 1 ((img.cadences.map (·.multiple)).foldl max 0)

/-- The switch step for a named step. -/
def State.switchStep (s : State) (named : Nat) : Nat :=
  let c := largestMultiple (s.steps.image.getD default)
  ceilDiv (max named (s.stepNow + 2)) c * c

/-- The commit word of the staged slot is programmed, and the slot is the active one (R521). -/
def State.commitStaged (s : State) : State :=
  match s.host.stagedSlot with
  | none => s
  | some i =>
    let t := s.setSlotAt i ((s.slotAt i).map (fun x => { x with committed := true }))
    { t with power := { t.power with slot := some i }, host := { t.host with stagedSlot := none } }

/-- The engines under the new image: one whose declaration is the old one keeps its objects during a run, and any other
starts afresh (R521). -/
def State.handOver (s : State) (old img : Image) : State :=
  let coll (d : CollDecl) : Collection :=
    match old.collections.findIdx? (fun x => x == d) with
    | some i => if s.inRun then s.coll i else freshColl d
    | none => freshColl d
  { s with
    search := { s.search with colls := img.collections.map coll }
    track := if old.track = img.track then s.track else freshTrack
    solver := if old.solver = img.solver then s.solver else freshSolver
    map := if old.map = img.map then s.map else startMap img.map s.sec.site.pegs
    fusion := { s.fusion with
      streams := img.streams.map (fun _ => (default : FStream)), egos := img.egos.map (fun _ => startEgo), maps := []
      align := if old.streams = img.streams then s.fusion.align else img.streams.map (fun _ => (default : AlignState))
      contestedRegions := [], egoDone := [], due := [], poseDue := [] } }

/-- New-image objects: those with the identifier and size of an old object keep its contents (R521). -/
def State.replaceImage (s : State) (img : Image) : State :=
  let old := s.steps.image.getD default
  let kept := (img.objects.filter (fun d => s.tiers.objects.any (fun o => o.id == d.id && o.tiles == d.tiles))).map
    (fun d => (d.id, ((s.tiers.objects.find? (fun o => o.id == d.id)).map (fun o =>
      s.load (o.baseTile * tileBytes) (o.tiles * tileBytes))).getD []))
  let t := (s.sheets.open_.foldl State.closeWindow s).handOver old img
  let colls := t.search.colls
  let t := t.dropImage []
  let place (t : State) (d : ObjectDecl) : State :=
    match lookupKey d.id kept with
    | some p => t.placeObject { d with init := p }
    | none => t.placeObject d
  let t := img.objects.foldl place t
  { t with
    tiers := { t.tiers with quotas := img.quotas ++ t.tiers.quotas }
    search := { t.search with colls := colls }
    sheets := { t.sheets with lanterns := [], waits := [], frames := [] }
    steps := { t.steps with image := some img, imageStart := true } }

/-- The digest of an image of the active slot. -/
def State.imageDigest (s : State) (id : Nat) : Bytes :=
  (((s.activeSlot.map (·.components)).getD []).findSome? (fun c =>
    match c.image? with | some p => if p.1.id = id then some c.digest else none | none => none)).getD []

/-- IMAGE_SWITCH at edge n (R521, R50): a differing base step ends the run. -/
def State.switchImage (s : State) (img : Image) (n : Nat) : State :=
  let old := s.steps.image.getD default
  let t := s.commitStaged.replaceImage img
  let t := { t with
    host := { t.host with stagedImage := none }
    steps := { t.steps with switch := none, endRun := t.steps.endRun || (t.inRun && img.baseUs != old.baseUs) } }
  let t := if t.inRun && img.baseUs == old.baseUs then
      t.record kImageSwitch 0 0 n (leBytes 4 old.id ++ leBytes 4 img.id ++ fitBytes 48 (t.imageDigest img.id))
    else t
  t.updateEvent

/-- IMAGE_ACTIVATE (R521, R523): with no run in progress the switch is made at once. -/
def effImageActivate (f : CritFrame) (n : BitVec 64) (s : State) : State :=
  s.critical f 0x0201 none fun s =>
    let ep := s.host.epoch
    match s.host.stagedImage with
    | none => s.refuseCritical f 0x0201 ep 0x0C
    | some img =>
      if s.inRun then
        let at_ := s.switchStep n.toNat
        let d := if n.toNat < at_ then min ((at_ - n.toNat) * s.baseUs * 1000) (2 ^ 32 - 1) else 0
        let t := ({ s with steps := { s.steps with switch := some (img, at_) } }).updateEvent
        t.endCritical f 0x0201 ep (if d = 0 then served else delayed) 0 d at_ []
      else
        ((s.serveCritical f 0x0201 ep []).switchImage img 0).startService

/-! The runtime (R520, R522). -/

/-- RUNTIME_STAGE (R520, R523). -/
def effRuntimeStage (f : CritFrame) (bulk : Bulk) (rt : Component) (flashOk : Bool) (s : State) : State :=
  s.critical f 0x0202 none fun s =>
    let ep := s.host.epoch
    if rt.runtime?.isNone then s.refuseCritical f 0x0202 ep 0x0C
    else if !bulkOk bulk then s.refuseCritical f 0x0202 ep 0x0F
    else if !flashOk ∨ sha384 rt.bytes ≠ rt.digest ∨ !s.signedOk rt then
      (s.eraseStaged.refuseCritical f 0x0202 ep 0x0F).updateEvent
    else
      let cs := ((s.stageBase.map (·.components)).getD []).filter (fun c => c.runtime?.isNone) ++ [rt]
      let t := s.stageSlot cs
      ({ t with host := { t.host with stagedRuntime := some rt } }).updateEvent.serveCritical f 0x0202 ep
        (leBytes 4 (rt.runtime?.getD 0))

/-- RUNTIME_ACTIVATE at its edge (R522, R570): the standby pair is active with the new runtime. -/
def effectRuntimeActivate (s : State) : Except Nat State :=
  match s.host.stagedRuntime with
  | none => .error 0x0C
  | some rt =>
    if !s.power.standby then .error 0x8A
    else
      let t := s.commitStaged.setReg 0x14 (rt.runtime?.getD 0)
      .ok ({ t with
        power := { t.power with activePair := 1 - t.power.activePair, standby := false, runtimeDigest := rt.digest }
        host := { t.host with stagedRuntime := none } }).updateEvent

/-- RUNTIME_ACTIVATE (R522, R523, R570). -/
def effRuntimeActivate (f : CritFrame) (n : BitVec 64) (s : State) : State :=
  s.critical f 0x0203 none fun s =>
    let ep := s.host.epoch
    if s.host.stagedRuntime.isNone then s.refuseCritical f 0x0203 ep 0x0C
    else if !s.power.standby then s.refuseCritical f 0x0203 ep 0x8A
    else if s.inRun then s.waitFor f (.runtimeActivate f n) (max n.toNat (s.effectStep f))
    else s.effectAt f 0x0203 ep s.stepNow effectRuntimeActivate

/-- STANDBY_RELOAD_COMPLETE (R522): the former active pair is the standby pair. -/
def effStandbyReloadComplete (s : State) : State :=
  let p := 1 - s.power.activePair
  if s.up ∧ !s.power.standby ∧ !s.isOut (pairRegion p) ∧ !s.power.pairsUnusable.contains p then
    ({ s with power := { s.power with standby := true } }).updateEvent
  else s

/-! Host writes to collections (R332, R341, R351). -/

/-- The cause for which a host write to a collection is refused, if any: of those that apply the first of R33. -/
def State.collWriteCause (s : State) (i dim : Nat) (load : Bool) : Option Nat :=
  let d := s.collDecl i
  let unusable : Bool := decide (s.collDecls.length ≤ i) ||
    (if load then (s.coll i).state != collUnloaded else s.collCause i != 0)
  match pickCause ((if s.inService (engineRegion 4) then [] else [0x0A]) ++ (if unusable then [0x50] else []) ++
      (if load || dim == d.dim then [] else [0x53]) ++ (if d.hostWrite then [] else [0x56])) with
  | 0 => none
  | c => some c

/-- The cause for which a host write is refused at acceptance: malformed before all others, and a bulk object that does not verify in
its place among those of the collection (R33, R536). -/
def State.collRefusal (s : State) (malformed : Bool) (bulk : Bulk) (i dim : Nat) (load : Bool) : Option Nat :=
  if malformed then some 0x0C
  else
    match pickCause ((if bulkOk bulk then [] else [0x0F]) ++ ((s.collWriteCause i dim load).map (fun c => [c])).getD []) with
    | 0 => none
    | c => some c

/-- A host change takes effect: it enters at the next commit of the collection's epoch source; its reply follows that
commit. -/
def State.queueHostOp (s : State) (i : Nat) (o : HostOp) : State :=
  s.setColl i { s.coll i with hostOps := (s.coll i).hostOps ++ [o] }

/-- The effect of a host write at the edge of step `n`. -/
def State.effectSearch (s : State) (f : CritFrame) (op ep n i dim : Nat) (c : HostChange) (after : State → State) : State :=
  if !stateAllows op f.role.toNat s.lc then s.endCritical f op ep refused 0x09 0 n []
  else
    match s.collWriteCause i dim (op == 0x45) with
    | some x => s.endCritical f op ep refused x 0 n []
    | none =>
      let s := after (s.queueHostOp i ⟨f, ep, c⟩)
      s.noteCritical f op (if s.effectDelay f n = 0 then served else delayed) 0 n

/-- SEARCH_INSERT at its edge. -/
def State.effectSearchInsert (s : State) (f : CritFrame) (ep n i dim : Nat) (items : List (Nat × List Nat)) (reply : Nat) :
    State := s.effectSearch f 0x43 ep n i dim (.insert items reply) id

/-- SEARCH_INSERT (R341, R351): up to 65,536 vectors; the batch is copied into the archive. -/
def effSearchInsert (f : CritFrame) (coll dim : Nat) (bulk : Bulk) (items : List (Nat × List Nat)) (reply : Nat) (s : State) :
    State :=
  s.critical f 0x43 none fun s =>
    let ep := s.host.epoch
    match s.collRefusal (decide (65536 < items.length) || items.any (fun x => x.2.length != dim)) bulk coll dim false with
    | some c => s.refuseCritical f 0x43 ep c
    | none =>
      let s := if s.inRun then (s.archive bulk.bytes).1 else s
      s.acceptAtEdge f (.searchInsert f coll dim bulk items reply)
        (fun s => s.effectSearchInsert f ep s.stepNow coll dim items reply)

/-- SEARCH_DELETE at its edge. -/
def State.effectSearchDelete (s : State) (f : CritFrame) (ep n i : Nat) (ids : List Nat) (reply : Nat) : State :=
  s.effectSearch f 0x44 ep n i (s.collDecl i).dim (.delete ids reply) id

/-- SEARCH_DELETE (R343, R351): up to 65,536 identifiers. -/
def effSearchDelete (f : CritFrame) (coll : Nat) (bulk : Bulk) (ids : List Nat) (reply : Nat) (s : State) : State :=
  s.critical f 0x44 none fun s =>
    let ep := s.host.epoch
    match s.collRefusal (decide (65536 < ids.length)) bulk coll (s.collDecl coll).dim false with
    | some c => s.refuseCritical f 0x44 ep c
    | none =>
      let s := if s.inRun then (s.archive bulk.bytes).1 else s
      s.acceptAtEdge f (.searchDelete f coll bulk ids reply)
        (fun s => s.effectSearchDelete f ep s.stepNow coll ids reply)

/-- The records of a snapshot after its 80-byte header (R352): identifier, tag and vector. -/
def snapshotRecords (dim : Nat) : Nat → Bytes → List (Nat × Nat × List Nat)
  | 0, _ => []
  | n + 1, b =>
    (leAt b 0 4, leAt b 8 8, (List.range dim).map (fun i => leAt b (16 + 4 * i) 4)) ::
      snapshotRecords dim n (b.drop (16 + 4 * dim))

/-- A snapshot is the declared one (R332): digest, and the header's collection digest, dimension and count. -/
def snapshotOk (d : CollDecl) (bs : Bytes) : Bool :=
  d.snapshot == some (sha384 bs) && fitBytes 48 bs == fitBytes 48 d.digest && leAt bs 68 2 == d.dim &&
    bs.length == 80 + leAt bs 56 8 * (16 + 4 * d.dim)

/-- SEARCH_LOAD at its edge: the collection is usable from then on, its vectors enter at the next commit. -/
def State.effectSearchLoad (s : State) (f : CritFrame) (ep n i : Nat) (bs : Bytes) : State :=
  let recs := snapshotRecords (s.collDecl i).dim (leAt bs 56 8) (bs.drop 80)
  s.effectSearch f 0x45 ep n i 0 (.load recs) (fun s => s.setColl i { s.coll i with state := collUsable })

/-- SEARCH_LOAD (R332, R351). -/
def effSearchLoad (f : CritFrame) (coll : Nat) (bulk : Bulk) (s : State) : State :=
  s.critical f 0x45 none fun s =>
    let ep := s.host.epoch
    match s.collRefusal false bulk coll 0 true with
    | some c => s.refuseCritical f 0x45 ep c
    | none =>
      if !snapshotOk (s.collDecl coll) bulk.bytes then
        let x := s.newError (engineRegion 4) 3
        (x.2.faultRecord x.1 0 0x0F 0 [] noSeq s.stepNow).refuseCritical f 0x45 ep 0x50
      else
        s.acceptAtEdge f (.searchLoad f coll bulk) (fun s => s.effectSearchLoad f ep s.stepNow coll bulk.bytes)

def execImageStage (f : CritFrame) (bulks : List Bulk) (images : List Component) (config : Option Component)
    (seeds : List (Nat × Bytes)) (flashOk : Bool) (s : State) : Host.Outcome State Fault Refusal :=
  .next (effImageStage f bulks images config seeds flashOk s)
def execImageActivate (f : CritFrame) (n : BitVec 64) (s : State) : Host.Outcome State Fault Refusal :=
  .next (effImageActivate f n s)
def execRuntimeStage (f : CritFrame) (bulk : Bulk) (rt : Component) (flashOk : Bool) (s : State) :
    Host.Outcome State Fault Refusal := .next (effRuntimeStage f bulk rt flashOk s)
def execRuntimeActivate (f : CritFrame) (n : BitVec 64) (s : State) : Host.Outcome State Fault Refusal :=
  .next (effRuntimeActivate f n s)
def execStandbyReloadComplete (s : State) : Host.Outcome State Fault Refusal := .next (effStandbyReloadComplete s)
def execSearchInsert (f : CritFrame) (coll dim : Nat) (bulk : Bulk) (items : List (Nat × List Nat)) (reply : Nat) (s : State) :
    Host.Outcome State Fault Refusal := .next (effSearchInsert f coll dim bulk items reply s)
def execSearchDelete (f : CritFrame) (coll : Nat) (bulk : Bulk) (ids : List Nat) (reply : Nat) (s : State) :
    Host.Outcome State Fault Refusal := .next (effSearchDelete f coll bulk ids reply s)
def execSearchLoad (f : CritFrame) (coll : Nat) (bulk : Bulk) (s : State) : Host.Outcome State Fault Refusal :=
  .next (effSearchLoad f coll bulk s)

end Sys2Proof.Machine
end

