-- ==== Sys2Proof/Machine/HostIf.lean ====
section
/-! DEFINITION. Reset and the host interface (R493, R496, R498–R504, R510): RESET_N_ASSERT, RESET_N_RELEASE, PERST_N,
HOST_INTERFACE_RESET, PCIE_LINK_RETURN, HOST_ATTACH, HOST_DETACH, the doorbells, RING_ENABLE and RING_RESET. -/

namespace Sys2Proof.Machine

/-! Reset of the device. -/

/-- RESET_N_ASSERT (R36, R493): everything but the flash, the security block's non-volatile contents and the state of the
`PERST_N` pin goes to its reset value. The queue of commands and the count of free values are the model's own. -/
def effResetNAssert (s : State) : State :=
  let r := State.reset
  { r with
    pending := s.pending
    free := s.free
    flash := s.flash
    power := { r.power with perstHeld := s.power.perstHeld }
    sec := { r.sec with
      lcWords := s.sec.lcWords, identity := s.sec.identity, storageKey := s.sec.storageKey
      deviceCert := s.sec.deviceCert, minVersion := s.sec.minVersion } }

/-- RESET_N_RELEASE (R510): the boot ROM starts; without a reset before it there is no release. -/
def effResetNRelease (b : BootInputs) (s : State) : State := if s.power.resetHeld then s.boot b else s

/-! Reset of the host interface (R493). -/

/-- A command ring disabled. -/
def State.disableRing (s : State) (r : Nat) : State := s.setFld ⟨ringReg r 0x14, 0, 1⟩ 0

/-- Every ring disabled, the attachment ended, all vectors masked and the window lost; commands already started complete
without a completion, since their epoch is over. -/
def State.resetHost (s : State) : State :=
  let s := (List.range 16).foldl State.disableRing s
  { s.loseWindow with host := { s.loseWindow.host with
      linkUp := false, attached := false, vectorMask := 2 ^ 64 - 1, epoch := s.host.epoch + 1, unposted := [] } }

/-- PERST_N asserted. -/
def effPerstN (s : State) : State :=
  let s := if s.power.resetHeld then s else s.resetHost
  { s with power := { s.power with perstHeld := true } }

/-- HOST_INTERFACE_RESET. -/
def effHostInterfaceReset (_ : HostResetCause) (s : State) : State := if s.power.resetHeld then s else s.resetHost

/-- PCIE_LINK_RETURN (R491, R493): generation and width as trained, and `HOST_EVENTS.HOST_RESET`. -/
def effPcieLinkReturn (gen width : Nat) (s : State) : State :=
  let s := { s with power := { s.power with perstHeld := false } }
  if s.power.resetHeld ∨ s.host.linkUp then s
  else
    ({ s with host := { s.host with linkUp := true, gen := gen, width := width, flit := gen == 6 } }).event 0x100008 0 false 0

/-! The attachment (R503, R504). -/

def outRingOk (size : Nat) : Bool := decide (0 < size ∧ size % 65536 = 0 ∧ size ≤ 2 ^ 32)

/-- The vectors are unmasked: those pending are sent. -/
def State.unmaskVectors (s : State) : State :=
  let vs := (List.range 64).filter (fun v => bitAt s.host.vectorPending v)
  { s with host := { s.host with vectorMask := 0, vectorPending := 0, sent := vs.reverse ++ s.host.sent } }

/-- HOST_ATTACH: the new output ring replaces the current one at once, empty. -/
def effHostAttach (h : CmdHdr) (addr size : Nat) (s : State) : State :=
  s.hostCommand h 0x0001 (fun s =>
    if !outRingOk size then s.complete h 0x0001 refused 0x0C 0 []
    else
      let s := { s with host := { s.host with attached := true, outBase := addr, outSize := size } }
      let s := ((s.setReg 0x10001C 0).setReg 0x100020 0).unmaskVectors
      (s.complete h 0x0001 served 0 0 []).deliver)

/-- HOST_DETACH: records not yet copied stay in the output buffer. -/
def effHostDetach (h : CmdHdr) (s : State) : State :=
  s.hostCommand h 0x0002 (fun s =>
    ({ s with host := { s.host with attached := false } }).complete h 0x0002 served 0 0 [])

/-! Rings (R496, R498, R501). -/

/-- Doorbells and ring registers reach the device: it takes commands and the link is up. -/
def State.hostUp (s : State) : Bool := s.up && s.host.linkUp

/-- Completions of a ring that waited for room, oldest first, while the completion ring has any (R501). -/
def State.postWaiting (s : State) (r : Nat) : State :=
  let mine := s.host.unposted.filter (fun c => c.1.ring == r)
  let s := { s with host := { s.host with unposted := s.host.unposted.filter (fun c => c.1.ring != r) } }
  mine.foldl (fun s c => s.post c.1 c.2) s

/-- SQ_DOORBELL: entries up to the tail become available; unknown opcodes among them are completed when reached. -/
def effSqDoorbell (r : Fin 16) (v : Word) (unknown : List UnknownEntry) (s : State) : State :=
  let n := r.val
  if !s.hostUp ∨ !s.ringEnabled n ∨ (s.ring n).err then s
  else if s.sqEntries n ≤ v.toNat then s.ringError n 0 0
  else
    let x := s.ring n
    let kept := x.unknown.filter (fun u => !unknown.any (fun y => y.place == u.place))
    (s.setRing n { x with sqTail := v.toNat, unknown := kept ++ unknown }).serveRing n

/-- CQ_DOORBELL: entries up to the head are free again. -/
def effCqDoorbell (r : Fin 16) (v : Word) (s : State) : State :=
  let n := r.val
  if !s.hostUp ∨ !s.ringEnabled n ∨ (s.ring n).err then s
  else if s.cqEntries n ≤ v.toNat then s.ringError n 0 0
  else ((s.setRing n { s.ring n with cqHead := v.toNat }).postWaiting n).serveRing n

/-- RING_ENABLE: a write of `RING_CTL_r.EN`. -/
def effRingEnable (r : Fin 16) (en : Bool) (s : State) : State :=
  if !s.up then s
  else
    let s := s.setFld ⟨ringReg r.val 0x14, 0, 1⟩ (b2n en)
    if en then (s.postWaiting r.val).serveRing r.val else s

/-- RING_RESET: a write of `RING_CTL_r.RESET` clears the error and the pointers. -/
def effRingReset (r : Fin 16) (s : State) : State :=
  if !s.up then s else ((s.setRing r.val Ring.fresh).postWaiting r.val).serveRing r.val

def execResetNAssert (s : State) : Host.Outcome State Fault Refusal := .next (effResetNAssert s)

def execResetNRelease (b : BootInputs) (s : State) : Host.Outcome State Fault Refusal := .next (effResetNRelease b s)

def execPerstN (s : State) : Host.Outcome State Fault Refusal := .next (effPerstN s)

def execHostInterfaceReset (c : HostResetCause) (s : State) : Host.Outcome State Fault Refusal :=
  .next (effHostInterfaceReset c s)

def execPcieLinkReturn (gen width : Nat) (s : State) : Host.Outcome State Fault Refusal :=
  .next (effPcieLinkReturn gen width s)

def execHostAttach (h : CmdHdr) (addr size : Nat) (s : State) : Host.Outcome State Fault Refusal :=
  .next (effHostAttach h addr size s)

def execHostDetach (h : CmdHdr) (s : State) : Host.Outcome State Fault Refusal := .next (effHostDetach h s)

def execSqDoorbell (r : Fin 16) (v : Word) (unknown : List UnknownEntry) (s : State) : Host.Outcome State Fault Refusal :=
  .next (effSqDoorbell r v unknown s)

def execCqDoorbell (r : Fin 16) (v : Word) (s : State) : Host.Outcome State Fault Refusal := .next (effCqDoorbell r v s)

def execRingEnable (r : Fin 16) (en : Bool) (s : State) : Host.Outcome State Fault Refusal := .next (effRingEnable r en s)

def execRingReset (r : Fin 16) (s : State) : Host.Outcome State Fault Refusal := .next (effRingReset r s)

end Sys2Proof.Machine
end

