-- ==== Sys2Proof/Machine/Lanterns.lean ====
section
/-! DEFINITION. The commands of groundsheets, lanterns and lent memory (R145–R164), and the waiting work that they let go
on. -/

namespace Sys2Proof.Machine

def gsPage (g : Nat) : Nat := 0x700000 + 0x10000 * g

/-- DESCRIPTOR_COMPLETE (R150, R154): a completed descriptor of the unit, for work of cadence `k`, releases the tile it
consumed, or raises the lantern it filled with the tag of its occurrence. -/
def effDescriptorComplete (k : Fin 16) (unit lantern : BitVec 16) (release : Bool) (s : State) : State :=
  let u := unit.toNat
  let l := lantern.toNat
  if !s.up || !s.inRun || l == noLantern || !lanternOk l then s
  else if release then s.releaseLantern k.val u l
  else
    match s.useOf l with
    | none => s
    | some x =>
      match s.occOf x.cadence with
      | none => s
      | some o => s.raiseLantern u l (s.stepTime o.step) o.step

/-- The waiting work of an array, when its unit passes, goes on. -/
def State.wakeArray (s : State) (a : Nat) (passes : Nat → Bool) : State :=
  match (s.array a).queue with
  | j :: _ => if passes j.desc.unit.toNat then State.resumeArray (s.array a).queue.length s a else s
  | [] => s

/-- The work of a unit that waits goes on: fusion writes, array descriptors, vision descriptors and their outputs. -/
def State.resumeUnit (s : State) (u : Nat) : State :=
  let s := (List.range 4).foldl (fun s a => s.wakeArray a (fun x => x == u)) (s.resumeFusion u)
  (List.range 2).foldl (fun s v => s.resumeCluster v (fun x => x == u)) s

/-- The owners of memories whose lent tiles have left since `old` go on (R162). -/
def State.resumeOwners (old s : State) : State :=
  let gone := (old.sheets.lent.map (·.memory)).filter (fun m => !s.sheets.lent.any (fun x => x.memory == m))
  gone.foldl (fun s m =>
    if m < 4 then s.wakeArray m (fun _ => true) else s.resumeCluster ((m - 4) / 4) (fun _ => true)) s

/-- The descriptors whose wait for memory has ended, with an access of a stall cause, go on (R481, R485). -/
def State.resumeHeld (s : State) (cause : Nat) : State :=
  let regions := s.tiers.tierWaits.map (·.region)
  let s := s.endTierWaits cause
  (regions.filter (fun r => !s.tiers.tierWaits.any (fun w => w.region == r))).foldl (fun s r =>
    if regionClass r = 0 then s.wakeArray (regionInst r) (fun _ => true)
    else s.resumeCluster (regionInst r / 4) (fun _ => true)) s

/-- LANTERN_GRANT (R151): a wait that R151 grants ends, and the work that waited goes on. -/
def effLanternGrant (unit lantern : BitVec 16) (s : State) : State :=
  let u := unit.toNat
  let l := lantern.toNat
  let waits := s.sheets.waits.any (fun w => w.unit == u && w.lantern == l)
  if s.up && waits && s.waitGranted u l then (s.dropWait u l).resumeUnit u else s

/-- The watchdog's limit in full-time units (R156). -/
def State.watchdogLimit (s : State) (idx : Nat) : Nat := max 1 (s.activeFld ⟨gsPage (lanternSheet idx) + 8, 0, 16⟩) * usUnits

def State.watchdogOn (s : State) (idx : Nat) : Bool := s.activeFld ⟨gsPage (lanternSheet idx) + 8, 16, 1⟩ == 1

/-- The occurrence that produces the current use of a slot. -/
def State.producerOf (s : State) (idx : Nat) : List (Nat × Nat) :=
  match s.useOf idx with
  | some u => (s.occOf u.cadence).toList.map (fun o => (o.cadence, o.step))
  | none => []

/-- The occurrence that produces the current use of a slot is in a stall now (R68, R156): a trail hold, a merge that blocks its
commit, or lent or held tiles that keep one of its descriptors waiting. -/
def State.producerStalled (s : State) (idx : Nat) : Bool :=
  match s.useOf idx with
  | none => false
  | some u =>
    s.held || s.tiers.tierWaits.any (fun w => w.cadence == u.cadence) || s.search.waitCommits.any (fun w => match w.1 with | .occurrenceCommit j _ _ => j.val == u.cadence | _ => false) ||
      s.sheets.lent.any (fun x => match x.since with | some y => y.2.1 == u.cadence | none => false)

/-- LANTERN_WATCHDOG (R155, R156): a wait that has reached the limit, outside stalls of the producer, makes the producer's work
fail. -/
def effLanternWatchdog (unit lantern : BitVec 16) (s : State) : State :=
  let l := lantern.toNat
  match s.sheets.waits.find? (fun w => w.unit == unit.toNat && w.lantern == l) with
  | none => s
  | some w =>
    if s.up ∧ s.watchdogOn l ∧ !s.waitGranted unit.toNat l ∧ !s.producerStalled l ∧
        w.since + s.watchdogLimit l ≤ s.now then
      let again (x : LanternWaiter) : LanternWaiter := if x = w then { x with since := s.now } else x
      let s := { s with sheets := { s.sheets with waits := s.sheets.waits.map again } }
      let s := s.setReg (gsPage (lanternSheet l) + 0xC) (s.reg (gsPage (lanternSheet l) + 0xC) ||| 8)
      s.detect (dieRegion (sheetDieOf l)) 3 0 (lanternAddr l) [] (s.producerOf l) [] 1
    else s

/-- The region that owns a lendable memory (R159). -/
def lentOwner (m : Nat) : Nat := if m < 4 then arrayRegion m else 0x1000 + (m - 4)

def State.windowDecl (s : State) (i : Nat) : Option LendWindow :=
  match s.steps.image with
  | some img => img.windows[i]?
  | none => none

/-- The period of the longest cadence of the image in steps (R160). -/
def State.longestPeriod (s : State) : Nat := (s.cadences.map (·.multiple)).foldl max 1

/-- Now lies in one of a window's intervals: at or after its open instant and before its close instant, as offsets from the edge
of a step that has passed (R160). -/
def State.windowCovers (s : State) (w : LendWindow) : Bool :=
  match s.steps.run, s.cadences[0]? with
  | some r, some c =>
    let p := s.longestPeriod
    (List.range p).any (fun back =>
      let m := r.edges - 1 - back
      decide (back < r.edges) && w.times.any (fun t =>
        t.1 == m % p && decide (r.close c m + t.2.1 * nsUnits ≤ s.now ∧ s.now < r.close c m + t.2.2 * nsUnits)))
  | _, _ => false

/-- LENDABLE_WINDOW_OPEN (R160, R163): a window that the schedule in force declares opens, from its open instant on, while its
owner is in service. -/
def effLendableWindowOpen (i : Nat) (s : State) : State :=
  match s.windowDecl i with
  | none => s
  | some w =>
    if s.up ∧ s.inRun ∧ w.schedules.contains s.sheets.schedule ∧ s.inService (lentOwner w.memory) ∧ s.windowCovers w ∧
        !s.sheets.open_.contains w then
      { s with sheets := { s.sheets with open_ := s.sheets.open_ ++ [w] } }
    else s

/-- LENDABLE_WINDOW_CLOSE (R162): an open window closes once none of its intervals covers the instant. -/
def effLendableWindowClose (i : Nat) (s : State) : State :=
  match s.windowDecl i with
  | none => s
  | some w => if s.up ∧ s.sheets.open_.contains w ∧ !s.windowCovers w then s.closeWindow w else s

/-- The tag of a slot as a 192-bit value (R145). -/
def State.tagBits (s : State) (idx : Nat) : Nat :=
  let l := s.lantern idx
  l.tag.validTime + l.tag.step * 2 ^ 64 + l.tag.owner % 2 ^ 32 * 2 ^ 128 + l.tag.producer % 2 ^ 16 * 2 ^ 160 +
    l.phase * 2 ^ 176 + b2n l.dirty * 2 ^ 178 + l.consumers % 16 * 2 ^ 180 + l.released.length % 16 * 2 ^ 184

/-- GS_TAG_SAMPLE (R164): the selected slot's tag words, sampled together. -/
def effGsTagSample (g : Fin 3) (s : State) : State :=
  if !s.readable then s.replyWith 0
  else
    let v := s.tagBits (g.val * 4096 + s.fld ⟨gsPage g.val + 0x20, 0, 12⟩)
    let s := (List.range 6).foldl (fun s i => s.setReg (gsPage g.val + 0x24 + 4 * i) (v / 2 ^ (32 * i) % 2 ^ 32)) s
    s.replyWith (v % 2 ^ 32)

/-- TILE_MOVE_COMPLETE (R467–R469, R473), and what it lets go on (R162). -/
def execTileMoveComplete (tile : Nat) (to_ : MoveTo) (stall : Option Stall) (s : State) : Host.Outcome State Fault Refusal :=
  .next ((State.resumeOwners s (effTileMoveComplete tile to_ stall s)).resumeHeld 1)

/-- T4_FETCH_COMPLETE, and the descriptors that it lets go on (R481): after a re-fetch their stall has that cause. -/
def execT4FetchComplete (tile : Nat) (data sidecar : Bytes) (stall : Option Stall) (s : State) :
    Host.Outcome State Fault Refusal :=
  .next ((effT4FetchComplete tile data sidecar stall s).resumeHeld (if s.tiers.refetched.contains tile then 4 else 3))

/-- SOFT_ROW_REPAIR_COMPLETE, and the descriptors that it lets go on (R485). -/
def execSoftRowRepairComplete (row : Nat) (s : State) : Host.Outcome State Fault Refusal :=
  .next ((effSoftRowRepairComplete row s).resumeHeld 1)

/-- OBJ_FREE, and what it lets go on (R162). -/
def execObjFree (h : CmdHdr) (id : BitVec 32) (s : State) : Host.Outcome State Fault Refusal :=
  .next (State.resumeOwners s (effObjFree h id s).endLentWaits)

def execDescriptorComplete (u : UnitWork) (lantern : BitVec 16) (release : Bool) (s : State) :
    Host.Outcome State Fault Refusal := .next (effDescriptorComplete u.cadence u.unit lantern release s)

def execLanternGrant (unit lantern : BitVec 16) (s : State) : Host.Outcome State Fault Refusal :=
  .next (effLanternGrant unit lantern s)

def execLanternWatchdog (unit lantern : BitVec 16) (s : State) : Host.Outcome State Fault Refusal :=
  .next (effLanternWatchdog unit lantern s)

def execLendableWindowOpen (i : Nat) (s : State) : Host.Outcome State Fault Refusal := .next (effLendableWindowOpen i s)

def execLendableWindowClose (i : Nat) (s : State) : Host.Outcome State Fault Refusal := .next (effLendableWindowClose i s)

def execGsTagSample (g : Fin 3) (s : State) : Host.Outcome State Fault Refusal := .next (effGsTagSample g s)

end Sys2Proof.Machine
end

