-- ==== Sys2Proof/Machine/Time.lean ====
section
/-! DEFINITION. The time engine (R392–R424): clocks and the slew, servo registers, domain switches, PTP, transmit stamps,
output pulses and capture inputs. -/

namespace Sys2Proof.Machine

def State.timeAnswer (s : State) (outcome cause : Nat) : State := s.answer blockTime outcome cause

/-- An event of the time engine, with vector 3 when enabled (R424, R497). -/
def State.timeEvent (s : State) (bit : Nat) : State := s.event 0x30000C bit (s.fld ⟨0x300004, 24, 1⟩ == 1) 3

/-- A field in which 0 acts as 1. -/
def zeroAsOne (n : Nat) : Nat := max 1 n

def domReg (k off : Nat) : Nat := 0x300100 + 0x80 * k + off

def TimeUnit.dom (t : TimeUnit) (k : Nat) : Nat := if k = 0 then t.dom0 else t.dom1
def TimeUnit.adj (t : TimeUnit) (k : Nat) : Int := if k = 0 then t.adj0 else t.adj1
def TimeUnit.lockedFor (t : TimeUnit) (k : Nat) : Nat := if k = 0 then t.locked0 else t.locked1
def TimeUnit.announce (t : TimeUnit) (k : Nat) : Option Nat := if k = 0 then t.announce0 else t.announce1

def TimeUnit.setAdj (t : TimeUnit) (k : Nat) (v : Int) : TimeUnit :=
  if k = 0 then { t with adj0 := v } else { t with adj1 := v }
def TimeUnit.setLocked (t : TimeUnit) (k v : Nat) : TimeUnit :=
  if k = 0 then { t with locked0 := v } else { t with locked1 := v }
def TimeUnit.setAnnounce (t : TimeUnit) (k : Nat) (v : Option Nat) : TimeUnit :=
  if k = 0 then { t with announce0 := v } else { t with announce1 := v }

def State.withTime (s : State) (f : TimeUnit → TimeUnit) : State := { s with time := f s.time }

/-- `INC` of a domain in 2⁻⁴⁰ ns per tick (R393). -/
def State.inc (s : State) (k : Nat) : Nat := s.reg (domReg k 0x18) + s.fld ⟨domReg k 0x1C, 0, 16⟩ * 2 ^ 32

/-- E_k = D_k − DT in 2⁻⁴⁰ ns (R402). -/
def State.domOffset (s : State) (k : Nat) : Int := ((s.time.dom k : Nat) : Int) - ((s.time.dev : Nat) : Int)

/-- A domain's state (R400): 0 `UNSET`, 1 `ACQUIRING`, 2 `LOCKED`, 3 `HOLDOVER`. -/
def State.domState (s : State) (k : Nat) : Nat := s.fld ⟨domReg k 4, 0, 2⟩

/-- Whole seconds a domain has been `LOCKED` (R400). -/
def State.lockedSeconds (s : State) (k : Nat) : Nat := min 65535 (s.time.lockedFor k / (1000000000 * 2 ^ 40))

/-- The selected domain's clock, or the clock a selector names: 0 and 3 device time, 1 and 2 the domains (R424). -/
def State.clockOf (s : State) (c : Nat) : Nat :=
  match c with
  | 1 => s.time.dom0
  | 2 => s.time.dom1
  | _ => s.time.dev

/-! The tick (R393, R399, R401, R403). -/

/-- σ_max of R401; `SLEW_PPM` 0 acts as 1 and above 50 as 50. -/
def State.sigmaMax (s : State) : Nat := min 50 (zeroAsOne (s.fld ⟨0x300004, 16, 8⟩)) * 2 ^ 41 / 1000000

/-- The residual taken up in `n` ticks (R401). -/
def slewOf (δ : Int) (σ n : Nat) : Int :=
  if 0 ≤ δ then min δ ((n * σ : Nat) : Int) else max δ (-((n * σ : Nat) : Int))

/-- The instants of a programme that a clock at value `c` (full time) has reached (R417). -/
def Pulse.reached (p : Pulse) (c : Nat) : Nat :=
  if c < p.start then 0
  else if p.period = 0 then 1
  else (c - p.start) / p.period + 1

/-- A phase step of a pin's clock past pending instants: one pulse at the tick of the step, the others counted (R419). -/
def TimeOut.stepped (t : TimeOut) (c ticks : Nat) : TimeOut × Nat :=
  match t.prog with
  | none => (t, 0)
  | some p =>
    let r := p.reached c
    if p.next < r then
      ({ t with prog := some { p with next := r }, high := true, startedAt := ticks, pulses := t.pulses + 1 }, r - p.next - 1)
    else (t, 0)

/-- The pins whose clock a step has moved forward (R419). -/
def State.stepPins (s : State) (moved : Nat → Bool) : State :=
  (List.range 4).foldl (fun s m =>
    match s.time.tout[m]? with
    | some t =>
      match t.prog with
      | some p =>
        if s.up && moved p.clock && s.fld ⟨0x300300 + 0x40 * m, 0, 1⟩ == 1 then
          let r := t.stepped (full (s.clockOf p.clock)) s.time.ticks
          let s := s.withTime (fun u => { u with tout := u.tout.set m r.1 })
          if r.2 = 0 then s else (s.satReg (0x300320 + 0x40 * m) r.2).timeEvent 7
        else s
      | none => s
    | none => s) s

/-- A phase step of 2⁻¹⁶ ns units applied to a domain's clock; without a run a step of the selected domain also steps
device time (R399, R403). -/
def State.phaseStep (s : State) (k : Nat) (v : Int) : State :=
  let d := v * 2 ^ 24
  let move (c : Nat) : Nat := (((c : Nat) : Int) + d).toNat
  let t := s.time
  let t := if k = 0 then { t with dom0 := move t.dom0 } else { t with dom1 := move t.dom1 }
  let sel := k == t.selected
  let t := if sel then (if s.inRun then { t with residual := t.residual + d } else { t with dev := move t.dev }) else t
  { s with time := t }.stepPins (fun c =>
    decide (0 < d) && (c == k + 1 || (sel && !s.inRun && (c == 0 || c == 3))))

/-- Pending phase steps take effect. -/
def State.applySteps (s : State) : State :=
  (List.range 2).foldl (fun s k =>
    let v := s.time.adj k
    if v = 0 then s else (s.withTime (fun t => t.setAdj k 0)).phaseStep k v) s

/-- The clocks after `n` ticks without phase steps (R393, R401). -/
def State.runClocks (s : State) (n : Nat) : State :=
  let t := s.time
  let σ := slewOf t.residual s.sigmaMax n
  let step : Int := ((n * s.inc t.selected : Nat) : Int) + σ
  let gone := step.toNat
  let locked (k : Nat) : Nat := if s.domState k = 2 then t.lockedFor k + gone else 0
  s.withTime (fun t => { t with
    dom0 := t.dom0 + n * s.inc 0
    dom1 := t.dom1 + n * s.inc 1
    dev := t.dev + gone
    residual := t.residual - σ
    ticks := t.ticks + n
    locked0 := locked 0
    locked1 := locked 1 })

/-- CLOCK_TICK (R393, R401): `n` ticks. The runtime takes what the transmit stamp queues hold (R415). -/
def effClockTick (n : Nat) (s : State) : State :=
  if s.power.resetHeld ∨ n = 0 then s
  else
    let s := s.applySteps.runClocks n
    let s := s.withTime (fun t => { t with txts := t.txts.map (fun _ => []) })
    (List.range 4).foldl (fun s d => s.count d 0x01 0 (2 * n)) s

/-! Servo ownership (R397–R400). -/

/-- The writer owns the servo. -/
def State.ownsServo (s : State) (w : Writer) : Bool :=
  decide (w = .host) == (s.fld ⟨0x300004, 0, 1⟩ == 1)

/-- A write by a party that is not the owner: ignored, and refused to the host (R397). -/
def State.notOwner (s : State) (w : Writer) : State :=
  match w with
  | .host => s.timeAnswer refused 0x60
  | .runtime => s

/-- INC_WRITE (R394). -/
def effIncWrite (k : Fin 2) (w : Writer) (hi : Word) (s : State) : State :=
  if !s.up then s
  else if !s.ownsServo w then s.notOwner w
  else
    let off := domReg k.val 0x18
    let v := s.loForCommit off true + hi.toNat % 65536 * 2 ^ 32
    let s := s.consumeLo off
    let dist := ((v : Nat) : Int) - 2 ^ 41
    if 2 ^ 41 < 2000 * dist.natAbs then s.timeAnswer refused 0x0C
    else (s.setReg64 off v).timeAnswer served 0

/-! Domain switches (R405–R408). -/

/-- A domain is usable as a switch target (R406). -/
def State.switchable (s : State) (k : Nat) : Bool :=
  s.domState k == 2 && decide ((s.domOffset k).natAbs ≤ zeroAsOne (s.fld ⟨0x300008, 16, 16⟩) * 1000 * 2 ^ 40)

/-- The other domain becomes the selected one (R405, R407). -/
def State.switchDomain (s : State) (dom reason : Nat) : State :=
  let e := s.domOffset dom
  let from_ := s.time.selected
  let s := s.withTime (fun t => { t with
      selected := dom, residual := e, autoAway := if dom = 0 then false else reason != 0 })
  let s := (s.satFld ⟨0x300010, 16, 16⟩ 1).timeEvent 0
  s.record kDomainSwitch 0 0 s.stepNow
    (leBytes 1 from_ ++ leBytes 1 dom ++ leBytes 1 reason ++ leBytes 5 0 ++ leBytes 8 (ofSigned 64 (roundDivEven e (2 ^ 40))))

/-- A switch, or its refusal when the target is not usable (R406). -/
def State.trySwitch (s : State) (dom reason : Nat) : State :=
  if s.switchable dom then (s.switchDomain dom reason).timeAnswer served 0
  else (s.timeEvent 3).timeAnswer refused 0x63

/-- A refused phase step (R404): a switch with reason 3, or the end of the run with the step applied after it. -/
def State.refuseStep (s : State) (k : Nat) (v : Int) : State :=
  let s := (s.timeEvent 4).timeAnswer refused 0x62
  if s.switchable (1 - k) then s.switchDomain (1 - k) 3
  else
    let s := (s.timeEvent 3).withTime (fun t => { t with afterRun := some (k, v) })
    { s with steps := { s.steps with endRun := true } }

/-- DOM_ADJ_WRITE (R399, R403, R404). -/
def effDomAdjWrite (k : Fin 2) (w : Writer) (hi : Word) (s : State) : State :=
  if !s.up then s
  else if !s.ownsServo w then s.notOwner w
  else
    let off := domReg k.val 0x20
    let v := signedOf 64 (s.loForCommit off false + hi.toNat * 2 ^ 32)
    let s := s.consumeLo off
    let limit := zeroAsOne (s.fld ⟨0x300008, 0, 16⟩) * 1000000 * 2 ^ 40
    let total := s.time.residual + (s.time.adj k.val + v) * 2 ^ 24
    if s.inRun && k.val == s.time.selected && decide (limit < total.natAbs) then s.refuseStep k.val v
    else (s.withTime (fun t => t.setAdj k.val (t.adj k.val + v))).timeAnswer served 0

/-- A domain's state; leaving `LOCKED` ends its locked time (R400). -/
def State.setDomState (s : State) (k st : Nat) : State :=
  let s := s.setFld ⟨domReg k 4, 0, 2⟩ st
  if st = 2 then s else s.withTime (fun t => t.setLocked k 0)

/-- DOM_STATE_WRITE (R400). -/
def effDomStateWrite (k : Fin 2) (w : Writer) (state : Fin 4) (s : State) : State :=
  if !s.up then s
  else if !s.ownsServo w then s.notOwner w
  else (s.setDomState k.val state.val).timeAnswer served 0

/-- DEV_SEL_SWITCH (R406): the commanded switch. -/
def effDevSelSwitch (s : State) : State := if s.up then s.trySwitch (1 - s.time.selected) 0 else s

def State.autoSwitch (s : State) : Bool := s.fld ⟨0x300004, 1, 1⟩ == 1

def State.domEnabled (s : State) (k : Nat) : Bool := s.fld ⟨domReg k 0, 21, 1⟩ == 1
def State.domPort (s : State) (k : Nat) : Nat := s.fld ⟨domReg k 0, 10, 3⟩

/-- ANNOUNCE_RECEIPT_TIMEOUT (R400, R406, R412). -/
def effAnnounceReceiptTimeout (k : Fin 2) (lanB : Bool) (s : State) : State :=
  if !s.up ∨ !s.domEnabled k.val then s
  else if lanB && decide (4 ≤ s.domPort k.val) && !s.time.lanB.contains k.val then
    s.withTime (fun t => { t with lanB := k.val :: t.lanB })
  else
    let s := s.setDomState k.val 3
    if k.val = s.time.selected then
      let s := s.timeEvent 2
      if s.autoSwitch then s.trySwitch (1 - k.val) 2 else s
    else s

/-- AUTO_RETURN (R406): back to `DOMAIN_0` once every condition holds. -/
def effAutoReturn (s : State) : State :=
  if s.up && s.autoSwitch && s.fld ⟨0x300004, 2, 1⟩ == 1 && s.time.selected == 1 && s.time.autoAway &&
      decide (zeroAsOne (s.fld ⟨0x300004, 4, 12⟩) ≤ s.lockedSeconds 0) && s.switchable 0 then
    s.trySwitch 0 1
  else s

/-! Stamps at the ports (R409–R411, R415, R416). -/

/-- A signed 32-bit register value in 2⁻¹⁶ ns. -/
def State.latency (s : State) (off : Nat) : Int := signedOf 32 (s.reg off)

/-- A clock's value at a quarter nanosecond of the tick (R409). -/
def State.rawStamp (s : State) (clock quarter : Nat) : Int := ((full (s.clockOf clock) + quarter * 16384 : Nat) : Int)

/-- The ingress stamp of a frame (R410). -/
def State.rxStamp (s : State) (port clock quarter : Nat) : Nat :=
  (s.rawStamp clock quarter - s.latency (0x300200 + 0x20 * port)).toNat

/-- The egress stamp of a frame (R410). -/
def State.txStamp (s : State) (port clock quarter : Nat) : Nat :=
  (s.rawStamp clock quarter + s.latency (0x300204 + 0x20 * port)).toNat

/-- A transmit stamp enters its port's queue, or is lost (R415, R416). The answer tells whether it was queued. -/
def State.queueStamp (s : State) (port id clock quarter : Nat) : State × Bool :=
  let q := s.time.txts.getD port []
  if q.length < 64 then
    (s.withTime (fun t => { t with txts := t.txts.set port (q ++ [(id, clock, s.txStamp port clock quarter)]) }), true)
  else
    let s := ((s.setFld ⟨0x30020C + 0x20 * port, 8, 1⟩ 1).satReg (0x300210 + 0x20 * port) 1).count 0 0x55 port 1
    ((s.timeEvent 5).timeAnswer refused 0x0B, false)

/-- TRANSMIT_STAMP (R415, R416). -/
def effTransmitStamp (port : Fin 4) (id : BitVec 16) (clock : Fin 3) (quarter : Fin 8) (s : State) : State :=
  if s.up then (s.queueStamp port.val id.toNat clock.val quarter.val).1 else s

/-! PTP (R398, R412–R414). -/

/-- Kinds of frames the device has sent. -/
def txTether : Nat := 0
def txDelayReq : Nat := 1
def txPdelayReq : Nat := 2
def txPdelayResp : Nat := 3
def txPdelayFollowUp : Nat := 4
def txAnswer : Nat := 5

def State.send (s : State) (f : TxFrame) : State := { s with ports := { s.ports with sent := f :: s.ports.sent } }

/-- The domain that a PTP message on a port belongs to (R413): by its number and its port or PRP pair. -/
def State.domainOf (s : State) (port number : Nat) : Option Nat :=
  (List.range 2).find? (fun k =>
    let p := s.domPort k
    s.domEnabled k && s.fld ⟨domReg k 0, 0, 8⟩ == number && (if p < 4 then p == port else p - 4 == port / 2))

/-- The domain uses messages of the LAN they came by: LAN A of a pair, or LAN B while LAN A is silent (R412). -/
def State.usesLan (s : State) (k port : Nat) : Bool :=
  decide (s.domPort k < 4) || (port % 2 == (if s.time.lanB.contains k then 1 else 0))

def State.exchange (s : State) (k : Nat) : PtpExchange :=
  (s.time.ptpPending.find? (fun e => e.domain == k)).getD { (default : PtpExchange) with domain := k }

def State.setExchange (s : State) (e : PtpExchange) : State :=
  s.withTime (fun t => { t with ptpPending := e :: t.ptpPending.filter (fun x => x.domain != e.domain) })

def State.peerToPeer (s : State) (k : Nat) : Bool := s.fld ⟨domReg k 0, 13, 1⟩ == 1

/-- A completed measurement: t1 to t4 in order and the mean path delay in 2⁻¹⁶ ns (R398). -/
def measureOf (e : PtpExchange) (p2p : Bool) : Option (List Nat × Int) :=
  if p2p then
    match e.t3, e.pd2, e.t4 with
    | some a, some b, some d =>
      let c := e.pd3.getD b
      some ([a, b, c, d], ((((d : Nat) : Int) - a) - (((c : Nat) : Int) - b) - e.corr) / 2)
    | _, _, _ => none
  else
    match e.t1, e.t2, e.t3, e.t4 with
    | some a, some b, some c, some d =>
      some ([a, b, c, d], ((((b : Nat) : Int) - a) + (((d : Nat) : Int) - c) - e.corr) / 2)
    | _, _, _, _ => none

/-- A measurement that is complete goes to the servo owner; to the host as a TIME_MEAS completion (R398). -/
def State.finishMeasure (s : State) (e : PtpExchange) (final : Bool) : State :=
  let k := e.domain
  match (if final then measureOf e (s.peerToPeer k) else none) with
  | none => s.setExchange e
  | some m =>
    let s := s.setExchange { e with t3 := none, t4 := none, pd2 := none, pd3 := none, corr := 0 }
    if s.fld ⟨0x300004, 0, 1⟩ = 1 then
      let ring := s.fld ⟨0x100004, 0, 4⟩
      s.post ⟨ring, 0, 0x0010, served, 0, 0, 0,
        fitBytes 48 (m.1.flatMap (fun t => leBytes 8 (compact t)) ++ leBytes 8 (ofSigned 64 m.2) ++ leBytes 1 k)⟩ false
    else s

/-- An Announce of the selected master (R400, R406, R412, R424). -/
def State.onAnnounce (s : State) (k port gm utc : Nat) (utcValid : Bool) : State :=
  let old := s.reg64 (domReg k 0x30)
  let known := (s.time.announce k).isSome
  let s := s.withTime (fun t => { t.setAnnounce k (some t.ticks) with
    lanB := if port % 2 = 0 then t.lanB.filter (fun x => x != k) else t.lanB })
  let s := (s.setReg64 (domReg k 0x30) gm).setReg (domReg k 0x3C) (utc % 65536 + b2n utcValid * 65536)
  if known ∧ gm ≠ old ∧ k = 0 ∧ s.time.selected = 0 then
    let s := s.timeEvent 1
    if s.autoSwitch then s.trySwitch 1 1 else s
  else s

/-- A Pdelay_Req is answered, in one step or two (R413). -/
def State.answerPdelay (s : State) (k port seq quarter : Nat) : State :=
  let t2 := s.rxStamp port (k + 1) quarter
  let s := s.send ⟨port, none, 0, txPdelayResp, leBytes 2 seq ++ fullTimeBytes t2⟩
  if s.fld ⟨domReg k 0, 16, 1⟩ = 1 then
    let r := s.queueStamp port seq (k + 1) quarter
    if r.2 then r.1.send ⟨port, none, 0, txPdelayFollowUp, leBytes 2 seq ++ fullTimeBytes (s.txStamp port (k + 1) quarter)⟩
    else r.1
  else s

/-- PTP_MESSAGE_RECEIVE (R411–R414). -/
def effPtpMessageReceive (port : Fin 4) (number : BitVec 8) (quarter : Fin 8) (m : PtpMsg) (s : State) : State :=
  if !s.up then s
  else
    let p := port.val
    let drop := s.satReg (0x401010 + 0x100 * p) 1
    match s.domainOf p number.toNat with
    | none => drop
    | some k =>
      let e := s.exchange k
      let stamp := s.rxStamp p (k + 1) quarter.val
      match m with
      | .malformed => drop.timeAnswer refused 0x0C
      | .announce gm utc valid best =>
        if best ∧ (s.usesLan k p ∨ p % 2 = 0) then s.onAnnounce k p gm utc valid else s
      | .pdelayReq seq => s.answerPdelay k p seq quarter.val
      | .sync seq two t1 corr =>
        if s.usesLan k p then
          s.finishMeasure { e with
            syncSeq := seq, t1 := if two then none else some t1, t2 := some stamp, corr := if s.peerToPeer k then e.corr else corr } false
        else s
      | .followUp seq t1 corr =>
        if s.usesLan k p ∧ e.syncSeq = seq ∧ e.t2.isSome then
          s.finishMeasure { e with t1 := some t1, corr := if s.peerToPeer k then e.corr else e.corr + corr } false
        else s
      | .delayResp seq t4 corr =>
        if s.usesLan k p ∧ !s.peerToPeer k ∧ e.delaySeq = seq ∧ e.t3.isSome then
          s.finishMeasure { e with t4 := some t4, corr := e.corr + corr } true
        else s
      | .pdelayResp seq two t2 corr =>
        if s.usesLan k p ∧ s.peerToPeer k ∧ e.delaySeq = seq ∧ e.t3.isSome then
          s.finishMeasure { e with pd2 := some t2, t4 := some stamp, corr := corr } (!two)
        else s
      | .pdelayRespFollowUp seq t3 corr =>
        if s.usesLan k p ∧ s.peerToPeer k ∧ e.delaySeq = seq ∧ e.pd2.isSome then
          s.finishMeasure { e with pd3 := some t3, corr := e.corr + corr } true
        else s

/-- The ports a domain's own messages leave by: its port, or both of its PRP pair (R430). -/
def State.domPorts (s : State) (k : Nat) : List Nat :=
  let p := s.domPort k
  if p < 4 then [p] else [2 * (p - 4), 2 * (p - 4) + 1]

/-- DELAY_REQ_TRANSMIT (R413, R416): the Delay_Req or Pdelay_Req of a domain leaves and its egress stamp becomes t3
(t1 of a peer exchange); with the queue full the measurement is abandoned. -/
def effDelayReqTransmit (k : Fin 2) (s : State) : State :=
  if !s.up ∨ !s.domEnabled k.val then s
  else
    let d := k.val
    let p2p := s.peerToPeer d
    let e := s.exchange d
    let seq := (e.delaySeq + 1) % 65536
    let ports := s.domPorts d
    let s := ports.foldl (fun s p => s.send ⟨p, none, 0, if p2p then txPdelayReq else txDelayReq, leBytes 2 seq⟩) s
    let lan := if s.time.lanB.contains d then ports.getLastD 0 else ports.headD 0
    let r := s.queueStamp lan seq (d + 1) 0
    r.1.setExchange { e with
      delaySeq := seq, t3 := if r.2 then some (s.txStamp lan (d + 1) 0) else none, t4 := none, pd2 := none, pd3 := none }

/-! Output pulses (R417–R419). -/

def toutReg (m off : Nat) : Nat := 0x300300 + 0x40 * m + off

/-- The value of four registers laid out as full time (R424). -/
def State.fullAt (s : State) (off : Nat) : Nat :=
  s.reg off % 65536 + s.reg (off + 4) * 65536 + (s.reg (off + 8) + s.reg (off + 12) % 65536 * 2 ^ 32) * secUnits

def State.setTout (s : State) (m : Nat) (t : TimeOut) : State := s.withTime (fun u => { u with tout := u.tout.set m t })

/-- TOUT_ARM (R418). -/
def effToutArm (m : Fin 4) (s : State) : State :=
  if !s.up then s
  else
    let n := m.val
    let t := s.time.tout.getD n default
    let start := s.fullAt (toutReg n 4)
    let period := s.reg64 (toutReg n 0x14)
    let width := s.reg (toutReg n 0x1C)
    let clock := s.fld ⟨toutReg n 0, 2, 2⟩
    let bad := decide (width < 8) || (period != 0 && (decide (period < 16 * nsUnits) || decide (period < 2 * width * nsUnits)))
    if bad ∨ start < full (s.clockOf clock) + usUnits then (s.setTout n { t with prog := none }).timeAnswer refused 0x61
    else (s.setTout n { t with prog := some ⟨start, period, width, clock, 0⟩ }).timeAnswer served 0

/-- TOUT_PULSE (R417): the pin's clock has reached the next instant of its programme. -/
def effToutPulse (m : Fin 4) (s : State) : State :=
  let n := m.val
  let t := s.time.tout.getD n default
  match t.prog with
  | none => s
  | some p =>
    if s.up && s.fld ⟨toutReg n 0, 0, 1⟩ == 1 && !t.high && decide (p.next < p.reached (full (s.clockOf p.clock))) then
      s.setTout n { prog := some { p with next := p.next + 1 }, high := true, startedAt := s.time.ticks, pulses := t.pulses + 1 }
    else s

/-- TOUT_PULSE_END (R417): the pulse has lasted its width; a one-shot programme ends. -/
def effToutPulseEnd (m : Fin 4) (s : State) : State :=
  let n := m.val
  let t := s.time.tout.getD n default
  if !s.up || !t.high then s
  else
    let width := (t.prog.map (·.widthNs)).getD 0
    if t.startedAt * 2 + width ≤ s.time.ticks * 2 then
      s.setTout n { t with high := false, prog := t.prog.filter (fun p => p.period != 0) }
    else s

/-! Capture inputs (R420, R421). -/

def tinReg (m off : Nat) : Nat := 0x300400 + 0x40 * m + off

/-- TIME_IN_EDGE (R420, R421). -/
def effTimeInEdge (m : Fin 4) (quarter : Fin 8) (rising : Bool) (s : State) : State :=
  let n := m.val
  if !s.up ∨ s.fld ⟨tinReg n 0, 0, 1⟩ = 0 then s
  else
    let t := s.time.tin.getD n default
    let at_ := s.time.ticks * 8 + quarter.val
    let put (s : State) (t : TimeIn) : State := s.withTime (fun u => { u with tin := u.tin.set n t })
    let s := put s { t with lastEdge := some at_ }
    let close := match t.lastEdge with | some b => decide (at_ < b + 32) | none => false
    if !bitAt (s.fld ⟨tinReg n 0, 1, 2⟩) (if rising then 0 else 1) then s
    else if close then ((s.satReg (tinReg n 0x1C) 1).timeEvent 6).timeAnswer refused 0x66
    else if 16 ≤ t.queue.length then
      (((s.setFld ⟨tinReg n 0x18, 8, 1⟩ 1).satReg (tinReg n 0x1C) 1).timeEvent 6).timeAnswer refused 0x0B
    else
      let stamp := (s.rawStamp (s.fld ⟨tinReg n 0, 3, 2⟩) quarter.val - s.latency (tinReg n 4)).toNat
      put s { t with queue := t.queue ++ [(stamp, rising)], lastEdge := some at_ }

/-- The words of a full time: fraction, nanoseconds, seconds low and high (R424). -/
def timeWords (t : Nat) : List Nat :=
  [t % 65536, t / 65536 % 1000000000, t / secUnits % 2 ^ 32, t / secUnits / 2 ^ 32 % 65536]

/-- Registers from an offset set to words. -/
def State.setWords (s : State) (off : Nat) (ws : List Nat) : State :=
  (List.range ws.length).foldl (fun s i => s.setReg (off + 4 * i) (ws.getD i 0)) s

/-- TIN_STAMP_POP (R424): the head entry is popped and latched. -/
def effTinStampPop (m : Fin 4) (s : State) : State :=
  let n := m.val
  if !s.readable then s.replyWith 0
  else
    let t := s.time.tin.getD n default
    match t.queue with
    | [] => (s.setWords (tinReg n 8) [0, 0, 0, 0]).replyWith 0
    | (stamp, rising) :: rest =>
      let s := s.withTime (fun u => { u with tin := u.tin.set n { t with queue := rest, latched := stamp } })
      let w := stamp % 65536 + b2n rising * 2 ^ 30 + 2 ^ 31
      (s.setWords (tinReg n 8) (w :: (timeWords stamp).drop 1)).replyWith w

/-- DEV_TIME_SAMPLE (R424). -/
def effDevTimeSample (s : State) : State :=
  if !s.readable then s.replyWith 0
  else (s.setWords 0x300014 (timeWords s.now)).replyWith (s.now % 65536)

/-- DOM_TIME_SAMPLE (R424). -/
def effDomTimeSample (k : Fin 2) (s : State) : State :=
  if !s.readable then s.replyWith 0
  else
    let t := full (s.time.dom k.val)
    (s.setWords (domReg k.val 8) (timeWords t)).replyWith (t % 65536)

def execClockTick (n : Nat) (s : State) : Host.Outcome State Fault Refusal := .next (effClockTick n s)

def execIncWrite (k : Fin 2) (w : Writer) (hi : Word) (s : State) : Host.Outcome State Fault Refusal :=
  .next (effIncWrite k w hi s)

def execDomAdjWrite (k : Fin 2) (w : Writer) (hi : Word) (s : State) : Host.Outcome State Fault Refusal :=
  .next (effDomAdjWrite k w hi s)

def execDomStateWrite (k : Fin 2) (w : Writer) (state : Fin 4) (s : State) : Host.Outcome State Fault Refusal :=
  .next (effDomStateWrite k w state s)

def execDevSelSwitch (s : State) : Host.Outcome State Fault Refusal := .next (effDevSelSwitch s)

def execAnnounceReceiptTimeout (k : Fin 2) (lanB : Bool) (s : State) : Host.Outcome State Fault Refusal :=
  .next (effAnnounceReceiptTimeout k lanB s)

def execAutoReturn (s : State) : Host.Outcome State Fault Refusal := .next (effAutoReturn s)

def execPtpMessageReceive (port : Fin 4) (domain : BitVec 8) (quarter : Fin 8) (m : PtpMsg) (s : State) :
    Host.Outcome State Fault Refusal := .next (effPtpMessageReceive port domain quarter m s)

def execTransmitStamp (port : Fin 4) (id : BitVec 16) (clock : Fin 3) (quarter : Fin 8) (s : State) :
    Host.Outcome State Fault Refusal := .next (effTransmitStamp port id clock quarter s)

def execDelayReqTransmit (k : Fin 2) (s : State) : Host.Outcome State Fault Refusal := .next (effDelayReqTransmit k s)

def execToutArm (m : Fin 4) (s : State) : Host.Outcome State Fault Refusal := .next (effToutArm m s)

def execToutPulse (m : Fin 4) (s : State) : Host.Outcome State Fault Refusal := .next (effToutPulse m s)

def execToutPulseEnd (m : Fin 4) (s : State) : Host.Outcome State Fault Refusal := .next (effToutPulseEnd m s)

def execTimeInEdge (m : Fin 4) (quarter : Fin 8) (rising : Bool) (s : State) : Host.Outcome State Fault Refusal :=
  .next (effTimeInEdge m quarter rising s)

def execTinStampPop (m : Fin 4) (s : State) : Host.Outcome State Fault Refusal := .next (effTinStampPop m s)

def execDevTimeSample (s : State) : Host.Outcome State Fault Refusal := .next (effDevTimeSample s)

def execDomTimeSample (k : Fin 2) (s : State) : Host.Outcome State Fault Refusal := .next (effDomTimeSample k s)

end Sys2Proof.Machine
end

