-- ==== Sys2Proof/Machine/Sessions.lean ====
section
/-! DEFINITION. Tether frames and sessions (R435–R451): the wire format, frames the device sends, token buckets,
outcomes of DATA frames and their acknowledgement, and status. -/

namespace Sys2Proof.Machine

def portsEvents : Nat := 0x40000C

/-- An event of the block, with vector 4 when enabled (R455, R497). -/
def State.portsEvent (s : State) (bit : Nat) : State := s.event portsEvents bit (s.fld ⟨0x400008, 0, 1⟩ == 1) 4

def portReg (n off : Nat) : Nat := 0x401000 + 0x100 * n + off

/-- Whether ports 2p and 2p + 1 form a PRP pair (R430). -/
def State.prpOn (s : State) (p : Nat) : Bool := s.fld ⟨portReg (2 * p) 0, 2, 1⟩ == 1

/-- A frame dropped by the session engine (R438, R455). -/
def State.dropQuiet (s : State) (port : Nat) : State := s.satReg (portReg port 0x10) 1

/-- A frame dropped at ingress (R428, R429, R433). -/
def State.dropFrame (s : State) (port : Nat) : State := (s.dropQuiet port).count 0 0x51 port 1

/-! The wire format (R435, R436, R438). -/

def tDeclare : Nat := 1
def tDeclareAck : Nat := 2
def tData : Nat := 3
def tAck : Nat := 4
def tStatusReq : Nat := 5
def tStatus : Nat := 6
def tTimeReq : Nat := 7
def tTimeResp : Nat := 8
def tClose : Nat := 9

def frType (p : Bytes) : Nat := beAt p 3 1
def frSlot (p : Bytes) : Nat := beAt p 4 2
def frFlags (p : Bytes) : Nat := beAt p 6 2
def frSession (p : Bytes) : Nat := beAt p 8 4
def frSeq (p : Bytes) : Nat := beAt p 12 8
def frLength (p : Bytes) : Nat := beAt p 20 2

/-- The body: between header and tag. -/
def frBody (p : Bytes) : Bytes := sliceBytes 24 (p.length - 40) p

/-- The datagram holds a header and a tag, and `MAGIC` and `VERSION` are right. -/
def frHead (p : Bytes) : Bool := decide (40 ≤ p.length) && beAt p 0 2 == 0x5154 && beAt p 2 1 == 1

def frLengthOk (p : Bytes) : Bool := frLength p + 40 == p.length

/-- The tag of a header and body under a key. -/
def tetherTag (key m : Bytes) : Bytes := (hmac384 key m).take 16

def frTagOk (key p : Bytes) : Bool := tetherTag key (p.take (p.length - 16)) == p.drop (p.length - 16)

/-- A frame of the device (R435). -/
def tetherFrame (key : Bytes) (type slot sid seq : Nat) (body : Bytes) : Bytes :=
  let m := beBytes 2 0x5154 ++ beBytes 1 1 ++ beBytes 1 type ++ beBytes 2 slot ++ beBytes 2 0 ++ beBytes 4 sid ++
    beBytes 8 seq ++ beBytes 2 body.length ++ beBytes 2 0 ++ body
  m ++ tetherTag key m

/-- Full time in a Tether frame: seconds, nanoseconds and fraction, big-endian. -/
def timeBE (t : Nat) : Bytes := beBytes 6 (t / secUnits) ++ beBytes 4 (t / 65536 % 1000000000) ++ beBytes 2 (t % 65536)

/-- Full time read from a Tether frame. -/
def timeAtBE (b : Bytes) (off : Nat) : Nat :=
  beAt b off 6 * secUnits + beAt b (off + 6) 4 * 65536 + beAt b (off + 10) 2

/-- The session key (R436). -/
def sessionKey (rosterKey pNonce dNonce : Bytes) (sid : Nat) : Bytes :=
  (hmac384 rosterKey (beBytes 4 0x51545331 ++ pNonce ++ dNonce ++ beBytes 4 sid)).take 32

/-! Sessions. -/

def State.session (s : State) (sid : Nat) : Option Session := s.ports.sessions.find? (fun x => x.id == sid)

/-- The session with `x`'s identifier becomes `x`. -/
def State.setSession (s : State) (x : Session) : State :=
  { s with ports := { s.ports with sessions := s.ports.sessions.map (fun y => if y.id = x.id then x else y) } }

/-- A frame sent on a port, and on both LANs of a PRP pair (R430). -/
def State.sendOn (s : State) (port : Nat) (vlan : Option Nat) (slot kind : Nat) (bytes : Bytes) : State :=
  if s.prpOn (port / 2) then
    (s.send ⟨port / 2 * 2, vlan, slot, kind, bytes⟩).send ⟨port / 2 * 2 + 1, vlan, slot, kind, bytes⟩
  else s.send ⟨port, vlan, slot, kind, bytes⟩

/-- A frame of a session, under its key and next sequence number. -/
def State.sendTether (s : State) (sid type : Nat) (body : Bytes) : State :=
  match s.session sid with
  | none => s
  | some x =>
    (s.sendOn x.port x.vlan x.slot txTether (tetherFrame x.key type x.slot x.id x.txSeq body)).setSession
      { x with txSeq := x.txSeq + 1 }

/-- Bytes of the quota in use: the delay queue and what waits for later occurrences (R451). -/
def Session.used (x : Session) : Nat :=
  (x.queue.map (fun f => f.body.length + 40)).foldl (· + ·) 0 + (x.opened.map (·.hold)).foldl (· + ·) 0 +
    (x.ahead.map (·.2)).foldl (· + ·) 0

/-! Token buckets (R450). -/

/-- A bucket's content at time `t`: filled at `rate` per second up to `depth` tokens, in 2⁻¹⁶ tokens per second unit. -/
def bucketAt (level at_ rate depth t : Nat) : Nat := min (depth * 65536 * secUnits) (level + (t - at_) * rate * 65536)

def tokens (n : Nat) : Nat := n * 65536 * secUnits

/-- A session's buckets brought forward to time `t`. -/
def Session.fill (x : Session) (t : Nat) : Session :=
  { x with
    tokBytes := bucketAt x.tokBytes x.tokAt x.rate x.burst t
    tokPkts := bucketAt x.tokPkts x.tokAt x.pps x.burstPkts t
    tokAt := max x.tokAt t }

/-- Whether `n` packets of `size` bytes conform now. -/
def Session.holds (x : Session) (size n : Nat) : Bool := decide (tokens size ≤ x.tokBytes ∧ tokens n ≤ x.tokPkts)

def Session.drawTokens (x : Session) (size : Nat) : Session :=
  { x with tokBytes := x.tokBytes - tokens size, tokPkts := x.tokPkts - tokens 1 }

/-! Acknowledgements (R443). -/

def sameOutcome (a b : AckEntry) : Bool := a.outcome == b.outcome && a.cause == b.cause && a.part == b.part

/-- Outcomes of consecutive frames merged into ranges: first and last number, and the entry with the largest delay. -/
def ackRanges : List AckEntry → List (Nat × Nat × AckEntry)
  | [] => []
  | a :: as =>
    match ackRanges as with
    | (first, last, b) :: rest =>
      if sameOutcome a b && first == a.seq + 1 then (a.seq, last, { b with delay := max a.delay b.delay }) :: rest
      else (a.seq, a.seq, a) :: (first, last, b) :: rest
    | [] => [(a.seq, a.seq, a)]

def ackEntryBytes (r : Nat × Nat × AckEntry) : Bytes :=
  beBytes 8 r.1 ++ beBytes 8 r.2.1 ++ beBytes 1 r.2.2.outcome ++ beBytes 1 r.2.2.cause ++ beBytes 1 (b2n r.2.2.part) ++
    beBytes 1 0 ++ beBytes 4 (min r.2.2.delay (2 ^ 32 - 1))

def ackBody (rs : List (Nat × Nat × AckEntry)) : Bytes :=
  beBytes 2 rs.length ++ beBytes 6 0 ++ rs.flatMap ackEntryBytes

/-- ACK frames of at most 64 ranges each. -/
def State.sendRanges : Nat → State → Nat → List (Nat × Nat × AckEntry) → State
  | 0, s, _, _ => s
  | fuel + 1, s, sid, rs =>
    if rs.isEmpty then s else State.sendRanges fuel (s.sendTether sid tAck (ackBody (rs.take 64))) sid (rs.drop 64)

/-- The outcomes a session has not reported are acknowledged. -/
def State.flushAcks (s : State) (sid : Nat) : State :=
  match s.session sid with
  | none => s
  | some x =>
    let rs := ackRanges (sortList (fun a b => decide (a.seq ≤ b.seq)) x.acks)
    (s.setSession { x with acks := [] }).sendRanges (rs.length + 1) sid rs

/-! Outcomes (R443, R451, R453). -/

/-- A session's counts with one more frame of an outcome. -/
def Session.countFrame (x : Session) (outcome : Nat) : Session :=
  match outcome with
  | 0 => { x with served := x.served + 1 }
  | 1 => { x with delayed := x.delayed + 1, stepDelayed := x.stepDelayed + 1 }
  | 2 => { x with shed := x.shed + 1, stepShed := x.stepShed + 1 }
  | _ => { x with refused := x.refused + 1 }

/-- The final outcome of a frame: counted, answered by the block, and put up for acknowledgement. -/
def State.reportFrame (s : State) (sid : Nat) (a : AckEntry) (urgent : Bool) : State :=
  let s := s.answer blockPorts a.outcome a.cause
  match s.session sid with
  | none => s
  | some x =>
    let s := if a.outcome = delayed then s.count 0 0x53 x.port 1 else if a.outcome = shed then s.count 0 0x54 x.port 1 else s
    let s := s.setSession { x.countFrame a.outcome with acks := x.acks ++ [a] }
    if x.ackMs = 0 ∨ urgent then s.flushAcks sid else s

/-- The outcome of a DATA frame all of whose parts are decided (R58, R443, R451). -/
def OpenFrame.entry (f : OpenFrame) : AckEntry :=
  let cause := pickCause f.causes
  if f.served || f.causes.isEmpty then
    ⟨f.seq, if f.delay.isSome then delayed else Machine.served, cause, !f.causes.isEmpty, f.delay.getD 0⟩
  else ⟨f.seq, shed, cause, false, f.delay.getD 0⟩

/-- One part of a DATA frame is decided: whether any of it was admitted, and the cause of what was not (0: none). -/
def State.settlePart (s : State) (sid seq : Nat) (got : Bool) (cause : Nat) : State :=
  match s.session sid with
  | none => s
  | some x =>
    match x.opened.find? (fun f => f.seq == seq) with
    | none => s
    | some f =>
      let f := { f with
        parts := f.parts - 1, served := f.served || got, causes := if cause = 0 then f.causes else f.causes ++ [cause] }
      let rest := x.opened.filter (fun g => g.seq != seq)
      if f.parts = 0 then (s.setSession { x with opened := rest }).reportFrame sid f.entry f.urgent
      else s.setSession { x with opened := rest ++ [f] }

/-- The last part of a frame's handling: what it was before its own parts. -/
def State.settleGuard (s : State) (sid seq : Nat) : State := s.settlePart sid seq false 0

/-- The fate of an input reaches the frames that carried it. -/
def State.settleInput (s : State) (i : Input) : State :=
  i.ackSeqs.foldl (fun s q => s.settlePart i.session q (!i.admitted.isEmpty) (if i.admitted.isEmpty then i.cause else 0)) s

/-! Status (R444). -/

/-- One stream's entry. -/
def statusEntry (stream bits cause : Nat) : Bytes := beBytes 2 stream ++ beBytes 2 bits ++ beBytes 1 cause ++ beBytes 3 0

/-- The clock stream's state (R444): usable while a clock input was admitted within `SYNC_LOSS` steps, and for class 3. -/
def State.clockEntry (s : State) (x : Session) : Bytes :=
  if x.timeSource = 3 ∨ x.sinceSync < s.syncLoss then statusEntry 0xFFFF 1 0 else statusEntry 0xFFFF 2 0x33

def State.statusBody (s : State) (x : Session) : Bytes :=
  let ps := sortList (fun (a b : StreamDecl × FStream) => decide (a.1.stream ≤ b.1.stream))
    (s.streamPairs.filter (fun p => p.1.slot == x.slot))
  beBytes 1 x.state ++ beBytes 3 0 ++ beBytes 4 x.used ++ beBytes 8 x.served ++ beBytes 8 x.delayed ++ beBytes 8 x.shed ++
    beBytes 8 x.refused ++ beBytes 2 (ps.length + 1) ++ beBytes 6 0 ++
    ps.flatMap (fun p => statusEntry p.1.stream (s.streamBits p.1 p.2) (s.maskCause p.1 p.2)) ++ s.clockEntry x

def State.sendStatus (s : State) (sid : Nat) : State :=
  match s.session sid with
  | none => s
  | some x => s.sendTether sid tStatus (s.statusBody x)

/-- Raw inputs stamped ahead count for their stream until their last close has passed (R59). -/
def State.pruneAhead (s : State) : State :=
  { s with ports := { s.ports with
      sessions := s.ports.sessions.map (fun (x : Session) => { x with ahead := x.ahead.filter (fun a => decide (s.now < a.1)) }) } }

end Sys2Proof.Machine
end

