-- ==== Sys2Proof/Machine/Signal.lean ====
section
/-! DEFINITION. The signal chains (11): raw intake, the channel timeline, half-band stages, the resampler, output stamps
and admission, signal tiles, the feed of fusion, and glints. -/

namespace Sys2Proof.Machine

/-- The producer of tiles that the hub die writes (R145). -/
def hubUnit : Nat := 0xFFFF

def State.channelDecls (s : State) : List ChannelDecl := (s.steps.image.map (·.channels)).getD []

def laneOf (c : Nat) : Nat := c / 1024

def State.signalEvent (s : State) (bit : Nat) : State :=
  s.event 0x50000C bit (s.activeFld ⟨0x500008, 0, 1⟩ == 1) 5

/-! Filters (R373, R374, R376, R379). -/

/-- The coefficients of a half-band filter of length 4j − 1 from its side coefficients at distances 1, 3, 5 … -/
def halfBand (sides : List Int) : List Int :=
  let h := 2 * sides.length - 1
  (List.range (2 * h + 1)).map (fun i =>
    let d := if i ≤ h then h - i else i - h
    if d = 0 then 65536 else if d % 2 = 1 then sides.getD (d / 2) 0 else 0)

/-- A filter of the library or of the image. -/
def filterTaps (img : Image) (f : Nat) : List Int :=
  match f with
  | 0 => halfBand [36864, -4096]
  | 1 => halfBand [38400, -6400, 768]
  | 2 => halfBand [39200, -7840, 1568, -160]
  | 3 => halfBand [39690, -8820, 2268, -405, 35]
  | _ => (lookupKey f img.customFilters).getD [65536]

/-- The filters of a channel's stages (R363, R379). -/
def stageFilters (d : ChannelDecl) : List Nat :=
  match d.preset with
  | 1 => [0, 0]
  | 2 => [1, 1, 2]
  | 3 => [2, 2, 3, 3]
  | _ => d.stages

/-- D (R377): the delay of the stages in raw samples, from stage `s` on. -/
def stageDelay : Nat → List (List Int) → Nat
  | _, [] => 0
  | s, t :: ts => (t.length - 1) / 2 * 2 ^ s + stageDelay (s + 1) ts

/-- What a channel's chain is built of: stage coefficients, prototype, ρ (0: no resampler), D, and P as a fraction of
2⁻¹⁶ ns (R367). -/
structure Chain where
  taps : List (List Int)
  proto : List Int
  ratio : Nat
  delay : Nat
  num : Nat
  den : Nat

def chainOf (img : Image) (d : ChannelDecl) : Chain :=
  let taps := (stageFilters d).map (filterTaps img)
  ⟨taps, img.resampler, if d.preset = 0 then d.ratio else 0, stageDelay 0 taps,
   if d.svRate = 0 then d.period else secUnits, max 1 d.svRate⟩

/-! Timeline and stamps (R367, R368, R377). -/

/-- A stamp at x / y raw periods from the anchor, rounded once. -/
def Chain.stampAt (ch : Chain) (anchor : Nat) (x : Int) (y : Nat) : Nat :=
  ((anchor : Int) + roundDivEven (x * ch.num) (max 1 (y * ch.den))).toNat

/-- t(i). -/
def Chain.rawStamp (ch : Chain) (anchor i : Nat) : Nat := ch.stampAt anchor i 1

/-- The stamp of output m, or of output k of a resampler. -/
def Chain.outStamp (ch : Chain) (anchor m : Nat) : Nat :=
  let s2 : Int := ((2 ^ ch.taps.length : Nat) : Int)
  if ch.ratio = 0 then ch.stampAt anchor (s2 * m - ch.delay) 1
  else ch.stampAt anchor (s2 * (((m + 1) * 2 ^ 23 : Nat) - 8 * (ch.ratio : Int)) - ch.delay * (ch.ratio : Int)) ch.ratio

/-- A stamp lies off the timeline by more than the tolerance. -/
def offTimeline (d : ChannelDecl) (ch : Chain) (stamp expected : Nat) : Bool :=
  let tol := if d.anchorTol = 0 then 128 else d.anchorTol
  decide (tol * ch.num < ((stamp : Int) - expected).natAbs * 256 * ch.den)

/-! The arithmetic of stages and resampler (R370, R372, R375). -/

/-- One output of a filter: taps against inputs, newest input first; whether it saturated. -/
def firOut (taps : List Int) (hist : List Samp) : Samp × Bool :=
  let ps := List.zip taps hist
  let live := ps.filter (fun p => p.1 != 0)
  let sum : Int := (ps.map (fun p => p.1 * p.2.value)).foldl (· + ·) 0
  let y := roundShiftEven (signedOf 48 (ofSigned 48 sum)) 17
  let z := clampSigned 28 y
  (⟨z, live.all (fun p => p.2.valid), (live.map (fun p => p.2.arrival)).foldl max 0⟩, z != y)

/-- A delay line with one more input. -/
def DelayLine.push (l : DelayLine) (n idx : Nat) (x : Samp) : DelayLine :=
  { lo := some (l.lo.getD idx), hist := (x :: l.hist).take n }

/-- An input of a stage, and the stage's output if it has one: none that would reach before the start (R371). -/
def stagePush (taps : List Int) (l : DelayLine) (idx : Nat) (x : Samp) : DelayLine × Option (Nat × Samp × Bool) :=
  let l := l.push taps.length idx x
  if idx % 2 = 0 ∧ l.lo.getD 0 + (taps.length - 1) ≤ idx then
    let o := firOut taps l.hist
    (l, some (idx / 2, o.1, o.2))
  else (l, none)

/-- An input through the stages: the lines, the output of the last stage, and how many outputs saturated. -/
def stagesPush : List (List Int) → List DelayLine → Nat → Samp → List DelayLine × Option (Nat × Samp) × Nat
  | t :: ts, l :: ls, idx, x =>
    let r := stagePush t l idx x
    match r.2 with
    | none => (r.1 :: ls, none, 0)
    | some o =>
      let q := stagesPush ts ls o.1 o.2.1
      (r.1 :: q.1, q.2.1, q.2.2 + b2n o.2.2)
  | _, ls, idx, x => (ls, some (idx, x), 0)

/-- The taps of phase g: h[64t + 63 − g]. -/
def phaseTaps (h : List Int) (g : Nat) : List Int := (List.range 16).map (fun t => h.getD (64 * t + 63 - g) 0)

/-- An input of the resampler. Inputs before the first that exists still advance the accumulator and the output index. -/
def resPush (ch : Chain) (c : Channel) (n : Nat) (x : Samp) : Channel × Option (Nat × Samp × Bool) :=
  let fresh := c.res.lo.isNone
  let acc0 := if fresh then n * ch.ratio % 2 ^ 23 else c.accum
  let k := if fresh then n * ch.ratio / 2 ^ 23 else c.resNext
  let line := c.res.push 16 n x
  let a := acc0 + ch.ratio
  if a < 2 ^ 23 then ({ c with res := line, accum := a, resNext := k }, none)
  else
    let a := a - 2 ^ 23
    let c := { c with res := line, accum := a, resNext := k + 1 }
    if line.lo.getD 0 + 15 ≤ n then
      let o := firOut (phaseTaps ch.proto (64 * a / max 1 ch.ratio)) line.hist
      (c, some (k, o.1, o.2))
    else (c, none)

/-! Glint detectors (R383, R384). -/

/-- A glint event before its occurrence is known: the deciding sample's stamp and arrival, and the entry's fields. -/
structure Decided where
  stamp : Nat
  arrival : Nat
  at_ : Nat
  detector : Nat
  kind : Nat
  peak : Int
  duration : Nat

/-- Committed settings that a stamp has passed come into force. -/
def Detector.settle (d : Detector) (stamp : Nat) : Detector :=
  let due := d.queue.filter (fun q => decide (q.1 < stamp))
  { d with
    cfg := match due.getLast? with | some q => q.2 | none => d.cfg
    queue := d.queue.filter (fun q => !decide (q.1 < stamp)) }

def GlintCfg.beyond (g : GlintCfg) (v : Int) : Bool := if g.below then decide (v ≤ g.level) else decide (g.level ≤ v)

def GlintCfg.inside (g : GlintCfg) (v : Int) : Bool :=
  if g.below then decide (g.level + g.hyst < v) else decide (v < g.level - g.hyst)

def GlintCfg.extreme (g : GlintCfg) (a b : Int) : Int := if g.below then min a b else max a b

/-- One output through a detector. -/
def Detector.step (d : Detector) (n : Nat) (o : ChanOut) : Detector × Option Decided :=
  let d := d.settle o.stamp
  let g := d.cfg
  let v := if g.abs then (o.y.natAbs : Int) else o.y
  let fire (d : Detector) (at_ kind : Nat) (dur : Nat) : Option Decided := some ⟨o.stamp, o.arrival, at_, n, kind, d.peak, dur⟩
  let promote (d : Detector) : Detector × Option Decided :=
    if max 1 g.minDur ≤ d.run then
      let d := { d with state := 2 }
      (d, fire d d.first 1 d.run)
    else ({ d with state := 1 }, none)
  if !g.en then
    ({ d with state := 0 }, if d.state = 2 then fire d o.stamp 4 d.count else none)
  else
    match d.state with
    | 0 =>
      if o.valid && g.beyond v then promote { d with run := 1, first := o.stamp, peak := v, count := 1 } else (d, none)
    | 1 =>
      if o.valid && g.beyond v then
        promote { d with run := d.run + 1, count := d.count + 1, peak := g.extreme d.peak v }
      else ({ d with state := 0 }, none)
    | _ =>
      if o.valid && g.inside v then ({ d with state := 0 }, fire d o.stamp 2 d.count)
      else ({ d with peak := if o.valid then g.extreme d.peak v else d.peak, count := d.count + 1 }, none)

/-- The detectors of a channel over one output. -/
def stepDetectors : Nat → List Detector → ChanOut → List Detector × List Decided
  | _, [], _ => ([], [])
  | n, d :: ds, o =>
    let r := d.step n o
    let q := stepDetectors (n + 1) ds o
    (r.1 :: q.1, r.2.toList ++ q.2)

/-! A raw sample enters its channel. -/

/-- What one or more entering samples gave: the channel, outputs, glint events and saturations. -/
structure Entered where
  chan : Channel
  outs : List ChanOut
  events : List Decided
  sat : Nat

/-- Raw sample `next` enters (R369–R375). -/
def Entered.enter (ch : Chain) (e : Entered) (x : Samp) : Entered :=
  let c := e.chan
  let r := stagesPush ch.taps c.stages c.next x
  let c := { c with stages := r.1, next := c.next + 1, sat := c.sat + r.2.2 }
  let q : Channel × Option (Nat × Samp × Bool) :=
    match r.2.1 with
    | none => (c, none)
    | some o => if ch.ratio = 0 then (c, some (o.1, o.2, false)) else resPush ch c o.1 o.2
  let c := q.1
  match q.2 with
  | none => { e with chan := c, sat := e.sat + r.2.2 }
  | some o =>
    let a := c.anchor.getD 0
    let out : ChanOut :=
      { index := o.1, stamp := ch.outStamp a o.1, y := o.2.1.value, valid := o.2.1.valid, arrival := o.2.1.arrival
        gen := c.gen, anchor := a, admitted := [], fed := false }
    let t := stepDetectors 0 c.dets out
    let c := { c with
      dets := t.1, outs := c.outs ++ [out], nextOut := some (o.1 + 1)
      sat := c.sat + b2n o.2.2, invalid := c.invalid + b2n (!out.valid) }
    { chan := c, outs := e.outs ++ [out], events := e.events ++ t.2, sat := e.sat + r.2.2 + b2n o.2.2 }

/-- Samples that wait enter while the next index is among them. -/
def Entered.pump (ch : Chain) : Nat → Entered → Entered
  | 0, e => e
  | fuel + 1, e =>
    match lookupKey e.chan.next e.chan.held with
    | none => e
    | some x =>
      let e := { e with chan := { e.chan with held := dropKey e.chan.next e.chan.held } }
      Entered.pump ch fuel (e.enter ch x)

/-- Every index stamped at or before `hi` enters; those that have not arrived are declared missing at close `a` (R369). -/
def Entered.declare (ch : Chain) (hi a : Nat) : Nat → Entered × Nat → Entered × Nat
  | 0, e => e
  | fuel + 1, (e, m) =>
    let c := e.chan
    if hi < ch.rawStamp (c.anchor.getD 0) c.next then (e, m)
    else
      match lookupKey c.next c.held with
      | some x =>
        Entered.declare ch hi a fuel (({ e with chan := { c with held := dropKey c.next c.held } } : Entered).enter ch x, m)
      | none =>
        Entered.declare ch hi a fuel
          (({ e with chan := { c with missed := c.next :: c.missed } } : Entered).enter ch ⟨0, false, a⟩, m + 1)

/-! Starts and restarts (R371, R384). -/

/-- A channel with its delay lines cleared; active detectors leave a kind 3 CLEAR for the next anchor. -/
def Channel.restart (c : Channel) : Channel :=
  let pend := (List.zip (List.range c.dets.length) c.dets).filterMap (fun p =>
    if p.2.state = 2 then some (p.1, p.2.count, p.2.peak) else none)
  let idle (d : Detector) : Detector := { d with state := 0, run := 0 }
  { c with
    gen := c.gen + 1, anchor := none, seq0 := 0, next := 0, held := [], missed := []
    stages := c.stages.map (fun _ => ⟨none, []⟩), res := ⟨none, []⟩, accum := 0, resNext := 0, nextOut := none
    dets := c.dets.map idle, clears := c.clears ++ pend }

/-- A channel of an image that starts, keeping the detectors the channel slot had. -/
def freshChannel (old : List Channel) (d : ChannelDecl) : Channel :=
  let prev := (old.find? (fun c => c.index == d.index)).map Channel.restart
  let p := prev.getD default
  { (default : Channel) with
    index := d.index, stages := (stageFilters d).map (fun _ => (⟨none, []⟩ : DelayLine))
    dets := if prev.isSome then p.dets else List.replicate 2 default
    clears := p.clears }

/-- The first sample after a start becomes sample 0; kind 3 CLEARs are decided by it (R368, R384, R385). -/
def Channel.setAnchor (c : Channel) (stamp seq arrival : Nat) : Channel × List Decided :=
  ({ c with anchor := some stamp, seq0 := seq, next := 0, clears := [] },
   c.clears.map (fun p => (⟨stamp, arrival, stamp, p.1, 3, p.2.2, p.2.1⟩ : Decided)))

/-! The state of the signal chains. -/

def State.chan (s : State) (i : Nat) : Option Channel := s.signal.chans.find? (fun c => c.index == i)

def State.setChan (s : State) (c : Channel) : State :=
  { s with signal := { s.signal with chans := s.signal.chans.map (fun x => if x.index = c.index then c else x) } }

/-- The deciding close of a raw sample (R369): its instant, cadence and occurrence. -/
def State.decidingClose (s : State) (d : ChannelDecl) (t : Nat) : Option (Nat × Nat × Nat) :=
  match s.steps.run with
  | none => none
  | some r =>
    (d.cadences.filterMap (fun k =>
      match s.cadences[k]? with
      | none => none
      | some cd => (r.occurrenceOf cd t).map (fun n => (r.close cd n, k, n)))).foldl (fun best x =>
        match best with
        | none => some x
        | some b => if x.1 < b.1 then some x else some b) none

/-- An event enters the list of its occurrence (R385) and is counted. -/
def State.decideGlint (s : State) (channel : Nat) (e : Decided) : State :=
  match s.steps.run, s.cadences[0]? with
  | some r, some cd =>
    let n0 := (r.occurrenceOf cd e.stamp).getD 0
    let w := r.t0 + cd.settleUs * usUnits
    let n := if e.arrival < r.close cd n0 then n0 else (e.arrival - w) / max 1 r.base + 1
    let g : GlintEvent := ⟨n, n0, e.at_, channel, e.detector, if n = n0 then e.kind else e.kind + 0x80, e.peak, e.duration⟩
    (({ s with signal := { s.signal with events := s.signal.events ++ [g] } }).addReg64 0x500048 1).count 0 0x71 (laneOf channel) 1
  | _, _ => s

/-- Saturations counted (R364, R372). -/
def State.countSat (s : State) (n : Nat) : State := if n = 0 then s else (s.addReg64 0x500050 n).signalEvent 0

/-- An output is late for the cadences whose occurrence of its stamp has closed (R57, R389). -/
def State.lateOutput (s : State) (d : ChannelDecl) (closed : List (Nat × Nat)) (o : ChanOut) : State × Bool :=
  closed.foldl (fun a p =>
    if o.stamp ≤ p.2 then
      match s.steps.run, s.cadences[p.1]? with
      | some r, some cd => (a.1.noteLate p.1 ((r.occurrenceOf cd o.stamp).getD 0) d.slot d.stream, true)
      | _, _ => a
    else a) (s, false)

/-- The results of entering samples take effect. -/
def State.absorb (s : State) (d : ChannelDecl) (e : Entered) : State :=
  let s := e.events.foldl (fun s g => s.decideGlint d.index g) (s.countSat e.sat)
  let r := e.outs.foldl (fun a o =>
    let q := a.1.lateOutput d e.chan.closed o
    (q.1, a.2 || q.2)) (s, false)
  r.1.setChan { e.chan with shed := e.chan.shed || r.2 }

/-! Raw intake (R364–R370). -/

/-- One sample set of an input: its stamp, its sequence number on a Tether, and element values with their quality words
(0 on a Tether). -/
structure RawSet where
  stamp : Nat
  seq : Option Nat
  values : List (Int × Nat)

/-- A sample is valid by its quality word (R366). -/
def qualityOk (d : ChannelDecl) (q : Nat) : Bool :=
  bitsOf q 0 2 == 0 && (!bitAt q 11 || d.acceptTest) && !bitAt q 12

/-- A value inside the lane: 28 bits, with the saturation of an INT32 input (R364). -/
def laneValue (d : ChannelDecl) (v : Int) : Int × Bool :=
  if d.format = 2 then
    let y := roundShiftEven v d.inShift
    (clampSigned 28 y, clampSigned 28 y != y)
  else (v, false)

/-- The index of a raw sample on a channel's timeline. -/
def rawIndex (ch : Chain) (c : Channel) (anchor : Nat) (x : RawSet) : Int :=
  match x.seq with
  | some q => (q : Int) - c.seq0
  | none => roundDivEven (((x.stamp : Int) - anchor) * ch.den) (max 1 ch.num)

/-- A sample taken into the channel at index `i`, and those that can enter. -/
def State.takeSample (s : State) (d : ChannelDecl) (ch : Chain) (c : Channel) (i : Nat) (x : Samp) (ev : List Decided) :
    State :=
  let c := { c with held := putKey i x c.held }
  s.absorb d (Entered.pump ch (c.held.length + 1) ⟨c, [], ev, 0⟩)

/-- One raw sample: the cause it is excluded with, if it is (R57, R60, R368, R369). One of a lane out of service is admitted and
enters no chain (R387). -/
def State.rawSample (s : State) (img : Image) (d : ChannelDecl) (x : RawSet) (v : Int × Bool) (arrival : Nat) :
    State × Option Nat :=
  match s.chan d.index with
  | none => (s, none)
  | some c =>
      let ch := chainOf img d
      let y := laneValue d v.1
      let late := match s.decidingClose d x.stamp with
        | some z => decide (z.1 ≤ arrival)
        | none => true
      let take (s : State) (c : Channel) (i : Nat) (ev : List Decided) : State × Option Nat :=
        let s := (s.countSat (b2n y.2)).count 0 0x70 (laneOf d.index) 1
        (s.takeSample d ch { c with sat := c.sat + b2n y.2 } i ⟨y.1, v.2, arrival⟩ ev, none)
      let refuse (cause : Nat) : State × Option Nat := (s.setChan { c with shed := c.shed || cause == 4 }, some cause)
      if late then refuse 4
      else if s.signal.lanesOut.contains (laneOf d.index) then (s, none)
      else
        match c.anchor with
        | none =>
          let r := c.setAnchor x.stamp (x.seq.getD 0) arrival
          take s r.1 0 r.2
        | some a =>
          let i := rawIndex ch c a x
          if i < 0 then refuse 4
          else if offTimeline d ch x.stamp (ch.rawStamp a i.toNat) then
            let s := (s.satReg 0x500060 1).signalEvent 2
            let r := c.restart.setAnchor x.stamp (x.seq.getD 0) arrival
            take s r.1 0 r.2
          else if c.missed.contains i.toNat then refuse 4
          else if i.toNat < c.next ∨ (lookupKey i.toNat c.held).isSome then refuse 0x0C
          else take s c i.toNat []

/-- The channels of the image that an input's stream feeds. -/
def State.channelsOf (s : State) (slot stream : Nat) : List ChannelDecl :=
  s.channelDecls.filter (fun d => d.slot == slot && d.stream == stream)

/-- The latest stamp the device admits now: Tₛ(m) + 4 × B (R59). -/
def State.admitLimit (s : State) : Nat :=
  match s.steps.run with
  | some r => r.t0 + (r.edges + 3) * r.base
  | none => 0

/-- What happened to one sample set: excluded by every channel that takes an element of it, with the cause, and the
cadences of the channels that excluded it. -/
structure SetResult where
  all : Bool
  causes : List Nat
  cadences : List Nat

/-- A sample set through all channels of its stream. -/
def State.rawSet (s : State) (img : Image) (ds : List ChannelDecl) (x : RawSet) (arrival : Nat) : State × SetResult :=
  ds.foldl (fun a d =>
    match x.values[d.element]? with
    | none => a
    | some v =>
      let r := a.1.rawSample img d x (v.1, qualityOk d v.2) arrival
      match r.2 with
      | none => (r.1, { a.2 with all := false })
      | some cause => (r.1, { a.2 with causes := a.2.causes ++ [cause], cadences := a.2.cadences ++ d.cadences }))
    (s, ⟨true, [], []⟩)

/-- Runs of consecutive numbers as ranges. -/
def rangesOf : List Nat → List (Nat × Nat)
  | [] => []
  | x :: xs =>
    match rangesOf xs with
    | (a, b) :: rest => if a = x + 1 then (x, b) :: rest else (x, x) :: (a, b) :: rest
    | [] => [(x, x)]

/-- Pieces of at most `n` elements. -/
def chunksOf (n : Nat) : Nat → List α → List (List α)
  | 0, _ => []
  | _, [] => []
  | fuel + 1, xs => xs.take n :: chunksOf n fuel (xs.drop n)

/-- Exclusion records of the sample sets of an input that a cause excluded (R57, R84). -/
def State.excludeSets (s : State) (i : Input) (cause : Nat) (rs : List (Nat × SetResult)) : State × Input :=
  let hit := rs.filter (fun r => r.2.causes.contains cause)
  if hit.isEmpty then (s, i)
  else
    let ks := hit.flatMap (·.2.cadences)
    let n := if cause = 5 then s.nextStep else s.stepOfStamp i.stamp
    let ranges := rangesOf (hit.map (fun r => i.seq + r.1))
    (chunksOf 16 ranges.length ranges).foldl (fun a q => a.1.exclude a.2 ks n cause q) (s, i)

/-- All samples of a raw input have entered their channels. -/
def State.rawDone (s : State) (h : RawHold) : Bool :=
  h.waits.all (fun w => match s.chan w.1 with
    | none => true
    | some c => c.gen != w.2.1 || decide (w.2.2 < c.next))

/-- A step was lost in a trail hold (R90). -/
def State.stepLost (s : State) (n : Nat) : Bool := s.trail.lostSteps.any (fun r => decide (r.1 ≤ n ∧ n ≤ r.2))

/-- A raw input is logged (R86), unless it is stamped in a step lost in a hold: then it is only counted (R89, R90). In a hold
one stamped in a step whose edge is to come waits until that edge shows whether its step is lost. -/
def State.logRaw (s : State) (h : RawHold) : State :=
  let n := s.stepOfStamp h.input.stamp
  let t := { s with signal := { s.signal with raw := s.signal.raw.erase h } }
  if s.stepLost n then
    if s.held then { t with trail := { t.trail with gapInputs := t.trail.gapInputs + 1 } } else t
  else if s.held && decide (s.nextStep ≤ n) then s
  else if h.input.form1 then
    let r := t.archive h.input.payload
    r.1.logInput h.input 0 (some r.2)
  else t.logInput h.input 0 none

/-- Raw inputs that are logged at an admission close, in a list with the others of that close (R479). -/
def State.rawAtClose (s : State) : List RawHold := s.signal.raw.filter (fun h => h.input.form1 && s.rawDone h)

/-- Raw inputs whose samples have all entered their channels are logged (R86), but for those that go to the archive. -/
def State.flushRaw (s : State) : State :=
  (s.signal.raw.filter (fun h => !h.input.form1 && s.rawDone h)).foldl State.logRaw s

/-- A raw input (R364–R370): every set is taken or excluded, the input is logged once its samples have entered, and the
answer tells whether any part was taken, and the cause of what was not. -/
def State.rawInput (s : State) (i : Input) (sets : List RawSet) : State × Bool × Nat :=
  match s.steps.image with
  | none => (s, false, 0x0C)
  | some img =>
    let ds := s.channelsOf i.slot i.stream
    let limit := s.admitLimit
    let r := (List.zip (List.range sets.length) sets).foldl (fun (a : State × List (Nat × SetResult)) p =>
      if limit < p.2.stamp then (a.1, a.2 ++ [(p.1, ⟨true, [5], ds.flatMap (·.cadences)⟩)])
      else
        let q := a.1.rawSet img ds p.2 i.arrival
        (q.1, a.2 ++ [(p.1, q.2)])) (s, [])
    let s := r.1
    let taken := r.2.any (fun x => x.2.causes.isEmpty || !x.2.all)
    let q := [4, 5, 0x0C].foldl (fun (a : State × Input) c => a.1.excludeSets a.2 c r.2) (s, i)
    let cause := pickCause ((r.2.flatMap (·.2.causes)).map i.exclusionCause)
    if taken then
      let c := q.1.countInput q.2 2 (s.stepOfStamp i.stamp)
      let waits := ds.filterMap (fun d => (c.1.chan d.index).bind (fun ch =>
        match ch.anchor with
        | none => none
        | some a =>
          let top := sets.map (fun x => (rawIndex (chainOf img d) ch a x).toNat)
          some (d.index, ch.gen, top.foldl max 0)))
      let s := { c.1 with signal := { c.1.signal with raw := c.1.signal.raw ++ [(⟨c.2, waits⟩ : RawHold)] } }
      (s.flushRaw, true, cause)
    else (q.1, false, cause)

/-! Admission of outputs at a close, tiles and the feed of fusion (R381, R382). -/

/-- A signal tile (R380). -/
def signalTile (d : ChannelDecl) (ch : Chain) (restarted : Bool) (first anchor step : Nat) (outs : List ChanOut) : Bytes :=
  let head := leBytes 2 d.index ++ leBytes 2 (b2n restarted + 2 * b2n (ch.ratio != 0)) ++ leBytes 2 outs.length ++
    leBytes 1 ch.taps.length ++ leBytes 1 0 ++ leBytes 8 first ++ fullTimeBytes anchor ++ leBytes 4 d.svRate ++
    leBytes 8 d.period ++ leBytes 4 ch.ratio ++ leBytes 4 ch.delay ++ leBytes 8 step ++ leBytes 4 d.scale ++ leBytes 4 0
  let body := outs.flatMap (fun o => leBytes 4 (ofSigned 32 o.y))
  let bits := (List.range 990).map (fun i =>
    BitVec.ofNat 8 (maskOf ((List.range 8).filter (fun j => ((outs[8 * i + j]?).map (·.valid)).getD false))))
  fitBytes (0x40 + 4 * 7920) (head ++ body) ++ bits

/-- Runs of outputs with consecutive indices of one start. -/
def outRuns : List ChanOut → List (List ChanOut)
  | [] => []
  | x :: xs =>
    match outRuns xs with
    | (y :: ys) :: rest => if y.gen = x.gen ∧ y.index = x.index + 1 then (x :: y :: ys) :: rest else [x] :: (y :: ys) :: rest
    | rest => [x] :: rest

/-- Tiles of an occurrence's admitted outputs, into every groundsheet named (R381); the stamp of a tile's first output is its
`VALID_TIME` (R145; DESIGN CHOICE, assumption 93). -/
def State.writeSignalTiles (s : State) (d : ChannelDecl) (ch : Chain) (c : Channel) (k n lo hi : Nat)
    (outs : List ChanOut) : State :=
  let again (gen anchor : Nat) : Bool := decide (0 < gen ∧ lo < anchor ∧ anchor ≤ hi)
  let runs := (outRuns outs).flatMap (fun r => chunksOf 7920 r.length r)
  let tile (r : List ChanOut) : Bytes :=
    match r with
    | o :: _ => signalTile d ch (again o.gen o.anchor) o.index o.anchor n r
    | [] => signalTile d ch (again c.gen (c.anchor.getD 0)) (c.nextOut.getD 0) (c.anchor.getD 0) n []
  let time (r : List ChanOut) : Nat := match r with | o :: _ => compact o.stamp | [] => s.stepTime n
  let tiles := (if runs.isEmpty then [[]] else runs).map (fun r => (tile r, time r))
  (d.tiles.filter (fun p => p.1 == k)).foldl (fun s p =>
    (List.zip p.2 tiles).foldl (fun s q =>
      (s.storeTile (dieRegion 0) k hubUnit q.1 q.2.1).raiseLantern hubUnit q.1 q.2.2 n) s) s

/-- One channel at the admission close `a` of occurrence `n` of cadence `k`, whose interval is (lo, hi]. -/
def State.closeChannel (s : State) (img : Image) (d : ChannelDecl) (k n lo hi a : Nat) : State :=
  match s.chan d.index with
  | none => s
  | some c =>
    let ch := chainOf img d
    if s.signal.lanesOut.contains (laneOf d.index) then
      if s.held then s else s.writeSignalTiles d ch c k n lo hi []
    else
      let s :=
        match c.anchor with
        | none => s
        | some t0 =>
          let fuel := (hi - t0) * ch.den / max 1 ch.num + 2
          let r := Entered.declare ch hi a fuel (⟨c, [], [], 0⟩, 0)
          let e := Entered.pump ch (r.1.chan.held.length + 1) r.1
          let s := s.absorb d e
          if r.2 = 0 then s else (s.addReg64 0x500058 r.2).signalEvent 1
      match s.chan d.index with
      | none => s
      | some c =>
        let due (o : ChanOut) : Bool := decide (lo < o.stamp ∧ o.stamp ≤ hi)
        let good := c.outs.filter (fun o => due o && decide (o.arrival < a))
        let behind := match c.anchor, c.nextOut with
          | some t0, some m => decide (ch.outStamp t0 m ≤ hi)
          | _, _ => false
        let late := behind || c.outs.any (fun o => due o && !decide (o.arrival < a))
        let mark (o : ChanOut) : ChanOut :=
          if due o && decide (o.arrival < a) then { o with admitted := k :: o.admitted } else o
        let s := if late then s.noteLate k n d.slot d.stream else s
        let s := s.setChan { c with
          outs := c.outs.map mark, closed := putKey k hi c.closed, shed := c.shed || late }
        if s.held then s else s.writeSignalTiles d ch c k n lo hi good

/-- The vector of a fusion stream at a stamp, when every bound element has a valid admitted output there that has not
fed it (R382). -/
def State.channelVector (s : State) (ds : List ChannelDecl) (stamp : Nat) : Option (List Nat) :=
  let out (d : ChannelDecl) : Option ChanOut :=
    (s.chan d.index).bind (fun c => c.outs.find? (fun o => o.stamp == stamp && o.valid && !o.admitted.isEmpty && !o.fed))
  if ds.all (fun d => (out d).isSome) then
    let value (d : ChannelDecl) : Nat :=
      let y := ((out d).map (·.y)).getD 0
      fConv fp64 fp32 (fMul fp64 (fOfInt fp64 y) (fConv fp32 fp64 d.scale))
    let width := (ds.map (fun d => d.element + 1)).foldl max 0
    some ((List.range width).map (fun e => match ds.find? (fun d => d.element == e) with | some d => value d | none => 0))
  else none

/-- A stamp's samples have fed fusion. -/
def State.markFed (s : State) (ds : List ChannelDecl) (stamp : Nat) : State :=
  let feed (o : ChanOut) : ChanOut := if o.stamp = stamp then { o with fed := true } else o
  ds.foldl (fun s d =>
    match s.chan d.index with
    | none => s
    | some c => s.setChan { c with outs := c.outs.map feed }) s

/-- The fusion stream of a slot and stream identifier takes the new samples of occurrence `n` of cadence `k`. -/
def State.feedFusion (k n : Nat) (s : State) (p : Nat × Nat) : State :=
  let ds := (s.channelsOf p.1 p.2).filter (·.feedsFusion)
  match ds with
  | [] => s
  | d :: _ =>
    let stamps := ((s.chan d.index).map (fun c =>
      (c.outs.filter (fun o => o.valid && !o.admitted.isEmpty && !o.fed)).map (·.stamp))).getD []
    stamps.foldl (fun s t =>
      match s.channelVector ds t with
      | none => s
      | some v => ((s.fusionIndices p.1 p.2).foldl (fun s i => s.queueSample (s.feedStep k n) i t v) s).markFed ds t) s

/-- Outputs that every cadence of the channel's stream has passed leave the lane. -/
def State.pruneOuts (s : State) : State :=
  let prune (c : Channel) : Channel :=
    match s.channelDecls.find? (fun d => d.index == c.index) with
    | none => c
    | some d =>
      let group := s.channelsOf d.slot d.stream
      let passed := group.flatMap (fun x => x.cadences.map (fun k =>
        (((s.chan x.index).bind (fun y => lookupKey k y.closed)).getD 0)))
      let bound := match passed with | [] => 0 | x :: xs => xs.foldl min x
      { c with outs := c.outs.filter (fun o => decide (bound < o.stamp)) }
  { s with signal := { s.signal with chans := s.signal.chans.map prune } }

/-- The answers of a `CADENCE_0` occurrence, and the counts of its step (R388, R390). -/
def State.answerSignal (s : State) (n : Nat) : State :=
  let one (c : Channel) : Nat × Nat :=
    if s.signal.lanesOut.contains (laneOf c.index) then (refused, 0x0A)
    else if c.shed then (shed, 4) else (served, 0)
  let freeze (c : Channel) : Channel :=
    { c with shed := false, counts := c.counts ++ [(n, c.sat, c.invalid)], sat := 0, invalid := 0 }
  if s.signal.chans.isEmpty then s
  else
    let a := pickAnswer (s.signal.chans.map one)
    let s := s.answer blockSignal a.1 a.2
    { s with signal := { s.signal with chans := s.signal.chans.map freeze } }

/-- The lanes at the admission close of occurrence n of cadence k (R369, R381, R382, R388). -/
def State.signalClose (s : State) (k n : Nat) : State :=
  match s.steps.image, s.steps.run, s.cadences[k]? with
  | some img, some r, some cd =>
    let hi := r.instant n
    let lo := hi - cd.multiple * r.base
    let a := r.close cd n
    let ds := img.channels.filter (fun d => d.cadences.contains k)
    let s := ds.foldl (fun s d => s.closeChannel img d k n lo hi a) s
    let pairs := (ds.map (fun d => (d.slot, d.stream))).eraseDups
    let s := if s.held then s else pairs.foldl (State.feedFusion k n) s
    let s := s.pruneOuts.flushRaw
    if k = 0 then s.answerSignal n else s
  | _, _, _ => s

/-! Step edges. -/

def rateMilli (d : ChannelDecl) : Nat := if d.svRate = 0 then secUnits * 1000 / max 1 d.period else d.svRate * 1000

/-- `SIGNAL_INFO`, `LANE_LOAD_k` and `RS_TABLE_VERSION` of the active image (R390). -/
def State.signalLoads (s : State) (img : Image) : State :=
  let lane (k : Nat) : List ChannelDecl := img.channels.filter (fun d => laneOf d.index == k)
  let s := (s.setReg 0x500004 img.channels.length).setReg 0x500064 img.rsVersion
  (List.range 8).foldl (fun s k =>
    s.setReg (0x500010 + 4 * k)
      (((lane k).map rateMilli).foldl (· + ·) 0 / 1000000 + (lane k).length * 2 ^ 17)) s

/-- The channels of an image start at its first step edge (R371). -/
def State.startChannels (s : State) (img : Image) : State :=
  let old := s.signal.chans
  ({ s with signal := { s.signal with chans := img.channels.map (freshChannel old) } }).signalLoads img

/-- Every channel restarts (R90). -/
def State.restartChannels (s : State) : State :=
  { s with signal := { s.signal with chans := s.signal.chans.map Channel.restart } }

/-- Lanes leave and return at a step edge (R387). -/
def State.laneEdge (s : State) : State :=
  let out := (List.range 8).filter (fun k => s.isOut (laneRegion k))
  let old := s.signal.lanesOut
  let changed (k : Nat) : Bool := out.contains k != old.contains k
  let upd (c : Channel) : Channel :=
    if changed (laneOf c.index) then
      let c := c.restart
      if out.contains (laneOf c.index) then { c with outs := [] } else c
    else c
  let s := { s with signal := { s.signal with lanesOut := out, chans := s.signal.chans.map upd } }
  if out.any (fun k => !old.contains k) then s.signalEvent 4 else s

/-- The active settings of a glint detector (R390). -/
def State.glintCfg (s : State) (c n : Nat) : GlintCfg :=
  let b := 0x510000 + 0x10000 * (c / 1024) + 32 * (c % 1024) + 16 * n
  let ctl := s.activeReg (b + 8)
  ⟨signedOf 28 (s.activeReg b), s.activeReg (b + 4) % 2 ^ 28, bitsOf ctl 0 16, bitAt ctl 16, bitAt ctl 17, bitAt ctl 18⟩

/-- Settings committed at the edge of step n come into force after Tₛ(n) (R383). -/
def State.noteGlints (s : State) (n : Nat) : State :=
  let ts := (s.steps.run.map (fun r => r.instant n)).getD 0
  let upd (c : Channel) : Channel :=
    let one (p : Nat × Detector) : Detector :=
      let g := s.glintCfg c.index p.1
      let last := match p.2.queue.getLast? with | some q => q.2 | none => p.2.cfg
      if last = g then p.2 else { p.2 with queue := p.2.queue ++ [(ts, g)] }
    { c with dets := (List.zip (List.range c.dets.length) c.dets).map one }
  { s with signal := { s.signal with chans := s.signal.chans.map upd } }

/-! Glint event records (R385, R386). -/

/-- A step lost in a trail hold (R90). -/
def glintLe (a b : GlintEvent) : Bool := lexLe [a.stamp, a.channel, a.detector] [b.stamp, b.channel, b.detector]

/-- The entry of an event; one carried from an earlier occurrence is late. -/
def glintEntry (n : Nat) (g : GlintEvent) : Bytes :=
  let kind := if g.occ = n ∨ 0x80 ≤ g.kind then g.kind else g.kind + 0x80
  leBytes 2 g.channel ++ leBytes 1 g.detector ++ leBytes 1 kind ++ leBytes 4 (ofSigned 32 g.peak) ++
    leBytes 8 (compact g.stamp) ++ leBytes 4 (min g.duration (2 ^ 32 - 1)) ++ leBytes 12 0

/-- At the commit of `CADENCE_0` occurrence n: the events it reports are taken, and the payload of their record, which is
written into the groundsheet too. -/
def State.takeGlints (s : State) (n : Nat) : State × Option Bytes :=
  let evs := sortList glintLe (s.signal.events.filter (fun g => decide (g.occ ≤ n) && !s.stepLost g.decided))
  let s := { s with signal := { s.signal with events := s.signal.events.filter (fun g => !decide (g.occ ≤ n)) } }
  if evs.isEmpty then (s, none)
  else
    let kept := evs.take 16384
    let dropped := evs.length - kept.length
    let s := if dropped = 0 then s else s.signalEvent 3
    let payload := leBytes 4 kept.length ++ leBytes 4 dropped ++ leBytes 8 0 ++ kept.flatMap (glintEntry n)
    let lanterns := (s.steps.image.map (·.glintLanterns)).getD []
    let s := (List.zip lanterns (chunksOf tileBytes payload.length payload)).foldl (fun s q =>
      (s.storeTile (dieRegion 0) 0 hubUnit q.1 q.2).raiseLantern hubUnit q.1 (s.stepTime n) n) s
    (s, some payload)

/-- The counts shown by `CHAN_VIEW_3` after the commit of `CADENCE_0` occurrence n. -/
def State.commitChannels (s : State) (n : Nat) : State :=
  let upd (c : Channel) : Channel :=
    match c.counts.find? (fun x => x.1 == n) with
    | some x => { c with last := x.2, counts := c.counts.filter (fun y => decide (n < y.1)) }
    | none => c
  { s with signal := { s.signal with chans := s.signal.chans.map upd } }

/-! Views. -/

/-- CHAN_VIEW_SAMPLE (R390). -/
def effChanViewSample (s : State) : State :=
  if !s.readable then s.replyWith 0 else
  let i := s.fld ⟨0x500034, 0, 13⟩
  let d := s.channelDecls.find? (fun d => d.index == i)
  let c := s.chan i
  let st (n : Nat) : Nat := (((c.bind (fun c => c.dets[n]?)).map (·.state)).getD 0)
  let last := (c.map (·.last)).getD (0, 0)
  match d with
  | none => ((((s.setReg 0x500038 0).setReg 0x50003C 0).setReg 0x500040 0).setReg 0x500044 0).replyWith 0
  | some d =>
    let s := s.setReg 0x500038 (d.slot + d.element * 2 ^ 12 + d.stream * 2 ^ 16)
    let s := s.setReg 0x50003C ((stageFilters d).length + b2n (d.ratio != 0) * 16 + d.preset * 32 + d.format * 128 +
      (st 0 + 4 * st 1) * 512)
    ((s.setReg 0x500040 d.ratio).setReg 0x500044 (min last.1 0xFFFF + min last.2 0xFFFF * 2 ^ 16)).replyWith (s.reg 0x500038)

def execChanViewSample (s : State) : Host.Outcome State Fault Refusal := .next (effChanViewSample s)

end Sys2Proof.Machine
end

