-- ==== Sys2Proof/Machine/Admission.lean ====
section
/-! DEFINITION. Admission by time-stamp (R54–R63, R615): what happens to an input when it is checked and when the
occurrences it waits for close, and frames in the frame rings (R167). -/

namespace Sys2Proof.Machine

/-- The clock stream of a tether (R215). -/
def clockStream : Nat := 0xFFFF

/-- Whether the admission close of occurrence n of a cadence has been reached. -/
def Run.hasClosed (r : Run) (k n : Nat) : Bool := decide (n < r.nextClose.getD k 0)

def Input.key (i : Input) : Nat × Nat × Nat := (i.slot, i.stream, i.stamp)

/-- Presentation order (R60). -/
def Input.sortKey (i : Input) : List Int := [i.slot, i.stream, i.stamp, i.seq]

def State.dropInput (s : State) (i : Input) : State :=
  { s with steps := { s.steps with inputs := s.steps.inputs.erase i } }

def State.addInput (s : State) (i : Input) : State :=
  { s with steps := { s.steps with inputs := s.steps.inputs ++ [i] } }

/-- An input's admission is decided for every cadence (R58, R86): its INPUT record is written, with the cadences that
admitted it outside a trail hold; one that closed in a hold only is counted (R89). -/
def State.finishInput (s : State) (i : Input) : State :=
  let mask := i.admitted.filter (fun k => !i.held.contains k)
  let s :=
    if i.admitted.isEmpty then s
    else if mask.isEmpty then { s with trail := { s.trail with gapInputs := s.trail.gapInputs + 1 } }
    else s.logInput i (maskOf mask) i.addr
  s.settleInput i

/-- The input is excluded from the cadences `ks`, with a record of step `n`. -/
def State.excludeFrom (s : State) (i : Input) (ks : List Nat) (n cause : Nat) : State × Input :=
  let r := s.exclude i ks n cause i.range
  (r.1, { r.2 with
    cause := pickCause [r.2.cause, i.exclusionCause cause]
    waits := r.2.waits.filter (fun w => !ks.contains w.1) })

/-- A new input is excluded from every cadence that consumes its stream. -/
def State.excludeWhole (s : State) (i : Input) (n cause : Nat) : State :=
  let r := s.excludeFrom i i.cadences n cause
  r.1.finishInput { r.2 with waits := [] }

/-- An input under admission is excluded from every cadence that has not decided. -/
def State.excludeRest (s : State) (i : Input) (n cause : Nat) : State :=
  let r := s.excludeFrom i (i.waits.map (·.1)) n cause
  r.1.finishInput { r.2 with waits := [] }

/-- The frame's ring entry joins the ring's admitted frames. -/
def State.addFrame (s : State) (i : Input) : State :=
  if i.frame then { s with sheets := { s.sheets with
      frames := ⟨i.slot, i.stamp, i.entry⟩ :: s.sheets.frames.filter (fun f => !(f.slot == i.slot && f.entry == i.entry)) } }
  else s

/-- What the engines take of an input that occurrence `n` of cadence `k` is the first to admit: its frame joins the ring's
admitted frames, and its samples go to fusion (R221). -/
def State.feedInput (s : State) (i : Input) (k n : Nat) : State :=
  if i.stream = clockStream then s
  else (s.addFrame i).fusionAdmit (s.feedStep k n) i.slot i.stream i.stamp i.entry i.payload

/-- The time exchanges among the inputs of an occurrence (R215): slot, stamp, θ, δ and E. -/
def clockInputs (is : List Input) : List (Nat × Nat × Int × Int × Int) :=
  (is.filter (fun i => i.stream == clockStream)).map (fun i =>
    let v (off : Nat) : Int := signedOf 64 (leAt i.payload off 8)
    (i.slot, i.stamp, v 0, v 8, v 16))

/-- The archive takes the payload of an input in `FORM` 1 at its first admission close (R479). -/
def State.archiveInput (s : State) (i : Input) : State × Input :=
  if i.form1 && i.addr.isNone then
    let r := s.archive i.payload
    (r.1, { i with addr := some r.2 })
  else (s, i)

/-- Occurrence `n` of cadence `k` admits an input (R56, R89). -/
def State.admitFor (s : State) (i : Input) (k n : Nat) : State × Input :=
  let fresh := i.admitted.all (fun c => i.held.contains c)
  let r := s.countInput i 2 n
  let s := r.1
  let i := { r.2 with admitted := i.admitted ++ [k], waits := i.waits.filter (fun w => w != (k, n)) }
  let s := if s.steps.seen.contains i.key then s
    else { s with steps := { s.steps with seen := i.key :: s.steps.seen } }
  if s.held then (s, { i with held := i.held ++ [k] })
  else
    let a := s.archiveInput i
    (if fresh then a.1.feedInput a.2 k n else a.1, a.2)

/-- The input goes on waiting, or is decided. -/
def State.keepInput (s : State) (i : Input) : State := if i.waits.isEmpty then s.finishInput i else s.addInput i

/-! The check of a new input. -/

/-- The frames an occurrence's selectors name (R167): the admitted frame with the largest stamp, and the one before it. -/
def State.selectFrames (s : State) (is : List Input) : List FrameSel :=
  let slots := (((s.steps.image.map (·.tethers)).getD []).filter (fun t => decide (2 ≤ t.kind))).map (·.slot)
  slots.eraseDups.map (fun slot =>
    let mine := is.filter (fun i => i.frame && i.slot == slot)
    let top : Option Input := mine.foldl (fun best i =>
      match best with
      | none => some i
      | some b => if b.stamp ≤ i.stamp then some i else some b) none
    match top with
    | none => ⟨slot, none, none⟩
    | some i =>
      let before := s.sheets.frames.filter (fun f => f.slot == slot && decide (f.stamp < i.stamp))
      let prev := before.foldl (fun (best : Option FrameRec) f =>
        match best with
        | none => some f
        | some b => if b.stamp ≤ f.stamp then some f else some b) none
      ⟨slot, some ⟨slot, i.stamp, i.entry⟩, prev⟩)

/-- An occurrence takes an input whose admission was decided after its close (R56): it stands among its inputs, and a frame
is one that the selectors see. -/
def State.joinOccurrence (s : State) (i : Input) (k n : Nat) : State :=
  let upd (o : Occurrence) : Occurrence :=
    if o.cadence = k ∧ o.step = n then
      let is := sortList (fun a b => lexLe a.sortKey b.sortKey) (o.inputs ++ [i])
      { o with inputs := is, frames := s.selectFrames is }
    else o
  { s with steps := { s.steps with occs := s.steps.occs.map upd } }

/-- A cadence is late for an input (R57): the arrival is not before the close of the occurrence whose interval holds the
stamp. So is one that no occurrence's interval holds (DESIGN CHOICE, assumption 75). A time exchange is never late (R215). -/
def State.lateFor (s : State) (r : Run) (i : Input) (k : Nat) : Bool :=
  match s.cadences[k]? with
  | none => false
  | some c =>
    i.stream != clockStream &&
      match r.occurrenceOf c i.stamp with
      | none => true
      | some n => decide (r.close c n ≤ i.arrival)

/-- One consuming cadence of a new input that is in time for it (R56): admitted at once where the occurrence has closed, and
waiting for its close otherwise. A time exchange stamped before every occurrence of the run belongs to none. -/
def State.checkCadence (r : Run) (a : State × Input) (k : Nat) : State × Input :=
  match a.1.cadences[k]? with
  | none => a
  | some c =>
    match r.occurrenceOf c a.2.stamp with
    | none => a
    | some n =>
      if r.hasClosed k n then
        let q := a.1.admitFor a.2 k n
        (q.1.joinOccurrence q.2 k n, q.2)
      else (a.1, { a.2 with waits := a.2.waits ++ [(k, n)] })

/-- An input reaches admission (R56–R60). It does so at the moment its check is done: a twin of the same stream and stamp that
is checked after the first one's close is shed, whatever its sequence number and its arrival (DESIGN CHOICE, assumption 76).
The cadences that it is late for share one EXCLUDED record (R63). -/
def State.offer (s : State) (i : Input) : State :=
  match s.steps.run with
  | none => s
  | some r =>
    let n := s.stepOfStamp i.stamp
    let twin := s.steps.inputs.find? (fun x => x.key == i.key)
    if s.steps.seen.contains i.key then s.excludeWhole i n 0x0C
    else if twin.any (fun x => decide (x.seq ≤ i.seq)) then s.excludeWhole i n 0x0C
    else
      let s := match twin with
        | some x => (s.dropInput x).excludeRest x n 0x0C
        | none => s
      if s.admitLimit < i.stamp then s.excludeWhole i s.nextStep 5
      else
        let late := i.cadences.filter (s.lateFor r i)
        let p := if late.isEmpty then (s, i) else s.excludeFrom i late n 4
        let q := (i.cadences.filter (fun k => !late.contains k)).foldl (State.checkCadence r) p
        q.1.keepInput q.2

/-! Frame rings (R167, R442, R452). -/

def State.tetherStreams (s : State) (slot : Nat) : List TetherStream :=
  ((s.steps.image.map (·.tethers)).getD []).filter (fun t => t.slot == slot)

def State.tetherStream (s : State) (slot stream : Nat) : Option TetherStream :=
  (s.tetherStreams slot).find? (fun t => t.stream == stream)

/-- Ring entries that an input under admission or an uncommitted occurrence holds (R78, R452). -/
def State.heldEntries (s : State) (slot : Nat) : List Nat :=
  let ofInputs (is : List Input) : List Nat := (is.filter (fun i => i.frame && i.slot == slot)).map (·.entry)
  let ofSel (f : FrameSel) : List Nat := (f.current.toList ++ f.previous.toList).map (·.entry)
  ofInputs s.steps.inputs ++
    s.steps.occs.flatMap (fun o => ofInputs o.inputs ++ (o.frames.filter (fun f => f.slot == slot)).flatMap ofSel)

/-- The ring entry a new frame takes: one that holds no frame, else that of the free frame with the least stamp. -/
def State.pickEntry (s : State) (t : TetherStream) : Option Nat :=
  let busy := s.heldEntries t.slot
  let free := (List.range t.ringEntries).filter (fun e => !busy.contains e)
  let here := s.sheets.frames.filter (fun f => f.slot == t.slot)
  match free.find? (fun e => !here.any (fun f => f.entry == e)) with
  | some e => some e
  | none =>
    (sortList (fun (a b : FrameRec) => decide (a.stamp ≤ b.stamp)) (here.filter (fun f => free.contains f.entry))).head?.map (·.entry)

/-- A network field as it stands in device memory (R4). -/
def swapped (bs : Bytes) (off n : Nat) : Bytes := (fitBytes n (sliceBytes off n bs)).reverse

/-- The tiles of an image frame, plane by plane (R170, R442). -/
def imageTiles (t : TetherStream) (bs : Bytes) : List Bytes :=
  (List.range t.planes).flatMap (fun p =>
    let plane := sliceBytes (p * t.width * t.height * 2) (t.width * t.height * 2) bs
    tilesOf t.width t.height 128 128 (fun x y => swapped plane (2 * (y * t.width + x)) 2) (leBytes 2 0xFFFF))

/-- The points of a point frame (R200). -/
def pointBytes16 (bs : Bytes) : Bytes :=
  (List.range (bs.length / 16)).flatMap (fun i =>
    swapped bs (16 * i) 4 ++ swapped bs (16 * i + 4) 4 ++ swapped bs (16 * i + 8) 4 ++ swapped bs (16 * i + 12) 2 ++
      swapped bs (16 * i + 14) 2)

/-- A complete frame with a stamp is written into its ring entry, whose tiles carry the stamp and the producer of ingress tiles
(R145). -/
def State.storeFrame (s : State) (t : TetherStream) (e stamp : Nat) (bs : Bytes) : State :=
  let put (s : State) (a : Nat) (b : Bytes) : State :=
    (s.store a b).tagRange a b.length (compact stamp) (s.stepOfStamp stamp) 0xFFFF
  if t.kind = 2 then
    let ts := imageTiles t bs
    (List.zip (List.range ts.length) ts).foldl (fun s p => put s (t.ringBase + (e * ts.length + p.1) * tileBytes) p.2) s
  else put s (t.ringBase + e * ceilDiv t.total tileBytes * tileBytes) (pointBytes16 bs)

/-- Bytes of a frame from its fragments; later fragments overwrite earlier ones. -/
def gather (total : Nat) (parts : List (Nat × Bytes)) : Bytes :=
  parts.foldl (fun bs p => fitBytes total (bs.take p.1 ++ p.2 ++ bs.drop (p.1 + p.2.length))) (List.replicate total 0)

/-- The first byte that ascending fragments leave open, from `n` on. -/
def coveredTo : List (Nat × Bytes) → Nat → Nat
  | [], n => n
  | p :: ps, n => if p.1 ≤ n then coveredTo ps (max n (p.1 + p.2.length)) else n

def Assembly.complete (g : Assembly) (total : Nat) : Bool :=
  decide (total ≤ coveredTo (sortList (fun (a b : Nat × Bytes) => decide (a.1 ≤ b.1)) g.parts) 0)

/-- The stamp of an assembled frame (R54, R62): translated with the offset in force now, or the ingress of its first packet. -/
def State.frameStamp (s : State) (x : Session) (g : Assembly) : Nat :=
  if x.timeSource = 3 then g.first else s.translate x.timeSource x.theta g.source

/-- The input that an assembly makes (R442). -/
def frameInput (x : Session) (t : TetherStream) (g : Assembly) (stamp entry : Nat) (payload : Bytes) : Input :=
  { (default : Input) with
    slot := x.slot, stream := g.stream, stamp := stamp, arrival := g.arrival, seq := g.number, count := 1
    payload := payload, frame := true, delayNs := g.delay, session := x.id, ackSeqs := g.seqs, cadences := t.cadences
    entry := entry }

/-- An assembly leaves its session; whole, it is stored and reaches admission, and otherwise it is shed with its cause. -/
def State.endAssembly (s : State) (sid : Nat) (t : TetherStream) (g : Assembly) (cause : Nat) : State :=
  match s.session sid with
  | none => s
  | some x =>
    let s := s.setSession { x with assembly := x.assembly.erase g }
    let bs := gather t.total g.parts
    let stamp := s.frameStamp x g
    if cause ≠ 0 then s.excludeWhole (frameInput x t g stamp 0 bs) (s.stepOfStamp stamp) cause
    else
      match s.pickEntry t with
      | none => (s.excludeWhole (frameInput x t g stamp 0 bs) (s.stepOfStamp stamp) 1).portsEvent 2
      | some e => (s.storeFrame t e stamp bs).offer (frameInput x t g stamp e bs)

/-- Frames whose fragments are not all present when the last of their occurrences closes are shed whole (R452). -/
def State.shedIncomplete (s : State) : State :=
  match s.steps.run with
  | none => s
  | some r =>
    s.ports.sessions.foldl (fun s x =>
      x.assembly.foldl (fun s g =>
        match s.tetherStream x.slot g.stream with
        | none => s
        | some t =>
          let passed (k : Nat) : Bool :=
            match s.cadences[k]? with
            | none => true
            | some c => match r.occurrenceOf c (s.frameStamp x g) with
              | some n => r.hasClosed k n
              | none => true
          if t.cadences.all passed then s.endAssembly x.id t g (pickCause [g.cause, 4]) else s) s) s

/-! The admission close (R52, R60). -/

/-- One input or raw input of a close. -/
def State.closeOne (k n : Nat) (a : State × List Input) (x : Input ⊕ RawHold) : State × List Input :=
  match x with
  | .inl i =>
    let r := (a.1.dropInput i).admitFor i k n
    (r.1.keepInput r.2, a.2 ++ [r.2])
  | .inr h => (a.1.logRaw h, a.2)

/-- Every input that waits for occurrence `n` of cadence `k` is admitted, in the order of R60; raw inputs whose samples
have entered and whose payloads the archive takes stand in the same order (R479). The admitted inputs. -/
def State.closeInputs (s : State) (k n : Nat) : State × List Input :=
  let xs := (s.steps.inputs.filter (fun i => i.waits.contains (k, n))).map (fun i => (i.sortKey, (Sum.inl i : Input ⊕ RawHold)))
  let ys := s.rawAtClose.map (fun h => (h.input.sortKey, (Sum.inr h : Input ⊕ RawHold)))
  let zs := sortList (fun (a b : List Int × (Input ⊕ RawHold)) => lexLe a.1 b.1) (xs ++ ys)
  (zs.map (·.2)).foldl (State.closeOne k n) (s, [])

/-- Inputs still waiting when a run ends are excluded as late. -/
def State.flushInputs (s : State) : State :=
  s.steps.inputs.foldl (fun s i =>
    let r := i.waits.foldl (fun (a : State × Input) w => a.1.excludeFrom a.2 [w.1] w.2 4) (s.dropInput i, i)
    r.1.finishInput { r.2 with waits := [] }) s

end Sys2Proof.Machine
end

