-- ==== Sys2Proof/Machine/Ports.lean ====
section
/-! DEFINITION. Ports and Tether sessions (R426–R455): links, PRP pairs, the ingress buffer, declarations, DATA frames and
their contracts, time exchanges, closing, and sampled values (R365, R366). -/

namespace Sys2Proof.Machine

/-! Links (R455, R454). -/

/-- PORT_LINK_CHANGE (R455). -/
def effPortLinkChange (port : Fin 4) (up fecLock localFault remoteFault : Bool) (fecCorr fecUncorr : Nat) (s : State) :
    State :=
  let n := port.val
  if !s.up || s.fld ⟨portReg n 0, 0, 2⟩ == 0 then s
  else
    let was := s.fld ⟨portReg n 4, 0, 1⟩ == 1
    let s := s.setFld ⟨portReg n 4, 0, 4⟩ (b2n up + 2 * b2n fecLock + 4 * b2n localFault + 8 * b2n remoteFault)
    let s := ((s.satReg (portReg n 0x14) fecCorr).satReg (portReg n 0x18) fecUncorr).count 0 0x52 n fecCorr
    if was && !up then
      let s := (s.satFld ⟨portReg n 4, 16, 16⟩ 1).portsEvent 4
      if s.prpOn (n / 2) then s.portsEvent 5 else s
    else s

/-! PRP (R430, R431). -/

/-- A LAN has delivered a frame within 4 s (R455). -/
def State.lanOk (s : State) (port : Nat) : Bool :=
  match s.ports.lanSeen.getD port none with
  | some t => decide (s.now < t + 4 * secUnits)
  | none => false

def prpReg (p off : Nat) : Nat := 0x402000 + 0x100 * p + off

def State.nodeCount (s : State) (p : Nat) : Nat := (s.ports.nodes.filter (fun n => n.pair == p)).length

/-- A frame with a trailer: the state, and whether it is the second copy of a frame. -/
def State.prpFilter (s : State) (port : Nat) (t : PrpTrailer) : State × Bool :=
  let p := port / 2
  let s := if t.lan ≠ port % 2 then s.satReg (prpReg p 8) 1 else s
  let now := s.now
  let fresh (n : PrpNode) : PrpNode :=
    { n with seen := now, seqs := (n.seqs.filter (fun q => decide (now < q.2 + 400 * msUnits))) }
  match s.ports.nodes.find? (fun n => n.pair == p && n.mac == t.mac) with
  | some n =>
    let n := fresh n
    let dup := n.seqs.any (fun q => q.1 == t.seq)
    let n := if dup then n else { n with seqs := n.seqs ++ [(t.seq, now)] }
    let upd (x : PrpNode) : PrpNode := if x.pair = p ∧ x.mac = t.mac then n else x
    let s := { s with ports := { s.ports with nodes := s.ports.nodes.map upd } }
    (if dup then s.satReg (prpReg p 4) 1 else s, dup)
  | none =>
    if s.nodeCount p < 2048 then
      ({ s with ports := { s.ports with nodes := s.ports.nodes ++ [(⟨p, t.mac, now, [(t.seq, now)]⟩ : PrpNode)] } }, false)
    else (s, false)

def txSupervision : Nat := 6

/-- PRP_SUPERVISION (R430). -/
def effPrpSupervision (s : State) : State :=
  if !s.up then s
  else
    (List.range 2).foldl (fun s p =>
      if s.prpOn p then (s.send ⟨2 * p, none, 0, txSupervision, []⟩).send ⟨2 * p + 1, none, 0, txSupervision, []⟩ else s) s

/-- PRP_NODE_AGEING (R430): an entry without frames for 60 s goes. -/
def effPrpNodeAgeing (pair : Fin 2) (mac : Nat) (s : State) : State :=
  let old (n : PrpNode) : Bool := n.pair == pair.val && n.mac == mac && decide (n.seen + 60 * secUnits ≤ s.now)
  if s.up then { s with ports := { s.ports with nodes := s.ports.nodes.filter (fun n => !old n) } } else s

/-! The ingress buffer (R429, R433). -/

def ingressSize : Nat := 131072

/-- A port accepts frames of a VLAN (R429). -/
def State.vlanOk (s : State) (port : Nat) (v : Option Nat) : Bool :=
  match v with
  | none => s.fld ⟨portReg port 0, 3, 1⟩ == 1
  | some id =>
    (List.range 4).any (fun k =>
      let w := s.reg (portReg port (0x20 + 4 * k))
      (bitAt w 15 && bitsOf w 0 12 == id) || (bitAt w 31 && bitsOf w 16 12 == id))

/-- The live session a Tether frame names (R438). -/
def State.sessionOf (s : State) (p : Bytes) : Option Session :=
  s.ports.sessions.find? (fun x => x.state == 1 && x.slot == frSlot p && x.id == frSession p)

/-- Bytes and packets within contract that wait in the buffer for a session. -/
def State.buffered (s : State) (x : Session) : Nat × Nat :=
  s.ports.ingress.foldl (fun a f =>
    match f.body with
    | .tether _ p => if f.cls = 0 ∧ frSlot p = x.slot ∧ frSession p = x.id then (a.1 + p.length, a.2 + 1) else a
    | _ => a) (0, 0)

def State.svOf (s : State) (mac appid : Nat) (asdus : List Asdu) : Option SvTether :=
  s.ports.sv.find? (fun t => t.entry.addr == mac && t.entry.appid == appid && asdus.any (fun a => a.svid == t.entry.svid))

def State.setSv (s : State) (t : SvTether) : State :=
  { s with ports := { s.ports with sv := s.ports.sv.map (fun y => if y.entry = t.entry then t else y) } }

/-- The class of an arriving frame (R433): 0 within its tether's contract, 1 over-contract Tether, 2 any other. A
sampled-value frame draws its packet token here (R434). -/
def State.classify (s : State) (b : FrameBody) (t : Nat) : State × Nat :=
  match b with
  | .tether _ p =>
    match s.sessionOf p with
    | none => (s, 2)
    | some x =>
      let w := s.buffered x
      (s, if (x.fill t).holds (p.length + w.1) (1 + w.2) then 0 else 1)
  | .sv mac appid asdus =>
    match s.svOf mac appid asdus with
    | none => (s, 2)
    | some v =>
      let n := bucketAt v.tokPkts v.tokAt v.entry.frameRate 64 t
      if tokens 1 ≤ n then (s.setSv { v with tokPkts := n - tokens 1, tokAt := max v.tokAt t }, 0) else (s, 2)
  | _ => (s, 2)

/-- A frame that the buffer cannot hold (R433). -/
def State.discard (s : State) (f : BufFrame) : State :=
  let s := (s.dropFrame f.port).portsEvent 3
  match f.body with
  | .tether _ p =>
    match s.sessionOf p with
    | some x => s.reportFrame x.id ⟨frSeq p, shed, 0x03, false, 0⟩ (bitAt (frFlags p) 0)
    | none => s
  | _ => s

/-- `xs` without its last element that satisfies `p`. -/
def dropLast (p : BufFrame → Bool) (xs : List BufFrame) : List BufFrame := (xs.reverse.eraseP p).reverse

/-- A frame enters the buffer; a full one keeps the classes of R433. -/
def State.pushFrame (s : State) (f : BufFrame) : State :=
  let q := s.ports.ingress
  let put (q : List BufFrame) (s : State) : State := { s with ports := { s.ports with ingress := q ++ [f] } }
  if q.length < ingressSize then put q s
  else
    let low := (q.map (·.cls)).foldl max 0
    match q.reverse.find? (fun g => g.cls == low) with
    | some g => if f.cls < low then (put (dropLast (fun h => h.cls == low) q) s).discard g else s.discard f
    | none => s.discard f

/-- FRAME_INGRESS (R427–R433). -/
def effFrameIngress (port : Fin 4) (quarter : Fin 8) (f : RxFrame) (s : State) : State :=
  let n := port.val
  if !s.up || s.fld ⟨portReg n 0, 0, 2⟩ == 0 || s.isOut (portRegion n) then s
  else
    let s := (s.addReg64 (portReg n 8) 1).count 0 0x50 n 1
    let s := { s with ports := { s.ports with lanSeen := s.ports.lanSeen.set n (some s.now) } }
    if s.fld ⟨portReg n 0, 16, 14⟩ < f.ipBytes ∨ !s.vlanOk n f.vlan ∨ f.body = .fragmented then s.dropFrame n
    else
      let r := match f.prp with
        | some t => if s.prpOn (n / 2) then s.prpFilter n t else (s, false)
        | none => (s, false)
      if r.2 then r.1
      else
        let s := r.1
        let recent := s.now :: s.ports.recent.filter (fun t => decide (s.now < t + secUnits))
        let s := { s with ports := { s.ports with recent := recent } }
        let t := s.rxStamp n 0 quarter.val
        let c := s.classify f.body t
        c.1.pushFrame ⟨n, c.2, t, f.body, f.vlan, (s.offsetNs 0, s.offsetNs 1)⟩

/-- The oldest buffered frame, when it is one that `p` takes, with the buffer's rest. -/
def State.headFrame (s : State) (p : FrameBody → Bool) : Option (BufFrame × State) :=
  match s.ports.ingress with
  | f :: rest => if p f.body then some (f, { s with ports := { s.ports with ingress := rest } }) else none
  | [] => none

def isTether : FrameBody → Bool
  | .tether .. => true
  | _ => false

def isSv : FrameBody → Bool
  | .sv .. => true
  | _ => false

/-- FRAME_OTHER (R428). -/
def effFrameOther (s : State) : State :=
  if !s.up then s
  else
    match s.headFrame (fun b => !isTether b && !isSv b) with
    | none => s
    | some (f, s) =>
      match f.body with
      | .other => s.dropFrame f.port
      | _ => s.sendOn f.port f.vlan 0 txAnswer []

/-! Receiving a session's frame (R436–R438). -/

/-- The Tether frame types that a command of their own takes; `data` takes every other. -/
def frKind (p : Bytes) : Nat :=
  let t := frType p
  if p.length < 40 then tData else if t = tDeclare ∨ t = tStatusReq ∨ t = tTimeResp ∨ t = tClose then t else tData

def tetherKind (k : Nat) : FrameBody → Bool
  | .tether _ p => frKind p == k
  | _ => false

/-- A sequence number is accepted (R437). -/
def Session.accept (x : Session) (seq t : Nat) : Session :=
  let hi := max seq (x.rxHigh.getD 0)
  { x with rxHigh := some hi, rxSeen := seq :: x.rxSeen.filter (fun q => decide (hi ≤ q + 4096)), lastFrame := t }

/-- The outcome of a frame that gives nothing to admission. -/
def State.refuseFrame (s : State) (sid : Nat) (p : Bytes) (cause : Nat) : State :=
  s.reportFrame sid ⟨frSeq p, refused, cause, false, 0⟩ (bitAt (frFlags p) 0)

/-- The checks of a frame other than DECLARE; `serve` handles one that is authentic, new and well formed. -/
def State.receive (s : State) (f : BufFrame) (p : Bytes) (serve : State → Session → State) : State :=
  if !frHead p then s.dropQuiet f.port
  else
    match s.sessionOf p with
    | none => s.dropQuiet f.port
    | some x =>
      let seq := frSeq p
      if !frTagOk x.key p then ((s.satReg 0x400034 1).portsEvent 1).refuseFrame x.id p 0x06
      else if (x.rxHigh.map (fun hi => decide (seq + 4096 < hi))).getD false then s.refuseFrame x.id p 0x07
      else if x.rxSeen.contains seq then s.satReg 0x400038 1
      else
        let x := x.accept seq f.arrival
        let s := s.setSession x
        let t := frType p
        if !frLengthOk p ∨ (t ≠ tData ∧ t ≠ tStatusReq ∧ t ≠ tTimeResp ∧ t ≠ tClose) then s.refuseFrame x.id p 0x0C
        else serve s x

/-- A command that takes the oldest frame when it is a Tether frame of kind `k`. -/
def State.tetherCommand (s : State) (k : Nat) (serve : BufFrame → Bytes → State → Session → State) : State :=
  if !s.up then s
  else
    match s.headFrame (tetherKind k) with
    | none => s
    | some (f, s) =>
      match f.body with
      | .tether _ p => s.receive f p (serve f p)
      | _ => s

/-! DECLARE (R436, R439, R440, R448). -/

/-- The fields of a DECLARE body are in their ranges (R439). -/
def declareOk (p : Bytes) : Bool :=
  let b := frBody p
  b.length == 48 && frSession p == 0 && decide (beAt b 0x10 1 ≤ 3 ∧ beAt b 0x11 1 ≤ 3 ∧ beAt b 0x12 2 ≤ 1000) &&
    (if beAt b 0x11 1 = 3 then beAt b 0x22 2 == 0 else decide (10 ≤ beAt b 0x22 2 ∧ beAt b 0x22 2 ≤ 60000)) &&
    decide (1 ≤ beAt b 0x28 1)

/-- The tether pool not held by quotas, without the session of `slot` (R448, R449). -/
def State.poolFree (s : State) (slot : Option Nat) : Nat :=
  max 64 (s.fld ⟨0x400010, 0, 16⟩) * 2 ^ 20 -
    (((s.liveSessions.filter (fun x => some x.slot != slot)).map (·.quota)).foldl (· + ·) 0 +
      (s.ports.sv.map (·.entry.quota)).foldl (· + ·) 0)

/-- Checks 3 to 7 of R448: the cause of a refusal, 0 for none. -/
def State.declareCause (s : State) (e : RosterEntry) (p : Bytes) : Nat :=
  let b := frBody p
  let others := s.liveSessions.filter (fun x => x.slot != e.slot)
  let heavy := (others.filter (·.entry.heavy)).length + (s.ports.sv.filter (fun t => t.entry.heavy)).length
  let sums := tetherSums others (s.ports.sv.map (·.entry))
  if !declareOk p then 0x0C
  else if s.lc ≠ lcService then 0x09
  else if (match s.liveSession e.slot with | some x => x.entry != e | none => false) || (s.liveSv e.slot).isSome then 0x02
  else if e.heavy && decide (24 ≤ heavy) then 0x02
  else if e.quota < beAt b 0x24 4 ∨ s.poolFree (some e.slot) < beAt b 0x24 4 ∨
      !sumsFit (sums.1 + beAt b 0x1C 4, sums.2 + beAt b 0x20 2) then 0x01
  else if e.rate < beAt b 0x14 4 ∨ e.burst < beAt b 0x18 4 ∨ e.pps < beAt b 0x1C 4 ∨ e.burstPkts < beAt b 0x20 2 then 0x03
  else 0

/-- DECLARE_ACK (R440). -/
def declareAck (e : RosterEntry) (outcome cause sid : Nat) (dNonce : Bytes) (t : Nat) : Bytes :=
  tetherFrame e.key tDeclareAck e.slot sid 0
    (beBytes 1 outcome ++ beBytes 1 cause ++ beBytes 2 0 ++ beBytes 4 sid ++ fitBytes 16 dNonce ++ timeBE t ++ beBytes 4 0)

/-- The first identifier from `n` on that is not zero and no session has. -/
def freeSession (used : List Nat) : Nat → Nat → Nat
  | 0, n => n
  | fuel + 1, n => if n = 0 ∨ used.contains n then freeSession used fuel ((n + 1) % 2 ^ 32) else n

/-- The session a DECLARE opens: its buckets are full (R450). -/
def newSession (f : BufFrame) (e : RosterEntry) (p : Bytes) (sid : Nat) (dNonce : Bytes) : Session :=
  let b := frBody p
  { (default : Session) with
    slot := e.slot, entry := e, id := sid, key := sessionKey e.key (sliceBytes 0 16 b) dNonce sid
    cls := beAt b 0x10 1, timeSource := beAt b 0x11 1, ackMs := beAt b 0x12 2, rate := beAt b 0x14 4
    burst := beAt b 0x18 4, pps := beAt b 0x1C 4, burstPkts := beAt b 0x20 2, timeMs := beAt b 0x22 2
    quota := beAt b 0x24 4, livenessS := beAt b 0x28 1, state := 1, port := f.port, vlan := f.vlan, txSeq := 1
    tokBytes := tokens (beAt b 0x18 4), tokPkts := tokens (beAt b 0x20 2), tokAt := f.arrival, lastFrame := f.arrival }

/-- The streams of a slot are aligned when a new session is declared (R217). -/
def State.realignSlot (s : State) (slot : Nat) : State :=
  let one (d : StreamDecl) (x : AlignState) : AlignState :=
    if d.slot = slot then { x with unaligned := false, run := 0, cause := 0 } else x
  { s with fusion := { s.fusion with align := List.zipWith one s.streamDecls s.fusion.align } }

/-- A DECLARE that fails check 1 has no answer. -/
def State.ignoreDeclare (s : State) : State := ((s.satReg 0x400030 1).portsEvent 0).answer blockPorts refused 0x0C

/-- A DECLARE whose tag has verified under `e` (R448). -/
def State.serveDeclare (s : State) (f : BufFrame) (e : RosterEntry) (p : Bytes) : State :=
  let cause := s.declareCause e p
  if cause ≠ 0 then
    let s := ((s.satReg 0x400030 1).portsEvent 0).answer blockPorts refused cause
    s.sendOn f.port f.vlan e.slot txTether (declareAck e refused cause 0 [] s.now)
  else
    let a := s.draw
    let b := a.2.draw
    let used := s.ports.sessions.map (·.id)
    let sid := freeSession used (used.length + 2) (a.1 % 2 ^ 32)
    let dNonce := beBytes 16 b.1
    let s := b.2.closeSessions (fun x => x.slot == e.slot) 2
    let s := { s with ports := { s.ports with sessions := s.ports.sessions ++ [newSession f e p sid dNonce] } }
    let s := (s.realignSlot e.slot).answer blockPorts served 0
    let s := s.sendOn f.port f.vlan e.slot txTether (declareAck e served 0 sid dNonce s.now)
    s.record kCommand served 0 s.stepNow p

/-- DECLARE (R448). -/
def effDeclare (s : State) : State :=
  if !s.up then s
  else
    match s.headFrame (tetherKind tDeclare) with
    | none => s
    | some (f, s) =>
      match f.body with
      | .tether src p =>
        let es := s.sec.site.roster.filter (fun e => e.slot == frSlot p && e.kind == 0)
        if !frHead p ∨ !frLengthOk p ∨ es.isEmpty then s.ignoreDeclare
        else
          match es.find? (fun e => frTagOk e.key p && e.addr == src) with
          | none => (s.satReg 0x400034 1).portsEvent 1
          | some e => s.serveDeclare f e p
      | _ => s

/-! DATA (R441, R442, R450–R452). -/

/-- A block of a DATA body; `payload` is the fragment of an image or point frame. -/
structure Block where
  stream : Nat
  kind : Nat
  elements : Nat
  format : Nat
  first : Nat
  count : Nat
  total : Nat
  stamp : Nat
  payload : Bytes

def blockOf (b payload : Bytes) : Block :=
  ⟨beAt b 0 2, beAt b 2 1, beAt b 3 1, beAt b 4 1, beAt b 8 8, beAt b 0x10 4, beAt b 0x14 4, timeAtBE b 0x18, payload⟩

/-- Blocks of samples or records, each padded to a multiple of 4 bytes. -/
def parseSeries : Nat → Bytes → Option (List Block)
  | 0, _ => none
  | fuel + 1, b =>
    let n := beAt b 0x14 4
    let size := 40 + (n + 3) / 4 * 4
    if b.length < size then none
    else
      let rest := b.drop size
      let x := blockOf b (sliceBytes 40 n b)
      if rest.isEmpty then some [x] else (parseSeries fuel rest).map (fun xs => x :: xs)

/-- The blocks of a DATA body of a tether of class `cls`. -/
def parseBlocks (cls : Nat) (b : Bytes) : Option (List Block) :=
  if cls < 2 then parseSeries (b.length / 40 + 1) b
  else if b.length ≤ 40 then none
  else
    let x := blockOf b (b.drop 40)
    if x.count + x.payload.length ≤ x.total then some [x] else none

/-- A block agrees with its tether and the schedule image (R441, R442, R452). -/
def State.blockOk (s : State) (x : Session) (b : Block) : Bool :=
  let chans := s.channelsOf x.slot b.stream
  let decl := s.tetherStream x.slot b.stream
  decide (b.stream ≤ 255) && b.kind == x.cls &&
  match b.kind with
  | 0 =>
    decide (1 ≤ b.elements ∧ b.elements ≤ 16 ∧ b.format ≤ 2) && b.total == b.count * b.elements * (2 + b.format) &&
    (decl.isSome || !chans.isEmpty) &&
    (match decl with | some t => t.kind == 0 && t.elements == b.elements && t.format == b.format | none => true) &&
    chans.all (fun d => d.format == b.format && decide (d.element < b.elements))
  | k =>
    b.elements == 1 && b.format == 0 &&
    (match decl with
      | some t => t.kind == k && (if k = 1 then decide (t.total ≤ 256) && b.total == b.count * t.total else b.total == t.total)
      | none => false)

/-- What a DATA frame's handling needs: its session, number, instants and delay. -/
structure DataFrame where
  sid : Nat
  seq : Nat
  ingress : Nat
  arrival : Nat
  delay : Option Nat
  urgent : Bool
  size : Nat

/-- The declared period of a stream: of its channels, else of its fusion stream. -/
def State.streamPeriod (s : State) (slot stream : Nat) : Nat :=
  match s.channelsOf slot stream with
  | d :: _ => d.period
  | [] => ((s.streamDecls.find? (fun d => d.slot == slot && d.stream == stream)).map (·.period)).getD 0

/-- The stamp of element `j` of a block (R54, R213, R442). -/
def State.blockStamp (s : State) (x : Session) (fr : DataFrame) (b : Block) (j : Nat) : Nat :=
  let off := j * s.streamPeriod x.slot b.stream
  if x.timeSource = 3 then fr.ingress + off else s.translate x.timeSource x.theta (b.stamp + off)

/-- Values of a sample block's set `j` (R442). -/
def setValues (b : Block) (j : Nat) : List (Int × Nat) :=
  let w := 2 + b.format
  (List.range b.elements).map (fun e => (signedOf (8 * w) (beAt b.payload ((j * b.elements + e) * w) w), 0))

/-- One more part of an open frame. -/
def State.openPart (s : State) (sid seq : Nat) : State :=
  match s.session sid with
  | none => s
  | some x =>
    let more (f : OpenFrame) : OpenFrame := if f.seq = seq then { f with parts := f.parts + 1 } else f
    s.setSession { x with opened := x.opened.map more }

/-- The cadences that consume a block's stream. -/
def State.blockCadences (s : State) (x : Session) (b : Block) : List Nat :=
  match s.channelsOf x.slot b.stream with
  | [] => ((s.tetherStream x.slot b.stream).map (·.cadences)).getD []
  | ds => (ds.flatMap (·.cadences)).eraseDups

/-- Input `j` of a block: the whole block of samples, or one record. -/
def State.blockInput (s : State) (x : Session) (fr : DataFrame) (b : Block) (j : Nat) : Input :=
  let size := b.total / max 1 b.count
  { (default : Input) with
    slot := x.slot, stream := b.stream, stamp := s.blockStamp x fr b j, arrival := fr.arrival
    seq := b.first + j, count := if b.kind = 0 then b.count else 1
    payload := if b.kind = 0 then b.payload else sliceBytes (j * size) size b.payload
    delayNs := fr.delay, session := x.id, ackSeqs := [fr.seq], cadences := s.blockCadences x b }

/-- A fragment joins its frame (R441, R442); `cause` is that of one shed at ingress. -/
def State.addFragment (s : State) (x : Session) (fr : DataFrame) (b : Block) (cause : Nat) : State :=
  match s.session x.id, s.tetherStream x.slot b.stream with
  | some y, some t =>
    let g := (y.assembly.find? (fun g => g.stream == b.stream && g.number == b.first)).getD
      { (default : Assembly) with stream := b.stream, number := b.first, source := b.stamp, first := fr.ingress }
    let rest := y.assembly.filter (fun g => !(g.stream == b.stream && g.number == b.first))
    let g := { g with arrival := max g.arrival fr.arrival, first := min g.first fr.ingress }
    let g := if cause = 0 then
        { g with
          seqs := g.seqs ++ [fr.seq], parts := g.parts ++ [(b.count, b.payload)]
          delay := if fr.delay.isSome then fr.delay else g.delay }
      else { g with cause := pickCause [g.cause, cause] }
    let s := s.setSession { y with assembly := rest ++ [g] }
    if g.cause = 0 && g.complete t.total then s.endAssembly x.id t g 0 else s
  | _, _ => s

/-- A raw input stamped beyond the open occurrence holds its bytes in the quota until the last of its occurrences closes
(R59). -/
def State.holdAhead (s : State) (sid : Nat) (i : Input) (last size : Nat) : State :=
  match s.steps.run, s.session sid with
  | some r, some x =>
    let until_ := (i.cadences.map (fun k =>
      match s.cadences[k]? with
      | some c => ((r.occurrenceOf c last).map (r.close c)).getD 0
      | none => 0)).foldl max 0
    if r.instant r.edges < last then s.setSession { x with ahead := x.ahead ++ [(until_, size)] } else s
  | _, _ => s

/-- A block goes to admission (R55–R60). -/
def State.submitBlock (s : State) (x : Session) (fr : DataFrame) (b : Block) : State :=
  if 2 ≤ b.kind then (s.openPart x.id fr.seq).addFragment x fr b 0
  else if b.count = 0 then s
  else if b.kind = 1 then
    (List.range b.count).foldl (fun s j => (s.openPart x.id fr.seq).offer (s.blockInput x fr b j)) s
  else
    let s := s.openPart x.id fr.seq
    let i := s.blockInput x fr b 0
    match s.channelsOf x.slot b.stream with
    | [] => s.offer i
    | _ =>
      let sets := (List.range b.count).map (fun j => (⟨s.blockStamp x fr b j, some (b.first + j), setValues b j⟩ : RawSet))
      let r := s.rawInput i sets
      let last := ((sets.getLast?).map (·.stamp)).getD 0
      let s := if r.2.1 then r.1.holdAhead x.id i last fr.size else r.1
      s.settlePart x.id fr.seq r.2.1 r.2.2

/-- A block of a frame that is shed at ingress (R452). -/
def State.shedBlock (s : State) (x : Session) (fr : DataFrame) (b : Block) : State :=
  if 2 ≤ b.kind then s.addFragment x fr b 1
  else
    let i := { s.blockInput x fr b 0 with count := b.count }
    (s.exclude i i.cadences (s.stepOfStamp i.stamp) 1 i.range).1

/-- Some input of the frame is stamped beyond the occurrence that is open now (R59). -/
def State.reachesAhead (s : State) (x : Session) (fr : DataFrame) (bs : List Block) : Bool :=
  match s.steps.run with
  | none => false
  | some r => bs.any (fun b => decide (r.instant r.edges < s.blockStamp x fr b (if b.kind < 2 then b.count - 1 else 0)))

/-- A refused frame whose blocks can be read appears in the trail (R452, R453). -/
def State.traceRefused (s : State) (slot : Nat) (stream first count stamp : Nat) : State :=
  s.trailWrite ⟨kExcluded, refused, 0x0C, s.stepOfStamp stamp, stamp,
    excludedBody slot stream 0 [(first, first + max count 1 - 1)]⟩

/-- The cause with which a DATA frame is refused (R452, R615), 0 for none, and its blocks. -/
def State.dataCause (s : State) (x : Session) (body : Bytes) : Nat × List Block :=
  match parseBlocks x.cls body with
  | none => (0x0C, [])
  | some bs => if !s.inRun then (0x09, []) else if bs.all (s.blockOk x) then (0, bs) else (0x0C, bs)

/-- A frame's blocks reach admission, and the frame is answered when all is decided. -/
def State.admitFrame (s : State) (x : Session) (fr : DataFrame) (bs : List Block) : State :=
  let f : OpenFrame := ⟨fr.seq, 1, false, [], fr.delay, fr.urgent, if s.reachesAhead x fr bs then fr.size else 0⟩
  let s := match s.session x.id with
    | some y => s.setSession { y with opened := y.opened ++ [f] }
    | none => s
  ((bs.foldl (fun s b => s.submitBlock x fr b) s).settleGuard x.id fr.seq).shedIncomplete

/-- Bytes that closing sessions of a slot still hold (R448). -/
def State.closingUsed (s : State) (slot : Nat) : Nat :=
  ((s.ports.sessions.filter (fun x => x.slot == slot && x.state == 2)).map Session.used).foldl (· + ·) 0

/-- A DATA frame: refused, admitted under contract, delayed, or shed (R450–R452). -/
def State.serveData (f : BufFrame) (p : Bytes) (s : State) (x : Session) : State :=
  let body := frBody p
  let q := s.dataCause x body
  let fr : DataFrame := ⟨x.id, frSeq p, f.arrival, f.arrival, none, bitAt (frFlags p) 0, p.length⟩
  if q.1 ≠ 0 then
    let s := q.2.foldl (fun s b => s.traceRefused x.slot b.stream b.first b.count (s.blockStamp x fr b 0)) s
    s.refuseFrame x.id p q.1
  else
    let x := x.fill f.arrival
    if x.holds p.length 1 then
      let x := x.drawTokens p.length
      (s.setSession x).admitFrame x fr q.2
    else
      let s := s.setSession x
      if x.used + s.closingUsed x.slot + p.length ≤ x.quota then
        s.setSession { x with queue := x.queue ++ [⟨fr.seq, f.arrival, fr.urgent, body⟩] }
      else
        let s := (q.2.foldl (fun s b => s.shedBlock x fr b) s).portsEvent 2
        s.reportFrame x.id ⟨fr.seq, shed, 0x01, false, 0⟩ fr.urgent

/-- DATA (R441, R450–R452). -/
def effData (s : State) : State := s.tetherCommand tData State.serveData

/-- A queued frame is released at instant `t` (R451). -/
def State.release (s : State) (x : Session) (q : QueuedFrame) (t : Nat) : State :=
  let size := q.body.length + 40
  let x := { (x.fill t).drawTokens size with queue := x.queue.drop 1 }
  let s := s.setSession x
  let d := s.dataCause x q.body
  if d.1 ≠ 0 then s.reportFrame x.id ⟨q.seq, refused, d.1, false, 0⟩ q.urgent
  else s.admitFrame x ⟨x.id, q.seq, q.arrival, t, some ((t - q.arrival) / 65536), q.urgent, size⟩ d.2

/-- The session of a slot whose queue's head can be released now. -/
def State.releasable (s : State) (slot : Nat) : Option (Session × QueuedFrame) :=
  s.ports.sessions.findSome? (fun x =>
    match x.queue with
    | q :: _ => if x.slot = slot ∧ (x.fill s.now).holds (q.body.length + 40) 1 then some (x, q) else none
    | [] => none)

/-- DELAY_QUEUE_RELEASE (R451). -/
def effDelayQueueRelease (slot : Fin 4096) (s : State) : State :=
  if !s.up then s
  else
    match s.releasable slot.val with
    | some (x, q) => s.release x q s.now
    | none => s

/-! Acknowledgement, status and time exchanges (R443–R445). -/

/-- ACK (R443): sent by every session of the slot that has outcomes to report. -/
def effAck (slot : Fin 4096) (s : State) : State :=
  if !s.up then s
  else (s.ports.sessions.filter (fun x => x.slot == slot.val)).foldl (fun s x => s.flushAcks x.id) s

/-- STATUS_REQ (R444). -/
def effStatusReq (s : State) : State := s.tetherCommand tStatusReq (fun _ _ s x => s.sendStatus x.id)

/-- STATUS (R444). -/
def effStatus (slot : Fin 4096) (s : State) : State :=
  if !s.up then s
  else
    match s.liveSession slot.val with
    | some x => s.sendStatus x.id
    | none => s

/-- TIME_REQ (R445): its egress stamp is t1; a stamp that the queue loses abandons the exchange (R416). -/
def effTimeReq (slot : Fin 4096) (quarter : Fin 8) (s : State) : State :=
  if !s.up then s
  else
    match s.liveSession slot.val with
    | none => s
    | some x =>
      if x.timeMs = 0 then s
      else
        let id := x.nextExch
        let t1 := s.txStamp x.port 0 quarter.val
        let r := s.queueStamp x.port (id % 65536) 0 quarter.val
        let fresh := x.requests.filter (fun q => decide (s.now ≤ q.2 + 4 * secUnits))
        let x := { x with nextExch := (id + 1) % 2 ^ 32, requests := if r.2 then fresh ++ [(id, t1)] else fresh }
        (r.1.setSession x).sendTether x.id tTimeReq (beBytes 4 id ++ List.replicate 12 0)

/-- TIME_RESP of a session: the exchange's clock input (R214, R215). -/
def State.serveTimeResp (f : BufFrame) (p : Bytes) (s : State) (x : Session) : State :=
  let b := frBody p
  if b.length ≠ 32 then s.refuseFrame x.id p 0x0C
  else
    match x.requests.find? (fun q => q.1 == beAt b 0 4 && decide (f.arrival ≤ q.2 + 4 * secUnits)) with
    | none => s.dropQuiet f.port
    | some q =>
      let s := s.setSession { x with requests := x.requests.erase q }
      let t1 : Int := compact q.2
      let t2 : Int := compact (timeAtBE b 8)
      let t3 : Int := compact (timeAtBE b 20)
      let t4 : Int := compact f.arrival
      let theta := ((t2 - t1) + (t3 - t4)) / 2
      let delta := (t4 - t1) - (t3 - t2)
      if delta < 0 then s.answer blockPorts refused 0x0C
      else
        let e : Int := if x.timeSource = 0 then f.offsets.1 else if x.timeSource = 1 then f.offsets.2 else 0
        let bytes (v : Int) : Bytes := leBytes 8 (ofSigned 64 v)
        s.offer { (default : Input) with
          slot := x.slot, stream := clockStream, stamp := f.arrival, arrival := f.arrival, seq := frSeq p, count := 1
          payload := bytes theta ++ bytes delta ++ bytes e, session := x.id, cadences := [0] }

/-- TIME_RESP (R445). -/
def effTimeResp (s : State) : State := s.tetherCommand tTimeResp State.serveTimeResp

/-! Closing (R446). -/

/-- CLOSE (R446). -/
def effClose (s : State) : State := s.tetherCommand tClose (fun _ _ s x => s.closeSessions (fun y => y.id == x.id) 0)

/-- LIVENESS_TIMEOUT (R446). -/
def effLivenessTimeout (slot : Fin 4096) (s : State) : State :=
  if !s.up then s
  else
    match s.liveSession slot.val with
    | some x =>
      if x.lastFrame + x.livenessS * secUnits ≤ s.now then s.closeSessions (fun y => y.id == x.id) 1 else s
    | none => s

/-- A frame that no filling of the buckets can release. -/
def Session.stuck (x : Session) (q : QueuedFrame) : Bool :=
  decide (x.burst < q.body.length + 40 ∨ x.burstPkts = 0 ∨ x.rate = 0 ∨ x.pps = 0)

/-- Frames at the head of a closing session's queue that can never be released are shed. -/
def State.shedStuck : Nat → State → Nat → State
  | 0, s, _ => s
  | fuel + 1, s, sid =>
    match s.session sid with
    | none => s
    | some x =>
      match x.queue with
      | [] => s
      | q :: rest =>
        if !x.stuck q || (x.fill s.now).holds (q.body.length + 40) 1 then s
        else
          let fr : DataFrame := ⟨x.id, q.seq, q.arrival, s.now, none, q.urgent, q.body.length + 40⟩
          let s := s.setSession { x with queue := rest }
          let s := (s.dataCause x q.body).2.foldl (fun s b => s.shedBlock x fr b) s
          State.shedStuck fuel (s.reportFrame sid ⟨q.seq, shed, 0x01, false, 0⟩ q.urgent) sid

/-- SESSION_CLOSE_COMPLETE (R446). -/
def effSessionCloseComplete (slot : Fin 4096) (s : State) : State :=
  if !s.up then s
  else
    match s.ports.sessions.find? (fun x => x.slot == slot.val && x.state == 2) with
    | none => s
    | some x =>
      let s := s.shedStuck x.queue.length x.id
      match s.session x.id with
      | none => s
      | some y =>
        if y.queue.isEmpty && y.opened.isEmpty then
          let s := (s.flushAcks x.id).sendTether x.id tClose (beBytes 1 y.reason ++ beBytes 1 0 ++ List.replicate 6 0)
          { s with ports := { s.ports with sessions := s.ports.sessions.filter (fun z => z.id != x.id) } }
        else s

/-! Sampled values (R365, R366, R452, R615). -/

/-- The offset of a sample count within its second. -/
def svOffset (rate c : Nat) : Nat := (roundDivEven ((c * secUnits : Nat) : Int) (max 1 rate)).toNat

/-- The whole second of a sample in its domain (R366). -/
def State.svSecond (s : State) (e : RosterEntry) (arrival c : Nat) : Nat :=
  (((arrival : Int) + s.offset16 e.domain - svOffset e.smpRate c) / (secUnits : Nat)).toNat

/-- The sample set of an ASDU. -/
def State.svSet (s : State) (e : RosterEntry) (arrival : Nat) (a : Asdu) : RawSet :=
  ⟨s.translate e.domain 0 (s.svSecond e arrival a.smpCnt * secUnits + svOffset e.smpRate a.smpCnt), none, a.samples⟩

def asduBytes (a : Asdu) : Bytes := a.samples.flatMap (fun v => beBytes 4 (ofSigned 32 v.1) ++ beBytes 4 v.2)

/-- The ASDUs of a sampled-value tether. -/
def State.serveSv (s : State) (f : BufFrame) (v : SvTether) (mine : List Asdu) : State :=
  match mine with
  | [] => s
  | a :: _ =>
    let e := v.entry
    let sec := s.svSecond e f.arrival a.smpCnt
    let chans := s.channelsOf e.slot 0
    let seq := sec * e.smpRate + a.smpCnt
    let sets := mine.map (s.svSet e f.arrival)
    let stamp := ((sets.head?).map (·.stamp)).getD 0
    if v.seen.contains (sec, a.smpCnt) then s.dropQuiet f.port
    else
      let s := s.setSv { v with seen := (sec, a.smpCnt) :: v.seen }
      if chans.all (fun d => mine.all (fun b => decide (b.samples.length ≤ d.element))) then
        (s.traceRefused e.slot 0 seq mine.length stamp).answer blockPorts refused 0x0C
      else
        let r := s.rawInput
          { (default : Input) with
            slot := e.slot, stream := 0, stamp := stamp, arrival := f.arrival, seq := seq, count := mine.length
            payload := mine.flatMap asduBytes, cadences := (chans.flatMap (·.cadences)).eraseDups } sets
        let s := if r.2.1 then r.1.answer blockPorts served 0 else r.1.answer blockPorts shed r.2.2
        match s.liveSv e.slot with
        | some w =>
          if r.2.1 then s.setSv { w with marks := w.marks ++ [(stamp, mine.all (fun b => b.smpSynch != 0))] } else s
        | none => s

/-- SAMPLED_VALUE_FRAME (R365, R366, R452, R615). -/
def effSampledValueFrame (s : State) : State :=
  if !s.up then s
  else
    match s.headFrame isSv with
    | none => s
    | some (f, s) =>
      match f.body with
      | .sv mac appid asdus =>
        match s.svOf mac appid asdus with
        | none => s.satReg (portReg f.port 0x10) (max 1 asdus.length)
        | some v =>
          if !s.inRun then s.dropQuiet f.port
          else
            let mine := asdus.filter (fun a => a.svid == v.entry.svid)
            (s.satReg (portReg f.port 0x10) (asdus.length - mine.length)).serveSv f v mine
      | _ => s

/-! Views (R455). -/

/-- SLOT_VIEW_SAMPLE (R455). -/
def effSlotViewSample (s : State) : State :=
  if !s.readable then s.replyWith 0
  else
    let slot := s.fld ⟨0x40001C, 0, 12⟩
    let x := match s.liveSession slot with
      | some x => some x
      | none => s.ports.sessions.find? (fun x => x.slot == slot)
    let v := s.liveSv slot
    let heavy := (x.map (fun y => y.entry.heavy)).getD ((v.map (fun y => y.entry.heavy)).getD false)
    let state := (x.map (·.state)).getD (b2n v.isSome)
    let src := if v.isSome then 4 else (x.map (·.timeSource)).getD 0
    let used := min 65535 (ceilDiv ((x.map Session.used).getD 0) 1024)
    let queued := min 65535 ((x.map (fun y => y.queue.length)).getD 0)
    let last := ((s.ports.viewShed.find? (fun q => q.1 == slot)).map (·.2)).getD (0, 0)
    let w0 := state + 4 * b2n heavy + 8 * b2n v.isSome + 16 * src
    let s := (s.setReg 0x400020 w0).setReg 0x400024 ((x.map (·.id)).getD 0)
    let s := (s.setReg 0x400028 (used + 65536 * queued)).setReg 0x40002C (min 65535 last.1 + 65536 * min 65535 last.2)
    s.replyWith w0

/-- At a `CADENCE_0` commit the step's counts are shown and begin anew (R455). -/
def State.commitPorts (s : State) : State :=
  let clear (x : Session) : Session := { x with stepShed := 0, stepDelayed := 0 }
  { s with ports := { s.ports with
      viewShed := s.ports.sessions.map (fun x => (x.slot, x.stepShed, x.stepDelayed))
      sessions := s.ports.sessions.map clear } }

/-! The commands. -/

def execPortLinkChange (port : Fin 4) (up fecLock localFault remoteFault : Bool) (fecCorr fecUncorr : Nat) (s : State) :
    Host.Outcome State Fault Refusal :=
  .next (effPortLinkChange port up fecLock localFault remoteFault fecCorr fecUncorr s)
def execFrameIngress (port : Fin 4) (quarter : Fin 8) (f : RxFrame) (s : State) : Host.Outcome State Fault Refusal :=
  .next (effFrameIngress port quarter f s)
def execFrameOther (s : State) : Host.Outcome State Fault Refusal := .next (effFrameOther s)
def execPrpSupervision (s : State) : Host.Outcome State Fault Refusal := .next (effPrpSupervision s)
def execPrpNodeAgeing (pair : Fin 2) (mac : Nat) (s : State) : Host.Outcome State Fault Refusal :=
  .next (effPrpNodeAgeing pair mac s)
def execDeclare (s : State) : Host.Outcome State Fault Refusal := .next (effDeclare s)
def execData (s : State) : Host.Outcome State Fault Refusal := .next (effData s)
def execAck (slot : Fin 4096) (s : State) : Host.Outcome State Fault Refusal := .next (effAck slot s)
def execStatusReq (s : State) : Host.Outcome State Fault Refusal := .next (effStatusReq s)
def execStatus (slot : Fin 4096) (s : State) : Host.Outcome State Fault Refusal := .next (effStatus slot s)
def execTimeReq (slot : Fin 4096) (quarter : Fin 8) (s : State) : Host.Outcome State Fault Refusal :=
  .next (effTimeReq slot quarter s)
def execTimeResp (s : State) : Host.Outcome State Fault Refusal := .next (effTimeResp s)
def execClose (s : State) : Host.Outcome State Fault Refusal := .next (effClose s)
def execLivenessTimeout (slot : Fin 4096) (s : State) : Host.Outcome State Fault Refusal := .next (effLivenessTimeout slot s)
def execSessionCloseComplete (slot : Fin 4096) (s : State) : Host.Outcome State Fault Refusal :=
  .next (effSessionCloseComplete slot s)
def execDelayQueueRelease (slot : Fin 4096) (s : State) : Host.Outcome State Fault Refusal :=
  .next (effDelayQueueRelease slot s)
def execSampledValueFrame (s : State) : Host.Outcome State Fault Refusal := .next (effSampledValueFrame s)
def execSlotViewSample (s : State) : Host.Outcome State Fault Refusal := .next (effSlotViewSample s)

end Sys2Proof.Machine
end

