-- ==== Sys2Proof/Machine/Steps.lean ====
section
/-! DEFINITION. Runs, step edges, admission closes, occurrences and their commits (R45–R94, R514–R521, R614). -/

namespace Sys2Proof.Machine

/-! Run start (R48, R88, R614, R615). -/

/-- The run origin: the first multiple of B at least 200 ms after the start instant (R48). -/
def runOrigin (start base : Nat) : Nat := ceilDiv (start + 200 * msUnits) base * base

/-- Counts that stand since run start: 64-bit pairs and single registers. -/
def runPairs : List Nat :=
  [0x10280, 0x10288, 0x10290, 0x10298, 0xA10018, 0xC00038, 0xD00038, 0xD00040, 0xD00048, 0x500048, 0x500050, 0x500058] ++
    (List.range 7).flatMap (fun j => [0x10210 + 16 * j, 0x10218 + 16 * j])
def runSingles : List Nat := [0xB00030, 0xC00040, 0xD00050, 0x500060]

/-- The fusion engine at a run's start: every function at Daylight (R244). -/
def startFusion (img : Image) : Fusion := {
  streams := img.streams.map (fun _ => (default : FStream)), align := img.streams.map (fun _ => (default : AlignState))
  egos := img.egos.map (fun _ => startEgo), rungs := List.replicate 5 ⟨0, 0, 0, 0⟩
  maps := [], contestedRegions := [], illPosed := 0, gated := false, laddered := false, egoDone := [], due := [], gridSat := 0
  poseDue := [] }

/-- A session at run start: its clock steps are counted anew (R217). -/
def Session.atRunStart (x : Session) : Session := { x with edges := min 1 x.edges, sinceSync := 0, stepShed := 0, stepDelayed := 0 }

/-- Everything that belongs to one run, as it stands before the run's first step edge. -/
def State.clearRun (s : State) (img : Image) : State :=
  let s := runPairs.foldl (fun s o => s.setReg64 o 0) s
  let s := (runSingles.foldl (fun s o => s.setReg o 0) s).clearTables img.track
  { s with
    steps := { s.steps with
      occs := [], inputs := [], seen := [], stats := [], late := [], draws := [], imageStart := true, switch := none
      endRun := false, fusedStep := none, verdicts := [], openSums := [], toFeed := [], calEdges := [] }
    trail := { s.trail with
      nextSeq := 0, digest := List.replicate 48 0, firstSeq := 0, gapSteps := [], lostSteps := [], gapInputs := 0
      gapOutputs := 0, restartSignal := false, preWaiting := [] }
    out := { s.out with seqs := [], buffer := s.out.buffer.map (fun (o : OutRec) => { o with logged := true }) }
    sheets := { s.sheets with lanterns := [], waits := [], frames := [] }
    ports := { s.ports with sessions := s.ports.sessions.map Session.atRunStart, viewShed := [] }
    tiers := { s.tiers with rowCounts := [], spills := [], spillsLast := [] }
    faults := { s.faults with windows := [], floorFns := [], cycleAt := s.faults.cycleSteps }
    fusion := startFusion img
    track := freshTrack, solver := freshSolver, map := startMap img.map s.sec.site.pegs
    search := { s.search with outs := [], waitCommits := [] }
    sec := { s.sec with waiting := s.sec.waiting.map (fun w => { w with due := 0 }) }
    signal := { s.signal with chans := [], raw := [], events := [] }
    vision := s.vision.map (fun (v : VisionUnit) => { v with counts := [], jobs := [], queue := [] })
    arrays := s.arrays.map (fun (u : ArrayUnit) => { u with counts := [], queue := [] })
    checkpoints := [] }

/-- The body of RUN_START (R88). -/
def runStartBody (rid : Bytes) (t0 baseUs id : Nat) (image seed report : Bytes) : Bytes :=
  fitBytes 16 rid ++ leBytes 8 (compact t0) ++ leBytes 4 baseUs ++ leBytes 4 id ++ fitBytes 48 image ++ sha384 seed ++
    sha384 report

/-- The records held before the run, written after RUN_START, and the count of those not kept (R614). Where the trail holds them,
they keep their times until they are written. -/
def State.flushPreRun (s : State) : State :=
  let ds := s.trail.preRun
  let lost := s.trail.preRunLost
  let s := { s with trail := { s.trail with preRun := [], preRunLost := 0 } }
  let s := ds.foldl State.trailWrite s
  let s := if s.held then { s with trail := { s.trail with preWaiting := ds } } else s
  if lost = 0 then s
  else
    let x := s.newError (dieRegion 0) 4
    x.2.record kFault 0 0x87 0 (x.2.errorBytes x.1 0 0x87 0 [] noSeq (min lost (2 ^ 32 - 1)) 0 [])

/-- The floors that the units in service give the functions as a run starts; step 0 writes them (R244). -/
def State.standFloors (s : State) : State :=
  { s with fusion := { s.fusion with
      rungs := s.fusion.rungs.mapIdx (fun f (r : Rung) => { r with floor := s.floorOf f }) } }

/-- RUN_START (R48): the runtime fixes the run origin and writes RUN_START, the held records after it. -/
def effRunStart (s : State) : State :=
  match s.steps.runDue, s.steps.image with
  | some start, some img =>
    if !s.up || s.inRun || s.held || !s.sec.entropyOk then s
    else
      let base := img.baseUs * usUnits
      let t0 := runOrigin start base
      let q := s.draw
      let rid := leBytes 16 q.1
      let t := q.2.clearRun img
      let t := { t with steps := { t.steps with
          runDue := none, run := some ⟨rid, t0, base, 0, img.cadences.map CadenceDecl.phase⟩ } }
      let t := t.standFloors
      let r := t.report 0 (fitBytes 32 rid)
      let t := r.2.record kRunStart 0 0 0 (runStartBody rid t0 img.baseUs img.id (r.2.imageDigest img.id) img.seed r.1)
      (t.archive r.1).1.flushPreRun
  | _, _ => s

/-! Verdicts and output records (R40–R44, R246, R616). -/

/-- Fusion streams that list a function (R616). -/
def State.dependsOn (s : State) (f : Nat) : List Nat :=
  (List.range s.streamDecls.length).filter (fun i => ((s.streamDecls.getD i default).functions).contains f)

/-- `FLAGS` of a record of function `f` of occurrence (k, n) (R40). -/
def State.outFlags (s : State) (k : Nat) (v : StepVerdict) (f : Nat) : Nat :=
  if f = 0xFF then 0
  else
    let mine := s.dependsOn f
    let excluded (i : Nat) : Bool :=
      let d := s.streamDecls.getD i default
      v.stale.contains i || s.steps.late.contains (k, v.step, d.slot, d.stream)
    let regions := ((s.steps.image.map (·.outputs)).getD []).flatMap (fun o => if o.function = f then o.checkRegions else [])
    v.levels.getD f 0 % 4 + 4 * b2n (regions.any (fun r => v.contested.contains r)) + 8 * b2n (mine.any excluded) +
      16 * b2n (mine.any (fun i => v.masked.contains i && !v.stale.contains i))

/-- `CONFIDENCE` under the level of a function (R246). -/
def levelConfidence (level conf : Nat) : Nat :=
  if level = 3 then 0 else if level = 2 then min conf 0x4000 else min conf 0x8000

/-- The largest payload of an output record (R40). -/
def maxPayload : Nat := 1048512

/-- One record of occurrence `o` (R40, R69, R246); none of a stopped pipeline (R540). The record stands with the outcome and the
lag that it is reported with; a payload longer than the limit of R40 is cut off there (DESIGN CHOICE, assumption 73). -/
def State.emitFor (s : State) (o : Occurrence) (v : StepVerdict) (rtype f tenant stream conf : Nat) (payload : Bytes) : State :=
  if f ≠ 0xFF ∧ o.stopped.contains tenant then s
  else
    let level := if f = 0xFF then 0 else v.levels.getD f 0
    s.emitOutput {
      recordType := rtype, function := f, step := v.step, instant := (s.steps.run.map (fun r => r.instant v.step)).getD 0
      flags := s.outFlags o.cadence v f, confidence := if f = 0xFF then 0x8000 else levelConfidence level conf
      tenant := tenant, stream := stream, seq := 0, trailRef := 0, image := 0
      payload := if level = 3 then [] else payload.take maxPayload
      outcome := if o.compiledEnd < s.now then delayed else served, lagNs := (s.now - o.compiledEnd) / nsUnits, logged := false }

/-- The record type of a compiled output (R41). -/
def bodyType : ModelBody → Nat
  | .tensor .. => 1
  | .forecast .. => 2
  | .faults .. => 3

/-- The saturations and the non-finite outputs in producing the tensor whose bytes are [a, a + n) (R117, R135). -/
def State.tensorCounts (s : State) (a n : Nat) : Nat × Nat :=
  (s.tensors.filter (fun t => decide (t.base < a + n ∧ a < t.base + t.bytes))).foldl (fun c t => (c.1 + t.sat, c.2 + t.nonfin))
    (0, 0)

/-- A 32-bit count in a payload, saturating. -/
def countBytes (n : Nat) : Bytes := leBytes 4 (min n (2 ^ 32 - 1))

/-- The size of a tensor's data. -/
def headSpan (h : TensorHead) : Nat := elemSpan h.format (h.dims.foldl (· * ·) 1)

/-- The tensor header (R135) of a tensor stored at `a`; unused extents are 1. -/
def State.tensorHead (s : State) (h : TensorHead) (a : Nat) : Bytes :=
  let c := s.tensorCounts a (headSpan h)
  leBytes 1 h.format ++ leBytes 1 h.dims.length ++ leBytes 2 h.model ++
    (List.range 4).flatMap (fun i => leBytes 4 (h.dims.getD i 1)) ++ countBytes c.1 ++ countBytes c.2 ++ leBytes 4 0

/-- The payload of a compiled output (R135–R137); the data are those that stand in memory at the commit. -/
def State.bodyBytes (s : State) : ModelBody → Bytes
  | .tensor h a => s.tensorHead h a ++ s.load a (headSpan h)
  | .forecast h t ms q qs a =>
    s.tensorHead h a ++ leBytes 8 t ++ leBytes 4 ms ++ leBytes 2 q ++ leBytes 2 qs.length ++
      (fitNats 8 qs).flatMap (leBytes 2) ++ fitBytes 16 [] ++ s.load a (headSpan h)
  | .faults classes a n assets =>
    let c := s.tensorCounts a n
    leBytes 2 assets.length ++ leBytes 2 classes ++ countBytes c.1 ++ countBytes c.2 ++ leBytes 4 0 ++
      assets.flatMap (fun a => a.2.flatMap (fun c => leBytes 4 a.1 ++ leBytes 2 c.1 ++ leBytes 2 c.2))

/-- The function of a declared output: record types 2 and 3 have their own (R41). -/
def outFunction (d : OutputDecl) : Nat := if d.recordType = 2 ∨ d.recordType = 3 then d.recordType else d.function

/-- The records of compiled outputs (R41). -/
def State.emitModels (s : State) (o : Occurrence) (v : StepVerdict) (outs : List ModelOutput) : State :=
  outs.foldl (fun s x =>
    match ((s.steps.image.map (·.outputs)).getD []).find? (fun d => d.stream == x.stream && d.cadence == o.cadence &&
        d.recordType == bodyType x.body) with
    | some d => s.emitFor o v d.recordType (outFunction d) d.tenant d.stream x.confidence (s.bodyBytes x.body)
    | none => s) s

/-- The track lists of a tracking occurrence (R267). -/
def State.emitTracks (s : State) (o : Occurrence) (v : StepVerdict) : State :=
  let ts := (s.steps.run.map (fun r => r.instant v.step)).getD 0
  s.trackDecl.streams.foldl (fun s d =>
    let p := s.trackPayloads d ts
    p.2.foldl (fun s b => s.emitFor o v 4 4 d.tenant d.stream p.1 b) s) s

/-- The map records of a mapping occurrence (R300). -/
def State.emitMaps (s : State) (o : Occurrence) (v : StepVerdict) : State :=
  s.mapDecl.streams.foldl (fun s d =>
    (s.mapPayloads d).foldl (fun s b => s.emitFor o v 5 1 d.tenant d.stream s.mapConfidence b) s) s

/-- The match records of an occurrence's marked batches (R356). -/
def State.emitMatches (s : State) (o : Occurrence) (v : StepVerdict) : State :=
  let mine (m : MatchOut) : Bool := m.cadence == o.cadence && m.step == o.step
  let s := (s.search.outs.filter mine).foldl (fun s m =>
    (matchParts m).foldl (fun s b => s.emitFor o v 6 3 (s.collDecl m.coll).tenant m.stream (matchConfidence m) b) s) s
  { s with search := { s.search with outs := s.search.outs.filter (fun m => !mine m) } }

/-- The payload of a step summary (R91). -/
def stepSummary (x : StepStats) (levels : List Nat) : Bytes :=
  leBytes 4 x.admitted ++ leBytes 4 x.late ++ leBytes 4 x.shedOther ++ leBytes 2 x.ran ++ leBytes 2 x.skipped ++
    (fitNats 5 levels).flatMap (leBytes 1) ++ leBytes 3 0 ++ leBytes 8 x.commits ++ leBytes 8 x.commands ++ leBytes 8 0

/-- The step summary of a `CADENCE_0` occurrence (R91); the counts of its step are done with, and what belongs to the step later
is counted with the next summary to come (DESIGN CHOICE, assumption 74). -/
def State.emitSummary (s : State) (o : Occurrence) : State :=
  let x := s.statsOf o.step
  let v := s.verdictOf o.step
  let s := s.emitFor o v 8 0xFF 0 ((s.steps.image.map (·.summaryStream)).getD 0) 0x8000 (stepSummary x v.levels)
  { s with steps := { s.steps with
      stats := s.steps.stats.filter (fun y => y.step != o.step), openSums := s.steps.openSums.erase o.step } }

/-- The glint event record of a `CADENCE_0` commit (R386). -/
def State.emitGlints (s : State) (o : Occurrence) : State :=
  let r := s.takeGlints o.step
  match r.2 with
  | some b => r.1.emitFor o (r.1.verdictOf o.step) 7 0xFF 0 ((s.steps.image.map (·.glintStream)).getD 0) 0x8000 b
  | none => r.1

/-! Occurrences (R52, R70, R76, R90). -/

/-- A step that an occurrence still looks back to: one of that step runs or waits, or is still to close. -/
def State.looksBack (s : State) (n : Nat) : Bool :=
  s.steps.occs.any (fun o => o.step == n) || (s.steps.run.map (fun r => r.nextClose.any (fun m => decide (m ≤ n)))).getD false

/-- The verdict of the last fused step is kept while an occurrence looks back to it. -/
def State.keepVerdict (s : State) : State :=
  match s.steps.fusedStep with
  | none => s
  | some m =>
    let vs := (s.verdictNow m :: s.steps.verdicts).filter (fun v => s.looksBack v.step)
    { s with steps := { s.steps with verdicts := vs } }

/-- The work of `CADENCE_0` occurrence `o` begins with the fusion work of its step: the admitted samples enter the histories, the
streams are evaluated, and where no gate judges them the stream state vector is written (R221, R234; assumption 78). -/
def State.beginFusion (s : State) (o : Occurrence) : State :=
  let ts := (s.steps.run.map (fun r => r.instant o.step)).getD 0
  let t := ((s.keepVerdict).feedDue o.step).fusionStep ts o.quality o.align
  let t := { t with steps := { t.steps with fusedStep := some o.step } }
  if (t.steps.image.map (·.checks)).getD [] = [] then t.writeStreamState o else t

/-- The work of an occurrence begins, and its checkpoint is taken (R76); for `CADENCE_0` after the fusion work that nothing
repeats. -/
def State.beginWork (s : State) (k n : Nat) : State :=
  match s.steps.occs.find? (fun o => o.cadence == k && o.step == n) with
  | none => s
  | some o =>
    let s := s.updOcc k n (fun o => { s.onSchedule o with begun := true })
    (if k = 0 then s.beginFusion o else s).takeCheckpoint k n

/-- The next occurrence of a cadence begins once none of the cadence runs (R76, R77), outside a trail hold (R89). -/
def State.beginNext (s : State) (k : Nat) : State :=
  match s.steps.occs.find? (fun o => o.cadence == k) with
  | some o => if o.begun || s.held then s else s.beginWork k o.step
  | none => s

/-- The occurrences that a hold or its predecessor kept from beginning begin at an admission close (R89). -/
def State.beginWaiting (s : State) : State := (List.range s.cadences.length).foldl State.beginNext s

/-- An occurrence is skipped (R70, R482). -/
def State.noteSkip (s : State) (k n lagNs : Nat) : State :=
  let s := s.record kSkip shed 0x0E n (leBytes 1 k ++ leBytes 7 0 ++ leBytes 8 lagNs)
  let s := s.addReg64 0x10290 1
  s.updStats n (fun x => { x with 
    skipped := x.skipped ||| 2 ^ k, ran := if bitAt x.ran k then x.ran - 2 ^ k else x.ran })

/-- The calibrations in force at the edge of step `n` (R194). -/
def State.calAt (s : State) (n : Nat) : List Calibration := (lookupKey n s.steps.calEdges).getD s.sec.site.calibrations

/-- The occurrence that closes at occurrence `n` of cadence `k` with the inputs `is`. -/
def State.newOcc (s : State) (k n : Nat) (is : List Input) (q : List Quality) : Occurrence :=
  let c := s.cadences.getD k default
  let close := (s.steps.run.map (fun r => r.close c n)).getD 0
  { cadence := k, step := n, close := close, compiledEnd := s.compiledEndOf k close, attempts := 0
    schedule := s.faults.schedule, inputs := is, frames := s.selectFrames is, calibrations := s.calAt n
    epochs := s.collEpochs, quality := q, align := s.fusion.align, begun := false, stopped := s.out.stopped }

/-- `LAG_LIMIT` × c × B of a cadence (R70). -/
def State.lagLimit (s : State) (k : Nat) : Nat :=
  max 1 (s.activeFld ⟨0x10014, 0, 4⟩) * (s.cadences.getD k default).multiple * ((s.steps.run.map (·.base)).getD 0)

/-- The outputs that a lost occurrence of a cadence would have produced, as TRAIL_GAP counts them: one for each output stream that
the image declares for the cadence, and the summary of `CADENCE_0` (DESIGN CHOICE, assumption 84). -/
def State.declaredOutputs (s : State) (k : Nat) : Nat :=
  (((s.steps.image.map (·.outputs)).getD []).filter (fun o => o.cadence == k)).length + b2n (k == 0)

/-- The occurrence joins the running ones and counts as run at its step (R91). -/
def State.addOcc (s : State) (o : Occurrence) : State :=
  let s := { s with steps := { s.steps with occs := s.steps.occs ++ [o] } }
  s.updStats o.step (fun x => { x with ran := x.ran ||| 2 ^ o.cadence })

/-- Occurrence `n` of cadence `k` at its admission close: lost where the close falls in a step of a trail gap (R90); skipped while
the one before lags too far (R70); else it begins, once the one before is done and nothing holds. The previous occurrence of the
cadence is its oldest that has not finished (DESIGN CHOICE, assumption 80). -/
def State.startOcc (s : State) (k n : Nat) (is : List Input) (q : List Quality) : State :=
  let o := s.newOcc k n is q
  let skip (lag : Nat) : State :=
    let t := s.noteSkip k n lag
    if k = 0 then t.emitSummary o else t
  if s.stepLost (if k = 0 then n else s.stepNow) then
    { s with trail := { s.trail with gapOutputs := s.trail.gapOutputs + s.declaredOutputs k } }
  else
    match s.steps.occs.find? (fun x => x.cadence == k) with
    | none => (s.addOcc o).beginNext k
    | some p => if s.lagLimit k < s.now - p.compiledEnd then skip ((s.now - p.compiledEnd) / nsUnits) else s.addOcc o

/-! Commits (R77). -/

/-- The vision counts of a commit (R210): those of `CADENCE_0` work are shown with what other cadences have committed since the
last one, and those of another cadence wait for it. -/
def State.commitVision (s : State) (k : Nat) : State :=
  if k ≠ 0 then { s with vision := s.vision.map (VisionUnit.commitCounts committedCadence k) }
  else
    (List.range s.vision.length).foldl (fun s v =>
      let c := ((s.vision.getD v default).commitCounts committedCadence 0).countOf committedCadence
      let s := (List.range 4).foldl (fun s e => s.setReg (blockVision v + 0x1C + 0x10 * e) (c.tiles.getD e 0)) s
      let s := (List.range 12).foldl (fun s i => s.setReg (blockVision v + 0x50 + 4 * i) (c.codes.getD i 0)) s
      s.updVision v (fun u => { u with
        counts := u.counts.filter (fun x => x.cadence != 0 && x.cadence != committedCadence) })) s

/-- An occurrence leaves the running ones, and its cadence goes on (R77, R557). -/
def State.leaveOcc (s : State) (k n : Nat) : State :=
  let s := (s.dropCheckpoint k n).closeRecovery k n
  let s := { s with steps := { s.steps with
      occs := s.steps.occs.filter (fun o => !(o.cadence == k && o.step == n))
      draws := s.steps.draws.filter (fun d => !(d.cadence == k && d.step == n))
      late := s.steps.late.filter (fun x => !(x.1 == k && x.2.1 ≤ n)) } }
  s.beginNext k

/-- The engines' part of a commit before its records: map, collections and merges (R276, R291, R340, R344). Compiled requests
to a collection that is not declared are refused (R358). -/
def State.commitEngines (s : State) (o : Occurrence) (isMap mapMerge : Bool) (ops : List SearchOps) : State :=
  let s := if isMap then s.settleMap.insertVectors else s
  let s := (s.sourced o.cadence isMap).foldl (fun s i => s.commitColl i o.cadence (s.stepTime o.step) o.step ops) s
  let s := (ops.filter (fun x => decide (s.collDecls.length ≤ x.coll))).foldl
    (fun s x => s.enterOps o.cadence (s.stepTime o.step) o.step x) s
  (s.mergedBy o.cadence mapMerge).foldl State.startMerge s

/-- Everything a commit does (R77). -/
def State.commitOcc (s : State) (o : Occurrence) (outs : List ModelOutput) (ops : List SearchOps) : State :=
  let k := o.cadence
  let isMap := k == s.mapDecl.cadence
  let isTrack := k == s.trackDecl.cadence
  let mapMerge := isMap && s.map.work.merged
  let v := s.verdictOf o.step
  let s := s.commitEngines o isMap mapMerge ops
  let s := s.emitModels o v outs
  let s := if isTrack then (s.emitTracks o v).commitTracks else s
  let s := if isMap then (s.emitMaps o v).advanceMap o.step else s
  let s := ((s.emitMatches o v).commitArrays k).commitVision k
  let s :=
    if k = 0 then ((((s.emitGlints o).commitChannels o.step).commitTiers).commitPorts).emitSummary o
    else s
  let s := s.commitLanterns k o.step
  let s := if isTrack then s.drainTrack else s
  let s := if isMap then s.drainMap else s
  (s.drainSearch.leaveOcc k o.step).deliver

/-- A background merge that this commit must wait for (R345). -/
def State.mergeBlocks (s : State) (k : Nat) : Bool :=
  let mapMerge := k == s.mapDecl.cadence && s.map.work.merged
  (s.mergedBy k mapMerge).any (fun i => (s.coll i).merging)

/-- The commit of a cadence's occurrence waits. -/
def waitsFor (k : Nat) (w : Instr × Option Nat) : Bool :=
  match w.1 with
  | .occurrenceCommit j _ _ => j.val == k
  | _ => false

/-- The trail takes the OUTPUT records of a commit: none of it would wait in a hold (R77). -/
def State.tryCommit (s : State) (o : Occurrence) (outs : List ModelOutput) (ops : List SearchOps) : Option State :=
  if s.held then none
  else
    let t := s.commitOcc o outs ops
    if t.held then none else some t

/-- The hold that the records of a commit bring about, with none of them written yet (R77, R89; assumption 94). -/
def State.holdForCommit (s : State) (o : Occurrence) (outs : List ModelOutput) (ops : List SearchOps) : State :=
  if s.held then s
  else
    let t := (s.commitOcc o outs ops).trail
    ({ s with trail := { s.trail with ringHold := t.ringHold, sealHold := t.sealHold } }).setHold

/-- OCCURRENCE_COMMIT (R77): the running occurrence of a cadence has finished its work, with the outputs and collection requests
that it produced. The commit waits while a background merge blocks it (R345), and while the trail cannot take its records. -/
def effOccurrenceCommit (k : Fin 16) (outs : List ModelOutput) (ops : List SearchOps) (s : State) : State :=
  match s.occOf k.val with
  | none => s
  | some o =>
    let wait (s : State) (since : Option Nat) : State := { s with search := { s.search with
        waitCommits := s.search.waitCommits ++ [(Instr.occurrenceCommit k outs ops, since)] } }
    if !s.up || !s.inRun || s.search.waitCommits.any (waitsFor k.val) then s
    else if s.mergeBlocks k.val then wait s (some s.now)
    else
      match s.tryCommit o outs ops with
      | some t => t
      | none => wait (s.holdForCommit o outs ops) none

/-- A waiting commit goes on when no merge and no hold blocks it; its wait for a merge is a stall of cause 1 (R345). -/
def State.resumeCommit (s : State) (w : Instr × Option Nat) : State :=
  match w.1 with
  | .occurrenceCommit k outs ops =>
    if s.mergeBlocks k.val then s
    else
      let drop (s : State) : State := { s with search := { s.search with waitCommits := s.search.waitCommits.erase w } }
      match s.occOf k.val with
      | none => drop s
      | some o =>
        let s := match w.2 with
          | some t => (drop s).endStall
              { cause := 1, dies := [3], cadence := k.val, step := o.step, tenant := 0, ns := (s.now - t) / nsUnits }
          | none => drop s
        match s.tryCommit o outs ops with
        | some t => t
        | none =>
          let s := s.holdForCommit o outs ops
          { s with search := { s.search with waitCommits := s.search.waitCommits ++ [(w.1, none)] } }
  | _ => s

/-- Every waiting commit that nothing blocks goes on. -/
def State.resumeCommits (s : State) : State := s.search.waitCommits.foldl State.resumeCommit s

/-- The admission close of occurrence `n` of cadence `k` (R52, R60). -/
def State.closeOcc (s : State) (k n : Nat) : State × List Input :=
  let c := s.cadences.getD k default
  let upd (r : Run) : Run := { r with nextClose := r.nextClose.set k (n + max 1 c.multiple) }
  let s := { s with steps := { s.steps with run := s.steps.run.map upd } }
  let r := (s.signalClose k n).closeInputs k n
  (r.1.shedIncomplete.pruneAhead, r.2)

/-- Frames that arrived before the close instant `a` still wait in a port's ingress: the close follows their processing (R56;
DESIGN CHOICE, assumption 87). -/
def State.ingressBefore (s : State) (a : Nat) : Bool := s.ports.ingress.any (fun f => decide (f.arrival < a))

/-- ADMISSION_CLOSE (R52): the next close of a longer cadence, after the step edge of its step. -/
def effAdmissionClose (k : Fin 16) (s : State) : State :=
  match s.steps.run, s.cadences[k.val]? with
  | some r, some c =>
    let n := r.nextClose.getD k.val 0
    if !s.up || k.val == 0 || r.edges ≤ n || s.now < r.close c n || s.ingressBefore (r.close c n) then s
    else
      let q := s.resumeCommits.closeOcc k.val n
      (q.1.startOcc k.val n q.2 []).beginWaiting
  | _, _ => s

/-! Step edges (R53, R517, R519, R539). -/

/-- A command accepted earlier takes effect at the edge of step `n` (R539). -/
def State.runWaiting (n : Nat) (s : State) (w : WaitingCmd) : State :=
  let at_ (op : Nat) (f : State → Except Nat State) : State := s.effectAt w.frame op w.epoch n f
  match w.cmd with
  | .lcProvision _ => at_ 0x0110 effectLcProvision
  | .lcReturn _ => at_ 0x0112 effectLcReturn
  | .siteInstall f _ root cert revoked sig ok => at_ 0x0120 (effectSiteInstall f root cert revoked sig ok)
  | .imageKeysSet _ keys ok => at_ 0x0122 (effectImageKeysSet keys ok)
  | .calibrationSet _ _ entries ok => at_ 0x0123 (effectCalibrationSet entries ok)
  | .rosterSet _ _ entries ok => at_ 0x0124 (effectRosterSet entries ok)
  | .pegSet _ _ pegs ok => at_ 0x0125 (effectPegSet pegs ok)
  | .datumSet _ d ok => at_ 0x0126 (effectDatumSet d ok)
  | .pipelineStart _ p => at_ 0x0140 (effectPipelineStart p.toNat)
  | .pipelineStop _ p => at_ 0x0141 (effectPipelineStop p.toNat)
  | .runtimeActivate _ _ => at_ 0x0203 effectRuntimeActivate
  | .searchInsert f coll dim _ items reply => s.effectSearchInsert f w.epoch n coll dim items reply
  | .searchDelete f coll _ ids reply => s.effectSearchDelete f w.epoch n coll ids reply
  | .searchLoad f coll b => s.effectSearchLoad f w.epoch n coll b.bytes
  | _ => s

/-- Every command due at the edge of step `n`, in acceptance order. -/
def State.dueCommands (s : State) (n : Nat) : State :=
  let due := s.sec.waiting.filter (fun w => decide (w.due ≤ n))
  let s := { s with sec := { s.sec with waiting := s.sec.waiting.filter (fun w => !decide (w.due ≤ n)) } }
  due.foldl (State.runWaiting n) s

/-- The initial values of an image that starts (R517): active values, and shadows that no write has replaced. -/
def State.applyInit (s : State) (img : Image) : State :=
  img.initRegs.foldl (fun s r =>
    let m := r.2.1 &&& shadowMask r.1
    let put (old : Nat) : Nat := (old &&& (2 ^ 32 - 1 - m)) ||| (r.2.2 &&& m)
    let t := s.setActive r.1 (put (s.activeReg r.1))
    if s.shadowed.contains r.1 then t else t.setReg r.1 (put (s.reg r.1))) s

/-- A register's shadows become active. -/
def State.commitReg (s : State) (off : Nat) : State :=
  let m := shadowMask off
  s.setActive off ((s.activeReg off &&& (2 ^ 32 - 1 - m)) ||| (s.reg off &&& m))

/-- Pairs by 511 (R85). -/
def commitChunks : Nat → List (Nat × Nat) → List (List (Nat × Nat))
  | 0, _ => []
  | fuel + 1, ps => if ps = [] then [] else ps.take 511 :: commitChunks fuel (ps.drop 511)

/-- The commit of class S fields at the edge of step `n` (R10, R85, R517). `CONFIG_COMMITS` counts the registers committed: several
writes to one register count once, and an image's initial values count (DESIGN CHOICE, assumption 83). -/
def State.commitConfig (s : State) (n : Nat) : State :=
  let img := s.steps.image.getD default
  let start := s.steps.imageStart
  let offs := (s.shadowed ++ (if start then img.initRegs.map (·.1) else [])).eraseDups.mergeSort
  let s := if start then s.applyInit img else s
  let s := s.shadowed.foldl State.commitReg s
  let s := { s with shadowed := [], steps := { s.steps with imageStart := false } }
  let ps := offs.map (fun o => (o, s.activeReg o &&& shadowMask o))
  let s := (commitChunks ps.length ps).foldl (fun s c =>
    s.record kConfigCommit 0 0 n (leBytes 4 c.length ++ c.flatMap (fun p => leBytes 4 p.1 ++ leBytes 4 p.2))) s
  s.updStats n (fun x => { x with commits := ps.length })

/-- The next occurrence of a cadence at or after step `n`. -/
def nextOccurrence (c : CadenceDecl) (n : Nat) : Nat :=
  if n ≤ c.phase then c.phase else c.phase + ceilDiv (n - c.phase) (max 1 c.multiple) * max 1 c.multiple

/-- At a switch, what an input still waits for (R521): it is admitted to old-image occurrences before `n`, which never
run, and waits for the new image's occurrences from `n` on. -/
def State.switchInput (n : Nat) (s : State) (i : Input) : State :=
  let old := i.waits.filter (fun w => decide (w.2 < n))
  let again (w : Nat × Nat) : Option (Nat × Nat) :=
    match s.cadences[w.1]?, s.steps.run with
    | some c, some r => (r.occurrenceOf c i.stamp).map (fun m => (w.1, max m (nextOccurrence c n)))
    | _, _ => none
  let a := old.foldl (fun (a : State × Input) w => a.1.admitFor a.2 w.1 w.2) (s.dropInput i, i)
  a.1.keepInput { a.2 with waits := (a.2.waits.filter (fun w => decide (n ≤ w.2))).filterMap again }

/-- The switch of images at the edge of step `n` (R521). -/
def State.switchAt (s : State) (img : Image) (n : Nat) : State :=
  let s := s.switchImage img n
  if s.steps.endRun then s
  else
    let upd (r : Run) : Run := { r with nextClose := img.cadences.map (fun c => nextOccurrence c n) }
    let s := { s with
      steps := { s.steps with run := s.steps.run.map upd, fusedStep := none, verdicts := [] }
      out := { s.out with seqs := [] } }
    s.steps.inputs.foldl (State.switchInput n) s

/-- A step edge in a trail hold: the step is lost and counts one trail-hold stall (R89, R90). -/
def State.loseStep (s : State) (n : Nat) : State :=
  let ns := (s.steps.run.map (·.base)).getD 0 / nsUnits
  let s := { s with
    trail := { s.trail with gapSteps := s.trail.gapSteps ++ [n], lostSteps := (n, n) :: s.trail.lostSteps }
    steps := { s.steps with openSums := s.steps.openSums.erase n } }
  let s := s.countStall { cause := 7, dies := [1, 2, 3], cadence := 0, step := n, tenant := 0, ns := ns }
  (List.range s.cadences.length).foldl (fun s k => s.pauseWatchdogs k ns) s

/-- The end of a run with a SEAL, unless the last record is one (R50, R87, R404, R511, R542). A SEAL that finds no room keeps
the run until it is written. -/
def State.endRunNow (s : State) : State :=
  let s := s.flushInputs
  let s := if s.held then s else s.trailWrite sealDraft
  if s.held then { s with steps := { s.steps with endRun := true } } else
  let img := s.steps.image
  let changed := match img, s.steps.run with
    | some i, some r => i.baseUs * usUnits != r.base
    | _, _ => false
  let s := { s with
    steps := { s.steps with
      run := none, occs := [], inputs := [], endRun := false, switch := none, fusedStep := none, verdicts := [] }
    checkpoints := []
    faults := { s.faults with schedule := 0xF, windows := [] }
    power := if s.power.stage = 6 ∨ s.power.stage = 7 then { s.power with stage := 5, statusPins := 5 } else s.power }
  if s.lc ≠ lcService then s.dropImage []
  else
    match img, s.time.afterRun with
    | some i, some p =>
      let s := { s.phaseStep p.1 p.2 with time := { (s.phaseStep p.1 p.2).time with afterRun := none } }
      ((s.dropImage []).placeImage i).startService
    | some _, none => if changed then s.startService else s
    | none, _ => s

/-- Floors of nested recovery windows end with them (R568). -/
def State.endFloors (s : State) : State :=
  let s := if s.faults.windows.any (fun w => w.touchesPrivileged) then s
    else { s with faults := { s.faults with floorFns := [] } }
  s.refreshFloors

/-- The calibrations in force at the edge of step `n` are kept while a longer cadence's close looks back to it (R194). -/
def State.noteCalibrations (s : State) (n : Nat) : State :=
  let keep (m : Nat) : Bool := (s.steps.run.map (fun r => r.nextClose.any (fun x => decide (x ≤ m)))).getD false
  { s with steps := { s.steps with calEdges := (n, s.sec.site.calibrations) :: s.steps.calEdges.filter (fun p => keep p.1) } }

/-- The floors that stand at a run's start, written at step 0 (R244). -/
def State.noteFloors (s : State) : State :=
  (List.zip (List.range 5) s.fusion.rungs).foldl (fun s p =>
    if p.2.floor = 0 then s else s.record kLevelChange 0 0 0 (levelBody p.1 0 p.2.floor 1)) s

/-- What a step edge that is not lost does after the closes and the commands. -/
def State.edgeWork (s : State) (n : Nat) : State :=
  (((s.commitConfig n).noteGlints n).notePegs n).endFloors

/-- The edge of step `n` on an image that goes on. -/
def State.edge (s : State) (n : Nat) (starts : Bool) (q : List Quality) : State :=
  let held := s.held
  let ts := (s.steps.run.map (fun r => r.instant n)).getD 0
  let s := if n = 0 then s.noteFloors else s
  let s := if starts then s.startChannels (s.steps.image.getD default) else s
  let s :=
    if held then s.loseStep n
    else if s.trail.restartSignal then
      { s.restartChannels with trail := { s.trail with restartSignal := false } }
    else s
  let r := s.laneEdge.closeOcc 0 n
  let s := if held then r.1.alignLost ts else r.1.alignEdge ts (clockInputs r.2)
  let s := (((s.dueCommands n).isolateDue n).returnDue n).noteCalibrations n
  if s.steps.endRun && !s.held then s.endRunNow
  else
    let s := if held then s else s.edgeWork n
    (s.scheduleWindows.refreshStage.startOcc 0 n r.2 q).beginWaiting

/-- The counts that begin at a step edge. -/
def State.countEdge (s : State) : State :=
  let clear (v : VisionUnit) : VisionUnit := { v with done := [0, 0, 0, 0] }
  let s := { s.arraysAtEdge with vision := s.vision.map clear }
  (List.range 4).foldl (fun s d => s.count d 0x02 0 1) s

/-- STEP_EDGE (R53): the admission close of `CADENCE_0` at the next step, once it is due; `q` is what the image's quality
work gives for the step. The edge of a switch follows the commits of the old image's occurrences (R521). -/
def effStepEdge (q : List Quality) (s : State) : State :=
  match s.steps.run, s.cadences[0]? with
  | some r, some c =>
    let n := r.edges
    let due := s.steps.switch.filter (fun w => decide (w.2 ≤ n))
    if !s.up || s.now < r.close c n || (due.isSome && s.steps.occs != []) || s.ingressBefore (r.close c n) then s
    else
      let s := s.resumeCommits
      let s := ({ s with steps := { s.steps with
          run := some { r with edges := n + 1 }, openSums := s.steps.openSums ++ [n] } }).countEdge
      match due with
      | some w =>
        let t := s.switchAt w.1 n
        if t.steps.endRun && !t.held then (t.dueCommands n).endRunNow else t.edge n true q
      | none => s.edge n (n == 0) q
  | _, _ => s

/-- BACKGROUND_MERGE_END (R345, R346). -/
def effBackgroundMergeEnd (coll : Nat) (s : State) : State :=
  if !s.up || !(s.coll coll).merging then s
  else
    (s.endMerge coll).resumeCommits

/-- `STALL_ABORT_MS` (R489); 0 acts as 1. -/
def State.stallLimit (s : State) : Nat := max 1 (s.activeFld ⟨0x600008, 0, 16⟩) * msUnits

/-- STALL_ABORT (R482): a stall of the running occurrence has reached its limit, and the attempt is abandoned. -/
def effStallAbort (k : Fin 16) (s : State) : State :=
  match s.occOf k.val with
  | none => s
  | some o =>
    if !s.up || s.now < o.close + s.stallLimit then s
    else
      let lag := (s.now - o.compiledEnd) / nsUnits
      let s := (s.restore k.val o.step).noteSkip k.val o.step lag
      let s := { s with search := { s.search with
          waitCommits := s.search.waitCommits.filter (fun w => !waitsFor k.val w) } }
      let s := (s.answer blockMemory shed 0x0E).memEvent 8
      let s := if k.val = 0 then s.emitSummary o else s
      (s.leaveOcc k.val o.step).deliver

/-! What host software drains (R89, R93, R479, R503). -/

/-- Work that a hold has kept waiting goes on, and records whose trail records are written are delivered (R43, R77, R89). -/
def State.afterDrain (s : State) : State := s.tryRelease.resumeCommits.deliver

/-- TRAIL_READ_WRITE (R89, R93): a value that is not 8-byte aligned or not in the ring is ignored. -/
def effTrailReadWrite (v : Word) (s : State) : State :=
  let x := v.toNat
  if !s.up || x % 8 != 0 || s.ringBytes ≤ x then s
  else ({ s with trail := { s.trail with read := x } }).afterDrain

/-- ARCHIVE_READ_WRITE (R479, R489): a value that is not 4 KiB aligned or not in the ring is ignored. -/
def effArchiveReadWrite (v : Word) (s : State) : State :=
  let x := v.toNat
  if !s.up || x % archivePage != 0 || s.archiveBytes ≤ x then s
  else (s.setReg 0x600074 x).afterDrain

/-- OUT_READ_WRITE (R503, R524): a value that is not 8-byte aligned is ignored. -/
def effOutReadWrite (v : Word) (s : State) : State :=
  let x := v.toNat
  if !s.up || !s.host.attached || x % 8 != 0 then s else (s.setReg 0x100020 x).deliver

def execRunStart (s : State) : Host.Outcome State Fault Refusal := .next (effRunStart s)
def execStepEdge (q : List Quality) (s : State) : Host.Outcome State Fault Refusal := .next (effStepEdge q s)
def execAdmissionClose (k : Fin 16) (s : State) : Host.Outcome State Fault Refusal := .next (effAdmissionClose k s)
def execOccurrenceCommit (k : Fin 16) (outs : List ModelOutput) (ops : List SearchOps) (s : State) :
    Host.Outcome State Fault Refusal := .next (effOccurrenceCommit k outs ops s)
def execStallAbort (k : Fin 16) (s : State) : Host.Outcome State Fault Refusal := .next (effStallAbort k s)
def execTrailReadWrite (v : Word) (s : State) : Host.Outcome State Fault Refusal := .next (effTrailReadWrite v s)
def execArchiveReadWrite (v : Word) (s : State) : Host.Outcome State Fault Refusal := .next (effArchiveReadWrite v s)
def execOutReadWrite (v : Word) (s : State) : Host.Outcome State Fault Refusal := .next (effOutReadWrite v s)
def execBackgroundMergeEnd (coll : Nat) (s : State) : Host.Outcome State Fault Refusal :=
  .next (effBackgroundMergeEnd coll s)

end Sys2Proof.Machine
end

