-- ==== Sys2Proof/Machine/Views.lean ====
section
/-! DEFINITION. What a register reads as (R5–R8, R36, R37, R505): registers that report state with a home of its own
are computed from it, block by block; every other register reads its stored value. -/

namespace Sys2Proof.Machine

/-- The mask of the indices below `n` that satisfy `p`. -/
def maskWhere (n : Nat) (p : Nat → Bool) : Nat := maskOf ((List.range n).filter p)

/-- The index `i` of `off` in `n` registers at `base`, `stride` apart. -/
def indexIn (off base stride n : Nat) : Option Nat :=
  if base ≤ off ∧ (off - base) % stride = 0 ∧ (off - base) / stride < n then some ((off - base) / stride) else none

def State.img (s : State) : Image := s.steps.image.getD default

/-- Out of service, or under an in-service test (R38, R579). -/
def State.away (s : State) (r : Nat) : Bool := !s.inService r || s.underTest r

/-! The common STATUS register (R38). -/

/-- The regions that a block serves. -/
def blockRegions (block : Nat) : List Nat :=
  if block = blockTime then [dieRegion 0]
  else if block = blockPorts then dieRegion 0 :: (List.range 4).map portRegion
  else if block = blockSignal then dieRegion 0 :: (List.range 8).map laneRegion
  else if block = blockMemory then dieRegion 3 :: (List.range 32).map (0x3000 + ·)
  else if block = blockFusion then [dieRegion 3, engineRegion 0, engineRegion 1]
  else if block = blockMap then [dieRegion 3, engineRegion 2]
  else if block = blockSolver then [dieRegion 3, engineRegion 3]
  else if block = blockSearch then [dieRegion 3, engineRegion 4]
  else if block < blockVision 0 then [arrayRegion ((block - blockArray 0) / 0x40000)]
  else (List.range 4).map (visionRegion ((block - blockVision 0) / 0x80000))

/-- Whether a cadence has an occurrence at the current step. -/
def State.occursNow (s : State) (k : Nat) : Bool :=
  match s.cadences[k]? with
  | some c => s.inRun && decide (c.phase ≤ s.stepNow) && (s.stepNow - c.phase) % max 1 c.multiple == 0
  | none => false

/-- The functions with compiled work on a block in the current step: on FUSION and TRACK those that a declared fusion stream lists,
and tracking (function 4) in a step of the tracking cadence (R248); elsewhere those that the image names (R38). -/
def State.blockFunctions (s : State) (block : Nat) : List Nat :=
  if block = blockFusion then
    s.streamDecls.flatMap (·.functions) ++ (if s.occursNow s.img.track.cadence then [4] else [])
  else (s.img.blockWork.filter (fun w => w.1 == block && s.occursNow w.2.2)).map (fun w => w.2.1)

/-- `LEVEL`: the deepest level among the functions with compiled work on a block in the current step. -/
def State.blockLevel (s : State) (block : Nat) : Nat :=
  ((s.blockFunctions block).map (fun f => (s.fusion.rungs.getD f default).level)).foldl max 0 % 4

/-- The blocks of R35 with a common STATUS register: first and last offset. -/
def statusBlocks : List (Nat × Nat) :=
  (blockTable.filter (fun b => b.2.2)).map (fun b => (b.1, b.2.1))

/-- A block's STATUS register. -/
def State.statusView (s : State) (b : Nat × Nat) : Nat :=
  b2n (s.power.ready && (blockRegions b.1).all (fun r => !s.away r)) + 2 * s.blockLevel b.1 +
    8 * b2n (s.pendingIn b.1 b.2) + s.fld ⟨b.1, 4, 2⟩ * 16 + s.fld ⟨b.1, 8, 8⟩ * 256

/-! GLOBAL, steps and HOST (R93, R524, R613). -/

/-- `UPDATE_STATUS.STATE`: activating, staged or none; staging is one command here. -/
def State.updateState (s : State) : Nat :=
  let activating (c : Instr) : Bool := match c with | .imageActivate _ _ | .runtimeActivate _ _ => true | _ => false
  if s.steps.switch.isSome || s.sec.waiting.any (fun w => activating w.cmd) then 3
  else if s.host.stagedSlot.isSome then 2
  else 0

def State.view32Global (s : State) (off : Nat) : Option Nat :=
  let cad (i : Nat) : CadenceDecl := s.cadences.getD i default
  if off = 0x00 then some (0x6240 + Config.siliconRev % 256 * 2 ^ 16)
  else if off = 0x04 then some (s.power.stage + 16 * s.power.slot.getD 0 + s.fld ⟨4, 8, 8⟩ * 256)
  else if off = 0x18 then some (s.img.id % 2 ^ 32)
  else if off = 0x1C then some ((s.host.stagedImage.map (·.id)).getD 0 % 2 ^ 32)
  else if off = 0x20 then some (s.updateState + 4 * b2n s.host.stagedRuntime.isSome + 8 * b2n (!s.power.standby))
  else if off = 0x2C then
    some (maskWhere statusBlocks.length (fun b => let x := statusBlocks.getD b (0, 0); s.pendingIn x.1 x.2))
  else if off = 0x10010 then some (s.baseUs % 2 ^ 20)
  else if off = 0x1002C then some s.trail.write
  else if off = 0x10030 then some s.trail.read
  else if off = 0x10034 then some (b2n s.trail.hold + 2 * b2n (s.trailFree * 8 < s.ringBytes))
  else if off = 0x20004 then some (leVal ((List.range 4).map (fun d => BitVec.ofNat 8 (Config.dieRev d))))
  else if off = 0x20008 then some (Config.packageRev % 2 ^ 16 + 0x18 * 2 ^ 16)
  else
    match indexIn off 0x10100 8 16, indexIn off 0x10104 8 16 with
    | some i, _ => some ((cad i).multiple % 2 ^ 16 + (cad i).phase % 2 ^ 16 * 2 ^ 16)
    | _, some i => some ((cad i).settleUs % 2 ^ 23)
    | _, _ => none

/-- Commands a ring has given the device that have not been completed. -/
def State.inflight (s : State) (r : Nat) : Nat :=
  let mine (h : CmdHdr) : Bool := h.ring.val == r
  let hdr (c : Instr) : Option CmdHdr := match c with
    | .trackRead h _ _ _ _ | .trackPredict h _ _ _ _ | .searchQuery h _ _ _ | .searchGet h _ _ _ _
    | .searchExport h _ _ _ | .mapRead h _ _ _ _ _ _ _ => some h
    | _ => none
  let reqs := (s.trackQueue ++ s.mapQueue).filterMap (fun q => if q.epoch = s.host.epoch then hdr q.cmd else none)
  let qs := s.search.queue.filterMap (fun q => if q.epoch = s.host.epoch then hdr q.cmd else none)
  let ws := s.sec.waiting.filterMap (fun w => if w.epoch = s.host.epoch then some w.frame.hdr else none)
  let ops := (s.search.colls.flatMap (·.hostOps)).filterMap (fun o => if o.epoch = s.host.epoch then some o.frame.hdr else none)
  let bist := (s.faults.bist.bind (·.command)).toList.filterMap (fun c => if c.2 = s.host.epoch then some c.1.hdr else none)
  let wd := s.tiers.withdraw.toList.filterMap (fun w => if w.epoch = s.host.epoch then some w.hdr else none)
  ((reqs ++ qs ++ ws ++ ops ++ bist ++ wd).filter mine).length + (s.host.unposted.filter (fun c => c.1.ring == r)).length

def State.view32Host (s : State) (off : Nat) : Option Nat :=
  if off = 0x100000 then
    some (s.host.gen % 8 + s.host.width % 8 * 8 + b2n s.host.flit * 64 + b2n s.host.attached * 128)
  else if off = 0x100018 then some (s.host.outSize % 2 ^ 32)
  else if off = 0x10002C then some (s.fld ⟨0x10002C, 0, 16⟩ + bufferUsed s.out.buffer / 2 ^ 20 % 2 ^ 16 * 2 ^ 16)
  else
    match indexIn off 0x101018 0x40 16, indexIn off 0x10101C 0x40 16 with
    | some r, _ =>
      let x := s.ring r
      some (b2n (s.ringEnabled r && !x.err) + 2 * b2n x.err + x.errCause * 256 + min (s.inflight r) 0xFFFF * 2 ^ 16)
    | _, some r => some ((s.ring r).sqHead + (s.ring r).cqTail * 2 ^ 16)
    | _, _ => none

/-! SECURITY (R552). -/

/-- SERVICE to PROVISION transitions still allowed (R541): each takes two words, and 4 remain free after it. -/
def State.reprovisionLeft (s : State) : Nat :=
  let free := s.lcFree - (if s.lc = lcFab then 2 else if s.lc = lcProvision then 1 else 0)
  if s.lc ≤ lcService ∧ 5 ≤ free then min 29 ((free - 5) / 2 + 1) else 0

def State.view32Security (s : State) (off : Nat) : Option Nat :=
  if off = 0x200000 then
    some (s.lc + 8 * b2n s.sec.deviceCert.isSome + 16 * b2n s.sec.site.root.isSome + 32 * b2n s.jtagOpen +
      64 * b2n s.sec.selfTestOk + 128 * b2n s.sec.entropyOk + s.fld ⟨off, 8, 2⟩ * 256 + s.fld ⟨off, 16, 8⟩ * 2 ^ 16)
  else if off = 0x200004 then some (Config.romRev % 2 ^ 16 + min 63 s.lcFree * 2 ^ 16 + s.reprovisionLeft * 2 ^ 22)
  else if off = 0x20000C then some (s.sec.minVersion % 2 ^ 32)
  else if off = 0x200020 then some (maskWhere 3 (fun r => s.sec.keys.any (fun k => k.role == r + 1)))
  else
    match indexIn off 0x200010 4 4 with
    | some i => some (leAt (fitBytes 16 Config.deviceSerial) (4 * i) 4)
    | none => none

/-! TIME (R424). -/

/-- Milliseconds since the last Announce of a domain, saturating. -/
def State.announceAge (s : State) (k : Nat) : Nat :=
  match s.time.announce k with
  | some a => min ((s.time.ticks - a) * 2 / 1000000) 0xFFFFFF
  | none => 0xFFFFFF

def State.view32Time (s : State) (off : Nat) : Option Nat :=
  if off = 0x300010 then
    some (s.time.selected + 2 * b2n (s.time.residual != 0) + 4 * b2n (s.domState s.time.selected == 3) +
      s.fld ⟨off, 16, 16⟩ * 2 ^ 16)
  else
    match indexIn off 0x300104 0x80 2, indexIn off 0x300138 0x80 2, indexIn off 0x30020C 0x20 4 with
    | some k, _, _ => some (s.domState k + s.lockedSeconds k * 2 ^ 16)
    | _, some k, _ => some (s.announceAge k)
    | _, _, some n => some (min 127 (s.time.txts.getD n []).length + s.fld ⟨off, 8, 1⟩ * 256)
    | none, none, none =>
      match indexIn off 0x300300 0x40 4, indexIn off 0x300418 0x40 4 with
      | some m, _ => some (s.reg off + b2n (s.time.tout.getD m default).prog.isSome * 256)
      | _, some m => some (min 31 (s.time.tin.getD m default).queue.length + s.fld ⟨off, 8, 1⟩ * 256)
      | none, none => none

/-! PORTS (R455). -/

def State.view32Ports (s : State) (off : Nat) : Option Nat :=
  let live := s.liveSessions
  if off = 0x400004 then
    let heavy := (live.filter (·.entry.heavy)).length + (s.ports.sv.filter (·.entry.heavy)).length
    some (min (live.length + s.ports.sv.length) 0x1FFF + min heavy 31 * 2 ^ 13)
  else if off = 0x400010 then some (s.fld ⟨off, 0, 16⟩ + s.poolFree none / 2 ^ 20 % 2 ^ 16 * 2 ^ 16)
  else if off = 0x400014 then some (min (tetherSums live (s.ports.sv.map (·.entry))).1 (2 ^ 25 - 1))
  else if off = 0x400018 then
    some (min (s.ports.recent.filter (fun t => decide (s.now < t + secUnits))).length (2 ^ 25 - 1))
  else
    match indexIn off 0x402000 0x100 2, indexIn off 0x40200C 0x100 2 with
    | some p, _ => some (b2n (s.lanOk (2 * p)) + 2 * b2n (s.lanOk (2 * p + 1)) + 4 * b2n (s.prpOn p))
    | _, some p => some (min (s.nodeCount p) 0xFFF)
    | none, none => none

/-! SIGNAL (R390). -/

def State.view32Signal (s : State) (off : Nat) : Option Nat :=
  if off = 0x500030 then
    some (maskWhere 8 (fun k => !s.away (laneRegion k)) + maskWhere 8 (fun k => s.isOut (laneRegion k)) * 256)
  else if off = 0x500064 then some (s.img.rsVersion % 2 ^ 16)
  else none

/-! MEMORY and the groundsheets (R164, R489). -/

/-- H_rate in units of 0.1 GB/s (R478), truncated. -/
def linkRate (gen width : Nat) : Nat :=
  let x8 := [0, 17, 34, 68, 140, 280, 560].getD gen 0
  if width = 3 then x8 else if width = 2 then x8 / 2 else if width = 0 then x8 / 8 else 0

/-- `GS_BANKMAP`: the groups that use their spare bank, and those whose second failure took them out of service (R144). -/
def State.bankMap (s : State) (g : Nat) : Nat :=
  let n := if g = 2 then 6 else 4
  maskWhere n (fun k => s.faults.spares.contains (0x2000 + g * 1024 + k)) +
    maskWhere n (fun k => s.faults.groupsOut.contains (0x2000 + g * 1024 + k)) * 64

def State.view32Memory (s : State) (off : Nat) : Option Nat :=
  if off = 0x600004 then some (min s.t3Free (2 ^ 20 - 1) + s.pcsIn.length * 2 ^ 20)
  else if off = 0x600018 then some (maskOf s.pcsIn)
  else if off = 0x60001C then
    some (s.tiers.windowState + s.host.gen % 8 * 4 + s.host.width % 8 * 32 + linkRate s.host.gen s.host.width * 2 ^ 16)
  else if off = 0x730000 then some (min s.sheets.open_.length 0xFFFF)
  else if off = 0x730004 then
    some (min (s.tiers.tiles.filter (fun t => match t.loc with | .t2 _ _ => true | _ => false)).length 0xFFFF)
  else
    match indexIn off 0x700004 0x10000 3, indexIn off 0x700018 0x10000 3 with
    | some g, _ => some (s.bankMap g)
    | _, some g =>
      some (s.sheets.lanterns.filter (fun l => l.phase == lit && lanternSheet l.index == g)).length
    | none, none => none

/-! ARRAY and VISION (R138, R210). -/

def State.view32Array (s : State) (a k : Nat) : Option Nat :=
  let failed := (s.arrays.getD a default).failedCols
  let half (i : Nat) : Nat := match failed[i]? with | some c => c % 1024 + 2 ^ 15 | none => 0
  if k = 4 then some (0x204 + min failed.length 4 * 2 ^ 10)
  else if k = 8 then some (half 0 + half 1 * 2 ^ 16)
  else if k = 0xC then some (half 2 + half 3 * 2 ^ 16)
  else if k = 0x2C then some (s.img.fnVersion % 2 ^ 16)
  else none

/-- The tethers bound to cluster `v` by the schedule in force: those of the image, and all of them where the schedule for the loss of
the other compute die runs (R166, R558). -/
def State.boundTo (s : State) (v : Nat) : List Nat :=
  let gone (c : Nat) : Bool := s.isOut (dieRegion (1 + c)) || (s.inRun && s.faults.schedule == 13 + c)
  if gone v then []
  else (s.img.bindings.filter (fun b => b.2 == v || gone (1 - v))).map (·.1)

def State.view32Vision (s : State) (v k : Nat) : Option Nat :=
  let bound := s.boundTo v
  let half (i : Nat) : Nat := match bound[i]? with | some b => b % 4096 + 2 ^ 15 | none => 0
  if k = 4 then
    some (maskWhere 4 (fun e => !s.away (visionRegion v e)) + min bound.length 31 * 16 + 2 ^ 16)
  else if k = 0xB0 then some (s.img.projVersion % 2 ^ 16)
  else
    match indexIn k 0x18 0x10 4, indexIn k 0x80 4 12 with
    | some e, _ => some ((s.vision.getD v default).done.getD e 0 % 2 ^ 32)
    | _, some i => some (half (2 * i) + half (2 * i + 1) * 2 ^ 16)
    | none, none => none

/-! FUSION, TRACK, MAP, SOLVER and SEARCH (R249, R271, R306, R328, R360). -/

def State.view32Fusion (s : State) (off : Nat) : Option Nat :=
  let count (p : StreamDecl × FStream → Bool) : Nat := min (s.streamPairs.filter p).length (2 ^ 14 - 1)
  if off = 0xA00004 then
    some (min s.streamDecls.length 0x3FFF + min s.img.checks.length 511 * 2 ^ 14 +
      min (s.streamDecls.filter (·.privileged)).length 7 * 2 ^ 23)
  else if off = 0xA00024 then
    some ((List.range 5).foldl (fun a f => a + (s.fusion.rungs.getD f default).level % 4 * 4 ^ f) 0 +
      maskWhere 5 (fun f => (s.fusion.rungs.getD f default).floor != 0) * 2 ^ 10)
  else if off = 0xA0002C then some (s.img.fusionTables % 2 ^ 16)
  else if off = 0xA00030 then some (min (s.fusion.align.filter (·.unaligned)).length (2 ^ 14 - 1))
  else if off = 0xA00034 then some (count (fun p => p.2.outlier || s.egoMasked p.1))
  else if off = 0xA00038 then some (min s.fusion.contestedRegions.length 511)
  else if off = 0xA0003C then some (count (fun p => p.2.stale))
  else if off = 0xA10000 then
    some (min (s.track.committed.filter (fun t => t.state != 0)).length 0x7FFF + min s.img.track.models.length 127 * 2 ^ 15 +
      min s.img.track.regions 511 * 2 ^ 22)
  else if off = 0xA1002C then some (min s.trackQueue.length 127 + s.fld ⟨off, 8, 7⟩ * 256)
  else none

def State.view32Map (s : State) (off : Nat) : Option Nat :=
  let m := s.committedMap
  if off = 0xB00004 then
    let base := !s.img.map.baseKfs.isEmpty || !s.img.map.baseLms.isEmpty || !s.img.map.baseFacs.isEmpty
    some ((s.sec.site.pegs.filter (fun p => bitAt p.flags 0)).length + b2n (m.keyframes.any (·.anchor)) * 2 ^ 17 +
      b2n base * 2 ^ 18)
  else if off = 0xB0001C then some m.keyframes.length
  else if off = 0xB00020 then some (m.landmarks.filter (fun l => decide (m.epoch < l.epochDel))).length
  else if off = 0xB00024 then some (m.factors.filter (fun f => decide (m.epoch < f.epochDel))).length
  else if off = 0xB00028 then some m.awningFill
  else if off = 0xB0002C then some m.freeScalars
  else if off = 0xB00034 then some (min s.mapQueue.length 127 + s.fld ⟨off, 8, 7⟩ * 256)
  else none

def State.view32Solver (s : State) (off : Nat) : Option Nat :=
  if off = 0xC00004 then some (s.img.solver.factorMib % 2 ^ 16 + s.img.solver.contribMib % 2 ^ 16 * 2 ^ 16)
  else if off = 0xC00010 then some s.solver.blocks.length
  else if off = 0xC00014 then some s.solver.scalars
  else none

def State.view32Search (s : State) (off : Nat) : Option Nat :=
  if off = 0xD00004 then some (min s.collDecls.length 127)
  else if off = 0xD00010 then some (min s.search.queue.length 511 + s.fld ⟨off, 16, 9⟩ * 2 ^ 16)
  else none

/-! FAULT and BIST (R579). -/

def State.view32Fault (s : State) (off : Nat) : Option Nat :=
  if off = 0xE00000 then
    some (b2n (!s.faults.windows.isEmpty) + maskWhere 4 (fun d => s.isOut (dieRegion d)) * 2 +
      32 * b2n (s.dieLossRuns || !s.faults.floorFns.isEmpty) + s.fld ⟨off, 8, 2⟩ * 256 + s.fld ⟨off, 16, 8⟩ * 2 ^ 16)
  else if off = 0xE00014 then
    some ((if s.inRun then s.faults.schedule % 16 else 0xF) + maskWhere 15 s.img.schedules.contains * 2 ^ 16)
  else if off = 0xE00018 then
    some (maskWhere 4 (fun n => s.away (arrayRegion n)) + maskWhere 8 (fun i => s.away (0x1000 + i)) * 2 ^ 4 +
      maskWhere 8 (fun k => s.away (laneRegion k)) * 2 ^ 12 + maskWhere 4 (fun n => s.away (portRegion n)) * 2 ^ 20 +
      maskWhere 2 (fun p => s.away (pairRegion p) || s.power.pairsUnusable.contains p) * 2 ^ 24 +
      b2n (s.away securityRegion) * 2 ^ 26 + maskWhere 5 (fun i => s.away (engineRegion i)) * 2 ^ 27)
  else if off = 0xE0001C then some (maskWhere 32 (fun p => s.away (0x3000 + p)))
  else if off = 0xE00020 then
    some (maskWhere 12 (fun i => s.faults.spares.contains (0x4000 + i)) +
      maskWhere 12 (fun i => s.faults.out.any (fun r => regionClass r == 4 && regionInst r / 16 == i)) * 2 ^ 12)
  else if off = 0xE00024 then
    some ((s.faults.bist.map (·.state)).getD 0 % 4 + 4 * b2n (s.faults.cycleSteps != 0) +
      (s.faults.bist.map (·.region)).getD 0 * 2 ^ 16)
  else none

/-! The register file as software reads it. -/

/-- A computed 32-bit register; `none` where the stored value is the register. -/
def State.view32 (s : State) (off : Nat) : Option Nat :=
  match statusBlocks.find? (fun b => b.1 == off) with
  | some b => some (s.statusView b)
  | none =>
    if off < 0x100000 then s.view32Global off
    else if off < 0x200000 then s.view32Host off
    else if off < 0x300000 then s.view32Security off
    else if off < 0x400000 then s.view32Time off
    else if off < 0x500000 then s.view32Ports off
    else if off < 0x600000 then s.view32Signal off
    else if off < 0x800000 then s.view32Memory off
    else if off < 0x900000 then s.view32Array ((off - 0x800000) / 0x40000) ((off - 0x800000) % 0x40000)
    else if off < 0xA00000 then s.view32Vision ((off - 0x900000) / 0x80000) ((off - 0x900000) % 0x80000)
    else if off < 0xB00000 then s.view32Fusion off
    else if off < 0xC00000 then s.view32Map off
    else if off < 0xD00000 then s.view32Solver off
    else if off < 0xE00000 then s.view32Search off
    else if off < 0xF00000 then s.view32Fault off
    else
      let die := (off - 0xF00000) / 0x10000
      let k := (off - 0xF00000) % 0x10000
      if 4 ≤ die then none
      else if s.pageLost die then some 0
      else if k < 0x100 then some (s.counterCfg die (k / 4))
      else none

/-- The whole value of a computed 64-bit pair, by its `_LO` offset. -/
def State.view64 (s : State) (off : Nat) : Option Nat :=
  if off = 0x24 then some ((s.steps.switch.map (·.2)).getD 0)
  else if off = 0x10000 then some s.stepNow
  else if off = 0x10008 then some ((s.steps.run.map (fun r => compact r.t0)).getD 0)
  else if off = 0x10018 then some s.trail.nextSeq
  else if off = 0x100010 then some (s.host.outBase % 2 ^ 64)
  else if off = 0x200048 then some s.sec.site.seq
  else if off = 0x300024 then some (ofSigned 64 (truncDiv s.time.residual (2 ^ 24)))
  else if off = 0x600020 then some (if s.windowUsable then s.grantBytes else 0)
  else if off = 0xB00014 then some s.map.epoch
  else if off = 0xC00018 then
    some ((s.solver.nodes.map (fun n => Config.nodeBytes ((n.blocks.map keyDim).foldl (· + ·) 0)
      ((n.rows.map keyDim).foldl (· + ·) 0))).foldl (· + ·) 0 % 2 ^ 64)
  else if off = 0xC00020 then some s.solver.contribBytes
  else
    match indexIn off 0x200028 8 3, indexIn off 0x300128 0x80 2, indexIn off 0xF00300 0x10000 4 with
    | some r, _, _ => some (s.counterOf (r + 1))
    | _, some k, _ => some (ofSigned 64 (s.offset16 k))
    | _, _, some d => some (if s.pageLost d then 0 else s.overflows d)
    | none, none, none => none

/-- The whole value of a pair. -/
def State.pairValue (s : State) (off : Nat) : Nat := (s.view64 off).getD (s.reg64 off)

/-- Registers that answer before the runtime is ready (R505). -/
def readableEarly (off : Nat) : Bool := off == 0 || off == 4 || off == 8

/-- The active window of a page (R37). -/
def inActiveWindow (off : Nat) : Bool := decide (0x8000 ≤ off % 0x10000)

/-- What a read of one register returns now (R6, R7, R8, R36, R37, R505). -/
def State.readReg (s : State) (off : Nat) : Nat :=
  if s.power.resetHeld || !(s.power.ready || readableEarly off) then 0
  else if inActiveWindow off then s.activeReg (off - 0x8000) &&& shadowMask (off - 0x8000)
  else
    match findReg off with
    | none => 0
    | some r =>
      let keep := 2 ^ 32 - 1 - fieldMask (fun f => f.access == .wo) r.fields
      match r.part with
      | .hi => ((lookupKey off s.latches).map BitVec.toNat).getD 0
      | .lo => s.pairValue off % 2 ^ 32 &&& keep
      | .single => (s.view32 off).getD (s.reg off) % 2 ^ 32 &&& keep

end Sys2Proof.Machine
end

