-- ==== Sys2Proof/Machine/Registers.lean ====
section
/-! DEFINITION. Register accesses without a row of their own: UNSUPPORTED_ACCESS (R5), REGISTER_WRITE (R7–R10, R36,
R37), LO_READ_LATCH (R6) and READ_CLEAR (R7). A register whose write is an event of its own goes to that event. -/

namespace Sys2Proof.Machine

/-- UNSUPPORTED_ACCESS (R5): an Unsupported Request completion; no register changes and nothing is latched. -/
def effUnsupportedAccess (_ : Nat) (_ : Bool) (s : State) : State := { s with host := { s.host with reply := .unsupported } }

/-! Writes. -/

/-- Writable fields of a row (R7): those of access RW. -/
def rwMask (r : RegRow) : Nat := fieldMask (fun f => f.access == .rw) r.fields
def w1cMask (r : RegRow) : Nat := fieldMask (fun f => f.access == .w1c) r.fields
def classBMask (r : RegRow) : Nat := fieldMask (fun f => f.cls == .bootStatic) r.fields

/-- Whether a half of a pair can be written, so that its `_LO` is held (R6). -/
def pairWritable (lo : Nat) : Bool :=
  let writable (off : Nat) : Bool :=
    (findReg off).any (fun r => r.fields.any (fun f => f.access == .rw || f.access == .w1c || f.access == .wo))
  writable lo || writable (lo + 4)

/-- A register after a write of `v`: RW fields set, W1C bits cleared, the rest unchanged (R7, R8). -/
def writtenWord (r : RegRow) (old v : Nat) : Nat :=
  let m := rwMask r
  ((old &&& (2 ^ 32 - 1 - m)) ||| (v &&& m)) &&& (2 ^ 32 - 1 - (v &&& w1cMask r))

/-- An access error: a write that would change a class B field (R9). -/
def State.accessError (s : State) (off : Nat) : State := (s.setReg 0xC (off % 2 ^ 24)).satReg 0x10 1

/-- Class S registers written since the last commit are noted (R10, R519). -/
def State.noteShadow (s : State) (off : Nat) : State :=
  if shadowMask off = 0 ∨ s.shadowed.contains off then s else { s with shadowed := s.shadowed ++ [off] }

/-- `GLINT_LEVEL` as it is held: bits [31:28] are copies of bit 27 (R390). -/
def glintLevelWord (v : Nat) : Nat := v % 2 ^ 28 + (if bitAt v 27 then 0xF0000000 else 0)

/-- A write by the rules of R7 to R10. -/
def State.writePlain (s : State) (r : RegRow) (off v : Nat) : State :=
  let v := if r.name = "GLINT_LEVEL" then glintLevelWord v else v
  (s.setReg off (writtenWord r (s.reg off) v)).noteShadow off

/-- The commit of an RW pair without an event of its own (R6). -/
def State.commitPair (s : State) (lo v : Nat) : State :=
  let low := s.loForCommit lo true
  let s := s.consumeLo lo
  let put (s : State) (off x : Nat) : State :=
    match findReg off with
    | some r => s.setReg off (writtenWord r (s.reg off) x)
    | none => s
  put (put s lo low) (lo + 4) v

/-- The ring of a ring register that a write leaves alone while the ring is enabled (R524). -/
def lockedRing (off : Nat) : Option Nat :=
  if 0x101000 ≤ off ∧ off < 0x101400 ∧ (off - 0x101000) % 0x40 ≤ 0x10 then some ((off - 0x101000) / 0x40) else none

/-- The domain of a pair whose writes only the servo owner makes (R397): `INC` and `DOM_ADJ`. -/
def servoPair (lo : Nat) : Option (Fin 2) :=
  if lo = domReg 0 0x18 ∨ lo = domReg 0 0x20 then some 0
  else if lo = domReg 1 0x18 ∨ lo = domReg 1 0x20 then some 1
  else none

/-- A write of a `_LO` register is held until its `_HI` is written (R6). -/
def State.holdLo (s : State) (off v : Nat) (w : Writer) : State :=
  if !pairWritable off then s
  else if (servoPair off).isSome && !s.ownsServo w then s.notOwner w
  else { s with heldLo := putKey off (BitVec.ofNat 32 v) s.heldLo }

/-- A write of a `_HI` register (R6). -/
def State.writeHi (s : State) (r : RegRow) (off : Nat) (v : Word) (w : Writer) : State :=
  let lo := off - 4
  if lo = 0x600060 then effTileQuery v s
  else
    match servoPair lo with
    | some k => if lo = domReg k.val 0x18 then effIncWrite k w v s else effDomAdjWrite k w v s
    | none =>
      match indexIn lo 0xF00300 0x10000 4, indexIn lo 0xF00308 0x10000 4 with
      | some d, _ =>
        let mask := s.loForCommit lo false + v.toNat * 2 ^ 32
        if s.pageLost d then s else (s.consumeLo lo).clearOverflows d mask
      | _, some d => effCntClear (Fin.ofNat 4 d) v s
      | none, none => if rwMask r = 0 then s else s.commitPair lo v.toNat

/-- A write of `TOUT_CTL_m` (R417, R418): a pin disabled is idle and unarmed; `ARM` arms it. -/
def State.writeTout (s : State) (r : RegRow) (m : Nat) (v : Nat) : State :=
  let s := s.writePlain r (toutReg m 0) v
  let s := if bitAt v 0 then s else s.setTout m (idleOut (s.time.tout.getD m default))
  if bitAt v 1 then effToutArm (Fin.ofNat 4 m) s else s

/-- A write of a single register. -/
def State.writeSingle (s : State) (r : RegRow) (off : Nat) (v : Word) (w : Writer) : State :=
  if off = 0x10030 then effTrailReadWrite v s
  else if off = 0x100020 then effOutReadWrite v s
  else if off = 0x600074 then effArchiveReadWrite v s
  else if off = 0x300010 then (if bitAt v.toNat 8 then effDevSelSwitch s else s)
  else if off = domReg 0 4 then effDomStateWrite 0 w (Fin.ofNat 4 v.toNat) s
  else if off = domReg 1 4 then effDomStateWrite 1 w (Fin.ofNat 4 v.toNat) s
  else
    match indexIn off 0x300300 0x40 4, indexIn off 0x101014 0x40 16 with
    | some m, _ => s.writeTout r m v.toNat
    | _, some n =>
      let k : Fin 16 := Fin.ofNat 16 n
      let s := if bitAt v.toNat 1 then effRingReset k s else s
      effRingEnable k (bitAt v.toNat 0) s
    | none, none =>
      if 0xF00000 ≤ off ∧ (off - 0xF00000) % 0x10000 < 0x100 then
        effCntCfgWrite (Fin.ofNat 4 ((off - 0xF00000) / 0x10000)) (Fin.ofNat 64 ((off - 0xF00000) % 0x10000 / 4)) v s
      else s.writePlain r off v.toNat

/-- REGISTER_WRITE (R7): a write that software or the runtime makes to one register of BAR0. -/
def effRegisterWrite (off : Nat) (v : Word) (w : Writer) (s : State) : State :=
  if !s.up then s
  else if off % 4 ≠ 0 then effUnsupportedAccess off true s
  else if inActiveWindow off then s
  else
    match findReg off with
    | none => s
    | some r =>
      let b := classBMask r
      let s := if (v.toNat &&& b) = (s.reg off &&& b) then s else s.accessError off
      if (lockedRing off).any (fun n => s.ringEnabled n) then s
      else
        match r.part with
        | .lo => s.holdLo off v.toNat w
        | .hi => s.writeHi r off v w
        | .single => s.writeSingle r off v w

/-! Reads. -/

/-- LO_READ_LATCH (R6): a read of a `_LO` register returns the low half and latches the upper one. -/
def effLoReadLatch (off : Nat) (s : State) : State :=
  if off % 4 ≠ 0 then effUnsupportedAccess off false s
  else
    match findReg off with
    | some r =>
      if s.power.ready && !s.power.resetHeld && !inActiveWindow off && r.part == .lo then
        if 0xF00000 ≤ off ∧ 0x100 ≤ (off - 0xF00000) % 0x10000 ∧ (off - 0xF00000) % 0x10000 < 0x300 then
          effCntLatch (Fin.ofNat 4 ((off - 0xF00000) / 0x10000)) (Fin.ofNat 64 (((off - 0xF00000) % 0x10000 - 0x100) / 8)) s
        else
          let hi := s.pairValue off / 2 ^ 32
          let keep := match findReg (off + 4) with
            | some h => 2 ^ 32 - 1 - fieldMask (fun f => f.access == .wo) h.fields
            | none => 0
          ({ s with latches := putKey (off + 4) (BitVec.ofNat 32 (hi &&& keep)) s.latches }).replyWith (s.readReg off)
      else s.replyWith (s.readReg off)
    | none => s.replyWith (s.readReg off)

/-- READ_CLEAR (R7): a read of a register with RC fields returns it and clears them to their reset value. -/
def effReadClear (off : Nat) (s : State) : State :=
  if off % 4 ≠ 0 then effUnsupportedAccess off false s
  else
    match findReg off with
    | some r =>
      let m := fieldMask (fun f => f.access == .rc) r.fields
      if !s.power.ready || s.power.resetHeld || inActiveWindow off || m == 0 then s.replyWith (s.readReg off)
      else
        match indexIn off 0x300408 0x40 4 with
        | some n => effTinStampPop (Fin.ofNat 4 n) s
        | none => (s.setReg off ((s.reg off &&& (2 ^ 32 - 1 - m)) ||| (fieldsReset r.fields &&& m))).replyWith (s.readReg off)
    | none => s.replyWith (s.readReg off)

def execUnsupportedAccess (off : Nat) (write : Bool) (s : State) : Host.Outcome State Fault Refusal :=
  .next (effUnsupportedAccess off write s)

def execRegisterWrite (off : Nat) (v : Word) (w : Writer) (s : State) : Host.Outcome State Fault Refusal :=
  .next (effRegisterWrite off v w s)

def execLoReadLatch (off : Nat) (s : State) : Host.Outcome State Fault Refusal := .next (effLoReadLatch off s)

def execReadClear (off : Nat) (s : State) : Host.Outcome State Fault Refusal := .next (effReadClear off s)

end Sys2Proof.Machine
end

