-- ==== Sys2Proof/Machine/Dispatch.lean ====
section
/-! DEFINITION. The dispatcher: every command of the opcode table to its meaning. -/

namespace Sys2Proof.Machine

def exec (i : Instr) (s : State) : Host.Outcome State Fault Refusal :=
  match i with
  | .resetNAssert => Sys2Proof.Machine.execResetNAssert s
  | .resetNRelease b => Sys2Proof.Machine.execResetNRelease b s
  | .runtimeReady => Sys2Proof.Machine.execRuntimeReady s
  | .perstN => Sys2Proof.Machine.execPerstN s
  | .hostInterfaceReset c => Sys2Proof.Machine.execHostInterfaceReset c s
  | .pcieLinkReturn gen width => Sys2Proof.Machine.execPcieLinkReturn gen width s
  | .timeInEdge m quarter rising => Sys2Proof.Machine.execTimeInEdge m quarter rising s
  | .pllCheckWindow devs => Sys2Proof.Machine.execPllCheckWindow devs s
  | .clockTick n => Sys2Proof.Machine.execClockTick n s
  | .incWrite k w hi => Sys2Proof.Machine.execIncWrite k w hi s
  | .domAdjWrite k w hi => Sys2Proof.Machine.execDomAdjWrite k w hi s
  | .domStateWrite k w state => Sys2Proof.Machine.execDomStateWrite k w state s
  | .devSelSwitch => Sys2Proof.Machine.execDevSelSwitch s
  | .announceReceiptTimeout k lanB => Sys2Proof.Machine.execAnnounceReceiptTimeout k lanB s
  | .autoReturn => Sys2Proof.Machine.execAutoReturn s
  | .ptpMessageReceive port domain quarter m => Sys2Proof.Machine.execPtpMessageReceive port domain quarter m s
  | .transmitStamp port id clock quarter => Sys2Proof.Machine.execTransmitStamp port id clock quarter s
  | .toutArm m => Sys2Proof.Machine.execToutArm m s
  | .toutPulse m => Sys2Proof.Machine.execToutPulse m s
  | .toutPulseEnd m => Sys2Proof.Machine.execToutPulseEnd m s
  | .tinStampPop m => Sys2Proof.Machine.execTinStampPop m s
  | .devTimeSample => Sys2Proof.Machine.execDevTimeSample s
  | .domTimeSample k => Sys2Proof.Machine.execDomTimeSample k s
  | .delayReqTransmit k => Sys2Proof.Machine.execDelayReqTransmit k s
  | .runStart => Sys2Proof.Machine.execRunStart s
  | .stepEdge q => Sys2Proof.Machine.execStepEdge q s
  | .admissionClose k => Sys2Proof.Machine.execAdmissionClose k s
  | .occurrenceCommit k outs ops => Sys2Proof.Machine.execOccurrenceCommit k outs ops s
  | .stallAbort k => Sys2Proof.Machine.execStallAbort k s
  | .trailReadWrite v => Sys2Proof.Machine.execTrailReadWrite v s
  | .archiveReadWrite v => Sys2Proof.Machine.execArchiveReadWrite v s
  | .outReadWrite v => Sys2Proof.Machine.execOutReadWrite v s
  | .loadW a d => Sys2Proof.Machine.execLoadW a d s
  | .stream a d => Sys2Proof.Machine.execStream a d s
  | .drain a d => Sys2Proof.Machine.execDrain a d s
  | .join a d => Sys2Proof.Machine.execJoin a d s
  | .vec a d => Sys2Proof.Machine.execVec a d s
  | .reduce a d => Sys2Proof.Machine.execReduce a d s
  | .gen a d => Sys2Proof.Machine.execGen a d s
  | .wait a d => Sys2Proof.Machine.execWait a d s
  | .raise a d => Sys2Proof.Machine.execRaise a d s
  | .stage a d => Sys2Proof.Machine.execStage a d s
  | .arrayEnd a d => Sys2Proof.Machine.execArrayEnd a d s
  | .descriptorComplete unit lantern release => Sys2Proof.Machine.execDescriptorComplete unit lantern release s
  | .lanternGrant unit lantern => Sys2Proof.Machine.execLanternGrant unit lantern s
  | .lanternWatchdog unit lantern => Sys2Proof.Machine.execLanternWatchdog unit lantern s
  | .lendableWindowOpen i_ => Sys2Proof.Machine.execLendableWindowOpen i_ s
  | .lendableWindowClose i_ => Sys2Proof.Machine.execLendableWindowClose i_ s
  | .tileMoveComplete tile to_ stall => Sys2Proof.Machine.execTileMoveComplete tile to_ stall s
  | .t4FetchComplete tile data sidecar stall => Sys2Proof.Machine.execT4FetchComplete tile data sidecar stall s
  | .windowGrant h ranges => Sys2Proof.Machine.execWindowGrant h ranges s
  | .windowWithdraw h slots => Sys2Proof.Machine.execWindowWithdraw h slots s
  | .windowWithdrawComplete => Sys2Proof.Machine.execWindowWithdrawComplete s
  | .objAlloc h tiles => Sys2Proof.Machine.execObjAlloc h tiles s
  | .objFree h id => Sys2Proof.Machine.execObjFree h id s
  | .hostAttach h addr size => Sys2Proof.Machine.execHostAttach h addr size s
  | .hostDetach h => Sys2Proof.Machine.execHostDetach h s
  | .bar2Read x n => Sys2Proof.Machine.execBar2Read x n s
  | .bar2Write x data => Sys2Proof.Machine.execBar2Write x data s
  | .sqDoorbell r v unknown => Sys2Proof.Machine.execSqDoorbell r v unknown s
  | .cqDoorbell r v => Sys2Proof.Machine.execCqDoorbell r v s
  | .ringEnable r en => Sys2Proof.Machine.execRingEnable r en s
  | .ringReset r => Sys2Proof.Machine.execRingReset r s
  | .unsupportedAccess off write => Sys2Proof.Machine.execUnsupportedAccess off write s
  | .registerWrite off v w => Sys2Proof.Machine.execRegisterWrite off v w s
  | .loReadLatch off => Sys2Proof.Machine.execLoReadLatch off s
  | .readClear off => Sys2Proof.Machine.execReadClear off s
  | .tileQuery hi => Sys2Proof.Machine.execTileQuery hi s
  | .tenantViewSample => Sys2Proof.Machine.execTenantViewSample s
  | .gsTagSample g => Sys2Proof.Machine.execGsTagSample g s
  | .softRowRepairComplete row => Sys2Proof.Machine.execSoftRowRepairComplete row s
  | .errorDetect e => Sys2Proof.Machine.execErrorDetect e s
  | .errorHandle => Sys2Proof.Machine.execErrorHandle s
  | .lockstepMismatch pair => Sys2Proof.Machine.execLockstepMismatch pair s
  | .dieHeartbeatLoss die => Sys2Proof.Machine.execDieHeartbeatLoss die s
  | .securityRetestComplete pass => Sys2Proof.Machine.execSecurityRetestComplete pass s
  | .bistComplete v => Sys2Proof.Machine.execBistComplete v s
  | .bistCycleInterval => Sys2Proof.Machine.execBistCycleInterval s
  | .entropyHealthFail => Sys2Proof.Machine.execEntropyHealthFail s
  | .jtagInstruction j => Sys2Proof.Machine.execJtagInstruction j s
  | .keyAgree f chain bulk qh nh reply => Sys2Proof.Machine.execKeyAgree f chain bulk qh nh reply s
  | .keyRetire f => Sys2Proof.Machine.execKeyRetire f s
  | .attest f nonce reply => Sys2Proof.Machine.execAttest f nonce reply s
  | .certRead f reply => Sys2Proof.Machine.execCertRead f reply s
  | .deviceCertInstall f bulk chain => Sys2Proof.Machine.execDeviceCertInstall f bulk chain s
  | .lcProvision f => Sys2Proof.Machine.execLcProvision f s
  | .lcService f => Sys2Proof.Machine.execLcService f s
  | .lcReturn f => Sys2Proof.Machine.execLcReturn f s
  | .lcEnd f => Sys2Proof.Machine.execLcEnd f s
  | .siteInstall f bulk root siteCert revoked rootSig flashOk => Sys2Proof.Machine.execSiteInstall f bulk root siteCert revoked rootSig flashOk s
  | .configKeySet f key flashOk => Sys2Proof.Machine.execConfigKeySet f key flashOk s
  | .imageKeysSet f keys flashOk => Sys2Proof.Machine.execImageKeysSet f keys flashOk s
  | .calibrationSet f bulk entries flashOk => Sys2Proof.Machine.execCalibrationSet f bulk entries flashOk s
  | .rosterSet f bulk entries flashOk => Sys2Proof.Machine.execRosterSet f bulk entries flashOk s
  | .pegSet f bulk pegs flashOk => Sys2Proof.Machine.execPegSet f bulk pegs flashOk s
  | .datumSet f d flashOk => Sys2Proof.Machine.execDatumSet f d flashOk s
  | .securityVersionRaise f v => Sys2Proof.Machine.execSecurityVersionRaise f v s
  | .pipelineStart f pipeline => Sys2Proof.Machine.execPipelineStart f pipeline s
  | .pipelineStop f pipeline => Sys2Proof.Machine.execPipelineStop f pipeline s
  | .bistRun f region force => Sys2Proof.Machine.execBistRun f region force s
  | .bistAbort f => Sys2Proof.Machine.execBistAbort f s
  | .bistCycle f interval mask => Sys2Proof.Machine.execBistCycle f interval mask s
  | .bistFull f => Sys2Proof.Machine.execBistFull f s
  | .repairLogRead f reply => Sys2Proof.Machine.execRepairLogRead f reply s
  | .repairLogClear f => Sys2Proof.Machine.execRepairLogClear f s
  | .imageStage f bulks images config seeds flashOk => Sys2Proof.Machine.execImageStage f bulks images config seeds flashOk s
  | .imageActivate f n => Sys2Proof.Machine.execImageActivate f n s
  | .runtimeStage f bulk rt flashOk => Sys2Proof.Machine.execRuntimeStage f bulk rt flashOk s
  | .runtimeActivate f n => Sys2Proof.Machine.execRuntimeActivate f n s
  | .standbyReloadComplete => Sys2Proof.Machine.execStandbyReloadComplete s
  | .portLinkChange port up fecLock localFault remoteFault fecCorr fecUncorr => Sys2Proof.Machine.execPortLinkChange port up fecLock localFault remoteFault fecCorr fecUncorr s
  | .frameIngress port quarter f => Sys2Proof.Machine.execFrameIngress port quarter f s
  | .frameOther => Sys2Proof.Machine.execFrameOther s
  | .prpSupervision => Sys2Proof.Machine.execPrpSupervision s
  | .prpNodeAgeing pair mac => Sys2Proof.Machine.execPrpNodeAgeing pair mac s
  | .declare => Sys2Proof.Machine.execDeclare s
  | .data => Sys2Proof.Machine.execData s
  | .ack slot => Sys2Proof.Machine.execAck slot s
  | .statusReq => Sys2Proof.Machine.execStatusReq s
  | .status slot => Sys2Proof.Machine.execStatus slot s
  | .timeReq slot quarter => Sys2Proof.Machine.execTimeReq slot quarter s
  | .timeResp => Sys2Proof.Machine.execTimeResp s
  | .close => Sys2Proof.Machine.execClose s
  | .livenessTimeout slot => Sys2Proof.Machine.execLivenessTimeout slot s
  | .sessionCloseComplete slot => Sys2Proof.Machine.execSessionCloseComplete slot s
  | .delayQueueRelease slot => Sys2Proof.Machine.execDelayQueueRelease slot s
  | .sampledValueFrame => Sys2Proof.Machine.execSampledValueFrame s
  | .slotViewSample => Sys2Proof.Machine.execSlotViewSample s
  | .gridFusion maps => Sys2Proof.Machine.execGridFusion maps s
  | .consistencyGate g => Sys2Proof.Machine.execConsistencyGate g s
  | .ladderUpdate => Sys2Proof.Machine.execLadderUpdate s
  | .egoEstimate j ms scan motion poses => Sys2Proof.Machine.execEgoEstimate j ms scan motion poses s
  | .flowPredictionField k dst f => Sys2Proof.Machine.execFlowPredictionField k dst f s
  | .streamStatSample => Sys2Proof.Machine.execStreamStatSample s
  | .flow v d => Sys2Proof.Machine.execFlow v d s
  | .stereo v d => Sys2Proof.Machine.execStereo v d s
  | .feature v d => Sys2Proof.Machine.execFeature v d s
  | .matchFeatures v d => Sys2Proof.Machine.execMatchFeatures v d s
  | .projRay v d => Sys2Proof.Machine.execProjRay v d s
  | .projPlane v d => Sys2Proof.Machine.execProjPlane v d s
  | .projPtsImage v d => Sys2Proof.Machine.execProjPtsImage v d s
  | .projPtsGrid v d => Sys2Proof.Machine.execProjPtsGrid v d s
  | .visionWait v e d => Sys2Proof.Machine.execVisionWait v e d s
  | .visionRaise v e d => Sys2Proof.Machine.execVisionRaise v e d s
  | .visionEnd v e d => Sys2Proof.Machine.execVisionEnd v e d s
  | .trackEngineStep lists => Sys2Proof.Machine.execTrackEngineStep lists s
  | .trackRead h region id reply idle => Sys2Proof.Machine.execTrackRead h region id reply idle s
  | .trackPredict h id time reply idle => Sys2Proof.Machine.execTrackPredict h id time reply idle s
  | .trackViewSample => Sys2Proof.Machine.execTrackViewSample s
  | .searchBatch k req unit raise out => Sys2Proof.Machine.execSearchBatch k req unit raise out s
  | .searchQuery h req idle ns => Sys2Proof.Machine.execSearchQuery h req idle ns s
  | .hostQueryDeadline => Sys2Proof.Machine.execHostQueryDeadline s
  | .searchGet h coll id reply idle => Sys2Proof.Machine.execSearchGet h coll id reply idle s
  | .searchExport h coll reply idle => Sys2Proof.Machine.execSearchExport h coll reply idle s
  | .searchInsert f coll dim bulk items reply => Sys2Proof.Machine.execSearchInsert f coll dim bulk items reply s
  | .searchDelete f coll bulk ids reply => Sys2Proof.Machine.execSearchDelete f coll bulk ids reply s
  | .searchLoad f coll bulk => Sys2Proof.Machine.execSearchLoad f coll bulk s
  | .backgroundMergeEnd coll => Sys2Proof.Machine.execBackgroundMergeEnd coll s
  | .collViewSample => Sys2Proof.Machine.execCollViewSample s
  | .solverSubmission count epoch reorder addr => Sys2Proof.Machine.execSolverSubmission count epoch reorder addr s
  | .insertionList l => Sys2Proof.Machine.execInsertionList l s
  | .merge => Sys2Proof.Machine.execMerge s
  | .mapRead h kind epoch first page args reply idle => Sys2Proof.Machine.execMapRead h kind epoch first page args reply idle s
  | .chanViewSample => Sys2Proof.Machine.execChanViewSample s
  | .cntLatch d k => Sys2Proof.Machine.execCntLatch d k s
  | .cntCfgWrite d k v => Sys2Proof.Machine.execCntCfgWrite d k v s
  | .cntClear d hi => Sys2Proof.Machine.execCntClear d hi s

end Sys2Proof.Machine
end

