-- ==== Sys2Proof/Safety.lean ====
section
/-! DEFINITION. What claims are stated in: commands that reset or start the device, a device that takes no work, host
commands that a ring offers and the security block accepts, the canonical form of a state's sparse maps, the chain of the
trail, and descriptors that a sequencer issues. -/

namespace Sys2Proof.Machine

/-- Commands that change whether the device is up: the reset pins' and the runtime's start (R505, R510). -/
def powerEvent : Instr → Bool
  | .resetNAssert | .resetNRelease _ | .runtimeReady => true
  | _ => false

/-- Events from outside that act on a device whether or not it takes work: resets of the host interface (R493) and errors
that hardware detects (R555, R570, R575, R554, R529, R527). -/
def hardwareEvent : Instr → Bool
  | .perstN | .hostInterfaceReset _ | .errorDetect _ | .lockstepMismatch _ | .dieHeartbeatLoss _
  | .securityRetestComplete _ | .pllCheckWindow _ | .entropyHealthFail => true
  | _ => false

/-- The sparse maps of a state are canonical: memory, registers and active values. -/
def State.canonical (s : State) : Bool :=
  Memory.wf s.mem && sparseWf regReset s.regs && sparseWf regReset s.active

/-- An entry that its ring can give the device, with flags in order and a body that can be read (R499, R501). -/
def State.entryOk (s : State) (h : CmdHdr) : Bool :=
  s.ringReady h.ring.val && h.flags.toNat / 8 == 0 && (!h.flags.getLsbD 1 || h.bodyReadable)

/-- A non-critical host command that the device takes (R502). -/
def State.offers (s : State) (h : CmdHdr) : Bool := s.entryOk h && !h.flags.getLsbD 0

/-- A critical command that the device takes (R502) and whose frame, check, counter, right and life-cycle state pass
(R537). -/
def State.accepts (s : State) (f : CritFrame) (op : Nat) : Bool :=
  s.entryOk f.hdr && f.hdr.flags.getLsbD 0 && frameOk f op && !s.sec.quarantined && s.checkOk f &&
    decide (s.counterOf f.role.toNat < f.counter.toNat) && hasRight op f.role.toNat && stateAllows op f.role.toNat s.lc

/-- A byte of memory. -/
def State.byte (s : State) (a : Nat) : Byte := Memory.get s.mem a

/-- Whether a register of BAR0 is a single register whose write has no event of its own (R7): what is written follows the
access types alone. -/
def plainRegister (off : Nat) : Bool :=
  match findReg off with
  | some r =>
    r.part == .single && r.name != "GLINT_LEVEL" && !inActiveWindow off && off % 4 == 0 &&
      !([0x10030, 0x100020, 0x600074, 0x300010, domReg 0 4, domReg 1 4].contains off) &&
      (indexIn off 0x300300 0x40 4).isNone && (indexIn off 0x101014 0x40 16).isNone &&
      !(decide (0xF00000 ≤ off) && decide ((off - 0xF00000) % 0x10000 < 0x100))
  | none => false

/-- The columns of the register table at an offset. -/
def fieldsAt (off : Nat) : List RegField := ((findReg off).map (·.fields)).getD []

/-- Whether bit `i` of the register at an offset belongs to a field with a property. -/
def bitHas (off : Nat) (p : RegField → Bool) (i : Nat) : Bool :=
  (fieldsAt off).any (fun f => p f && decide (f.lo ≤ i ∧ i < f.lo + f.width))

/-- The links of a trail, newest record first (R81, R87): digests, ascending sequence numbers, and SEALs at theirs. -/
def trailLinked : List TrailRec → Prop
  | x :: rest =>
    (x.seq % 1024 = 1023 → x.draft.kind = kSeal) ∧
      ((x.seq = 0 ∧ x.prev = List.replicate 48 0) ∨
        ∃ y ys, rest = y :: ys ∧ x.seq = y.seq + 1 ∧ x.prev = sha384 (recBytes y.seq y.prev y.draft)) ∧
      trailLinked rest
  | [] => True

/-- The trail is chained, and the next record continues it. -/
def State.trailChained (s : State) : Prop :=
  trailLinked s.trail.records ∧
    ((s.trail.nextSeq = 0 ∧ s.trail.digest = List.replicate 48 0) ∨
      ∃ x xs, s.trail.records = x :: xs ∧ s.trail.nextSeq = x.seq + 1 ∧
        s.trail.digest = sha384 (recBytes x.seq x.prev x.draft))

/-- The edge of step `n` has nothing to take up: no image switch, no end of the run, no command that is due, no self-test, no
unit that returns and no commit that waits (R53, R521, R539, R571). -/
def State.edgeIsPlain (s : State) (n : Nat) : Bool :=
  s.steps.switch.isNone && !s.steps.endRun && s.sec.waiting.all (fun w => decide (n < w.due)) && s.faults.bist.isNone &&
    s.faults.returning == [] && s.search.waitCommits == []

/-- The array and the descriptor of a command of an array's list (R131). -/
def arrayJobOf : Instr → Option (Fin 4 × ArrayJob)
  | .loadW a d => some (a, ⟨opLoadW, d, []⟩)
  | .stream a d => some (a, ⟨opStream, d, []⟩)
  | .drain a d => some (a, ⟨opDrain, d, []⟩)
  | .join a d => some (a, ⟨opJoin, d, []⟩)
  | .vec a d => some (a, ⟨opVec, d, []⟩)
  | .reduce a d => some (a, ⟨opReduce, d, []⟩)
  | .gen a d => some (a, ⟨opGen, d, []⟩)
  | .wait a d => some (a, ⟨opWait, d, []⟩)
  | .raise a d => some (a, ⟨opRaise, d, []⟩)
  | .stage a d => some (a, ⟨opStage, d.desc, d.gather⟩)
  | .arrayEnd a d => some (a, ⟨opEnd, d, []⟩)
  | _ => none

/-- A descriptor whose turn has come at an array in service (R99): its occurrence runs and no earlier descriptor waits. -/
def State.arrayTurn (s : State) (a : Fin 4) (j : ArrayJob) : Bool :=
  s.mayIssue j.desc.ctx.cadence && s.inService (arrayRegion a) && (s.array a).queue == []

/-- The lantern a descriptor awaits, if any, is granted (R151). -/
def State.waitOver (s : State) (unit wait : BitVec 16) : Bool :=
  wait.toNat == noLantern || s.waitGranted unit.toNat wait.toNat

/-- A descriptor that an array can issue (R133, R134, R153, R162, R481): it is well formed, its memory keeps it waiting for nothing,
its lantern wait, if it names one, is granted, and its accesses keep R153. -/
def State.arrayFit (s : State) (a : Fin 4) (j : ArrayJob) : Bool :=
  s.arrayOk a j.op j.desc && !s.memoryWaits (arrayRegion a) (arrayReads j ++ arrayWrites j) &&
    s.waitOver j.desc.unit j.desc.wait &&
    (s.orderBroken j.desc.unit.toNat [j.desc.wait.toNat] (arrayReads j) (arrayWrites j)).isNone

/-- A descriptor that its array issues now. -/
def State.arrayReady (s : State) (a : Fin 4) (j : ArrayJob) : Bool := s.arrayTurn a j && s.arrayFit a j

/-- No vision engine has a descriptor or an output that waits. -/
def State.visionIdle (s : State) : Bool := s.vision.all (fun u => u.queue == [] && u.jobs == [])

/-- No descriptor, no output, no owner of lent memory and no access to a tier waits. -/
def State.nothingWaits (s : State) : Bool :=
  s.arrays.all (fun u => u.queue == []) && s.visionIdle && s.sheets.lent.all (fun x => x.since.isNone) &&
    s.tiers.tierWaits == []

/-- A unit has no work that a granted wait would let go on. -/
def State.unitIdle (s : State) (u : Nat) : Bool :=
  (s.fusion.due == [] || u != s.fusionUnit) && s.arrays.all (fun x => x.queue.head?.all (fun j => j.desc.unit.toNat != u)) &&
    s.vision.all (fun x => (List.range 4).all (fun e => x.waitingUnit e != some u))

/-- The lanterns after a descriptor that stores nothing has been issued and has completed (R150, R151). -/
def State.afterWaitAndRaise (s : State) (d : ArrayDesc) : State :=
  (s.await d.ctx.cadence d.unit.toNat d.wait.toNat).1.completeDesc d.ctx.cadence d.unit.toNat d.wait.toNat d.raise.toNat

/-- Two states agree but for registers, answers, counters, lanterns and checkpoints. -/
def State.sameButLanterns (t s : State) : Prop :=
  { t with
    regs := s.regs, answers := s.answers, counters := s.counters, sheets := s.sheets, checkpoints := s.checkpoints } = s

/-- The frame and opcode of a critical command (R535, R540), but for KEY_AGREE, whose check is a signature. -/
def critOf : Instr → Option (CritFrame × Nat)
  | .keyRetire f => some (f, 0x0101)
  | .attest f _ _ => some (f, 0x0102)
  | .certRead f _ => some (f, 0x0103)
  | .deviceCertInstall f _ _ => some (f, 0x0104)
  | .lcProvision f => some (f, 0x0110)
  | .lcService f => some (f, 0x0111)
  | .lcReturn f => some (f, 0x0112)
  | .lcEnd f => some (f, 0x0113)
  | .siteInstall f .. => some (f, 0x0120)
  | .configKeySet f .. => some (f, 0x0121)
  | .imageKeysSet f .. => some (f, 0x0122)
  | .calibrationSet f .. => some (f, 0x0123)
  | .rosterSet f .. => some (f, 0x0124)
  | .pegSet f .. => some (f, 0x0125)
  | .datumSet f .. => some (f, 0x0126)
  | .securityVersionRaise f _ => some (f, 0x0127)
  | .pipelineStart f _ => some (f, 0x0140)
  | .pipelineStop f _ => some (f, 0x0141)
  | .bistRun f .. => some (f, 0x0180)
  | .bistAbort f => some (f, 0x0181)
  | .bistCycle f .. => some (f, 0x0182)
  | .bistFull f => some (f, 0x01A0)
  | .repairLogRead f _ => some (f, 0x01A1)
  | .repairLogClear f => some (f, 0x01A2)
  | .imageStage f .. => some (f, 0x0200)
  | .imageActivate f _ => some (f, 0x0201)
  | .runtimeStage f .. => some (f, 0x0202)
  | .runtimeActivate f _ => some (f, 0x0203)
  | .searchInsert f .. => some (f, 0x0043)
  | .searchDelete f .. => some (f, 0x0044)
  | .searchLoad f .. => some (f, 0x0045)
  | _ => none

/-- State `t` shows, in the STATUS register of a block, the answer that a command gave in state `s` (R38, R39). -/
def State.reports (t s : State) (block outcome cause : Nat) : Prop :=
  (t.fld ⟨block, 4, 2⟩, t.fld ⟨block, 8, 8⟩) = s.keptAnswer block 4 8 outcome cause

/-- The same of a block that reports at [9:8] and [23:16] (R552, R579). -/
def State.reportsHi (t s : State) (block outcome cause : Nat) : Prop :=
  (t.fld ⟨block, 8, 2⟩, t.fld ⟨block, 16, 8⟩) = s.keptAnswer block 8 16 outcome cause

/-- The same of the block that reports a critical command of opcode `op` (R552, R579). -/
def State.critReports (t s : State) (op outcome cause : Nat) : Prop :=
  if 0x0180 ≤ op ∧ op ≤ 0x01BF then t.reportsHi s blockFault outcome cause
  else if 0x0043 ≤ op ∧ op ≤ 0x0045 then t.reports s blockSearch outcome cause
  else t.reportsHi s blockSecurity outcome cause

/-- The security block's state once a role's command counter has advanced (R537). -/
def State.secAfter (s : State) (f : CritFrame) : Security :=
  { s.sec with counters := s.sec.counters.set (f.role.toNat - 1) f.counter.toNat }

/-- The checks of a "step edge" command's own, at acceptance (R531, R540, R546, R275, R341, R343, R332). -/
def State.edgeReady (s : State) : Instr → Bool
  | .lcProvision _ => s.lc == lcService && decide (5 ≤ s.lcFree)
  | .lcReturn _ => s.lc == lcService
  | .siteInstall f bulk root siteCert revoked rootSig _ =>
    decide (revoked.length ≤ 64) && revoked.all (fun r => decide (r.length ≤ 20)) && decide (siteCert.length ≤ 2048) &&
      bulkOk bulk && (s.siteRootCause f root rootSig).isNone
  | .imageKeysSet _ keys _ => decide (keys.length ≤ 8) && keys.all p384OnCurve
  | .calibrationSet _ bulk entries _ =>
    decide ((s.sec.site.calibrations.filter (fun c => !entries.any (fun e => e.sensor == c.sensor))).length +
      entries.length ≤ 1024) && bulkOk bulk
  | .rosterSet _ bulk entries _ =>
    decide (entries.length ≤ 8192) &&
      entries.all (fun e => decide (e.slot ≤ 4095) && decide (e.kind ≤ 1) && decide (e.svid.length ≤ 34)) &&
      ratesFit ((s.steps.image.map (·.channels)).getD []) entries && bulkOk bulk &&
      sumsFit (tetherSums s.liveSessions (svEntries entries))
  | .pegSet _ bulk pegs _ => pegs.all (fun p => decide (p.peg ≤ 65535)) && bulkOk bulk && !pegs.any pegBad
  | .datumSet .. => true
  | .pipelineStart _ p => s.pipelines.contains p.toNat && (s.selectSchedule s.faults.out).isSome
  | .pipelineStop _ p => s.pipelines.contains p.toNat
  | .searchInsert _ coll dim bulk items _ =>
    (s.collRefusal (decide (65536 < items.length) || items.any (fun x => x.2.length != dim)) bulk coll dim false).isNone
  | .searchDelete _ coll bulk ids _ =>
    (s.collRefusal (decide (65536 < ids.length)) bulk coll (s.collDecl coll).dim false).isNone
  | .searchLoad _ coll bulk => (s.collRefusal false bulk coll 0 true).isNone && snapshotOk (s.collDecl coll) bulk.bytes
  | _ => false

/-- A site command whose write to the flash fails (R546). -/
def flashFails : Instr → Bool
  | .siteInstall _ _ _ _ _ _ ok | .imageKeysSet _ _ ok | .calibrationSet _ _ _ ok | .rosterSet _ _ _ ok
  | .pegSet _ _ _ ok | .datumSet _ _ ok => !ok
  | _ => false

/-- The oldest buffered frame is a Tether frame of type `k` that is authentic, new and well formed, of the live session `x`
(R436–R438). -/
def State.newFrame (s : State) (k : Nat) (f : BufFrame) (p : Bytes) (x : Session) : Bool :=
  (match s.ports.ingress with | g :: _ => g == f | [] => false) &&
    (match f.body with | .tether _ q => q == p | _ => false) && frHead p && s.sessionOf p == some x &&
    frTagOk x.key p && (x.rxHigh.all (fun hi => decide (hi ≤ frSeq p + 4096))) && !x.rxSeen.contains (frSeq p) &&
    frLengthOk p && frType p == k

/-- No two sessions have the same identifier. -/
def State.sessionsApart (s : State) : Prop := (s.ports.sessions.map (·.id)).Nodup

/-- DATA frames of a session that have their outcome (R444). -/
def Session.answered (x : Session) : Nat := x.served + x.delayed + x.shed + x.refused

/-- Between two states one Tether frame of type `k` has left for a session, under its key and next sequence number (R430, R435). -/
def State.sends (t s : State) (x : Session) (k : Nat) (body : Bytes) : Prop :=
  t.ports.sent =
    (s.sendOn x.port x.vlan x.slot txTether (tetherFrame x.key k x.slot x.id x.txSeq body)).ports.sent

/-- Frames that one frame of the device takes on its port: two on a PRP pair (R430). -/
def State.copies (s : State) (port : Nat) : Nat := if s.prpOn (port / 2) then 2 else 1

/-- The cluster, opcode and descriptor of a work descriptor of the vision engines (R201). -/
def visionDescOf : Instr → Option (Fin 2 × Nat × VisionDesc)
  | .flow v d => some (v, opFlow, d)
  | .stereo v d => some (v, opStereo, d)
  | .feature v d => some (v, opFeature, d)
  | .matchFeatures v d => some (v, opMatch, d)
  | .projRay v d => some (v, opProjRay, d)
  | .projPlane v d => some (v, opProjPlane, d)
  | .projPtsImage v d => some (v, opProjPtsImage, d)
  | .projPtsGrid v d => some (v, opProjPtsGrid, d)
  | _ => none

/-- A descriptor whose turn has come at a vision engine in service (R203): its occurrence runs and the engine has no work
before it. -/
def State.engineTurn (s : State) (v e : Nat) (d : VisionDesc) : Bool :=
  s.mayIssue d.ctx.cadence && s.inService (visionRegion v e) && !(s.vision.getD v default).busy e

/-- A work descriptor that its engine issues now (R153, R162, R166, R201, R205): its turn has come, it is well formed, its tethers
are the cluster's, its memory keeps it waiting for nothing, its waits are granted, and its accesses keep R153. -/
def State.visionReady (s : State) (v op : Nat) (d : VisionDesc) : Bool :=
  let e := visionEngineOf op
  s.engineTurn v e d && s.visionOk v op d && (visionSlots op d).all (fun t => s.mayRead v e t) &&
    !s.memoryWaits (visionRegion v e) (s.visionAccesses op d) && (s.visionWaits op d).all (fun l => s.waitGranted d.unit.toNat l) &&
    (s.orderBroken d.unit.toNat (s.visionWaits op d) (s.visionReads op d)
      (visionWrites d (s.visionWork op d).tiles.length)).isNone

/-- Whether a work descriptor may store a byte: its destination, in memory or in its ring of slots, and its summary's slot
(R203, R204). -/
def visionStores (d : VisionDesc) (tiles x : Nat) : Prop :=
  (d.dstMode ≠ 0 ∧ d.dstAddr.toNat ≤ x ∧ x < d.dstAddr.toNat + tiles * tileBytes) ∨
    (d.dstMode = 0 ∧ ∃ k, lanternAddr (ringSlot d.dstRing.toNat k) ≤ x ∧
      x < lanternAddr (ringSlot d.dstRing.toNat k) + tileBytes) ∨
    (d.raise.toNat ≠ noLantern ∧ lanternAddr d.raise.toNat ≤ x ∧ x < lanternAddr d.raise.toNat + tileBytes)

/-- Two states agree but for memory, its tile marks, undo logs and tensor notes, registers, answers, counters, lanterns and
interrupts: what a store by compiled work may touch. -/
def State.sameButStores (t s : State) : Prop :=
  { t with
    mem := s.mem, tiers := s.tiers, checkpoints := s.checkpoints, regs := s.regs, answers := s.answers
    counters := s.counters, sheets := s.sheets, anchors := s.anchors, tensors := s.tensors
    host := { t.host with sent := s.host.sent, vectorPending := s.host.vectorPending } } = s

end Sys2Proof.Machine
end

