-- ==== Sys2Proof/Certificates/Slice0/Obligations.lean ====
section
/-! DEFINITION. The statements for the provers. Where a statement says that a command completes, its conclusion is that
`exec` answers a next state. -/

open Sys2Proof Sys2Proof.Machine

/-! ## The queue, reset and power -/

/-- A step runs the command at the front of the queue on the state with the rest of the queue (assumption 10); with no
command waiting the block idles. Every command answers a next state, in every state: no command faults or is refused
by the model. -/
def Obligations.StepRunsTheFrontCommand : Prop :=
  ((∀ (c : Instr) (rest : List Instr) (s : State), s.pending = c :: rest → step s = exec c { s with pending := rest }) ∧
    ∀ s : State, s.pending = [] → step s = .next s) ∧
  (∀ (c : Instr) (s : State), ∃ t, exec c s = .next t)

/-- Reset: every register holds its reset value and reads 0 while `RESET_N` is held, the pins are as R606 says, no run
is in progress, the sparse maps are canonical and every byte reads 0x00 (the model's choice, assumption 8).
RESET_N_ASSERT: from every state the device goes to its reset state (R493), keeping what the board and the part hold:
the flash, the life-cycle words, identity, storage key, certificate and minimum version, and the state of `PERST_N`.
Clocks of 0 and the part as manufactured are the model's choices (assumptions 14 and 23). -/
def Obligations.ResetGivesTheResetState : Prop :=
  ((∀ off, State.reset.reg off = (regReset off).toNat ∧ State.reset.readReg off = 0) ∧
    State.reset.power.statusPins = 0 ∧ State.reset.power.devReady = false ∧ State.reset.power.devFault = false ∧
    State.reset.up = false ∧ State.reset.inRun = false ∧ State.reset.canonical = true ∧ State.reset.pending = [] ∧
    ∀ a, State.reset.byte a = 0) ∧
  (∀ s : State, ∃ t, exec .resetNAssert s = .next t ∧
    t.flash = s.flash ∧ t.sec.lcWords = s.sec.lcWords ∧ t.sec.identity = s.sec.identity ∧
    t.sec.storageKey = s.sec.storageKey ∧ t.sec.deviceCert = s.sec.deviceCert ∧ t.sec.minVersion = s.sec.minVersion ∧
    t.power = { State.reset.power with perstHeld := s.power.perstHeld } ∧ t.pending = s.pending ∧ t.free = s.free ∧
    { t with flash := State.reset.flash, sec := State.reset.sec, power := State.reset.power, pending := [], free := 0 } =
      State.reset ∧
    t.sec.keys = [] ∧ t.sec.counters = [0, 0, 0] ∧ (∀ off, t.reg off = (regReset off).toNat) ∧ ∀ a, t.byte a = 0)

/-- RESET_N_RELEASE with reset held runs the boot ROM: a failure at step 1 or 2 ends in the safe state it names, END
in 0xD, no passing slot in 0xC, and otherwise the passing slot is loaded at stage 4. Without reset held nothing
happens. -/
def Obligations.ReleaseBootsTheDevice : Prop :=
  (∀ (b : BootInputs) (s : State), s.power.resetHeld = true →
    ∃ t, exec (.resetNRelease b) s = .next t ∧ t.power.resetHeld = false ∧ t.power.statusPins = t.power.stage ∧
      (∀ c, bootFailure (b.flash.getD s.flash) b = some c →
        t.power.safe = true ∧ t.power.devFault = true ∧ t.power.stage = c) ∧
      (bootFailure (b.flash.getD s.flash) b = none →
        (s.lc = lcEnd → t.power.safe = true ∧ t.power.devFault = true ∧ t.power.stage = 0xD) ∧
        (s.lc ≠ lcEnd →
          let z := { s with
            flash := b.flash.getD s.flash, sec := { s.sec with site := bootSite (b.flash.getD s.flash) } }
          ((z.chooseSlot s.lc).1 = none → t.power.safe = true ∧ t.power.devFault = true ∧ t.power.stage = 0xC) ∧
          ∀ i, (z.chooseSlot s.lc).1 = some i → t.power.slot = some i ∧ t.power.stage = 4 ∧ t.power.safe = s.power.safe))) ∧
    ∀ (b : BootInputs) (s : State), s.power.resetHeld = false → exec (.resetNRelease b) s = .next s

/-- RUNTIME_READY after a boot that loaded a slot: stage 5, `DEV_READY` asserted; in SERVICE with a schedule that
covers the units in service a run falls due now, and with none there is no run (R511). -/
def Obligations.RuntimeReadyStartsTheRuntime : Prop :=
  ∀ s : State, s.power.resetHeld = false → s.power.ready = false → s.power.safe = false → s.power.stage = 4 →
    ∃ t, exec .runtimeReady s = .next t ∧ t.up = true ∧
      t.power = { s.power with ready := true, devReady := true, stage := 5, statusPins := 5 } ∧ t.steps.run = s.steps.run ∧
      (∀ i, s.lc = lcService → s.steps.image ≠ none → s.selectSchedule s.faults.out = some i →
        t.steps.runDue = some s.now ∧ t.faults.schedule = i ∧ { t with
          power := s.power, steps := s.steps, faults := s.faults } = s) ∧
      (s.lc ≠ lcService ∨ s.steps.image = none ∨ s.selectSchedule s.faults.out = none →
        t.steps.runDue = s.steps.runDue ∧ t.mem = s.mem)

/-- A device that is not up takes no work (R505, R506): from every state in which it is not up, a command that is
neither `RESET_N`, the runtime's start nor a hardware event leaves it not up and leaves everything as it was but the
clocks, the host's link and reply, read latches, read-clear registers and the views that a read samples, the test access
port and the `PERST_N` pin. -/
def Obligations.NothingRunsUnlessUp : Prop :=
  ∀ (c : Instr) (s : State), s.up = false → powerEvent c = false → hardwareEvent c = false →
    ∃ t, exec c s = .next t ∧ t.up = false ∧
      { t with
        host := s.host, regs := s.regs, latches := s.latches, time := s.time, counters := s.counters
        power := s.power, sec := s.sec } = s ∧
      t.power = { s.power with perstHeld := t.power.perstHeld } ∧ t.sec = { s.sec with jtag := t.sec.jtag } ∧
      { t.host with
        reply := s.host.reply, linkUp := s.host.linkUp, gen := s.host.gen, width := s.host.width
        flit := s.host.flit } = s.host

/-- A safe state ends only at a reset (R505, R506, R563): a step from any state in a safe state, with a command other
than RESET_N_ASSERT in front or none, leaves it in a safe state and not up; and with no window granted memory, the
trail, the run, the tiers, the flash and the security block but its test access port keep their values. -/
def Obligations.SafeStateEndsOnlyAtReset : Prop :=
  ∀ s : State, s.power.safe = true → s.power.resetHeld = false → (∀ rest, s.pending ≠ .resetNAssert :: rest) →
    ∃ t, step s = .next t ∧ t.power.safe = true ∧ t.power.resetHeld = false ∧ t.up = false ∧
      (s.windowUsable = false → t.mem = s.mem ∧ t.trail = s.trail ∧ t.steps = s.steps ∧ t.tiers = s.tiers ∧
        t.flash = s.flash ∧ t.power = { s.power with perstHeld := t.power.perstHeld } ∧
        { t.sec with jtag := s.sec.jtag } = s.sec)

/-! ## Registers (00, 01) -/

/-- R5: registers are 32 bits wide; a narrower or wider access, and a 32-bit access whose offset is not a multiple of
4, get an Unsupported Request completion, change no register, latch nothing and change nothing else. -/
def Obligations.UnsupportedAccessChangesNothing : Prop :=
  ∀ (s : State) (off : Nat),
    s.reg off < 2 ^ 32 ∧
    (∀ w : Bool, exec (.unsupportedAccess off w) s = .next { s with host := { s.host with reply := .unsupported } }) ∧
    (off % 4 ≠ 0 →
      exec (.loReadLatch off) s = .next { s with host := { s.host with reply := .unsupported } } ∧
      exec (.readClear off) s = .next { s with host := { s.host with reply := .unsupported } } ∧
      ∀ (v : Word) (w : Writer), s.up = true →
        exec (.registerWrite off v w) s = .next { s with host := { s.host with reply := .unsupported } })

/-- R36: offsets from 0x0100_0000 to 0x03FF_FFFF, and offsets inside a block that no register table row holds, read as
0; writes to them are ignored and record nothing. -/
def Obligations.UndefinedOffsetsReadZeroAndIgnoreWrites : Prop :=
  (∀ off, 0x1000000 ≤ off → off ≤ 0x3FFFFFF → findReg off = none) ∧
  (∀ off, 0x1000000 ≤ off → off ≤ 0x3FFFFFF → inActiveWindow off = true → shadowMask (off - 0x8000) = 0) ∧
  ∀ (s : State) (off : Nat), findReg off = none → off % 4 = 0 →
    (inActiveWindow off = false ∨ shadowMask (off - 0x8000) = 0) →
    s.readReg off = 0 ∧ exec (.loReadLatch off) s = .next (s.replyWith 0) ∧
      exec (.readClear off) s = .next (s.replyWith 0) ∧ ∀ (v : Word) (w : Writer), exec (.registerWrite off v w) s = .next s

/-- R37: in every 64 KiB page offsets 0x8000 to 0xFFFF read the active values of the class S fields at offsets 0x0000
to 0x7FFF of the page and nothing else, and writes to them are ignored. -/
def Obligations.ActiveWindowReadsActiveValues : Prop :=
  ∀ (s : State) (off : Nat), off % 0x10000 < 0x8000 → s.power.ready = true → s.power.resetHeld = false →
    s.readReg (off + 0x8000) = s.activeReg off &&& shadowMask off ∧
      (off % 4 = 0 → ∀ (v : Word) (w : Writer), exec (.registerWrite (off + 0x8000) v w) s = .next s)

/-- REGISTER_WRITE to a single register without an event of its own (R7, R8, R10): RW bits take the value written, W1C
bits written 1 are cleared, every other bit and every other register keep their value, no active value changes, and
the register is noted for the next commit when it holds a class S field. -/
def Obligations.PlainRegisterWriteFollowsAccessTypes : Prop :=
  ∀ (s : State) (off : Nat) (v : Word) (w : Writer), s.up = true → plainRegister off = true →
    (∀ n, lockedRing off = some n → s.ringEnabled n = false) →
    (∀ i, i < 32 → bitHas off (fun f => f.cls == .bootStatic) i = true → v.getLsbD i = (s.reg off).testBit i) →
    ∃ t, exec (.registerWrite off v w) s = .next t ∧
      (∀ i, i < 32 → (t.reg off).testBit i =
        if bitHas off (fun f => f.access == .rw) i then v.getLsbD i
        else if bitHas off (fun f => f.access == .w1c) i && v.getLsbD i then false else (s.reg off).testBit i) ∧
      (∀ a, a ≠ off → t.reg a = s.reg a) ∧ (∀ a, t.activeReg a = s.activeReg a) ∧
      (shadowMask off ≠ 0 → t.shadowed.contains off = true) ∧
      { t with regs := s.regs, shadowed := s.shadowed } = s

/-- A write that carries another value for a class B field leaves every class B bit unchanged and records the offset
and one more access error; one that carries their current values records none (R9). A ring register that a write
leaves alone while its ring is enabled (R524) still records the access error. -/
def Obligations.ClassBFieldsNeverChange : Prop :=
  ∀ (s : State) (off : Nat) (v : Word) (w : Writer), s.up = true → plainRegister off = true → off ≠ 0xC → off ≠ 0x10 →
    ∃ t, exec (.registerWrite off v w) s = .next t ∧
      (∀ i, i < 32 → bitHas off (fun f => f.cls == .bootStatic) i = true →
        (t.reg off).testBit i = (s.reg off).testBit i) ∧
      ((∃ i, i < 32 ∧ bitHas off (fun f => f.cls == .bootStatic) i = true ∧ v.getLsbD i ≠ (s.reg off).testBit i) →
        t.reg 0xC = off % 2 ^ 24 ∧ t.reg 0x10 = min (s.reg 0x10 + 1) (2 ^ 32 - 1)) ∧
      ((∀ i, i < 32 → bitHas off (fun f => f.cls == .bootStatic) i = true → v.getLsbD i = (s.reg off).testBit i) →
        t.reg 0xC = s.reg 0xC ∧ t.reg 0x10 = s.reg 0x10)

/-- 64-bit pairs (R6): a read of `_LO` answers the low half and latches the upper one, which a read of `_HI` then
returns; a write of `_LO` is held; a write of `_HI` commits both halves of an RW pair together, with the current low
half when none is held, and consumes what was held. -/
def Obligations.PairsLatchHoldAndCommit : Prop :=
  (∀ (s : State) (off : Nat) (r : RegRow), s.power.ready = true → s.power.resetHeld = false → off % 4 = 0 →
    inActiveWindow off = false → off < 0xF00000 → findReg off = some r → r.part = .lo →
    (findReg (off + 4)).isSome = true →
    ∃ t, exec (.loReadLatch off) s = .next t ∧ t.host.reply = .data (s.readReg off) ∧
      lookupKey (off + 4) t.latches = some (BitVec.ofNat 32 (s.pairValue off / 2 ^ 32 &&&
        (2 ^ 32 - 1 - fieldMask (fun f => f.access == .wo) (fieldsAt (off + 4))))) ∧
      { t with latches := s.latches, host := s.host } = s) ∧
  (∀ (s : State) (off : Nat) (r : RegRow), s.power.ready = true → s.power.resetHeld = false →
    inActiveWindow off = false → findReg off = some r → r.part = .hi →
    s.readReg off = ((lookupKey off s.latches).map BitVec.toNat).getD 0) ∧
  (∀ (s : State) (off : Nat) (r : RegRow) (v : Word) (w : Writer), s.up = true → off % 4 = 0 →
    inActiveWindow off = false → findReg off = some r → r.part = .lo → pairWritable off = true → classBMask r = 0 →
    servoPair off = none → (∀ n, lockedRing off = some n → s.ringEnabled n = false) →
    ∃ t, exec (.registerWrite off v w) s = .next t ∧ lookupKey off t.heldLo = some v ∧
      (∀ a, a ≠ off → lookupKey a t.heldLo = lookupKey a s.heldLo) ∧ { t with heldLo := s.heldLo } = s) ∧
  ∀ (s : State) (lo : Nat) (rl rh : RegRow) (v : Word) (w : Writer), s.up = true → lo % 4 = 0 →
    inActiveWindow (lo + 4) = false → findReg lo = some rl → findReg (lo + 4) = some rh → rh.part = .hi →
    rwMask rl = 2 ^ 32 - 1 → rwMask rh = 2 ^ 32 - 1 → w1cMask rl = 0 → w1cMask rh = 0 → classBMask rh = 0 →
    servoPair lo = none → lo ≠ 0x600060 → lo < 0xF00000 →
    (∀ n, lockedRing (lo + 4) = some n → s.ringEnabled n = false) →
    ∃ t, exec (.registerWrite (lo + 4) v w) s = .next t ∧ t.reg (lo + 4) = v.toNat ∧
      t.reg lo = ((lookupKey lo s.heldLo).map BitVec.toNat).getD (s.reg lo) ∧ lookupKey lo t.heldLo = none ∧
      (∀ a, a ≠ lo → a ≠ lo + 4 → t.reg a = s.reg a) ∧ { t with regs := s.regs, heldLo := s.heldLo } = s

/-- READ_CLEAR (R7): the read answers the register and sets its RC bits to their reset value; every other bit, every
other register and everything else but the reply is unchanged. -/
def Obligations.ReadClearClearsRcFields : Prop :=
  ∀ (s : State) (off : Nat), s.power.ready = true → s.power.resetHeld = false → off % 4 = 0 →
    inActiveWindow off = false → (findReg off).isSome = true → indexIn off 0x300408 0x40 4 = none →
    ∃ t, exec (.readClear off) s = .next t ∧ t.host.reply = .data (s.readReg off) ∧
      (∀ i, i < 32 → (t.reg off).testBit i =
        if bitHas off (fun f => f.access == .rc) i then (regReset off).getLsbD i else (s.reg off).testBit i) ∧
      (∀ a, a ≠ off → t.reg a = s.reg a) ∧ { t with regs := s.regs, host := s.host } = s ∧
      { t.host with reply := s.host.reply } = s.host

/-! ## The host interface (15) -/

/-- HOST_ATTACH within R503 attaches the ring, starts it empty and unmasks the vectors; another size is refused with
cause 0x0C and changes no attachment. HOST_DETACH ends the attachment and leaves the output buffer as it is (R504).
Neither changes memory, the trail, the run or an object. PCIE_LINK_RETURN with `RESET_N` released and the link down
(R491, R493): the link is up as trained, `PERST_N` is high and `HOST_EVENTS.HOST_RESET` is set; no other register and
nothing else changes. PERST_N and HOST_INTERFACE_RESET with `RESET_N` released (R493): the link goes down, the
attachment ends, every vector is masked, completions not yet posted are dropped and the window is no longer granted;
with no window granted nothing but the host interface, its ring enables and the `PERST_N` pin changes, and every ring
is disabled. -/
def Obligations.AttachmentsBeginAndEnd : Prop :=
  (((∀ (h : CmdHdr) (addr size : Nat) (s : State), s.offers h = true → outRingOk size = true →
    ∃ t, exec (.hostAttach h addr size) s = .next t ∧ t.host.attached = true ∧ t.host.outBase = addr ∧
      t.host.outSize = size ∧ t.host.vectorMask = 0 ∧ t.host.vectorPending = 0 ∧ t.reg 0x100020 = 0 ∧
      (s.out.buffer = [] → t.reg 0x10001C = 0) ∧ { t with host := s.host, regs := s.regs, out := s.out } = s) ∧
  (∀ (h : CmdHdr) (addr size : Nat) (s : State), s.offers h = true → outRingOk size = false →
    ∃ t, exec (.hostAttach h addr size) s = .next t ∧ t.host.attached = s.host.attached ∧
      t.host.outBase = s.host.outBase ∧ t.host.outSize = s.host.outSize ∧ { t with host := s.host, regs := s.regs } = s) ∧
  ∀ (h : CmdHdr) (s : State), s.offers h = true →
    ∃ t, exec (.hostDetach h) s = .next t ∧ t.host.attached = false ∧ t.out = s.out ∧
      { t with host := s.host, regs := s.regs } = s) ∧
  (∀ (gen width : Nat) (s : State), s.power.resetHeld = false → s.host.linkUp = false →
    ∃ t, exec (.pcieLinkReturn gen width) s = .next t ∧
      t.host = { s.host with linkUp := true, gen := gen, width := width, flit := gen == 6 } ∧
      t.power = { s.power with perstHeld := false } ∧ t.reg 0x100008 = s.reg 0x100008 ||| 1 ∧
      (∀ a, a ≠ 0x100008 → t.reg a = s.reg a) ∧ { t with host := s.host, regs := s.regs, power := s.power } = s)) ∧
  (∀ (c : Instr) (s : State), c = .perstN ∨ (∃ x, c = .hostInterfaceReset x) → s.power.resetHeld = false →
    ∃ t, exec c s = .next t ∧ t.host.linkUp = false ∧ t.host.attached = false ∧ t.host.unposted = [] ∧
      t.host.vectorMask = 2 ^ 64 - 1 ∧ t.host.epoch = s.host.epoch + 1 ∧ t.windowUsable = false ∧
      (c = .perstN → t.power.perstHeld = true) ∧
      (s.windowUsable = false →
        (∀ r, r < 16 → t.ringEnabled r = false) ∧
        (∀ a, (∀ r, r < 16 → a ≠ ringReg r 0x14) → t.reg a = s.reg a) ∧
        { t with host := s.host, regs := s.regs, power := s.power } = s))

/-- A doorbell of an enabled ring without an error (R496, R501): a value below the ring's entry count becomes the
submission tail, or the completion head; any other puts the ring into error with cause 0x0C. Nothing but the host
interface and its registers changes. RING_ENABLE sets `EN` (R524) and RING_RESET clears the ring's error and pointers
(R501); nothing but the host interface and its registers changes. -/
def Obligations.CommandRingsAreControlled : Prop :=
  (∀ (r : Fin 16) (v : Word) (s : State), s.hostUp = true → s.ringEnabled r.val = true → (s.ring r.val).err = false →
    s.host.rings.length = 16 →
    (∀ u, ∃ t, exec (.sqDoorbell r v u) s = .next t ∧ { t with host := s.host, regs := s.regs } = s ∧
      (v.toNat < s.sqEntries r.val → (t.ring r.val).sqTail = v.toNat) ∧
      (s.sqEntries r.val ≤ v.toNat → (t.ring r.val).err = true ∧ (t.ring r.val).errCause = 0x0C)) ∧
    ∃ t, exec (.cqDoorbell r v) s = .next t ∧ { t with host := s.host, regs := s.regs } = s ∧
      (v.toNat < s.cqEntries r.val → (t.ring r.val).cqHead = v.toNat) ∧
      (s.cqEntries r.val ≤ v.toNat → (t.ring r.val).err = true ∧ (t.ring r.val).errCause = 0x0C)) ∧
  ((∀ (r : Fin 16) (en : Bool) (s : State), s.up = true →
    ∃ t, exec (.ringEnable r en) s = .next t ∧ t.ringEnabled r.val = en ∧ { t with host := s.host, regs := s.regs } = s) ∧
  ∀ (r : Fin 16) (s : State), s.up = true → s.host.rings.length = 16 → s.host.unposted = [] →
    ∃ t, exec (.ringReset r) s = .next t ∧ t.ring r.val = Ring.fresh ∧ { t with host := s.host } = s ∧
      ∀ q, q ≠ r.val → t.ring q = s.ring q)

/-- A completion of an enabled ring with room (R500, R501) is posted with the ring's phase, its 64 bytes stand
at the tail's entry of the completion ring, and its tail advances; with no room it waits; vector 18 + r is raised unless its entry asks for none. A block's answer (R39) stands in its STATUS
register: the latest, but of two in one fabric clock cycle the one of the higher outcome code, and of two of one outcome
the one whose cause R33 ranks first. -/
def Obligations.CompletionsArePosted : Prop :=
  (∀ (s : State) (c : Completion) (quiet : Bool), s.ringEnabled c.ring = true →
    (s.cqFull c.ring = true → (s.post c quiet).host = { s.host with unposted := s.host.unposted ++ [(c, quiet)] }) ∧
    (s.cqFull c.ring = false → (s.post c quiet).host.posted = { c with phase := (s.ring c.ring).phase } :: s.host.posted ∧
      (s.post c quiet).host.cqWritten = (s.cqAddr c.ring (s.ring c.ring).cqTail,
        ({ c with phase := (s.ring c.ring).phase } : Completion).bytes) :: s.host.cqWritten ∧
      (c.ring < s.host.rings.length →
        ((s.post c quiet).ring c.ring).cqTail = ((s.ring c.ring).cqTail + 1) % s.cqEntries c.ring) ∧
      (quiet = false → bitAt s.host.vectorMask (18 + c.ring) = false →
        (s.post c quiet).host.sent = (18 + c.ring) :: s.host.sent) ∧
      (quiet = true → (s.post c quiet).host.sent = s.host.sent))) ∧
  ∀ (s : State) (b o c : Nat), o < 4 → c < 256 →
    let t := s.answer b o c
    let old := (s.fld ⟨b, 4, 2⟩, s.fld ⟨b, 8, 8⟩)
    let now := (t.fld ⟨b, 4, 2⟩, t.fld ⟨b, 8, 8⟩)
    t.reports s b o c ∧ lookupKey b t.answers = some s.cycle ∧ (∀ a, a ≠ b → t.reg a = s.reg a) ∧
      { t with regs := s.regs, answers := s.answers } = s ∧
      (lookupKey b s.answers ≠ some s.cycle → now = (o, c)) ∧
      (lookupKey b s.answers = some s.cycle →
        (old.1 < o → now = (o, c)) ∧ (o < old.1 → now = old) ∧
          (old.1 = o → now = if causeRank c < causeRank old.2 then (o, c) else old))

/-! ## Memory tiers (14) -/

/-- BAR2_WRITE (R487) to a host object of a host client: exactly the written bytes are stored, at the BAR2 base plus
the offset, and the block answers Served. To any other mapped address nothing is stored, the write is counted and the
block answers Refused with cause 0x09. To an unmapped address nothing happens. BAR2_READ (R487, R505): with the
runtime ready each byte is the stored one, 0xFF where the tile lies only in T4 and 0x00 where nothing is mapped, and
only a read that meets such a tile is counted; before that every byte is 0xFF. Nothing else changes. -/
def Obligations.Bar2WritesAndReads : Prop :=
  (∀ (x : Nat) (data : Bytes) (s : State), s.up = true → s.host.linkUp = true → data ≠ [] →
    x + data.length ≤ bar2Size →
    ∃ t, exec (.bar2Write x data) s = .next t ∧ (Memory.wf s.mem = true → Memory.wf t.mem = true) ∧
      (s.mapped (s.bar2Base + x) data.length = false → t = s) ∧
      (s.mapped (s.bar2Base + x) data.length = true →
        (∀ a, a < s.bar2Base + x ∨ s.bar2Base + x + data.length ≤ a → t.byte a = s.byte a) ∧
        ((s.objectAt (s.bar2Base + x)).any Obj.isHostClient = true →
          (∀ i, (h : i < data.length) → t.byte (s.bar2Base + x + i) = data[i]) ∧ t.reg 0x600044 = s.reg 0x600044 ∧
          t.reports s blockMemory served 0 ∧
          { t with mem := s.mem, tiers := s.tiers, regs := s.regs, answers := s.answers } = s) ∧
        ((s.objectAt (s.bar2Base + x)).any Obj.isHostClient = false →
          t.mem = s.mem ∧ t.reports s blockMemory refused 0x09 ∧
          t.reg 0x600044 = min (s.reg 0x600044 + 1) (2 ^ 32 - 1) ∧
          { t with regs := s.regs, answers := s.answers } = s))) ∧
  (∀ (x n : Nat) (s : State), s.power.resetHeld = false → s.power.perstHeld = false → s.power.safe = false →
    x + n ≤ bar2Size →
    ∃ t, exec (.bar2Read x n) s = .next t ∧ { t with host := s.host, regs := s.regs } = s ∧
      (s.power.ready = false → t.host.reply = .bytes (List.replicate n 0xFF) ∧ t.regs = s.regs) ∧
      (s.power.ready = true →
        ∃ bs, t.host.reply = .bytes bs ∧ bs.length = n ∧
          (∀ i, (h : i < bs.length) →
            (s.mapped (s.bar2Base + x + i) 1 = false → bs[i] = 0) ∧
            (s.mapped (s.bar2Base + x + i) 1 = true → s.onlyT4 (s.bar2Base + x + i) = true → bs[i] = 0xFF) ∧
            (s.mapped (s.bar2Base + x + i) 1 = true → s.onlyT4 (s.bar2Base + x + i) = false →
              bs[i] = s.storedByte (s.bar2Base + x + i))) ∧
          ((∀ i, i < n → s.mapped (s.bar2Base + x + i) 1 = true → s.onlyT4 (s.bar2Base + x + i) = false) →
            t.regs = s.regs)))

/-- OBJ_ALLOC within quota (R460, R472, R473): the object takes the next identifier, address and base pseudo-channel,
owned by its tenant, and the block answers Served. OBJ_FREE of the tenant's own host object: no object keeps its
identifier, none of its tiles stays allocated and its bytes are unlisted; bytes outside it stay, and an owner of lent
memory in which it left no tile goes on (R162). With nothing waiting for that, neither changes anything but the tiers,
memory, counters of the block and the host interface. -/
def Obligations.HostObjectsAllocateAndFree : Prop :=
  (∀ (h : CmdHdr) (tiles : Nat) (s : State), s.offers h = true → 0 < tiles → 0x8000 ≤ h.tenant.toNat →
    h.tenant.toNat ≤ 0x80FF →
    tiles ≤ min ((s.quotaOf h.tenant.toNat).t3 - s.allocated h.tenant.toNat) s.t3Free →
    s.tiers.nextTile + tiles ≤ runtimeLastTile → s.tiers.nextId ≤ 0xFFFFFFFE →
    ∃ t, exec (.objAlloc h tiles) s = .next t ∧
      t.tiers = (s.addObject .host .hot h.tenant.toNat tiles).tiers ∧
      (∃ o ∈ t.tiers.objects, o.id = s.tiers.nextId ∧ o.baseTile = s.tiers.nextTile ∧ o.tiles = tiles ∧
        o.tenant = h.tenant.toNat ∧ o.cls = .host) ∧
      t.tiers.nextTile = s.tiers.nextTile + tiles ∧ t.tiers.nextId = s.tiers.nextId + 1 ∧
      t.reports s blockMemory served 0 ∧
      { t with host := s.host, regs := s.regs, answers := s.answers, tiers := s.tiers } = s) ∧
  ∀ (h : CmdHdr) (id : BitVec 32) (o : Obj) (s : State), s.offers h = true → s.nothingWaits = true →
    s.tiers.objects.find? (fun o => o.id == id.toNat && o.isHostClient && o.tenant == h.tenant.toNat) = some o →
    ∃ t, exec (.objFree h id) s = .next t ∧ (∀ x ∈ t.tiers.objects, x.id ≠ o.id) ∧
      (∀ y ∈ t.tiers.tiles, y.index < o.baseTile ∨ o.baseTile + o.tiles ≤ y.index) ∧
      (∀ a, t.byte a = if o.baseTile * tileBytes ≤ a ∧ a < o.baseTile * tileBytes + o.tiles * tileBytes then 0
        else s.byte a) ∧
      (Memory.wf s.mem = true → Memory.wf t.mem = true) ∧ t.reports s blockMemory served 0 ∧
      t.sheets.lent = s.sheets.lent.filter (fun y => t.leftTiles y.memory != []) ∧
      { t with
        host := s.host, regs := s.regs, answers := s.answers, tiers := s.tiers, mem := s.mem
        sheets := { t.sheets with lent := s.sheets.lent } } = s

/-- The window (R474, R480): a grant of aligned ranges within 2 TiB, while none is granted, takes effect at once; a
withdrawal of slots that T3 can take back begins and reports to its completion; and it completes once the slots hold
no tile, leaving the rest of the grant, or no window when every slot is withdrawn. -/
def Obligations.WindowGrantAndWithdrawal : Prop :=
  (∀ (h : CmdHdr) (ranges : List (Nat × Nat)) (s : State), s.offers h = true → ranges ≠ [] →
    ranges.all rangeOk = true → (ranges.map (·.2)).foldl (· + ·) 0 ≤ 2 ^ 41 → s.windowUsable = false →
    ∃ t, exec (.windowGrant h ranges) s = .next t ∧
      t.tiers = { s.tiers with ranges := ranges, windowState := windowGranted, withdrawn := [] } ∧
      t.reports s blockMemory served 0 ∧
      { t with host := s.host, regs := s.regs, answers := s.answers, tiers := s.tiers } = s) ∧
  (∀ (h : CmdHdr) (slots : List Nat) (s : State), s.offers h = true → s.tiers.windowState = windowGranted →
    slots ≠ [] → (∀ k ∈ slots, k < s.slotCount ∧ s.tiers.withdrawn.contains k = false) →
    s.tiers.tiles.filter (s.mustMove slots) = [] →
    ∃ t, exec (.windowWithdraw h slots) s = .next t ∧ t.tiers.windowState = windowWithdrawing ∧
      t.tiers.withdraw = some ⟨slots, h, s.host.epoch⟩ ∧ t.reports s blockMemory served 0 ∧
      { t with host := s.host, regs := s.regs, answers := s.answers, tiers := s.tiers } = s) ∧
  ∀ (w : Withdrawal) (s : State), s.up = true → s.tiers.withdraw = some w →
    (∀ k ∈ w.slots, s.slotsHeld.contains k = false) →
    ∃ t, exec .windowWithdrawComplete s = .next t ∧ t.tiers.withdraw = none ∧
      (s.slotCount ≤ (w.slots ++ s.tiers.withdrawn).length → t.tiers.windowState = windowNone ∧ t.tiers.ranges = []) ∧
      ((w.slots ++ s.tiers.withdrawn).length < s.slotCount → t.tiers.windowState = windowGranted ∧
        t.tiers.ranges = s.tiers.ranges ∧ t.tiers.withdrawn = w.slots ++ s.tiers.withdrawn) ∧
      { t with host := s.host, tiers := s.tiers } = s

/-- Moves between tiers (R467, R473) that complete: a lent tile, with room in T3 and quota, lies in T3 in the frame
that R464 picks, and the owner of lent memory in which no tile is left goes on (R162); a clean T3 tile with a copy in T4 is left to that copy; and a tile fetched from T4 whose tag matches
lies clean in T3 with exactly the fetched bytes in memory. A row under soft repair is repaired and counted (R485).
Views of the tiers (R489): a write of `TILE_QUERY_HI` samples the tile of the address that the held low half and the
written high half name, and TENANT_VIEW_SAMPLE the selected tenant's quotas and use; registers and the reply alone
change. -/
def Obligations.TilesMoveAndAreViewed : Prop :=
  ((∀ (n m k : Nat) (x : Tile) (o : Obj) (s : State), s.up = true → s.tileAt n = some x →
    s.objectAt (n * tileBytes) = some o → x.loc = .t2 m k → s.t3Used o.tenant < (s.quotaOf o.tenant).t3 → 0 < s.t3Free →
    s.nothingWaits = true →
    ∃ t, exec (.tileMoveComplete n .t3 none) s = .next t ∧
      (t.tileAt n).map (·.loc) = some (.t3 (s.pickFrame o x.index)) ∧
      t.sheets.lent = s.sheets.lent.filter (fun y => t.leftTiles y.memory != []) ∧ t.mem = s.mem ∧ t.regs = s.regs) ∧
  (∀ (n f k : Nat) (x : Tile) (o : Obj) (s : State), s.up = true → s.tileAt n = some x →
    s.objectAt (n * tileBytes) = some o → x.loc = .t3 f → x.home = some k → x.dirty = false → s.windowUsable = true →
    classT4 o.cls = true → s.tilePinned x = false → s.nothingWaits = true →
    ∃ t, exec (.tileMoveComplete n .t4 none) s = .next t ∧ (t.tileAt n).map (·.loc) = some (.t4 k) ∧ t.mem = s.mem ∧
      t.host = s.host) ∧
  (∀ (n k : Nat) (x : Tile) (o : Obj) (data side : Bytes) (b : Bytes × Bytes) (s : State), s.up = true →
    s.windowUsable = true → s.sec.quarantined = false → s.tileAt n = some x → s.objectAt (n * tileBytes) = some o → x.slot? = some k →
    s.tiers.withdraw = none → s.tiers.tierWaits = [] →
    openTile s.tiers.hostKey (s.slotEntry k).archive k (s.slotEntry k).counter o.id (x.index - o.baseTile) data side = some b →
    ∃ t, exec (.t4FetchComplete n data side none) s = .next t ∧ t.mem = Memory.setBytes s.mem (n * tileBytes) b.1 ∧
      (t.tileAt n).map (fun y => (y.dirty, y.home)) = some (false, some k) ∧
      ((t.tileAt n).bind Tile.frame?).isSome = true) ∧
  ∀ (row : Nat) (s : State), s.up = true → s.tiers.repairing.contains row = true → s.tiers.tierWaits = [] →
    ∃ t, exec (.softRowRepairComplete row) s = .next t ∧ t.tiers.repairing.contains row = false ∧
      t.reg 0x60003C = min (s.reg 0x60003C + 1) (2 ^ 32 - 1) ∧ bitAt (t.reg 0x60000C) 3 = true ∧
      { t with host := s.host, regs := s.regs, tiers := s.tiers } = s) ∧
  ((∀ (hi : Word) (s : State), s.up = true →
    ∃ t, exec (.tileQuery hi) s = .next t ∧
      t.reg 0x600068 = s.tileView (s.loForCommit 0x600060 true + hi.toNat * 2 ^ 32) % 2 ^ 32 ∧
      t.reg 0x600064 = hi.toNat ∧ lookupKey 0x600060 t.heldLo = none ∧
      (∀ a, a ≠ 0x600060 → a ≠ 0x600064 → a ≠ 0x600068 → t.reg a = s.reg a) ∧
      { t with regs := s.regs, heldLo := s.heldLo } = s) ∧
  ∀ s : State, s.readable = true →
    ∃ t, exec .tenantViewSample s = .next t ∧
      bitsOf (t.reg 0x600050) 0 20 = min (s.quotaOf (s.fld ⟨0x60004C, 0, 16⟩)).t3 (2 ^ 20 - 1) ∧
      bitsOf (t.reg 0x600054) 0 20 = min (s.t3Used (s.fld ⟨0x60004C, 0, 16⟩)) (2 ^ 20 - 1) ∧
      t.reg 0x600058 = min (s.quotaOf (s.fld ⟨0x60004C, 0, 16⟩)).t4 (2 ^ 27 - 1) ∧
      bitsOf (t.reg 0x60005C) 0 27 = min (s.t4Used (s.fld ⟨0x60004C, 0, 16⟩)) (2 ^ 27 - 1) ∧
      t.host.reply = .data (t.reg 0x600050) ∧ { t with regs := s.regs, host := s.host } = s)

/-! ## Groundsheets, lanterns and lent memory (04) -/

/-- DESCRIPTOR_COMPLETE (R150). A consumer that has not released a lit tile of a use that is not held releases it, and
its last consumer unlights it and advances the slot to the plan's next use, while `RELEASED` stands until the next first
write. The producer of a filling slot lights it with the tag of its occurrence. Other slots, memory, registers, undo
logs and everything but the lanterns, the note of them in the checkpoints and counters keep their values. -/
def Obligations.LanternsLightAndRelease : Prop :=
  (∀ (k : Fin 16) (u l : BitVec 16) (x : LanternUse) (s : State), s.up = true → s.inRun = true → l.toNat ≠ noLantern →
    lanternOk l.toNat = true → s.useOf l.toNat = some x → (s.lantern l.toNat).phase = lit → x.held = false →
    x.units.contains u.toNat = true → (s.lantern l.toNat).released.contains u.toNat = false →
    ∃ t, exec (.descriptorComplete ⟨k, u⟩ l true) s = .next t ∧
      (t.lantern l.toNat).released = u.toNat :: (s.lantern l.toNat).released ∧
      ((s.lantern l.toNat).released.length + 1 = x.units.length →
        (t.lantern l.toNat).phase = unlit ∧
        (t.lantern l.toNat).use = ((s.lantern l.toNat).use + 1) % max 1 (s.planUses l.toNat).length) ∧
      ((s.lantern l.toNat).released.length + 1 ≠ x.units.length →
        (t.lantern l.toNat).phase = lit ∧ (t.lantern l.toNat).use = (s.lantern l.toNat).use) ∧
      (t.lantern l.toNat).tag = (s.lantern l.toNat).tag ∧ (∀ i, i ≠ l.toNat → t.lantern i = s.lantern i) ∧
      t.checkpoints.map (·.undo) = s.checkpoints.map (·.undo) ∧
      { t with sheets := { t.sheets with lanterns := s.sheets.lanterns }, checkpoints := s.checkpoints } = s) ∧
  ∀ (k : Fin 16) (u l : BitVec 16) (x : LanternUse) (o : Occurrence) (s : State), s.up = true → s.inRun = true →
    l.toNat ≠ noLantern → lanternOk l.toNat = true → s.useOf l.toNat = some x → s.occOf x.cadence = some o →
    (s.lantern l.toNat).phase = filling → x.producer = u.toNat →
    ∃ t, exec (.descriptorComplete ⟨k, u⟩ l false) s = .next t ∧ (t.lantern l.toNat).phase = lit ∧
      (t.lantern l.toNat).tag = ⟨s.stepTime o.step, o.step, x.owner, u.toNat⟩ ∧
      (∀ i, i ≠ l.toNat → t.lantern i = s.lantern i) ∧ t.checkpoints.map (·.undo) = s.checkpoints.map (·.undo) ∧
      { t with
        sheets := { t.sheets with lanterns := s.sheets.lanterns }, checkpoints := s.checkpoints, counters := s.counters } = s

/-- Lantern waits (R151, R156): a wait that R151 grants ends; with no work of the unit left to go on nothing else
changes, and an array's descriptor that waited for it alone is issued and done. A wait that has reached the limit with
the watchdog on, while its producer is in no stall, raises the groundsheet's event, starts its time anew and queues a
control error of the sheet's die for the producer's occurrence. Lent memory (R160, R162) and the tag view (R164): a
window that the schedule in force declares opens in its interval while its owner is in service; a window past its
interval closes and is no longer open, its clean tiles keep only their T4 copy and its dirty tiles stay where they are,
and one in its interval stays as it is; and GS_TAG_SAMPLE shows the six words of the selected slot's tag, changing those
registers and the reply alone. -/
def Obligations.WaitsEndAndWindowsOpenAndClose : Prop :=
  ((∀ (u l : BitVec 16) (s : State), s.up = true →
    s.sheets.waits.any (fun w => w.unit == u.toNat && w.lantern == l.toNat) = true →
    s.waitGranted u.toNat l.toNat = true → s.unitIdle u.toNat = true →
    ∃ t, exec (.lanternGrant u l) s = .next t ∧
      t.sheets.waits = s.sheets.waits.filter (fun w => !(w.unit == u.toNat && w.lantern == l.toNat)) ∧
      { t with sheets := { t.sheets with waits := s.sheets.waits } } = s) ∧
  (∀ (a : Fin 4) (j : ArrayJob) (s : State), s.up = true →
    s.sheets.waits.any (fun w => w.unit == j.desc.unit.toNat && w.lantern == j.desc.wait.toNat) = true →
    s.waitGranted j.desc.unit.toNat j.desc.wait.toNat = true → s.arrays.length = 4 → (s.array a).queue = [j] →
    (∀ b, b ≠ a.val → (s.array b).queue = []) → s.visionIdle = true → s.fusion.due = [] →
    s.inService (arrayRegion a) = true → s.arrayFit a j = true →
    ∃ t, exec (.lanternGrant j.desc.unit j.desc.wait) s = .next t ∧ (t.array a).queue = [] ∧
      t.reports s (blockArray a) served 0 ∧
      t.reg (arrayReg a 0x28) = min (s.reg (arrayReg a 0x28) + 1) (2 ^ 32 - 1) ∧
      ∀ w ∈ t.sheets.waits, ¬(w.unit = j.desc.unit.toNat ∧ w.lantern = j.desc.wait.toNat)) ∧
  ∀ (u l : BitVec 16) (w : LanternWaiter) (s : State), s.up = true →
    s.sheets.waits.find? (fun w => w.unit == u.toNat && w.lantern == l.toNat) = some w → s.watchdogOn l.toNat = true →
    s.waitGranted u.toNat l.toNat = false → s.producerStalled l.toNat = false →
    w.since + s.watchdogLimit l.toNat ≤ s.now → s.faults.queue.length < 256 →
    ∃ t, exec (.lanternWatchdog u l) s = .next t ∧
      bitAt (t.reg (gsPage (lanternSheet l.toNat) + 0xC)) 3 = true ∧
      (∃ e, t.faults.queue = s.faults.queue ++ [e] ∧ e.region = dieRegion (sheetDieOf l.toNat) ∧ e.kind = 3 ∧
        e.address = lanternAddr l.toNat ∧ e.occs = s.producerOf l.toNat ∧ e.time = s.now) ∧
      { w with since := s.now } ∈ t.sheets.waits ∧ t.mem = s.mem ∧ t.steps = s.steps ∧ t.trail = s.trail) ∧
  ((∀ (i : Nat) (w : LendWindow) (s : State), s.up = true → s.inRun = true → s.windowDecl i = some w →
    w.schedules.contains s.sheets.schedule = true → s.inService (lentOwner w.memory) = true →
    s.windowCovers w = true → s.sheets.open_.contains w = false →
    ∃ t, exec (.lendableWindowOpen i) s = .next t ∧ t = { s with sheets := { s.sheets with open_ := s.sheets.open_ ++ [w] } }) ∧
  (∀ (i : Nat) (w : LendWindow) (s : State), s.windowDecl i = some w → s.windowCovers w = true →
    exec (.lendableWindowClose i) s = .next s) ∧
  (∀ (i : Nat) (w : LendWindow) (s : State), s.up = true → s.windowDecl i = some w → s.sheets.open_.contains w = true →
    s.windowCovers w = false →
    ∃ t, exec (.lendableWindowClose i) s = .next t ∧ t.sheets.open_.contains w = false ∧
      (∀ y ∈ t.tiers.tiles, y.inWindow w.memory w.first w.last = true → y.dirty = true) ∧
      (∀ y ∈ s.tiers.tiles, y.inWindow w.memory w.first w.last = true → y.dirty = true →
        ∃ z ∈ t.tiers.tiles, z.index = y.index ∧ z.loc = y.loc ∧ z.dirty = true) ∧
      { t with sheets := s.sheets, tiers := s.tiers } = s) ∧
  ∀ (g : Fin 3) (s : State), s.readable = true →
    ∃ t, exec (.gsTagSample g) s = .next t ∧
      (∀ i, i < 6 → t.reg (gsPage g.val + 0x24 + 4 * i) =
        s.tagBits (g.val * 4096 + s.fld ⟨gsPage g.val + 0x20, 0, 12⟩) / 2 ^ (32 * i) % 2 ^ 32) ∧
      t.host.reply = .data (t.reg (gsPage g.val + 0x24)) ∧
      (∀ a, (∀ i, i < 6 → a ≠ gsPage g.val + 0x24 + 4 * i) → t.reg a = s.reg a) ∧
      { t with regs := s.regs, host := s.host } = s)

/-! ## The time engine (12) -/

/-- R394: a write of `INC` outside 2⁴¹ ± 2⁴¹ / 2,000 is refused with cause 0x0C and `INC` keeps its value; the reset
value of every `INC` is 2⁴¹. A write within it by the owner is served and `INC` becomes the value written, the low
half from the held `_LO`; no other register but the answer, and nothing else but the consumed low half, changes. -/
def Obligations.IncIsWrittenWithin500Ppm : Prop :=
  (∀ k : Fin 2, State.reset.inc k.val = 2 ^ 41) ∧
  ∀ (k : Fin 2) (w : Writer) (hi : Word) (s : State), s.up = true → s.ownsServo w = true →
    let v := s.loForCommit (domReg k.val 0x18) true + hi.toNat % 65536 * 2 ^ 32
    ∃ t, exec (.incWrite k w hi) s = .next t ∧
      (2 ^ 41 < 2000 * (((v : Nat) : Int) - 2 ^ 41).natAbs → t.inc k.val = s.inc k.val ∧
        t.reports s blockTime refused 0x0C) ∧
      (2000 * (((v : Nat) : Int) - 2 ^ 41).natAbs ≤ 2 ^ 41 → t.inc k.val = v ∧ t.reports s blockTime served 0) ∧
      (∀ a, a ≠ domReg k.val 0x18 → a ≠ domReg k.val 0x1C → a ≠ blockTime → t.reg a = s.reg a) ∧
      { t with regs := s.regs, answers := s.answers, heldLo := s.heldLo } = s

/-- Only the servo owner writes `INC`, `DOM_ADJ` and `DOM_STATE` (R397): a host write while the runtime owns the servo
changes nothing but the answer Refused with cause 0x60, and a runtime write while the host owns it changes nothing.
DOM_ADJ_WRITE by the owner within the limit of R404 adds its signed value to the domain's pending phase step (R399);
DOM_STATE_WRITE sets the state, and a domain that is not `LOCKED` has no locked time (R400). Both are served. -/
def Obligations.OnlyTheServoOwnerWrites : Prop :=
  (∀ (c : Instr) (w : Writer) (s : State), s.up = true → s.ownsServo w = false →
    (∃ k hi, c = .incWrite k w hi) ∨ (∃ k hi, c = .domAdjWrite k w hi) ∨ (∃ k st, c = .domStateWrite k w st) →
    ∃ t, exec c s = .next t ∧ (w = .runtime → t = s) ∧
      (w = .host → t.reports s blockTime refused 0x60 ∧ (∀ a, a ≠ blockTime → t.reg a = s.reg a) ∧
        { t with regs := s.regs, answers := s.answers } = s)) ∧
  ((∀ (k : Fin 2) (w : Writer) (hi : Word) (s : State), s.up = true → s.ownsServo w = true →
    let v := signedOf 64 (s.loForCommit (domReg k.val 0x20) false + hi.toNat * 2 ^ 32)
    (s.inRun = false ∨ k.val ≠ s.time.selected ∨
      (s.time.residual + (s.time.adj k.val + v) * 2 ^ 24).natAbs ≤
        zeroAsOne (s.fld ⟨0x300008, 0, 16⟩) * 1000000 * 2 ^ 40) →
    ∃ t, exec (.domAdjWrite k w hi) s = .next t ∧ t.time = s.time.setAdj k.val (s.time.adj k.val + v) ∧
      t.reports s blockTime served 0 ∧ lookupKey (domReg k.val 0x20) t.heldLo = none ∧
      (∀ a, a ≠ blockTime → t.reg a = s.reg a) ∧
      { t with regs := s.regs, answers := s.answers, time := s.time, heldLo := s.heldLo } = s) ∧
  ∀ (k : Fin 2) (w : Writer) (st : Fin 4) (s : State), s.up = true → s.ownsServo w = true →
    ∃ t, exec (.domStateWrite k w st) s = .next t ∧ t.domState k.val = st.val ∧
      (st.val ≠ 2 → t.time.lockedFor k.val = 0) ∧ (st.val = 2 → t.time = s.time) ∧
      t.reports s blockTime served 0 ∧ (∀ a, a ≠ blockTime → a ≠ domReg k.val 4 → t.reg a = s.reg a) ∧
      { t with regs := s.regs, answers := s.answers, time := s.time } = s)

/-- CLOCK_TICK (R393, R399, R401, R403): pending phase steps take effect, then each domain clock advances by its `INC`
per tick. During a run a phase step of the selected domain goes to the residual, and device time advances by the
selected `INC` and the residual taken up; outside a run device time takes the step itself. Memory and everything else
keep their values. -/
def Obligations.TicksAdvanceTheClocks : Prop :=
  ∀ (n : Nat) (s : State), s.power.resetHeld = false → 0 < n → s.time.selected < 2 →
    let move (c : Nat) (v : Int) : Nat := (((c : Nat) : Int) + v * 2 ^ 24).toNat
    let sel := s.time.selected
    ∃ t, exec (.clockTick n) s = .next t ∧
      (∀ k, k < 2 → t.time.dom k = (if s.time.adj k = 0 then s.time.dom k else move (s.time.dom k) (s.time.adj k)) + n * s.inc k) ∧
      (∀ k, t.time.adj k = 0) ∧ t.time.ticks = s.time.ticks + n ∧ t.time.selected = sel ∧
      (let δ := if s.inRun then s.time.residual + s.time.adj sel * 2 ^ 24 else s.time.residual
       let base := if s.inRun ∨ s.time.adj sel = 0 then s.time.dev else move s.time.dev (s.time.adj sel)
       t.time.residual = δ - slewOf δ s.sigmaMax n ∧
         t.time.dev = base + (((n * s.inc sel : Nat) : Int) + slewOf δ s.sigmaMax n).toNat) ∧
      t.mem = s.mem ∧ t.steps = s.steps ∧ t.trail = s.trail ∧ t.sec = s.sec ∧ t.power = s.power

/-- Ticks add up: with increments that outweigh the slew and no phase step pending, running m ticks and then n leaves
the same state as running m + n (R393, R401: the exact addition). -/
def Obligations.TicksAddUp : Prop :=
  ∀ (m n : Nat) (s t : State), s.power.resetHeld = false → s.time.adj0 = 0 → s.time.adj1 = 0 →
    s.sigmaMax ≤ s.inc s.time.selected → exec (.clockTick m) s = .next t →
    exec (.clockTick n) t = exec (.clockTick (m + n)) s

/-- Domain switches (R405, R406): a commanded switch to a usable domain selects it with δ = D_new − DT, so that device
time keeps its value, and is served; to any other domain it is refused with cause 0x63 and selects nothing.
AUTO_RETURN selects `DOMAIN_0` when all its conditions hold. An expired Announce timeout puts an enabled domain into
`HOLDOVER`, and moves a domain on a PRP pair to LAN B first (R412). -/
def Obligations.DomainSwitches : Prop :=
  (∀ s : State, s.up = true → s.time.selected < 2 →
    ∃ t, exec .devSelSwitch s = .next t ∧ t.time.dev = s.time.dev ∧ t.mem = s.mem ∧
      (s.switchable (1 - s.time.selected) = true → t.time.selected = 1 - s.time.selected ∧
        t.time.residual = s.domOffset (1 - s.time.selected) ∧ t.reports s blockTime served 0) ∧
      (s.switchable (1 - s.time.selected) = false → t.time = s.time ∧ t.reports s blockTime refused 0x63 ∧
        bitAt (t.reg 0x30000C) 3 = true)) ∧
  (∀ s : State, s.up = true → s.autoSwitch = true → s.fld ⟨0x300004, 2, 1⟩ = 1 → s.time.selected = 1 →
    s.time.autoAway = true → zeroAsOne (s.fld ⟨0x300004, 4, 12⟩) ≤ s.lockedSeconds 0 → s.switchable 0 = true →
    ∃ t, exec .autoReturn s = .next t ∧ t.time.selected = 0 ∧ t.time.autoAway = false ∧ t.time.dev = s.time.dev ∧
      t.time.residual = s.domOffset 0 ∧ t.reports s blockTime served 0 ∧ t.mem = s.mem) ∧
  (∀ (k : Fin 2) (lanB : Bool) (s : State), s.up = true → s.domEnabled k.val = true →
    (lanB = false ∨ s.domPort k.val < 4 ∨ s.time.lanB.contains k.val = true) →
    ∃ t, exec (.announceReceiptTimeout k lanB) s = .next t ∧ t.domState k.val = 3 ∧ t.time.lockedFor k.val = 0 ∧
      t.time.dev = s.time.dev ∧ t.mem = s.mem ∧
      (k.val ≠ s.time.selected ∨ s.autoSwitch = false → t.time.selected = s.time.selected) ∧
      (k.val = s.time.selected → s.autoSwitch = true → s.switchable (1 - k.val) = true →
        t.time.selected = 1 - k.val)) ∧
  ∀ (k : Fin 2) (s : State), s.up = true → s.domEnabled k.val = true → 4 ≤ s.domPort k.val →
    s.time.lanB.contains k.val = false →
    ∃ t, exec (.announceReceiptTimeout k true) s = .next t ∧
      t = { s with time := { s.time with lanB := k.val :: s.time.lanB } }

/-- Stamps that leave (R410, R413, R415, R416): a transmit stamp enters its port's queue while that holds fewer than
64, and is otherwise lost, counted and refused with cause 0x0B; a domain's delay request takes the next sequence
number, leaves by every port of the domain, and its egress stamp becomes the measurement's t3 unless the queue loses
it. PTP messages of an enabled domain (R410–R413): a Sync that the domain uses records its sequence number and its
compensated ingress stamp; an Announce of the selected master records its time and grandmaster; a peer delay request
is answered by its port; a malformed message is counted as dropped and refused with cause 0x0C; and a message of no
domain is only counted. -/
def Obligations.PtpMessagesAndStamps : Prop :=
  ((∀ (p : Fin 4) (id : BitVec 16) (c : Fin 3) (q : Fin 8) (s : State), s.up = true → s.time.txts.length = 4 →
    ∃ t, exec (.transmitStamp p id c q) s = .next t ∧
      ((s.time.txts.getD p.val []).length < 64 →
        t = { s with time := { s.time with
          txts := s.time.txts.set p.val (s.time.txts.getD p.val [] ++ [(id.toNat, c.val, s.txStamp p.val c.val q.val)]) } }) ∧
      (64 ≤ (s.time.txts.getD p.val []).length → t.time = s.time ∧ t.fld ⟨0x30020C + 0x20 * p.val, 8, 1⟩ = 1 ∧
        t.reg (0x300210 + 0x20 * p.val) = min (s.reg (0x300210 + 0x20 * p.val) + 1) (2 ^ 32 - 1) ∧
        t.reports s blockTime refused 0x0B)) ∧
  ∀ (k : Fin 2) (s : State), s.up = true → s.domEnabled k.val = true → s.domPort k.val < 4 →
    ∃ t, exec (.delayReqTransmit k) s = .next t ∧
      (t.exchange k.val).delaySeq = ((s.exchange k.val).delaySeq + 1) % 65536 ∧
      ((s.time.txts.getD (s.domPort k.val) []).length < 64 →
        (t.exchange k.val).t3 = some (s.txStamp (s.domPort k.val) (k.val + 1) 0)) ∧
      (64 ≤ (s.time.txts.getD (s.domPort k.val) []).length → (t.exchange k.val).t3 = none) ∧
      t.ports.sent.length = s.ports.sent.length + 1 ∧ t.mem = s.mem) ∧
  ((∀ (p : Fin 4) (d : BitVec 8) (q : Fin 8) (k seq t1 : Nat) (two : Bool) (corr : Int) (s : State), s.up = true →
    s.domainOf p.val d.toNat = some k → s.usesLan k p.val = true →
    ∃ t, exec (.ptpMessageReceive p d q (.sync seq two t1 corr)) s = .next t ∧ (t.exchange k).syncSeq = seq ∧
      (t.exchange k).t2 = some (s.rxStamp p.val (k + 1) q.val) ∧
      (t.exchange k).t1 = (if two then none else some t1) ∧ { t with time := s.time } = s) ∧
  (∀ (p : Fin 4) (d : BitVec 8) (q : Fin 8) (k gm utc : Nat) (valid : Bool) (s : State), s.up = true →
    s.domainOf p.val d.toNat = some k → s.usesLan k p.val = true →
    ∃ t, exec (.ptpMessageReceive p d q (.announce gm utc valid true)) s = .next t ∧
      t.time.announce k = some s.time.ticks ∧ t.reg64 (domReg k 0x30) = gm % 2 ^ 64 ∧ t.time.dev = s.time.dev) ∧
  (∀ (p : Fin 4) (d : BitVec 8) (q : Fin 8) (k seq : Nat) (s : State), s.up = true →
    s.domainOf p.val d.toNat = some k →
    ∃ t, exec (.ptpMessageReceive p d q (.pdelayReq seq)) s = .next t ∧
      ⟨p.val, none, 0, txPdelayResp, leBytes 2 seq ++ fullTimeBytes (s.rxStamp p.val (k + 1) q.val)⟩ ∈ t.ports.sent) ∧
  (∀ (p : Fin 4) (d : BitVec 8) (q : Fin 8) (k : Nat) (s : State), s.up = true →
    s.domainOf p.val d.toNat = some k →
    ∃ t, exec (.ptpMessageReceive p d q .malformed) s = .next t ∧
      t.reg (0x401010 + 0x100 * p.val) = min (s.reg (0x401010 + 0x100 * p.val) + 1) (2 ^ 32 - 1) ∧
      t.reports s blockTime refused 0x0C ∧ { t with regs := s.regs, answers := s.answers } = s) ∧
  ∀ (p : Fin 4) (d : BitVec 8) (q : Fin 8) (m : PtpMsg) (s : State), s.up = true → s.domainOf p.val d.toNat = none →
    ∃ t, exec (.ptpMessageReceive p d q m) s = .next t ∧
      t.reg (0x401010 + 0x100 * p.val) = min (s.reg (0x401010 + 0x100 * p.val) + 1) (2 ^ 32 - 1) ∧
      (∀ a, a ≠ 0x401010 + 0x100 * p.val → t.reg a = s.reg a) ∧ { t with regs := s.regs } = s)

/-- Pulse outputs (R417, R418): an arm outside the three cases of R418 programmes the pin with the start, period and
width then written; in any of them it is refused with cause 0x61 and the pin is disarmed. A pulse begins when the
pin's clock has reached the next instant of its programme, no instant fires twice, and it ends after its width,
disarming a one-shot. -/
def Obligations.PulseOutputs : Prop :=
  (∀ (m : Fin 4) (s : State), s.up = true → s.time.tout.length = 4 →
    let start := s.fullAt (toutReg m.val 4)
    let period := s.reg64 (toutReg m.val 0x14)
    let width := s.reg (toutReg m.val 0x1C)
    let clock := s.fld ⟨toutReg m.val 0, 2, 2⟩
    let bad := start < full (s.clockOf clock) + usUnits ∨ width < 8 ∨
      (period ≠ 0 ∧ (period < 16 * nsUnits ∨ period < 2 * width * nsUnits))
    ∃ t, exec (.toutArm m) s = .next t ∧ { t with regs := s.regs, answers := s.answers, time := s.time } = s ∧
      (∀ j, j ≠ m.val → t.time.tout.getD j default = s.time.tout.getD j default) ∧
      (bad → (t.time.tout.getD m.val default).prog = none ∧ t.reports s blockTime refused 0x61) ∧
      (¬bad → (t.time.tout.getD m.val default).prog = some ⟨start, period, width, clock, 0⟩ ∧
        t.reports s blockTime served 0)) ∧
  (∀ (m : Fin 4) (p : Pulse) (s : State), s.up = true → s.time.tout.length = 4 →
    (s.time.tout.getD m.val default).prog = some p → (s.time.tout.getD m.val default).high = false →
    s.fld ⟨toutReg m.val 0, 0, 1⟩ = 1 → p.next < p.reached (full (s.clockOf p.clock)) →
    ∃ t, exec (.toutPulse m) s = .next t ∧
      t.time.tout.getD m.val default = ⟨some { p with next := p.next + 1 }, true, s.time.ticks,
        (s.time.tout.getD m.val default).pulses + 1⟩ ∧ { t with time := { t.time with tout := s.time.tout } } = s) ∧
  ∀ (m : Fin 4) (p : Pulse) (s : State), s.up = true → s.time.tout.length = 4 →
    (s.time.tout.getD m.val default).prog = some p → (s.time.tout.getD m.val default).high = true →
    (s.time.tout.getD m.val default).startedAt * 2 + p.widthNs ≤ s.time.ticks * 2 →
    ∃ t, exec (.toutPulseEnd m) s = .next t ∧ (t.time.tout.getD m.val default).high = false ∧
      (t.time.tout.getD m.val default).prog = (if p.period = 0 then none else some p) ∧
      { t with time := { t.time with tout := s.time.tout } } = s

/-- Capture inputs and time views (R420, R421, R424): a selected edge at least 8 ns after the previous one enters a
queue with room, compensated by its delay; a full queue discards it, sets the overflow bit, counts it and answers
Refused with cause 0x0B. TIN_STAMP_POP pops the head entry into its registers; the time samples show the clock they
name. -/
def Obligations.CapturesAndTimeViews : Prop :=
  (∀ (m : Fin 4) (q : Fin 8) (rising : Bool) (s : State), s.up = true → s.time.tin.length = 4 →
    s.fld ⟨tinReg m.val 0, 0, 1⟩ = 1 → bitAt (s.fld ⟨tinReg m.val 0, 1, 2⟩) (if rising then 0 else 1) = true →
    (∀ b, (s.time.tin.getD m.val default).lastEdge = some b → b + 32 ≤ s.time.ticks * 8 + q.val) →
    ∃ t, exec (.timeInEdge m q rising) s = .next t ∧
      (t.time.tin.getD m.val default).lastEdge = some (s.time.ticks * 8 + q.val) ∧
      ((s.time.tin.getD m.val default).queue.length < 16 →
        (t.time.tin.getD m.val default).queue = (s.time.tin.getD m.val default).queue ++
          [((s.rawStamp (s.fld ⟨tinReg m.val 0, 3, 2⟩) q.val - s.latency (tinReg m.val 4)).toNat, rising)] ∧
        { t with time := s.time } = s) ∧
      (16 ≤ (s.time.tin.getD m.val default).queue.length →
        (t.time.tin.getD m.val default).queue = (s.time.tin.getD m.val default).queue ∧
        t.fld ⟨tinReg m.val 0x18, 8, 1⟩ = 1 ∧
        t.reg (tinReg m.val 0x1C) = min (s.reg (tinReg m.val 0x1C) + 1) (2 ^ 32 - 1) ∧
        t.reports s blockTime refused 0x0B)) ∧
  (∀ (m : Fin 4) (x : Nat × Bool) (rest : List (Nat × Bool)) (s : State), s.readable = true → s.time.tin.length = 4 →
    (s.time.tin.getD m.val default).queue = x :: rest →
    ∃ t, exec (.tinStampPop m) s = .next t ∧ (t.time.tin.getD m.val default).queue = rest ∧
      t.reg (tinReg m.val 8) = x.1 % 65536 + b2n x.2 * 2 ^ 30 + 2 ^ 31 ∧
      t.reg (tinReg m.val 0xC) = x.1 / 65536 % 1000000000 ∧ t.host.reply = .data (t.reg (tinReg m.val 8))) ∧
  (∀ s : State, s.readable = true → ∃ t, exec .devTimeSample s = .next t ∧
    (∀ i, i < 4 → t.reg (0x300014 + 4 * i) = (timeWords s.now).getD i 0) ∧
    (∀ a, (∀ i, i < 4 → a ≠ 0x300014 + 4 * i) → t.reg a = s.reg a) ∧ { t with regs := s.regs, host := s.host } = s) ∧
  ∀ (k : Fin 2) (s : State), s.readable = true → ∃ t, exec (.domTimeSample k) s = .next t ∧
    (∀ i, i < 4 → t.reg (domReg k.val 8 + 4 * i) = (timeWords (full (s.time.dom k.val))).getD i 0) ∧
    (∀ a, (∀ i, i < 4 → a ≠ domReg k.val 8 + 4 * i) → t.reg a = s.reg a) ∧ { t with regs := s.regs, host := s.host } = s

/-! ## Runs, step edges, commits and the trail (02) -/

/-- RUN_START (R48) once it is due: the run's origin is the first multiple of B at least 200 ms after the start
instant, its identifier is a free value, no step edge has passed, and every cadence closes first at its phase; the
trail starts anew with RUN_START when the ring has room for it. -/
def Obligations.RunsStartAtTheirOrigin : Prop :=
  ∀ (start : Nat) (img : Image) (s : State), s.up = true → s.inRun = false → s.trail.hold = false →
    s.sec.entropyOk = true → s.steps.runDue = some start → s.steps.image = some img → 0 < img.baseUs →
    ∃ t r, exec .runStart s = .next t ∧ t.steps.run = some r ∧ t.steps.runDue = none ∧ t.steps.occs = [] ∧
      r.id = leBytes 16 (Config.freeNat s.free) ∧ r.base = img.baseUs * usUnits ∧ r.edges = 0 ∧
      r.t0 % r.base = 0 ∧ start + 200 * msUnits ≤ r.t0 ∧ r.t0 < start + 200 * msUnits + r.base ∧
      r.nextClose = img.cadences.map (·.phase) ∧ t.time = s.time ∧ t.power = s.power ∧
      (272 ≤ s.trailFree →
        ∃ x ∈ t.trail.records, x.seq = 0 ∧ x.draft.kind = kRunStart ∧ x.prev = List.replicate 48 0)

/-- STEP_EDGE (R52, R53, R10, R90): before device time has reached the admission close of `CADENCE_0` at the next step,
and while the ingress still holds a frame that arrived before it (assumption 87), nothing happens. Once it has, with no
image switch, end of the run, command, test or commit to take up at this edge, the edge is counted and `CADENCE_0` closes
next one multiple later; every register written since the last commit is committed; and occurrence n of `CADENCE_0`
joins the running ones with its close instant, where none runs yet. In a trail hold the step is lost instead: it
stands in the gap and no occurrence of it begins. -/
def Obligations.StepEdgesCountTheSteps : Prop :=
  ∀ (q : List Quality) (r : Run) (c : CadenceDecl) (s : State), s.up = true → s.steps.run = some r →
    s.cadences[0]? = some c →
    (s.now < r.close c r.edges ∨ s.ingressBefore (r.close c r.edges) = true → exec (.stepEdge q) s = .next s) ∧
    (r.close c r.edges ≤ s.now → s.ingressBefore (r.close c r.edges) = false → s.edgeIsPlain r.edges = true →
      ∃ t, exec (.stepEdge q) s = .next t ∧
        t.steps.run = some { r with edges := r.edges + 1, nextClose := r.nextClose.set 0 (r.edges + max 1 c.multiple) } ∧
        (s.trail.hold = false → t.shadowed = [] ∧ t.steps.imageStart = false) ∧
        (s.trail.hold = false → s.stepLost r.edges = false → (∀ o ∈ s.steps.occs, o.cadence ≠ 0) →
          ∃ o ∈ t.steps.occs, o.cadence = 0 ∧ o.step = r.edges ∧ o.close = r.close c r.edges) ∧
        (s.trail.hold = true → r.edges ∈ t.trail.gapSteps ∧ t.stepLost r.edges = true ∧
          ((∀ o ∈ s.steps.occs, o.step ≠ r.edges) → ∀ o ∈ t.steps.occs, o.cadence = 0 → o.step ≠ r.edges)))

/-- ADMISSION_CLOSE (R52, R90) of a longer cadence: it comes with device time at A(n) and after the step edge of step n;
the next occurrence then closes one multiple later, the run is otherwise as before, and occurrence n joins the running
ones with its close instant, where none of the cadence runs and the current step is not lost. Not yet due, and while the
ingress holds a frame that arrived before it (assumption 87), it does nothing. -/
def Obligations.LongerCadencesClose : Prop :=
  ∀ (k : Fin 16) (r : Run) (c : CadenceDecl) (s : State), s.up = true → k.val ≠ 0 → s.steps.run = some r →
    s.cadences[k.val]? = some c →
    let n := r.nextClose.getD k.val 0
    (n < r.edges → r.close c n ≤ s.now → s.ingressBefore (r.close c n) = false → s.search.waitCommits = [] →
      ∃ t, exec (.admissionClose k) s = .next t ∧
        t.steps.run = some { r with nextClose := r.nextClose.set k.val (n + max 1 c.multiple) } ∧
        (s.stepLost s.stepNow = false → (∀ o ∈ s.steps.occs, o.cadence ≠ k.val) →
          ∃ o ∈ t.steps.occs, o.cadence = k.val ∧ o.step = n ∧ o.close = r.close c n)) ∧
    (r.edges ≤ n ∨ s.now < r.close c n ∨ s.ingressBefore (r.close c n) = true → exec (.admissionClose k) s = .next s)

/-- OCCURRENCE_COMMIT (R77) of a running occurrence that no background merge holds up and whose records the trail takes:
it alone leaves the running ones, its checkpoint is gone, and a `CADENCE_0` commit writes the OUTPUT record of its step
summary (R91). A commit that a merge blocks (R345) waits from now on and changes nothing else. STALL_ABORT (R482) of an
occurrence whose stall has reached its limit: it alone leaves the running ones, its checkpoint is gone, the block answers
Shed with cause 0x0E, the skip is counted, and with no other occurrence of the cadence waiting memory is as at its
checkpoint. Before the limit it does nothing. -/
def Obligations.OccurrencesCommitOrAbort : Prop :=
  (∀ (k : Fin 16) (outs : List ModelOutput) (ops : List SearchOps) (o : Occurrence) (s : State), s.up = true →
    s.inRun = true → s.occOf k.val = some o → s.search.waitCommits.any (waitsFor k.val) = false →
    (s.mergeBlocks k.val = false → s.trail.hold = false → (s.commitOcc o outs ops).trail.hold = false →
      ∃ t, exec (.occurrenceCommit k outs ops) s = .next t ∧
        t.steps.occs.map (fun x => (x.cadence, x.step)) =
          (s.steps.occs.map (fun x => (x.cadence, x.step))).filter (fun x => x != (k.val, o.step)) ∧
        (∀ x ∈ t.checkpoints, ¬(x.cadence = k.val ∧ x.step = o.step)) ∧
        (k.val = 0 → o.cadence = 0 → ∃ x ∈ t.trail.records, s.trail.nextSeq ≤ x.seq ∧ x.draft.kind = kOutput ∧
          x.draft.step = o.step)) ∧
    (s.mergeBlocks k.val = true →
      ∃ t, exec (.occurrenceCommit k outs ops) s = .next t ∧ t = { s with search := { s.search with
        waitCommits := s.search.waitCommits ++ [(.occurrenceCommit k outs ops, some s.now)] } })) ∧
  (∀ (k : Fin 16) (o : Occurrence) (s : State), s.up = true → s.occOf k.val = some o →
    o.close + s.stallLimit ≤ s.now →
    ∃ t, exec (.stallAbort k) s = .next t ∧
      t.steps.occs.map (fun x => (x.cadence, x.step)) =
        (s.steps.occs.map (fun x => (x.cadence, x.step))).filter (fun x => x != (k.val, o.step)) ∧
      (∀ x ∈ t.checkpoints, ¬(x.cadence = k.val ∧ x.step = o.step)) ∧ t.reports s blockMemory shed 0x0E ∧
      (∀ w ∈ t.search.waitCommits, waitsFor k.val w = false) ∧
      t.reg64 0x10290 = (s.reg64 0x10290 + 1) % 2 ^ 64 ∧
      ((∀ x ∈ s.steps.occs, x.cadence = k.val → x.step = o.step) → t.mem = (s.restore k.val o.step).mem)) ∧
  ∀ (k : Fin 16) (o : Occurrence) (s : State), s.occOf k.val = some o → s.now < o.close + s.stallLimit →
    exec (.stallAbort k) s = .next s

/-- Writing the trail keeps it chained (R81, R87): each record carries the digest of the one before it, sequence
numbers ascend by one, and every sequence number 1,024 k + 1,023 is a SEAL. The reset state's trail is chained. -/
def Obligations.TheTrailStaysChained : Prop :=
  State.reset.trailChained ∧ ∀ (s : State) (d : TrailDraft), s.trailChained → (s.trailWrite d).trailChained

/-- Host software frees the trail ring, the archive ring and the output ring (R89, R93, R479, R489, R503): an aligned
value in the ring becomes the ring's read pointer, with no other effect on the run where no commit waits; any other value
is ignored. -/
def Obligations.ReadPointersFreeTheRings : Prop :=
  (∀ (v : Word) (s : State), s.up = true →
    (v.toNat % 8 = 0 → v.toNat < s.ringBytes → s.search.waitCommits = [] →
      ∃ t, exec (.trailReadWrite v) s = .next t ∧ t.trail.read = v.toNat ∧ t.steps = s.steps ∧ t.time = s.time ∧
        t.mem = s.mem) ∧
      (v.toNat % 8 ≠ 0 ∨ s.ringBytes ≤ v.toNat → exec (.trailReadWrite v) s = .next s)) ∧
  (∀ (v : Word) (s : State), s.up = true →
    (v.toNat % 4096 = 0 → v.toNat < s.archiveBytes → s.search.waitCommits = [] →
      ∃ t, exec (.archiveReadWrite v) s = .next t ∧ t.reg 0x600074 = v.toNat ∧ t.steps = s.steps ∧ t.time = s.time) ∧
      (v.toNat % 4096 ≠ 0 ∨ s.archiveBytes ≤ v.toNat → exec (.archiveReadWrite v) s = .next s)) ∧
  ∀ (v : Word) (s : State), s.up = true → s.host.attached = true →
    (v.toNat % 8 = 0 →
      ∃ t, exec (.outReadWrite v) s = .next t ∧ t.reg 0x100020 = v.toNat ∧ t.mem = s.mem ∧ t.steps = s.steps) ∧
      (v.toNat % 8 ≠ 0 → exec (.outReadWrite v) s = .next s)

/-! ## Tensor arrays (03) -/

/-- What every descriptor of an array has in common (R99, R131–R134, R138, R151): issued, it is answered Served, its address
is shown, and one more descriptor is done; a malformed one is answered Refused with cause 0x0C and does none of its work;
while the array is out of service a well-formed one is answered Refused with cause 0x0A; one whose accesses break R153 does
none of its work and sets `GS_EVENTS.ORDER_ERR` of the groundsheet (R155); one whose memory keeps it waiting (R162, R481) or
whose lantern is not granted waits at the head of the array's list; and one behind it waits its turn. -/
def Obligations.ArrayDescriptorsAreIssuedOrRefused : Prop :=
  ∀ (a : Fin 4) (j : ArrayJob) (c : Instr) (s : State), arrayJobOf c = some (a, j) →
    s.mayIssue j.desc.ctx.cadence = true → s.arrays.length = 4 →
    (s.arrayReady a j = true →
      ∃ t, exec c s = .next t ∧ t.reports s (blockArray a) served 0 ∧
        t.reg (arrayReg a 0x28) = min (s.reg (arrayReg a 0x28) + 1) (2 ^ 32 - 1) ∧
        t.reg64 (arrayReg a 0x20) = j.desc.ctx.addr % 2 ^ 64 ∧ t.steps.run = s.steps.run ∧ t.steps.occs = s.steps.occs ∧
        t.host.rings = s.host.rings ∧ t.trail = s.trail ∧ t.sec = s.sec ∧ t.time = s.time) ∧
    ((s.array a).queue = [] → s.arrayOk a j.op j.desc = false → s.faults.queue.length < 256 →
      ∃ t, exec c s = .next t ∧ t.reports s (blockArray a) refused 0x0C ∧ t.mem = s.mem ∧ t.arrays = s.arrays ∧
        t.steps = s.steps) ∧
    ((s.array a).queue = [] → s.arrayOk a j.op j.desc = true → s.inService (arrayRegion a) = false →
      ∃ t, exec c s = .next t ∧ t.reports s (blockArray a) refused 0x0A ∧
        { t with regs := s.regs, answers := s.answers } = s) ∧
    (∀ i, s.arrayTurn a j = true → s.arrayOk a j.op j.desc = true →
      s.memoryWaits (arrayRegion a) (arrayReads j ++ arrayWrites j) = false →
      s.waitOver j.desc.unit j.desc.wait = true →
      s.orderBroken j.desc.unit.toNat [j.desc.wait.toNat] (arrayReads j) (arrayWrites j) = some i →
      s.faults.queue.length < 256 →
      ∃ t, exec c s = .next t ∧ bitAt (t.reg (gsPage (lanternSheet i) + 0xC)) 2 = true ∧ t.mem = s.mem ∧
        t.arrays = s.arrays ∧ t.steps = s.steps ∧ t.sheets.lanterns = s.sheets.lanterns) ∧
    (s.arrayTurn a j = true → s.arrayOk a j.op j.desc = true →
      s.memoryWaits (arrayRegion a) (arrayReads j ++ arrayWrites j) = false →
      s.waitOver j.desc.unit j.desc.wait = false →
      ∃ t, exec c s = .next t ∧ (t.array a).queue = [j] ∧
        t.sheets.waits.any (fun w => w.unit == j.desc.unit.toNat && w.lantern == j.desc.wait.toNat) = true ∧
        (∀ b, b ≠ a.val → t.array b = s.array b) ∧ t.sheets.lanterns = s.sheets.lanterns ∧ t.mem = s.mem ∧
        t.steps = s.steps) ∧
    (s.arrayTurn a j = true → s.arrayOk a j.op j.desc = true →
      s.memoryWaits (arrayRegion a) (arrayReads j ++ arrayWrites j) = true →
      ∃ t, exec c s = .next t ∧ (t.array a).queue = [j] ∧ (∀ b, b ≠ a.val → t.array b = s.array b) ∧
        t.answers = s.answers ∧ t.mem = s.mem ∧ t.steps = s.steps ∧ t.sheets.lanterns = s.sheets.lanterns) ∧
    ((s.array a).queue ≠ [] →
      ∃ t, exec c s = .next t ∧ (t.array a).queue = (s.array a).queue ++ [j] ∧
        (∀ b, b ≠ a.val → t.array b = s.array b) ∧ { t with arrays := s.arrays } = s)

/-- LOAD_W of an integer format (R97) puts the elements read into the array's cells; STREAM of integer operands of at
most 8 bits (R96, R97, R102, R105) adds each row's products, shifted, to the accumulator entry modulo 2⁴⁸, or to the
column's bias for the first accumulation, and leaves the entries of other rows. Memory, the other arrays and everything but
registers, counters and lanterns keep their values; the lanterns are as its wait and its raise leave them. -/
def Obligations.LoadAndStreamMultiply : Prop :=
  (∀ (a : Fin 4) (d : ArrayDesc) (s : State), s.arrayReady a ⟨opLoadW, d, []⟩ = true → blockScaled d = false →
    s.arrays.length = 4 →
    ∃ t, exec (.loadW a d) s = .next t ∧
      (t.array a).slice = some ⟨d.fmtW.toNat, d.k.toNat, d.n.toNat,
        (s.readMat d.srcW.toNat d.fmtW.toNat d.k.toNat d.n.toNat).map (fun r => r.map (intElem d.fmtW.toNat)), [], [], []⟩ ∧
      (t.array a).accum = (s.array a).accum ∧ (∀ b, b ≠ a.val → t.array b = s.array b) ∧
      t.sheets = (s.afterWaitAndRaise d).sheets ∧ t.checkpoints = (s.afterWaitAndRaise d).checkpoints ∧
      State.sameButLanterns { t with arrays := s.arrays } s) ∧
  ∀ (a : Fin 4) (d : ArrayDesc) (sl : Slice) (s : State), s.arrayReady a ⟨opStream, d, []⟩ = true →
    blockScaled d = false → s.arrays.length = 4 → (s.array a).slice = some sl → sl.blocks = [] →
    fmtBits d.fmtA.toNat ≤ 8 → fmtBits sl.fmt ≤ 8 →
    ∃ t, exec (.stream a d) s = .next t ∧
      (∀ i j, i < d.m.toNat → j < min d.n.toNat sl.n →
        ((t.array a).accum.getD i []).getD j 0 =
          ofSigned 48 ((if aFlag d 0 then s.columnBias d j else (((s.array a).accum.getD i []).getD j 0 : Nat)) +
            (List.zipWith (fun x r => x * (r.getD j 0))
              (((s.readMat d.srcA.toNat d.fmtA.toNat d.m.toNat (min d.k.toNat sl.k)).getD i []).map
                (intElem d.fmtA.toNat)) sl.values).foldl (· + ·) 0 * 2 ^ bitsOf d.pass.toNat 3 5)) ∧
      (∀ i, d.m.toNat ≤ i → (t.array a).accum.getD i [] = (s.array a).accum.getD i []) ∧
      (t.array a).slice = (s.array a).slice ∧ (∀ b, b ≠ a.val → t.array b = s.array b) ∧
      t.sheets = (s.afterWaitAndRaise d).sheets ∧ t.checkpoints = (s.afterWaitAndRaise d).checkpoints ∧
      State.sameButLanterns { t with arrays := s.arrays } s

/-- JOIN (R104) adds the accumulator entries to the 64-bit partials it reads, or to 0 first, and stores the sums;
DRAIN (R112–R117) of entries without NF rows or columns and without block scaling to an integer format stores each column's
rounded, clamped result. Every byte outside the bytes stored keeps its value. -/
def Obligations.JoinAndDrainStore : Prop :=
  (∀ (a : Fin 4) (d : ArrayDesc) (s : State), s.arrayReady a ⟨opJoin, d, []⟩ = true → s.arrays.length = 4 →
    let n := d.n.toNat
    let len := 8 * (d.m.toNat * n)
    ∃ t, exec (.join a d) s = .next t ∧ (t.array a).joined.isSome = aFlag d 1 ∧
      (∀ i j, i < d.m.toNat → j < n → leVal (t.load (d.dst.toNat + 8 * (i * n + j)) 8) =
        ofSigned 64 ((if aFlag d 0 then 0 else signedOf 64 (leVal (s.load (d.srcW.toNat + 8 * (i * n + j)) 8))) +
          ((s.array a).sums.getD i []).getD j 0)) ∧
      (∀ x, x < d.dst.toNat ∨ d.dst.toNat + len ≤ x → t.byte x = s.byte x) ∧
      State.sameButStores { t with arrays := s.arrays } s) ∧
  ∀ (a : Fin 4) (d : ArrayDesc) (s : State), s.arrayReady a ⟨opDrain, d, []⟩ = true → d.fmtOut = 2 ∨ d.fmtOut = 4 →
    (s.array a).frac = 0 → (∀ b ∈ (s.array a).rowNf, b = false) → (∀ b ∈ (s.array a).colNf, b = false) →
    (s.array a).joined = none → s.arrays.length = 4 →
    let n := d.n.toNat
    let w := fmtBits d.fmtOut.toNat / 8
    ∃ t, exec (.drain a d) s = .next t ∧ (t.array a).joined = none ∧
      (∀ i j, i < d.m.toNat → j < n →
        let p := s.colParam d j
        leVal (t.load (d.dst.toNat + w * (i * n + j)) w) =
          (drainInt (8 * w) false (((s.array a).sums.getD i []).getD j 0) 0 p.mult p.sh p.zero).v) ∧
      (∀ x, x < d.dst.toNat ∨ d.dst.toNat + w * (d.m.toNat * n) ≤ x → t.byte x = s.byte x) ∧
      State.sameButStores { t with arrays := s.arrays } s

/-- VEC and REDUCE write nothing outside their results, in the output format; VEC with a table function and FP32 output
stores the function of each element (R119), and REDUCE with FP32 output the reduction of each row (R120, R123); STAGE
without a gather copies the bytes of its operand, and with one takes each byte-wide element from where the gather says, or 0
(R123); GEN (R74) fills its destination and advances the draw index of its unit and stream by its blocks. Every byte outside
the destination keeps its value. Which code of `FN` and `PASS` names which reduction is the model's choice (assumption
89). -/
def Obligations.VectorCommandsStore : Prop :=
  (∀ (a : Fin 4) (d : ArrayDesc) (s : State), s.arrayReady a ⟨opVec, d, []⟩ = true →
    ∃ t, exec (.vec a d) s = .next t ∧
      (∀ x, x < d.dst.toNat ∨ d.dst.toNat + elemSpan d.fmtOut.toNat (d.m.toNat * d.n.toNat) ≤ x → t.byte x = s.byte x) ∧
      (d.fmtOut = 0xC → 1 ≤ d.fn.toNat → d.fn.toNat < 0x20 → ∀ i j, i < d.m.toNat → j < d.n.toNat →
        leVal (t.load (d.dst.toNat + 4 * (i * d.n.toNat + j)) 4) =
          (DVal.narrow fp32 (drainFn (s.steps.image.getD default) d.fn.toNat
            (((s.readFp32 d d.srcA).getD i []).getD j 0))).v % 2 ^ 32) ∧
      State.sameButStores { t with arrays := s.arrays } s) ∧
  (∀ (a : Fin 4) (d : ArrayDesc) (s : State), s.arrayReady a ⟨opReduce, d, []⟩ = true →
    ∃ t, exec (.reduce a d) s = .next t ∧
      (∀ x, (∀ w ∈ arrayWrites ⟨opReduce, d, []⟩, x < w.1 ∨ w.1 + w.2 ≤ x) → t.byte x = s.byte x) ∧
      (let op := Config.reduceOp d.fn.toNat d.pass.toNat
       let w := reduceWidth op d.n.toNat d.k.toNat
       d.fmtOut = 0xC → ∀ i j, i < d.m.toNat → j < w →
         leVal (t.load (d.dst.toNat + 4 * (i * w + j)) 4) =
           (DVal.narrow fp32 ((reduceRow op d.k.toNat ((s.readFp32 d d.srcA).getD i [])).getD j (.pure 0))).v % 2 ^ 32) ∧
      State.sameButStores { t with arrays := s.arrays } s) ∧
  (∀ (a : Fin 4) (d : ArrayDesc) (g : List (Option Nat)) (s : State), s.arrayReady a ⟨opStage, d, g⟩ = true →
    let len := elemSpan d.fmtA.toNat (if g = [] then d.m.toNat * d.k.toNat else g.length)
    ∃ t, exec (.stage a ⟨d, g⟩) s = .next t ∧
      (g = [] → ∀ i, i < len → t.byte (d.dst.toNat + i) = s.byte (d.srcA.toNat + i)) ∧
      (fmtBits d.fmtA.toNat = 8 → ∀ i, (h : i < g.length) →
        t.byte (d.dst.toNat + i) = (g[i].map (fun p => s.byte (d.srcA.toNat + p))).getD 0) ∧
      (∀ x, x < d.dst.toNat ∨ d.dst.toNat + len ≤ x → t.byte x = s.byte x) ∧ t.arrays = s.arrays ∧ t.sameButStores s) ∧
  ∀ (a : Fin 4) (d : ArrayDesc) (o : Occurrence) (s : State), s.arrayReady a ⟨opGen, d, []⟩ = true →
    s.occOf d.ctx.cadence = some o →
    ∃ t, exec (.gen a d) s = .next t ∧
      (s.takeDraws d.ctx.cadence o.step d.unit.toNat (d.k.toNat % 65536) d.m.toNat).2.steps = t.steps ∧
      (∀ x, x < d.dst.toNat ∨ d.dst.toNat + 16 * d.m.toNat ≤ x → t.byte x = s.byte x) ∧
      State.sameButStores { t with arrays := s.arrays, steps := s.steps } s

/-- WAIT, RAISE and END of a list (R131, R150, R151): once issued each is done, with no effect of its own beside its wait
and its raise; RAISE by the producer of a filling slot lights it with the tag of its occurrence, and no other slot changes
where it awaits none. -/
def Obligations.SequencerCommandsComplete : Prop :=
  (∀ (a : Fin 4) (d : ArrayDesc) (c : Instr) (s : State),
    (c = .wait a d ∧ s.arrayReady a ⟨opWait, d, []⟩ = true) ∨ (c = .raise a d ∧ s.arrayReady a ⟨opRaise, d, []⟩ = true) ∨
      (c = .arrayEnd a d ∧ s.arrayReady a ⟨opEnd, d, []⟩ = true) →
    ∃ t, exec c s = .next t ∧ t.reg (arrayReg a 0x28) = min (s.reg (arrayReg a 0x28) + 1) (2 ^ 32 - 1) ∧
      t.sheets = (s.afterWaitAndRaise d).sheets ∧ t.checkpoints = (s.afterWaitAndRaise d).checkpoints ∧
      t.sameButLanterns s) ∧
  ∀ (a : Fin 4) (d : ArrayDesc) (u : LanternUse) (o : Occurrence) (s : State), s.arrayReady a ⟨opRaise, d, []⟩ = true →
    d.wait.toNat = noLantern → s.useOf d.raise.toNat = some u → u.producer = d.unit.toNat →
    (s.lantern d.raise.toNat).phase = filling → s.occOf d.ctx.cadence = some o → d.raise.toNat ≠ noLantern →
    ∃ t, exec (.raise a d) s = .next t ∧ (t.lantern d.raise.toNat).phase = lit ∧
      (t.lantern d.raise.toNat).tag = ⟨s.stepTime o.step, o.step, u.owner, d.unit.toNat⟩ ∧
      ∀ k, k ≠ d.raise.toNat → t.lantern k = s.lantern k

/-! ## Errors, recovery and self-test (17) -/

/-- ERROR_DETECT (R555, R556, R566): an uncorrected error enters the queue with its record, the next sequence number
is taken, and `UE_TOTAL` and `FAULT_EVENTS` report it; a corrected one enters the queue and counts in `CE_TOTAL`; a
device in reset or in a safe state detects nothing. ERROR_HANDLE (R79, R557, R566): a corrected error at the head is
logged; an uncorrected one of a running occurrence, with attempts left and no window on its region, opens a recovery
window and re-executes the one occurrence that it affects. -/
def Obligations.ErrorsAreQueuedAndHandled : Prop :=
  (∀ (e : ErrorInfo) (s : State), s.power.resetHeld = false → s.power.safe = false → s.faults.queue.length < 256 →
    ∃ t, exec (.errorDetect e) s = .next t ∧
      t.faults.queue = s.faults.queue ++ [⟨s.faults.nextSeq, s.now, e.region, e.kind, e.cause, e.address, s.rowCount e,
        e.detail, e.occs, e.lost⟩] ∧
      t.faults.nextSeq = (s.faults.nextSeq + 1) % 2 ^ 64 ∧
      t.fld ⟨0xE0000C, 0, 9⟩ = s.faults.queue.length + 1 ∧
      (e.kind = 1 ∨ e.kind = 2 ∨ e.kind = 3 →
        t.reg 0xE00034 = min (s.reg 0xE00034 + 1) (2 ^ 32 - 1) ∧ bitAt (t.reg 0xE00008) 1 = true) ∧
      (e.kind = 0 → t.reg64 0xE0002C = (s.reg64 0xE0002C + 1) % 2 ^ 64) ∧
      t.mem = s.mem ∧ t.steps = s.steps ∧ t.trail = s.trail ∧ t.sec = s.sec ∧ t.time = s.time) ∧
  (∀ (e : ErrorInfo) (s : State), s.power.resetHeld = true ∨ s.power.safe = true → exec (.errorDetect e) s = .next s) ∧
  (∀ (e : ErrRec) (rest : List ErrRec) (s : State), s.up = true → s.faults.queue = e :: rest → s.faults.lostCount = 0 →
    e.kind = 0 → regionClass e.region ≠ 3 →
    ∃ t, exec .errorHandle s = .next t ∧ t.faults = { s.faults with queue := rest } ∧ t.mem = s.mem ∧
      t.steps = s.steps ∧ t.tiers = s.tiers ∧
      (s.inRun = false → s.trail.preRun.length < 4096 →
        ∃ d, t.trail.preRun = s.trail.preRun ++ [d] ∧ d.kind = kFault)) ∧
  ∀ (e : ErrRec) (rest : List ErrRec) (p : Nat × Nat) (o : Occurrence) (s : State), s.up = true →
    s.faults.queue = e :: rest → s.faults.lostCount = 0 → e.kind = 1 ∨ e.kind = 2 ∨ e.kind = 3 → e.cause ≠ 0x0F →
    regionClass e.region ≠ 6 → regionClass e.region ≠ 8 → s.underTest e.region = false → e.lost = [] →
    (∀ w ∈ s.faults.windows, w.region ≠ e.region) → s.affected e = [p] → s.liveOcc p = some o → o.attempts < 2 →
    ∃ t, exec .errorHandle s = .next t ∧ t.faults.queue = rest ∧
      (∃ x ∈ t.steps.occs, x.cadence = p.1 ∧ x.step = p.2 ∧ x.attempts = o.attempts + 1) ∧
      (∃ w ∈ t.faults.windows, w.seq = e.seq ∧ w.region = e.region ∧ w.occs = [p]) ∧
      t.reg64 0x10298 = (s.reg64 0x10298 + 1) % 2 ^ 64

/-- Losses the runtime takes up at once. LOCKSTEP_MISMATCH (R570): the pair leaves service; its standby takes over, or
without one the device is in safe state 0xB. DIE_HEARTBEAT_LOSS (R554, R562, R563) of die `H` or `M` ends in a safe
state, and of another die sets its floor. SECURITY_RETEST_COMPLETE (R563, R574) brings the security block back or ends
in safe state 9. PLL_CHECK_WINDOW (R575): a first deviation is noted, and a second window beyond the limit of the root
PLL ends in safe state 0xE. ENTROPY_HEALTH_FAIL (R550): the entropy source is not used until the next boot. -/
def Obligations.LossesTakeEffectAtOnce : Prop :=
  (∀ (pair : Fin 2) (s : State), s.power.resetHeld = false → s.power.safe = false →
    s.isOut (pairRegion pair.val) = false → s.underTest (pairRegion pair.val) = false →
    ∃ t, exec (.lockstepMismatch pair) s = .next t ∧ t.isOut (pairRegion pair.val) = true ∧ t.mem = s.mem ∧
      (s.power.activePair = pair.val → s.power.standby = false → t.power.safe = true ∧ t.power.stage = 0xB) ∧
      (s.power.activePair = pair.val → s.power.standby = true →
        t.power.activePair = 1 - pair.val ∧ t.power.standby = false ∧ t.power.safe = false) ∧
      (s.power.activePair ≠ pair.val → t.power.activePair = s.power.activePair ∧ t.power.standby = false)) ∧
  (∀ (die : Fin 4) (s : State), s.power.resetHeld = false → s.power.safe = false →
    s.isOut (dieRegion die.val) = false → s.underTest (dieRegion die.val) = false → s.faults.queue = [] →
    s.faults.lostCount = 0 → s.faults.bist = none →
    ∃ t, exec (.dieHeartbeatLoss die) s = .next t ∧ t.isOut (dieRegion die.val) = true ∧
      (die.val = 0 → t.power.safe = true ∧ t.power.stage = 0xB) ∧
      (die.val = 3 → t.power.safe = true ∧ t.power.stage = 8) ∧
      (die.val = 1 ∨ die.val = 2 → t.faults.dieFloor = true ∧ t.power.safe = false)) ∧
  (∀ (pass : Bool) (s : State), s.power.resetHeld = false → s.power.safe = false → s.faults.secRetest = true →
    ∃ t, exec (.securityRetestComplete pass) s = .next t ∧ t.faults.secRetest = false ∧
      (pass = true → t.sec.quarantined = false ∧ t.isOut securityRegion = false ∧ t.power.safe = false) ∧
      (pass = false → t.power.safe = true ∧ t.power.stage = 9 ∧ t.sec = s.sec)) ∧
  (∀ (devs : List Int) (s : State), s.power.resetHeld = false → s.power.safe = false →
    (∀ i, i < 13 → pllBeyond (devs.getD i 0) = true → s.faults.pllBad.contains i = true →
      bitAt s.faults.pllFail i = true) →
    ∃ t, exec (.pllCheckWindow devs) s = .next t ∧
      t.faults = { s.faults with pllBad := (List.range 13).filter (fun i => pllBeyond (devs.getD i 0)) } ∧
      (∀ a, a ≠ 0xE00048 → t.reg a = s.reg a) ∧ { t with faults := s.faults, regs := s.regs } = s) ∧
  (∀ (devs : List Int) (s : State), s.power.resetHeld = false → s.power.safe = false →
    pllBeyond (devs.getD 0 0) = true → s.faults.pllBad.contains 0 = true → bitAt s.faults.pllFail 0 = false →
    s.faults.queue = [] → s.faults.lostCount = 0 → s.underTest (dieRegion 0) = false →
    ∃ t, exec (.pllCheckWindow devs) s = .next t ∧ t.power.safe = true ∧ t.power.stage = 0xE) ∧
  ∀ s : State, s.power.resetHeld = false → s.power.safe = false → s.sec.entropyOk = true →
    ∃ t, exec .entropyHealthFail s = .next t ∧ t.sec = { s.sec with entropyOk := false } ∧
      bitAt (t.reg secEvents) 6 = true ∧ t.mem = s.mem ∧ t.steps = s.steps ∧ t.power = s.power

/-- Self-test (R560, R571–R573). An accepted BIST_RUN of a region that may be tested begins the test, isolating at a
step edge during a run and at once without one; one that may not be tested is refused with cause 0x85. A test that
passes returns its unit, at a step edge or at once; one that fails leaves it out of service. BIST_ABORT ends the test;
where that answers the command that began it, Refused with cause 0x85, the block's register shows that answer and not its
own Served, both being of one cycle (R39). BIST_CYCLE and BIST_CYCLE_INTERVAL set and advance the cycle. -/
def Obligations.SelfTestsRunOnOneRegion : Prop :=
  (∀ (f : CritFrame) (region : BitVec 16) (force : Bool) (s : State), s.accepts f 0x0180 = true →
    regionExists region.toNat = true →
    ∃ t, exec (.bistRun f region force) s = .next t ∧ t.sec = s.secAfter f ∧
      (s.bistRefused region.toNat force = true → t.faults = s.faults ∧ t.critReports s 0x0180 refused 0x85) ∧
      (s.bistRefused region.toNat force = false → s.inRun = true → t.steps = s.steps ∧
        t.faults = { s.faults with
          bist := some ⟨region.toNat, 1, some (f, s.host.epoch), s.effectStep f, false⟩ }) ∧
      (s.bistRefused region.toNat force = false → s.inRun = false →
        t.faults.bist = some ⟨region.toNat, 2, some (f, s.host.epoch), 0, false⟩)) ∧
  (∀ (v : BistVerdict) (b : Bist) (s : State), s.up = true → s.faults.bist = some b → b.full = false → b.state = 2 →
    b.region = v.region → s.faults.testing.contains v.region = false → v.region < 65536 → v.outcome = 1 →
    ∃ t, exec (.bistComplete v) s = .next t ∧
      t.reg 0xE00028 = 1 + min v.coverage 1023 * 4 + v.region * 65536 ∧
      (s.inRun = true → t.faults.bist = some { b with state := 3, command := none } ∧
        t.faults.returning = s.faults.returning ++ [v.region]) ∧
      (s.inRun = false → t.faults.bist = none ∧ t.isOut v.region = false)) ∧
  (∀ (v : BistVerdict) (b : Bist) (s : State), s.up = true → s.faults.bist = some b → b.full = false → b.state = 2 →
    b.region = v.region → v.outcome = 3 →
    ∃ t, exec (.bistComplete v) s = .next t ∧ t.faults.bist = none ∧ t.isOut v.region = s.isOut v.region) ∧
  (∀ (f : CritFrame) (s : State), s.accepts f 0x0181 = true →
    ∃ t, exec (.bistAbort f) s = .next t ∧ t.sec = s.secAfter f ∧
      (s.faults.bist = none → t.faults = s.faults ∧ t.critReports s 0x0181 served 0) ∧
      (∀ b, s.faults.bist = some b → b.full = true ∨ b.state = 3 → t.faults = s.faults ∧ t.critReports s 0x0181 served 0) ∧
      (∀ b g, s.faults.bist = some b → b.full = false → b.state ≠ 3 → b.command = some g →
        0x0180 ≤ g.1.opcode.toNat → g.1.opcode.toNat ≤ 0x01BF → t.critReports s 0x0181 refused 0x85) ∧
      (∀ b, s.faults.bist = some b → b.full = false → b.state = 1 → t.faults.bist = none) ∧
      ∀ b, s.faults.bist = some b → b.full = false → b.state = 2 → s.inRun = true →
        t.faults.bist = some { b with state := 3, command := none } ∧
        t.faults.returning = s.faults.returning ++ [b.region]) ∧
  (∀ (f : CritFrame) (n : BitVec 32) (mask : BitVec 16) (s : State), s.accepts f 0x0182 = true →
    ∃ t, exec (.bistCycle f n mask) s = .next t ∧ t.sec = s.secAfter f ∧ t.critReports s 0x0182 served 0 ∧
      t.faults = { s.faults with cycleSteps := n.toNat, cycleMask := mask.toNat, cycleAt := s.stepNow + n.toNat }) ∧
  ∀ s : State, s.up = true → s.inRun = true → s.faults.cycleSteps ≠ 0 → s.faults.cycleAt ≤ s.stepNow →
    ∃ t, exec .bistCycleInterval s = .next t ∧ t.faults.cycleAt = s.stepNow + s.faults.cycleSteps ∧
      (∀ r, s.cycleRegions = [r] → t.faults.bist = some ⟨r, 1, none, s.nextStep, false⟩) ∧
      (s.cycleRegions = [] → t.faults.bist = s.faults.bist) ∧ { t with faults := s.faults } = s

/-- The destructive test and the repair log (R569, R571, R576): an accepted BIST_FULL leaves every byte of memory at
its reset value and the test in progress; REPAIR_LOG_READ writes the log to host memory; and REPAIR_LOG_CLEAR in
RETURN empties it. That memory then reads 0x00, the log's bytes and where they lie are the model's choices
(assumptions 8, 21 and 65). -/
def Obligations.FullTestAndRepairLog : Prop :=
  (∀ (f : CritFrame) (s : State), s.accepts f 0x01A0 = true → s.faults.bist = none →
    ∃ t, exec (.bistFull f) s = .next t ∧ t.mem = [] ∧
      t.faults.bist = some ⟨0xFFFF, 2, some (f, s.host.epoch), s.stepNow, true⟩ ∧
      (s.inRun = true → t.steps.endRun = true) ∧ t.sec = s.secAfter f) ∧
  (∀ (f : CritFrame) (reply : Nat) (s : State), s.accepts f 0x01A1 = true →
    ∃ t, exec (.repairLogRead f reply) s = .next t ∧
      t.host.written = (reply, repairLogBytes s.flash.repairLog) :: s.host.written ∧
      t.critReports s 0x01A1 served 0 ∧ t.flash = s.flash ∧ t.mem = s.mem ∧ t.faults = s.faults) ∧
  ∀ (f : CritFrame) (s : State), s.accepts f 0x01A2 = true →
    ∃ t, exec (.repairLogClear f) s = .next t ∧
      (s.lc = lcReturn → t.flash = { s.flash with repairLog := [] } ∧ t.critReports s 0x01A2 served 0) ∧
      (s.lc ≠ lcReturn → t.flash = s.flash ∧ t.critReports s 0x01A2 refused 0x09) ∧ t.faults = s.faults

/-! ## Critical commands, identity and life-cycle (16) -/

/-- The checks of a critical command, in order (R537): entry and frame, keyed check, counter, right, life-cycle state;
also that the security block is not quarantined (R563). The first that fails gives the outcome Refused and its cause;
the counter advances only when the check and the counter themselves pass; and a refused command changes nothing else
of the security block, the flash, the run, memory, objects or faults. -/
def Obligations.CriticalCommandsAreChecked : Prop :=
  ∀ (c : Instr) (f : CritFrame) (op : Nat) (s : State), critOf c = some (f, op) → s.entryOk f.hdr = true →
    let flagged := f.hdr.flags.getLsbD 0
    let formed := flagged && frameOk f op
    let keyed := formed && !s.sec.quarantined && s.checkOk f
    let fresh := keyed && decide (s.counterOf f.role.toNat < f.counter.toNat)
    let verdict : Option (Nat × Security) :=
      if !formed then some (0x0C, s.sec)
      else if s.sec.quarantined then some (0x0A, s.sec)
      else if !keyed then some (0x06, s.sec)
      else if !fresh then some (0x07, s.sec)
      else if !hasRight op f.role.toNat then some (0x08, s.secAfter f)
      else if !stateAllows op f.role.toNat s.lc then some (0x09, s.secAfter f)
      else none
    ∀ (cause : Nat) (sec : Security), verdict = some (cause, sec) →
      ∃ t, exec c s = .next t ∧ t.critReports s op refused cause ∧ t.sec = sec ∧ t.flash = s.flash ∧
        t.steps = s.steps ∧ t.mem = s.mem ∧ t.tiers = s.tiers ∧ t.faults = s.faults ∧ t.search = s.search ∧
        t.power = s.power ∧ t.reg 0x200044 = min (s.reg 0x200044 + 1) (2 ^ 32 - 1)

/-- Keys, attestation and certificates (R528, R530–R534, R545, R548). KEY_AGREE whose signature, right, state, bulk,
chain and entropy pass replaces the role's key by a fresh one under the agreed root and sets its counter to 0, unless
the host's point is not on the curve; KEY_RETIRE drops the role's key; ATTEST and CERT_READ write their reply;
DEVICE_CERT_INSTALL installs a chain of the maker for the device's own key; the test access port opens debug in FAB
and RETURN only. Where a reply lies is the model's choice (assumption 21). -/
def Obligations.KeysAndCertificates : Prop :=
  (∀ (f : CritFrame) (leaf : Cert) (chain : List Cert) (root : Bytes) (bulk : Bulk) (qh : Nat × Nat) (nh : Bytes)
    (reply : Nat) (s : State), s.entryOk f.hdr = true → f.hdr.flags.getLsbD 0 = true → frameOk f opKeyAgree = true →
    s.sec.quarantined = false → s.sec.counters.length = 3 → hasRight opKeyAgree f.role.toNat = true →
    stateAllows opKeyAgree f.role.toNat s.lc = true → bulkOk bulk = true → s.sec.entropyOk = true →
    ecdsaVerify leaf.pub (sha384 (frameBytes f)) (beAt f.check 0 48) (beAt f.check 48 48) = true →
    s.chainRoot f.role.toNat (leaf :: chain) = some root → s.revoked (leaf :: chain) = false →
    ∃ t, exec (.keyAgree f (leaf :: chain) bulk qh nh reply) s = .next t ∧
      match ecdh (1 + Config.freeNat s.free % (p384N - 1)) qh with
      | none => t.sec = s.sec ∧ t.critReports s opKeyAgree refused 0x0C
      | some _ =>
        t.critReports s opKeyAgree served 0 ∧ t.counterOf f.role.toNat = 0 ∧
        (∃ k, t.sec.keys = s.sec.keys.filter (fun x => x.role != f.role.toNat) ++ [k] ∧ k.role = f.role.toNat ∧
          k.root = root ∧ k.serial = leaf.serial ∧ 0 < k.id ∧ k.id < 2 ^ 32) ∧
        ∃ bs, t.host.written = (reply, bs) :: s.host.written) ∧
  (∀ (f : CritFrame) (s : State), s.accepts f 0x0101 = true →
    ∃ t, exec (.keyRetire f) s = .next t ∧ t.critReports s 0x0101 served 0 ∧
      t.sec = { s.secAfter f with keys := s.sec.keys.filter (fun x => x.role != f.role.toNat) }) ∧
  (∀ (f : CritFrame) (nonce : Bytes) (reply : Nat) (s : State), s.accepts f 0x0102 = true → s.sec.entropyOk = true →
    ∃ t, exec (.attest f nonce reply) s = .next t ∧ t.critReports s 0x0102 served 0 ∧ t.sec = s.secAfter f ∧
      t.host.written = (reply, (s.report f.role.toNat nonce).1) :: s.host.written) ∧
  (∀ (f : CritFrame) (reply : Nat) (s : State), s.accepts f 0x0103 = true →
    ∃ t bs, exec (.certRead f reply) s = .next t ∧ t.critReports s 0x0103 served 0 ∧ t.sec = s.secAfter f ∧
      t.host.written = (reply, bs) :: s.host.written ∧
      ∀ cs, s.sec.deviceCert = some cs → bs = cs.flatMap certBytes) ∧
  (∀ (f : CritFrame) (bulk : Bulk) (chain : List Cert) (d : Nat) (s : State), s.accepts f 0x0104 = true →
    s.sec.deviceCert = none → s.sec.identity = some d → bulkOk bulk = true →
    let good := chainShape chain && endsAtMaker chain && (chain.head?.any (fun c => c.pub == ecPublic d))
    ∃ t, exec (.deviceCertInstall f bulk chain) s = .next t ∧
      (good = true → t.critReports s 0x0104 served 0 ∧ t.sec = { s.secAfter f with deviceCert := some chain }) ∧
      (good = false → t.critReports s 0x0104 refused 0x70 ∧ t.sec = s.secAfter f)) ∧
  ∀ (j : JtagOp) (s : State), ∃ t, exec (.jtagInstruction j) s = .next t ∧ { t with sec := s.sec } = s ∧
    { t.sec with jtag := s.sec.jtag } = s.sec ∧
    (t.sec.jtag = .debug ↔ j = .debug ∧ (s.lc = lcFab ∨ s.lc = lcReturn)) ∧
    (t.sec.jtag = .extest ↔ j = .extest ∧ s.power.resetHeld = true)

/-- Life-cycle transitions at once (R541–R544) and the installer's writes at once (R540, R547): LC_PROVISION from FAB
draws the keys, LC_SERVICE needs its preconditions, LC_RETURN from PROVISION and LC_END erase the user's keys and the
site store, and LC_END also the identity and ends in safe state 0xD; CONFIG_KEY_SET writes the site store, and
SECURITY_VERSION_RAISE raises the minimum version up to the active slot's. -/
def Obligations.LifeCycleTransitions : Prop :=
  (∀ (f : CritFrame) (s : State), s.accepts f 0x0110 = true → s.lc = lcFab → s.sec.identity = none →
    ∃ t, exec (.lcProvision f) s = .next t ∧ t.lc = lcProvision ∧ t.critReports s 0x0110 served 0 ∧
      t.sec = { s.secAfter f with
        lcWords := s.sec.lcWords ++ [lcProvision], identity := some (1 + Config.freeNat s.free % (p384N - 1))
        storageKey := some (leBytes 32 (Config.freeNat (s.free + 1))) } ∧ t.mem = s.mem ∧ t.flash = s.flash) ∧
  (∀ (f : CritFrame) (s : State), s.accepts f 0x0111 = true →
    let good := s.sec.deviceCert.isSome && s.sec.site.root.isSome && s.sec.site.configKey.isSome &&
      !s.sec.site.imageKeys.isEmpty && (s.chooseSlot lcService).1.isSome
    ∃ t, exec (.lcService f) s = .next t ∧
      (good = true → t.lc = lcService ∧ t.critReports s 0x0111 served 0 ∧
        t.power.slot = (s.chooseSlot lcService).1) ∧
      (good = false → t.sec = s.secAfter f ∧ t.critReports s 0x0111 refused 0x77 ∧ t.power = s.power)) ∧
  (∀ (f : CritFrame) (s : State), s.accepts f 0x0112 = true → s.lc = lcProvision →
    ∃ t, exec (.lcReturn f) s = .next t ∧ t.lc = lcReturn ∧ t.critReports s 0x0112 served 0 ∧ t.sec.keys = [] ∧
      t.sec.storageKey = none ∧ t.sec.counters = [0, 0, 0] ∧ t.sec.site = default ∧ t.flash.siteA = none ∧
      t.flash.siteB = none ∧ t.sec.identity = s.sec.identity ∧ t.sec.deviceCert = s.sec.deviceCert) ∧
  (∀ (f : CritFrame) (s : State), s.accepts f 0x0113 = true →
    ∃ t, exec (.lcEnd f) s = .next t ∧ t.lc = lcEnd ∧ t.sec.identity = none ∧ t.sec.keys = [] ∧
      t.sec.storageKey = none ∧ t.power.safe = true ∧ t.power.stage = 0xD ∧ t.power.devFault = true) ∧
  (∀ (f : CritFrame) (key : Nat × Nat) (s : State), s.accepts f 0x0121 = true → p384OnCurve key = true →
    let site := { s.sec.site with configKey := some key, seq := s.sec.site.seq + 1 }
    (∃ t, exec (.configKeySet f key true) s = .next t ∧ t.sec = { s.secAfter f with site := site } ∧
      t.critReports s 0x0121 served 0 ∧ (t.flash.siteA = some site ∨ t.flash.siteB = some site)) ∧
    ∃ t, exec (.configKeySet f key false) s = .next t ∧ t.sec = s.secAfter f ∧ t.flash = s.flash ∧
      t.critReports s 0x0121 refused 0x0F) ∧
  ∀ (f : CritFrame) (v : BitVec 32) (s : State), s.accepts f 0x0127 = true →
    let good := s.sec.minVersion < v.toNat ∧ v.toNat ≤ (s.activeSlot.map (·.securityVersion)).getD 0
    ∃ t, exec (.securityVersionRaise f v) s = .next t ∧
      (good → t.sec = { s.secAfter f with minVersion := v.toNat } ∧ t.critReports s 0x0127 served 0) ∧
      (¬good → t.sec = s.secAfter f ∧ t.critReports s 0x0127 refused 0x74)

/-- A "step edge" command whose own checks pass, accepted during a run (R539), waits for its edge, the later of the
step it names and the next one, behind those accepted before it; nothing of the run, the site store or the faults
changes yet. -/
def Obligations.EdgeCommandsWaitInARun : Prop :=
  ∀ (c : Instr) (f : CritFrame) (op : Nat) (s : State), critOf c = some (f, op) → s.accepts f op = true →
    s.edgeReady c = true → s.inRun = true →
    ∃ t, exec c s = .next t ∧
      t.sec = { s.secAfter f with waiting := s.sec.waiting ++ [⟨c, f, max f.effectStep.toNat s.nextStep, s.host.epoch⟩] } ∧
      t.steps = s.steps ∧ t.faults = s.faults ∧ t.search = s.search ∧ t.flash = s.flash ∧ t.out = s.out

/-- Without a run such a command takes effect at acceptance and is Served (R539): the site store takes the new item
under the next sequence number, pipelines start and stop, SERVICE ends, and a collection's change is queued for its
next commit. -/
def Obligations.EdgeCommandsTakeEffectWithoutARun : Prop :=
  ∀ (c : Instr) (f : CritFrame) (op : Nat) (s : State), critOf c = some (f, op) → s.accepts f op = true →
    s.edgeReady c = true → s.inRun = false →
    let site := { s.sec.site with seq := s.sec.site.seq + 1 }
    ∃ t, exec c s = .next t ∧
      (∀ keys, c = .imageKeysSet f keys true → t.sec.site = { site with imageKeys := keys }) ∧
      (∀ b entries, c = .calibrationSet f b entries true → t.sec.site = { site with
        calibrations := site.calibrations.filter (fun x => !entries.any (fun e => e.sensor == x.sensor)) ++ entries }) ∧
      (∀ b entries, c = .rosterSet f b entries true → t.sec.site = { site with roster := entries }) ∧
      (∀ b pegs, c = .pegSet f b pegs true → t.sec.site = { site with
        pegs := site.pegs.filter (fun p => !pegs.any (fun q => q.peg == p.peg)) ++ pegs }) ∧
      (∀ d, c = .datumSet f d true → t.sec.site = { site with datum := some d }) ∧
      (∀ b root cert revoked sig, c = .siteInstall f b root cert revoked sig true → t.sec.site = { site with
        root := root.orElse (fun _ => site.root), siteCert := cert, revoked := revoked } ∧
        ∀ k ∈ t.sec.keys, revoked.contains k.serial = false) ∧
      (∀ p, c = .pipelineStop f p → t.out.stopped.contains p.toNat = true) ∧
      (∀ p, c = .pipelineStart f p → t.out.stopped.contains p.toNat = false) ∧
      (c = .lcProvision f → t.lc = lcProvision ∧ t.steps.image = none ∧ t.steps.runDue = none) ∧
      (c = .lcReturn f → t.lc = lcReturn ∧ t.sec.keys = [] ∧ t.steps.image = none ∧ t.steps.runDue = none) ∧
      (∀ i dim b items reply, c = .searchInsert f i dim b items reply → i < s.search.colls.length →
        (t.coll i).hostOps = (s.coll i).hostOps ++ [⟨f, s.host.epoch, .insert items reply⟩]) ∧
      (∀ i b ids reply, c = .searchDelete f i b ids reply → i < s.search.colls.length →
        (t.coll i).hostOps = (s.coll i).hostOps ++ [⟨f, s.host.epoch, .delete ids reply⟩]) ∧
      (∀ i b, c = .searchLoad f i b → i < s.search.colls.length → (t.coll i).state = collUsable ∧
        (t.coll i).hostOps.length = (s.coll i).hostOps.length + 1) ∧
      (flashFails c = false → t.critReports s op served 0) ∧
      (flashFails c = true → t.critReports s op refused 0x0F ∧ t.sec.site = s.sec.site ∧ t.flash = s.flash)

/-- Updates (R520–R523, R570). IMAGE_STAGE of components that pass every check writes the inactive slot, uncommitted
and one sequence number on, and stages its start image. IMAGE_ACTIVATE switches at a step during a run, and at once
without one. RUNTIME_STAGE stages a runtime that the maker signed; RUNTIME_ACTIVATE waits for its edge or, without a
run, swaps the pairs at once; and STANDBY_RELOAD_COMPLETE makes the former active pair the standby. -/
def Obligations.UpdatesStageAndActivate : Prop :=
  (∀ (f : CritFrame) (bulks : List Bulk) (images : List Component) (config : Option Component)
    (seeds : List (Nat × Bytes)) (a : Slot) (img : Image) (s : State), s.accepts f 0x0200 = true →
    s.activeSlot = some a → s.host.stagedSlot = none →
    let cs := stagedComponents a.components (images.map (withSeed seeds)) config
    let imgs := cs.filterMap Component.image?
    images.all (fun c => c.image?.isSome) = true → config.all (fun c => c.config?.isSome && s.signedOk c) = true →
    imgs.length ≤ 15 → imgs.filter (fun p => p.2) = [(img, true)] → seeds.all (fun p => p.2.length == 32) = true →
    imgs.all (fun p => ratesFit p.1.channels s.sec.site.roster) = true → bulks.all bulkOk = true →
    images.all (fun c => s.signedOk c) = true →
    (images ++ config.toList).all (fun c => sha384 c.bytes == c.digest) = true →
    configOk ((cs.findSome? Component.config?).getD []) (some img) = true →
    sumTiles (img.objects.filter ObjectDecl.inT3) ≤ s.t3Free →
    ∃ t, exec (.imageStage f bulks images config seeds true) s = .next t ∧ t.critReports s 0x0200 served 0 ∧
      t.host.stagedImage = some img ∧ t.host.stagedSlot = some s.inactiveSlot ∧
      t.slotAt s.inactiveSlot = some { a with committed := false, slotSeq := a.slotSeq + 1, components := cs } ∧
      t.activeSlot = s.activeSlot ∧ t.steps.image = s.steps.image ∧ t.mem = s.mem ∧ t.sec = s.secAfter f) ∧
  (∀ (f : CritFrame) (n : BitVec 64) (img : Image) (s : State), s.accepts f 0x0201 = true →
    s.host.stagedImage = some img →
    ∃ t, exec (.imageActivate f n) s = .next t ∧
      (s.inRun = true → t.steps.switch = some (img, s.switchStep n.toNat) ∧ t.steps.image = s.steps.image ∧
        t.steps.run = s.steps.run ∧ t.flash = s.flash) ∧
      (s.inRun = false → t.steps.image = some img ∧ t.host.stagedImage = none ∧ t.host.stagedSlot = none)) ∧
  (∀ (f : CritFrame) (bulk : Bulk) (rt : Component) (flashOk : Bool) (v : Nat) (s : State),
    s.accepts f 0x0202 = true → rt.runtime? = some v → bulkOk bulk = true →
    let good := flashOk && sha384 rt.bytes == rt.digest && s.signedOk rt
    ∃ t, exec (.runtimeStage f bulk rt flashOk) s = .next t ∧
      (good = true → t.host.stagedRuntime = some rt ∧ t.critReports s 0x0202 served 0) ∧
      (good = false → t.host.stagedRuntime = none ∧ t.host.stagedSlot = none ∧
        t.critReports s 0x0202 refused 0x0F)) ∧
  (∀ (f : CritFrame) (n : BitVec 64) (rt : Component) (s : State), s.accepts f 0x0203 = true →
    s.host.stagedRuntime = some rt → s.power.standby = true →
    ∃ t, exec (.runtimeActivate f n) s = .next t ∧
      (s.inRun = true → t.power = s.power ∧ t.sec = { s.secAfter f with
        waiting := s.sec.waiting ++ [⟨.runtimeActivate f n, f, max n.toNat (s.effectStep f), s.host.epoch⟩] }) ∧
      (s.inRun = false → t.power.activePair = 1 - s.power.activePair ∧ t.power.standby = false ∧
        t.power.runtimeDigest = rt.digest ∧ t.host.stagedRuntime = none ∧
        t.reg 0x14 = rt.runtime?.getD 0 % 2 ^ 32 ∧ t.critReports s 0x0203 served 0)) ∧
  ∀ s : State, s.up = true → s.power.standby = false → s.isOut (pairRegion (1 - s.power.activePair)) = false →
    s.power.pairsUnusable.contains (1 - s.power.activePair) = false →
    ∃ t, exec .standbyReloadComplete s = .next t ∧ t.power = { s.power with standby := true } ∧
      { t with power := s.power, host := s.host } = s

/-! ## Ports and Tether sessions (13) -/

/-- Ports (R427–R433, R455). A link change of an enabled port is shown and its FEC counts grow; a frame that the port
takes and that the buffer has room for enters it with its class and compensated stamp, and one too long, of another
VLAN or fragmented is counted as dropped; FRAME_OTHER answers or drops the oldest frame; PRP supervision frames leave
on both LANs; and a node leaves its table after 60 s. -/
def Obligations.PortsTakeAndSendFrames : Prop :=
  (∀ (port : Fin 4) (up fec loc rem : Bool) (corr uncorr : Nat) (s : State), s.up = true →
    s.fld ⟨portReg port.val 0, 0, 2⟩ ≠ 0 →
    ∃ t, exec (.portLinkChange port up fec loc rem corr uncorr) s = .next t ∧
      t.fld ⟨portReg port.val 4, 0, 4⟩ = b2n up + 2 * b2n fec + 4 * b2n loc + 8 * b2n rem ∧
      t.reg (portReg port.val 0x14) = min (s.reg (portReg port.val 0x14) + corr) (2 ^ 32 - 1) ∧
      t.reg (portReg port.val 0x18) = min (s.reg (portReg port.val 0x18) + uncorr) (2 ^ 32 - 1) ∧
      (s.fld ⟨portReg port.val 4, 0, 1⟩ = 1 → up = false → bitAt (t.reg portsEvents) 4 = true) ∧
      { t with regs := s.regs, counters := s.counters, host := s.host } = s) ∧
  (∀ (port : Fin 4) (q : Fin 8) (f : RxFrame) (s : State), s.up = true → s.fld ⟨portReg port.val 0, 0, 2⟩ ≠ 0 →
    s.isOut (portRegion port.val) = false →
    let bad := s.fld ⟨portReg port.val 0, 16, 14⟩ < f.ipBytes ∨ s.vlanOk port.val f.vlan = false ∨ f.body = .fragmented
    ∃ t, exec (.frameIngress port q f) s = .next t ∧ t.mem = s.mem ∧ t.steps = s.steps ∧
      (bad → t.ports.ingress = s.ports.ingress ∧
        t.reg (portReg port.val 0x10) = min (s.reg (portReg port.val 0x10) + 1) (2 ^ 32 - 1)) ∧
      (¬bad → f.prp = none ∨ s.prpOn (port.val / 2) = false → s.ports.ingress.length < ingressSize →
        t.ports.ingress = s.ports.ingress ++ [⟨port.val, (s.classify f.body (s.rxStamp port.val 0 q.val)).2,
          s.rxStamp port.val 0 q.val, f.body, f.vlan, (s.offsetNs 0, s.offsetNs 1)⟩])) ∧
  (∀ (f : BufFrame) (rest : List BufFrame) (s : State), s.up = true → s.ports.ingress = f :: rest →
    isTether f.body = false → isSv f.body = false →
    ∃ t, exec .frameOther s = .next t ∧ t.ports.ingress = rest ∧
      (f.body = .other → t.ports.sent = s.ports.sent ∧
        t.reg (portReg f.port 0x10) = min (s.reg (portReg f.port 0x10) + 1) (2 ^ 32 - 1)) ∧
      (f.body ≠ .other → t.ports.sent.length = s.ports.sent.length + s.copies f.port ∧ t.regs = s.regs)) ∧
  (∀ s : State, s.up = true → ∃ t, exec .prpSupervision s = .next t ∧
    t.ports.sent.length = s.ports.sent.length + 2 * ((List.range 2).filter s.prpOn).length ∧
    { t with ports := s.ports } = s) ∧
  ∀ (pair : Fin 2) (mac : Nat) (s : State), s.up = true → ∃ t, exec (.prpNodeAgeing pair mac) s = .next t ∧
    (∀ n, n ∈ t.ports.nodes ↔
      n ∈ s.ports.nodes ∧ ¬(n.pair = pair.val ∧ n.mac = mac ∧ n.seen + 60 * secUnits ≤ s.now)) ∧
    { t with ports := { t.ports with nodes := s.ports.nodes } } = s

/-- Sessions begin and end (R439, R440, R446, R448). A DECLARE whose tag verifies opens a session when no check
refuses it, and earlier sessions of its slot begin to close; a refused one is counted and answered. CLOSE and
LIVENESS_TIMEOUT begin a session's closing with their reason; a closing session with nothing left ends; and
SLOT_VIEW_SAMPLE shows a slot. -/
def Obligations.SessionsBeginAndEnd : Prop :=
  (∀ (f : BufFrame) (rest : List BufFrame) (src : Nat) (p : Bytes) (e : RosterEntry) (s : State), s.up = true →
    s.ports.ingress = f :: rest → f.body = .tether src p → frKind p = tDeclare → frHead p = true →
    frLengthOk p = true →
    (s.sec.site.roster.filter (fun e => e.slot == frSlot p && e.kind == 0)).find?
      (fun e => frTagOk e.key p && e.addr == src) = some e →
    ∃ t, exec .declare s = .next t ∧ t.ports.ingress = rest ∧
      (s.declareCause e p = 0 → t.reports s blockPorts served 0 ∧
        ∃ sid dn, newSession f e p sid dn ∈ t.ports.sessions ∧
          ∀ y ∈ t.ports.sessions, y.slot = e.slot → y.state = 1 → y = newSession f e p sid dn) ∧
      (s.declareCause e p ≠ 0 → t.ports.sessions = s.ports.sessions ∧
        t.reports s blockPorts refused (s.declareCause e p) ∧
        t.reg 0x400030 = min (s.reg 0x400030 + 1) (2 ^ 32 - 1) ∧
        t.ports.sent.length = s.ports.sent.length + s.copies f.port)) ∧
  (∀ (f : BufFrame) (p : Bytes) (x : Session) (s : State), s.up = true → s.sessionsApart →
    s.newFrame tClose f p x = true →
    ∃ t, exec .close s = .next t ∧ t.ports.ingress = s.ports.ingress.drop 1 ∧
      (t.session x.id).map (fun y => (y.state, y.reason)) = some (2, 0) ∧
      (∀ y ∈ s.ports.sessions, y.id ≠ x.id → y ∈ t.ports.sessions)) ∧
  (∀ (slot : Fin 4096) (x : Session) (s : State), s.up = true → s.sessionsApart →
    s.liveSession slot.val = some x → x.lastFrame + x.livenessS * secUnits ≤ s.now →
    ∃ t, exec (.livenessTimeout slot) s = .next t ∧ t.session x.id = some { x with state := 2, reason := 1 } ∧
      (∀ y ∈ s.ports.sessions, y.id ≠ x.id → y ∈ t.ports.sessions) ∧ { t with ports := s.ports } = s) ∧
  (∀ (slot : Fin 4096) (x : Session) (s : State), s.up = true → s.sessionsApart →
    s.ports.sessions.find? (fun x => x.slot == slot.val && x.state == 2) = some x → x.queue = [] → x.opened = [] →
    ∃ t, exec (.sessionCloseComplete slot) s = .next t ∧ t.session x.id = none ∧
      s.ports.sent.length < t.ports.sent.length ∧ t.regs = s.regs ∧ t.mem = s.mem) ∧
  ∀ s : State, s.readable = true → ∃ t, exec .slotViewSample s = .next t ∧
    (∀ x, s.liveSession (s.fld ⟨0x40001C, 0, 12⟩) = some x →
      t.reg 0x400024 = x.id % 2 ^ 32 ∧ t.fld ⟨0x400020, 0, 2⟩ = 1 ∧
      t.reg 0x400028 = min 65535 (ceilDiv x.used 1024) + 65536 * min 65535 x.queue.length ∧
      (x.timeSource ≤ 3 → t.host.reply = .data (t.reg 0x400020))) ∧
    (∀ a, a < 0x400020 ∨ 0x400030 ≤ a → t.reg a = s.reg a) ∧ { t with regs := s.regs, host := s.host } = s

/-- What sessions serve (R437, R441–R445, R450–R452). An authentic, new DATA frame is taken once, and its number is
not accepted again. One that its check refuses is counted and answered Refused with the cause. One within contract
draws its tokens and is answered, or stays open until its inputs are decided; one beyond it enters the delay queue
while the quota has room, and is otherwise shed. A frame whose turn comes leaves the delay queue, draws its tokens,
and is served in the same way. ACK sends what the session of a slot has not reported, in frames of 64 ranges, and
leaves nothing unreported; STATUS_REQ and STATUS send the STATUS frame; TIME_REQ sends a request and keeps its egress
stamp. Time exchanges and sampled values (R215, R365, R366, R445, R452). TIME_RESP of an open exchange ends it; where
its round trip is negative it is answered Refused with cause 0x0C, and otherwise, in a run whose open occurrence holds
its ingress stamp, the clock input waits for that occurrence's close with θ, δ and the offset in force at its ingress.
A sampled-value frame of a tether in a run is marked as seen and answered: Refused with cause 0x0C where no channel
finds its value in it, else Served or Shed; a second one of the same second and count is dropped. -/
def Obligations.SessionsServeFrames : Prop :=
  ((∀ (f : BufFrame) (p : Bytes) (x : Session) (s : State), s.up = true → s.sessionsApart →
    s.newFrame tData f p x = true →
    let q := s.dataCause x (frBody p)
    let room := x.used + s.closingUsed x.slot + p.length ≤ x.quota
    ∃ t y, exec .data s = .next t ∧ t.ports.ingress = s.ports.ingress.drop 1 ∧ t.session x.id = some y ∧
      y.rxSeen.contains (frSeq p) = true ∧
      (q.1 ≠ 0 → t.reports s blockPorts refused q.1 ∧ y.refused = x.refused + 1 ∧ y.queue = x.queue ∧
        y.opened = x.opened ∧ t.steps.inputs = s.steps.inputs) ∧
      (q.1 = 0 → (x.fill f.arrival).holds p.length 1 = true →
        y.tokBytes = (x.fill f.arrival).tokBytes - tokens p.length ∧ y.tokPkts = (x.fill f.arrival).tokPkts - tokens 1 ∧
        ((∃ g ∈ y.opened, g.seq = frSeq p) ∨ x.answered < y.answered)) ∧
      (q.1 = 0 → (x.fill f.arrival).holds p.length 1 = false → room →
        y.queue = x.queue ++ [⟨frSeq p, f.arrival, bitAt (frFlags p) 0, frBody p⟩] ∧ y.answered = x.answered) ∧
      (q.1 = 0 → (x.fill f.arrival).holds p.length 1 = false → ¬room → x.shed < y.shed ∧ y.queue = x.queue ∧
        bitAt (t.reg portsEvents) 2 = true)) ∧
  (∀ (slot : Fin 4096) (x : Session) (q : QueuedFrame) (s : State), s.up = true → s.sessionsApart →
    s.releasable slot.val = some (x, q) →
    ∃ t y, exec (.delayQueueRelease slot) s = .next t ∧ t.session x.id = some y ∧ y.queue = x.queue.drop 1 ∧
      y.tokBytes = (x.fill s.now).tokBytes - tokens (q.body.length + 40) ∧
      y.tokPkts = (x.fill s.now).tokPkts - tokens 1 ∧
      ((s.dataCause x q.body).1 ≠ 0 → t.reports s blockPorts refused (s.dataCause x q.body).1 ∧
        y.refused = x.refused + 1) ∧
      ((s.dataCause x q.body).1 = 0 → (∃ g ∈ y.opened, g.seq = q.seq) ∨ x.answered < y.answered)) ∧
  (∀ (slot : Fin 4096) (s : State), s.up = true → s.sessionsApart →
    ∃ t, exec (.ack slot) s = .next t ∧ (∀ y ∈ t.ports.sessions, y.slot = slot.val → y.acks = []) ∧
      (∀ x, s.ports.sessions.filter (fun x => x.slot == slot.val) = [x] →
        let rs := ackRanges (sortList (fun a b => decide (a.seq ≤ b.seq)) x.acks)
        t.ports.sent.length = s.ports.sent.length + s.copies x.port * ceilDiv rs.length 64 ∧
        (x.acks ≠ [] → rs.length ≤ 64 → t.sends s x tAck (ackBody rs))) ∧
      { t with ports := s.ports } = s) ∧
  (∀ (f : BufFrame) (p : Bytes) (x : Session) (s : State), s.up = true → s.sessionsApart →
    s.newFrame tStatusReq f p x = true →
    ∃ t, exec .statusReq s = .next t ∧ t.ports.ingress = s.ports.ingress.drop 1 ∧
      t.sends s x tStatus (s.statusBody x) ∧ { t with ports := s.ports } = s) ∧
  ∀ (slot : Fin 4096) (x : Session) (s : State), s.up = true → s.sessionsApart →
    s.liveSession slot.val = some x →
    (∃ t, exec (.status slot) s = .next t ∧ t.sends s x tStatus (s.statusBody x) ∧ { t with ports := s.ports } = s) ∧
    (x.timeMs ≠ 0 → x.port < s.time.txts.length → (s.time.txts.getD x.port []).length < 64 → ∀ q : Fin 8,
      ∃ t, exec (.timeReq slot q) s = .next t ∧
        t.sends s x tTimeReq (beBytes 4 x.nextExch ++ List.replicate 12 0) ∧
        ∃ y, t.session x.id = some y ∧ y.nextExch = (x.nextExch + 1) % 2 ^ 32 ∧
          (x.nextExch, s.txStamp x.port 0 q.val) ∈ y.requests)) ∧
  ((∀ (f : BufFrame) (p : Bytes) (x : Session) (r : Nat × Nat) (s : State), s.up = true → s.sessionsApart →
    s.newFrame tTimeResp f p x = true → (frBody p).length = 32 →
    x.requests.find? (fun r => r.1 == beAt (frBody p) 0 4 && decide (f.arrival ≤ r.2 + 4 * secUnits)) = some r →
    let t2 : Int := compact (timeAtBE (frBody p) 8)
    let t3 : Int := compact (timeAtBE (frBody p) 20)
    let δ : Int := ((compact f.arrival : Nat) : Int) - (compact r.2 : Nat) - (t3 - t2)
    let θ : Int := ((t2 - (compact r.2 : Nat)) + (t3 - (compact f.arrival : Nat))) / 2
    ∃ t, exec .timeResp s = .next t ∧ t.ports.ingress = s.ports.ingress.drop 1 ∧
      (∃ y, t.session x.id = some y ∧ y.requests = x.requests.erase r) ∧
      (δ < 0 → t.reports s blockPorts refused 0x0C ∧ t.steps = s.steps) ∧
      (0 ≤ δ → ∀ run c n, s.steps.run = some run → s.cadences[0]? = some c →
        run.occurrenceOf c f.arrival = some n → run.hasClosed 0 n = false → f.arrival ≤ s.admitLimit →
        s.steps.seen.contains (x.slot, clockStream, f.arrival) = false →
        (∀ i ∈ s.steps.inputs, i.key ≠ (x.slot, clockStream, f.arrival)) →
        ∃ i, t.steps.inputs = s.steps.inputs ++ [i] ∧ i.slot = x.slot ∧ i.stream = clockStream ∧
          i.stamp = f.arrival ∧ i.waits = [(0, n)] ∧
          clockInputs [i] = [(x.slot, f.arrival, signedOf 64 (ofSigned 64 θ), signedOf 64 (ofSigned 64 δ),
            signedOf 64 (ofSigned 64
              (if x.timeSource = 0 then f.offsets.1 else if x.timeSource = 1 then f.offsets.2 else 0)))])) ∧
  ∀ (f : BufFrame) (rest : List BufFrame) (mac appid : Nat) (asdus : List Asdu) (s : State), s.up = true →
    s.ports.ingress = f :: rest → f.body = .sv mac appid asdus →
    ∃ t, exec .sampledValueFrame s = .next t ∧ t.ports.ingress = rest ∧
      (s.svOf mac appid asdus = none → t.ports.sv = s.ports.sv ∧
        t.reg (portReg f.port 0x10) = min (s.reg (portReg f.port 0x10) + max 1 asdus.length) (2 ^ 32 - 1)) ∧
      ∀ v a more, s.svOf mac appid asdus = some v → s.inRun = true →
        asdus.filter (fun a => a.svid == v.entry.svid) = a :: more →
        let key := (s.svSecond v.entry f.arrival a.smpCnt, a.smpCnt)
        (v.seen.contains key = true → t.ports.sv = s.ports.sv ∧ t.steps = s.steps) ∧
        (v.seen.contains key = false →
          (∃ w ∈ t.ports.sv, w.entry = v.entry ∧ w.seen = key :: v.seen) ∧
          ((s.channelsOf v.entry.slot 0).all (fun d =>
              (a :: more).all (fun b => decide (b.samples.length ≤ d.element))) = true →
            t.reports s blockPorts refused 0x0C) ∧
          ((s.channelsOf v.entry.slot 0).all (fun d =>
              (a :: more).all (fun b => decide (b.samples.length ≤ d.element))) = false →
            t.reports s blockPorts served 0 ∨ ∃ c, t.reports s blockPorts shed c)))

/-! ## Fusion (06) -/

/-- The fusion engine, for the running occurrence of `CADENCE_0`. GRID_FUSION (R232, R233) keeps the contributions by stream and
writes only the grid and its status raster; a cell that no stream covers gets status bit 6, and bit 4 where it lies in a
contested region, alone. CONSISTENCY_GATE (R238–R241), once an occurrence, masks and contests only usable streams; with no
declared region nothing is contested, masked or written, and with one the stream state vector follows (R234) where its slots
are free. LADDER_UPDATE (R242–R245, R248), once an occurrence, steps every rung towards the deeper of its data target and its
floor, leaves it no shallower than the floor, and gives the step's answers. EGO_ESTIMATE (R225–R228, R230), once an entry and
occurrence, takes the chosen estimate, or holds the pose, judges the mask, and stores the pose record where its slot is free.
FLOW_PREDICTION_FIELD (R231) stores its field where its slots are free: (0, 0) for a sensor without an entry and the invalid
value while its sensor is masked. A read of STREAM_STAT_0 (R249) samples the selected stream. -/
def Obligations.FusionCommandsTakeEffect : Prop :=
  (∀ (maps : List (Nat × List (Nat × List Nat))) (img : Image) (o : Occurrence) (s : State), s.up = true →
    s.inRun = true → s.steps.image = some img → s.occOf 0 = some o →
    let gridLen := ceilDiv img.gridCols 32 * ceilDiv img.gridRows (if img.gridBf16 then 16 else 32) * tileBytes
    let statLen := ceilDiv img.gridCols 128 * ceilDiv img.gridRows 128 * tileBytes
    ∃ t, exec (.gridFusion maps) s = .next t ∧
      t.fusion = { s.fusion with maps := t.fusion.maps, gridSat := t.fusion.gridSat } ∧
      (∀ m, (m ∈ maps ↔ ∃ g ∈ t.fusion.maps, m = (g.stream, g.cells))) ∧
      (∀ x, x < img.gridBase ∨ img.gridBase + gridLen ≤ x → x < img.statusBase ∨ img.statusBase + statLen ≤ x →
        t.byte x = s.byte x) ∧
      (img.gridBase + gridLen ≤ img.statusBase ∨ img.statusBase + statLen ≤ img.gridBase →
        ∀ col row, col < img.gridCols → row < img.gridRows →
          (∀ m ∈ maps, lookupKey (row * img.gridCols + col) m.2 = none) →
          leVal (t.load (img.statusBase + rasterOffset img.gridCols col row) 2) = 64 + 16 * b2n
            (s.fusion.contestedRegions.any (fun r =>
              (img.checks.getD r default).cells.contains (row * img.gridCols + col)))) ∧
      State.sameButStores { t with fusion := s.fusion } s) ∧
  (∀ (maps : List (Nat × List (Nat × List Nat))) (scores : List (Nat × Nat × Nat)) (img : Image) (o : Occurrence)
    (s : State), s.up = true → s.inRun = true → s.steps.image = some img → s.occOf 0 = some o →
    (s.fusion.gated = true → exec (.consistencyGate ⟨maps, scores⟩) s = .next s) ∧
    (s.fusion.gated = false → ∃ t, exec (.consistencyGate ⟨maps, scores⟩) s = .next t ∧
      t.fusion = { s.fusion with
        maps := t.fusion.maps, streams := t.fusion.streams, contestedRegions := t.fusion.contestedRegions, gated := true
        due := t.fusion.due } ∧
      t.fusion.streams.length = s.fusion.streams.length ∧
      (∀ (i : Nat) (d : StreamDecl) (f g : FStream), s.streamDecls[i]? = some d → s.fusion.streams[i]? = some f →
        t.fusion.streams[i]? = some g →
        g.unaligned = f.unaligned ∧ g.stale = f.stale ∧ g.history = f.history ∧ g.value = f.value ∧
          (f.outlier = true → g.outlier = true) ∧
          (s.usable d f = false → g.outlier = f.outlier ∧ g.contested = false)) ∧
      (img.checks = [] → t.fusion.contestedRegions = [] ∧ t.regs = s.regs ∧ t.mem = s.mem ∧
        ∀ g ∈ t.fusion.streams, g.contested = false) ∧
      (∀ a, img.checks ≠ [] → img.vectorBase = [a] → (∀ d ∈ img.streams, d.privileged = false) →
        (slotsIn a (2 * s.streamPairs.length)).all (s.waitGranted img.fusionUnit) = true →
        t.load a (2 * s.streamPairs.length) = t.stateVector) ∧
      State.sameButStores { t with fusion := s.fusion } s)) ∧
  (∀ (o : Occurrence) (s : State), s.up = true → s.inRun = true → s.occOf 0 = some o → s.fusion.rungs.length = 5 →
    (s.fusion.laddered = true → exec .ladderUpdate s = .next s) ∧
    (s.fusion.laddered = false →
      ∃ t, exec .ladderUpdate s = .next t ∧ t.fusion = { s.fusion with rungs := t.fusion.rungs, laddered := true } ∧
        t.fusion.rungs.length = 5 ∧ t.mem = s.mem ∧ t.steps.occs = s.steps.occs ∧
        (s.fusionAnswers ≠ [] →
          t.reports s blockFusion (pickAnswer s.fusionAnswers).1 (pickAnswer s.fusionAnswers).2) ∧
        ∀ f, f < 5 →
          let r := s.fusion.rungs.getD f default
          let r' := t.fusion.rungs.getD f default
          r' = rungStep s.exitSteps (max (s.dataTarget f (t.fusion.rungs.getD 0 default).level) r.floor) r ∧
            r.floor ≤ r'.level)) ∧
  (∀ (j : Nat) (inp : EgoInputs) (poses : List (Nat × Nat)) (e : EgoEntry) (x : EgoState) (o : Occurrence) (s : State),
    s.up = true → s.inRun = true → s.occOf 0 = some o → s.steps.image.bind (fun i => i.egos[j]?) = some e →
    s.fusion.egos[j]? = some x →
    (s.fusion.egoDone.contains j = true → exec (.egoEstimate j inp.matches_ inp.scan inp.motion poses) s = .next s) ∧
    (s.fusion.egoDone.contains j = false →
      ∃ t y, exec (.egoEstimate j inp.matches_ inp.scan inp.motion poses) s = .next t ∧ t.fusion.egos[j]? = some y ∧
        t.fusion.egoDone = j :: s.fusion.egoDone ∧ (∀ i, i ≠ j → t.fusion.egos[i]? = s.fusion.egos[i]?) ∧
        (match s.egoAttempt o j e x inp with
          | some p => y.quat = p.1.drop 3 ∧ y.trans = p.1.take 3 ∧ y.cov = p.2 ∧ y.held = false ∧ y.run = x.run + 1
          | none => y.quat = x.quat ∧ y.trans = x.trans ∧ y.held = true ∧ y.run = 0) ∧
        y.masked = s.egoMaskAfter x.masked y ∧
        (x.masked = false → y.masked = true → t.reports s blockFusion shed 0x30) ∧
        (∀ a k f, poses = [(a, k)] → s.frameSelOf k e.slot false = some f →
          (slotsIn a 48).all (s.waitGranted s.fusionUnit) = true →
          t.load a 48 = poseRecord (s.egoPoseAt e y f.stamp)) ∧
        (∀ b, (∀ p ∈ poses, b < p.1 ∨ p.1 + 48 ≤ b) → t.byte b = s.byte b) ∧
        State.sameButStores { t with fusion := s.fusion } s)) ∧
  (∀ (k : Fin 16) (slot stream : Nat) (backward : Bool) (dst : Nat) (img : Image) (o : Occurrence) (s : State),
    s.up = true → s.inRun = true → s.steps.image = some img → s.occOf 0 = some o →
    let bs := s.predictionField k.val slot stream backward
    let free := (slotsIn dst bs.length).all (s.waitGranted s.fusionUnit)
    ∃ t, exec (.flowPredictionField k dst ⟨slot, stream, backward⟩) s = .next t ∧
      (free = true → t.load dst bs.length = bs ∧ t.fusion = s.fusion) ∧
      (free = false → t.mem = s.mem ∧ t.fusion = { s.fusion with due := s.fusion.due ++ [⟨dst, bs, o.step⟩] }) ∧
      (∀ w, img.tethers.find? (fun t => t.slot == slot && t.stream == stream) = some w → free = true →
        ∀ x y, x < w.width → y < w.height →
          let got := t.load (dst + tiledOffset w.width 128 64 4 x y) 4
          let entry := (List.zip img.egos s.fusion.egos).find? (fun p => p.1.slot == slot && p.1.stream == stream)
          (entry = none → got = leBytes 4 0) ∧
            (∀ p, entry = some p → p.2.masked = true → got = leBytes 2 0x8000 ++ leBytes 2 3)) ∧
      (∀ x, x < dst ∨ dst + bs.length ≤ x → t.byte x = s.byte x) ∧
      State.sameButStores { t with fusion := s.fusion } s) ∧
  ∀ (d : StreamDecl) (f : FStream) (s : State), s.readable = true → s.streamDecls[s.fld ⟨0xA00040, 0, 13⟩]? = some d →
    s.fusion.streams[s.fld ⟨0xA00040, 0, 13⟩]? = some f →
    let al := s.fusion.align.getD (s.fld ⟨0xA00040, 0, 13⟩) default
    ∃ t, exec .streamStatSample s = .next t ∧ t.host = { s.host with reply := .data (d.slot + d.stream * 2 ^ 16) } ∧
      t.reg 0xA00044 = (d.slot + d.stream * 2 ^ 16) % 2 ^ 32 ∧
      t.reg 0xA00048 % 256 = s.streamBits d { f with unaligned := al.unaligned, cause := al.cause } ∧
      (∀ a, a ≠ 0xA00044 → a ≠ 0xA00048 → a ≠ 0xA0004C → a ≠ 0xA00050 → t.reg a = s.reg a) ∧
      { t with regs := s.regs, host := s.host } = s

/-! ## Vision engines (05) -/

/-- The vision engines. A work descriptor that is issued (R201–R210) shows its address and its result's outcome and
cause, and stores nothing but its tiles, at its destination in memory or its ring of slots, and its summary; a
destination in memory holds the tiles, and one more descriptor is done. A missing source frame (R168) sets its event
and is Served; projection with an unusable input calibration (R194) is Shed with cause 0x22. In its engine's turn, a malformed
descriptor is Refused with 0x0C, one of an engine out of service with 0x0A, and one of a tether that is not the cluster's
with 0x20 (R166, R205, R207), with no work done. One that breaks the lantern order stops so too (R155); one whose engine is busy,
or whose wait is not granted, waits in order (R203). WAIT and END do nothing else than wait; RAISE lights the slot that its
unit has filled (R150). -/
def Obligations.VisionDescriptorsAreIssuedOrRefused : Prop :=
  (∀ (v : Fin 2) (op : Nat) (d : VisionDesc) (c : Instr) (s : State), visionDescOf c = some (v, op, d) →
    s.mayIssue d.ctx.cadence = true → s.vision.length = 2 →
    let e := visionEngineOf op
    let o := s.visionWork op d
    let u := s.vision.getD v default
    (s.visionReady v op d = true →
      ∃ t, exec c s = .next t ∧ t.reports s (blockVision v) o.outcome o.cause ∧
        t.reg64 (visionReg v (0x10 + 0x10 * e)) = d.ctx.addr % 2 ^ 64 ∧
        (∀ x, ¬visionStores d o.tiles.length x → t.byte x = s.byte x) ∧
        (d.dstMode ≠ 0 → d.raise.toNat = noLantern →
          (∀ k tile, o.tiles[k]? = some tile →
            t.load (d.dstAddr.toNat + k * tileBytes) tileBytes = fitBytes tileBytes tile) ∧
          (t.vision.getD v default).done = u.done.modify e (· + 1)) ∧
        (op ≠ opMatch → op ≠ opProjPtsImage → op ≠ opProjPtsGrid → s.sourceImage d d.selA = none →
          t.reports s (blockVision v) served 0 ∧ bitAt (t.reg (visionReg v 0xC)) 1 = true) ∧
        ((op = opProjRay ∨ op = opProjPlane) ∧ s.sourceImage d d.selA ≠ none ∨
            (op = opProjPtsImage ∨ op = opProjPtsGrid) ∧ s.sourcePoints d ≠ none →
          (s.calOf d.ctx.cadence (leAt (s.load d.param.toNat 64) 4 2)).filter calUsable = none →
          t.reports s (blockVision v) shed 0x22) ∧
        State.sameButStores { t with vision := s.vision } s) ∧
    (u.busy e = false → s.visionOk v op d = false → s.faults.queue.length < 256 →
      ∃ t, exec c s = .next t ∧ t.reports s (blockVision v) refused 0x0C ∧
        t.mem = s.mem ∧ t.vision = s.vision ∧ t.steps = s.steps) ∧
    (u.busy e = false → s.visionOk v op d = true → s.inService (visionRegion v e) = false →
      ∃ t, exec c s = .next t ∧ t.reports s (blockVision v) refused 0x0A ∧
        { t with regs := s.regs, answers := s.answers } = s) ∧
    (s.engineTurn v e d = true → s.visionOk v op d = true → s.faults.queue.length < 256 →
      (∃ x ∈ visionSlots op d, s.mayRead v e x = false) →
      ∃ t, exec c s = .next t ∧ t.reports s (blockVision v) refused 0x20 ∧
        t.mem = s.mem ∧ t.vision = s.vision ∧ t.steps = s.steps) ∧
    (s.engineTurn v e d = true → s.visionOk v op d = true → (∀ x ∈ visionSlots op d, s.mayRead v e x = true) →
      (s.memoryWaits (visionRegion v e) (s.visionAccesses op d) = true →
        ∃ t, exec c s = .next t ∧ (t.vision.getD v default).queue = u.queue ++ [⟨e, op, d⟩] ∧ t.mem = s.mem ∧
          t.answers = s.answers ∧ t.steps = s.steps)) ∧
    (s.engineTurn v e d = true → s.visionOk v op d = true → (∀ x ∈ visionSlots op d, s.mayRead v e x = true) →
      s.memoryWaits (visionRegion v e) (s.visionAccesses op d) = false →
      (∀ i, (∀ l ∈ s.visionWaits op d, s.waitGranted d.unit.toNat l = true) → s.faults.queue.length < 256 →
        s.orderBroken d.unit.toNat (s.visionWaits op d) (s.visionReads op d) (visionWrites d o.tiles.length) = some i →
        ∃ t, exec c s = .next t ∧ bitAt (t.reg (0x70000C + 0x10000 * lanternSheet i)) 2 = true ∧
          t.mem = s.mem ∧ t.vision = s.vision ∧ t.steps = s.steps) ∧
      ((∃ l ∈ s.visionWaits op d, l ≠ noLantern ∧ s.waitGranted d.unit.toNat l = false) →
        ∃ t, exec c s = .next t ∧ (t.vision.getD v default).queue = u.queue ++ [⟨e, op, d⟩] ∧ t.mem = s.mem ∧
          t.answers = s.answers ∧ t.steps = s.steps)) ∧
    (u.busy e = true → ∃ t, exec c s = .next t ∧
      (t.vision.getD v default).queue = u.queue ++ [⟨e, op, d⟩] ∧ { t with vision := s.vision } = s)) ∧
  ∀ (v : Fin 2) (e : Fin 4) (d : VisionDesc) (s : State), s.engineTurn v e d = true → s.waitOver d.unit d.wait = true →
    s.vision.length = 2 →
    (∀ c, (c = .visionWait v e d ∧ s.visionCommonOk v 0x08 d = true) ∨
        (c = .visionEnd v e d ∧ s.visionCommonOk v 0x0B d = true) →
      ∃ t, exec c s = .next t ∧ t.reports s (blockVision v) served 0 ∧
        (t.vision.getD v default).done = (s.vision.getD v default).done.modify e (· + 1) ∧
        State.sameButLanterns { t with vision := s.vision } s) ∧
    ∀ (u : LanternUse) (o : Occurrence), s.visionCommonOk v 0x09 d = true → s.occOf d.ctx.cadence = some o →
      s.useOf d.raise.toNat = some u → u.producer = d.unit.toNat → (s.lantern d.raise.toNat).phase = filling →
      ∃ t, exec (.visionRaise v e d) s = .next t ∧ (t.lantern d.raise.toNat).phase = lit ∧
        (t.lantern d.raise.toNat).tag = ⟨s.stepTime o.step, o.step, u.owner, d.unit.toNat⟩ ∧
        (∀ i, i ≠ d.raise.toNat → i ≠ d.wait.toNat → t.lantern i = s.lantern i) ∧ t.mem = s.mem ∧ t.steps = s.steps

/-! ## Tracks and search (07, 10) -/

/-- The track engine (R251, R256–R271). TRACK_ENGINE_STEP leaves the committed table as it is and writes the other set only;
with no list every region is blind and bears no track; before the stream state vector of its step is written, and a second time
in an occurrence, it does nothing. A host request enters the queue of 64 and a full queue refuses
it with 0x0B; at idle TRACK_READ answers the entries it names and TRACK_PREDICT a committed track at a time from its
own to 60 s on, or the cause. A read of TRACK_VIEW_0 samples the selected slot. Where a reply lies is the model's choice
(assumption 21). -/
def Obligations.TracksStepAndAnswer : Prop :=
  (∀ (lists : List (Nat × Nat)) (o : Occurrence) (s : State), s.mayIssue s.trackDecl.cadence = true →
    s.occOf s.trackDecl.cadence = some o →
    (s.track.work.isSome = true ∨ s.vectorReady o.step = false → exec (.trackEngineStep lists) s = .next s) ∧
    (s.track.work = none → s.vectorReady o.step = true →
    ∃ t, exec (.trackEngineStep lists) s = .next t ∧ t.track.committed = s.track.committed ∧
      t.track.set = s.track.set ∧ t.track.work.isSome = true ∧ s.track.high ≤ t.track.high ∧
      (s.trackDecl.tables[1 - s.track.set]? = none → t.mem = s.mem) ∧
      (∀ base, s.trackDecl.tables[1 - s.track.set]? = some base →
        ∀ x, x < base ∨ base + 1024 * t.track.high ≤ x → t.byte x = s.byte x) ∧
      (lists = [] → t.track.nextId = s.track.nextId ∧ ∀ x ∈ t.track.stats, x.blind = true ∧ x.births = 0))) ∧
  (∀ (h : CmdHdr) (region : Option Nat) (id : BitVec 32) (reply : Nat) (s : State), s.offers h = true →
    (s.trackQueue.length < 64 →
      ∃ t, exec (.trackRead h region id reply false) s = .next t ∧
        t.trackQueue = s.trackQueue ++ [⟨.trackRead h region id reply false, s.host.epoch⟩] ∧
        t.host.written = s.host.written ∧ { t with host := s.host, regs := s.regs, trackQueue := s.trackQueue } = s) ∧
    (64 ≤ s.trackQueue.length →
      ∃ t, exec (.trackRead h region id reply false) s = .next t ∧ t.trackQueue = s.trackQueue ∧
        t.reports s blockFusion refused 0x0B) ∧
    (s.trackQueue = [] →
      ∃ t, exec (.trackRead h region id reply true) s = .next t ∧ t.trackQueue = [] ∧
        (∀ r, region = some r → t.reports s blockFusion served 0 ∧ t.host.written =
          (reply, (s.track.committed.filter (fun x => x.region == r)).flatMap trackBytes) :: s.host.written) ∧
        (∀ x, region = none → s.track.committed.find? (fun x => x.id == id.toNat) = some x →
          t.reports s blockFusion served 0 ∧ t.host.written = (reply, trackBytes x) :: s.host.written) ∧
        (region = none → s.track.committed.find? (fun x => x.id == id.toNat) = none →
          t.reports s blockFusion refused 0x3C ∧ t.host.written = s.host.written) ∧
        { t with host := s.host, regs := s.regs, answers := s.answers } = s)) ∧
  (∀ (h : CmdHdr) (id : BitVec 32) (time : BitVec 64) (reply : Nat) (s : State), s.offers h = true → s.trackQueue = [] →
    ∃ t, exec (.trackPredict h id time reply true) s = .next t ∧ t.trackQueue = [] ∧
      { t with host := s.host, regs := s.regs, answers := s.answers } = s ∧
      (2 ≤ (s.fusion.rungs.getD 4 default).level →
        t.reports s blockFusion refused 0x0D) ∧
      ((s.fusion.rungs.getD 4 default).level < 2 →
        (s.track.committed.find? (fun x => x.id == id.toNat) = none →
          t.reports s blockFusion refused 0x3C) ∧
        ∀ x, s.track.committed.find? (fun x => x.id == id.toNat) = some x →
          (x.time ≤ time.toNat → time.toNat ≤ x.time + 60000000000 →
            t.reports s blockFusion served 0 ∧ t.host.written = (reply, s.trackEntry x time.toNat) :: s.host.written) ∧
          (time.toNat < x.time ∨ x.time + 60000000000 < time.toNat →
            t.reports s blockFusion refused 0x3D))) ∧
  ∀ (x : Track) (s : State), s.readable = true →
    s.track.committed.find? (fun x => x.slot == s.fld ⟨0xA10020, 0, 14⟩) = some x →
    ∃ t, exec .trackViewSample s = .next t ∧ t.host = { s.host with reply := .data x.id } ∧
      t.reg 0xA10024 = x.id % 2 ^ 32 ∧
      t.reg 0xA10028 = (x.state + x.cls % 32 * 8 + x.region % 256 * 256 + x.missRun * 65536) % 2 ^ 32 ∧
      (∀ a, a ≠ 0xA10024 → a ≠ 0xA10028 → t.reg a = s.reg a) ∧ { t with regs := s.regs, host := s.host } = s

/-- Similarity search. SEARCH_BATCH (R347–R350, R355, R356), whose accesses keep R153, answers at the epoch of its
occurrence's admission, stores its result block where it is mapped and nothing else, and marks its output; one that breaks
R153 does none of this and sets the groundsheet's order error (R155). At idle, with
no request waiting, SEARCH_QUERY (R349, R354) answers at the committed epoch, Delayed past its deadline; SEARCH_GET and SEARCH_EXPORT
(R351, R352) write the visible vector or the snapshot to host memory. HOST_QUERY_DEADLINE (R354) removes the queries
whose deadline has passed and counts them as refused. The end of a background merge (R345, R346) removes only entries
deleted at an epoch that no query can see. A read of COLL_VIEW_0 (R360) samples the selected collection. Where a host
reply lies is the model's choice (assumption 21). -/
def Obligations.SearchesAnswer : Prop :=
  (∀ (k : Fin 16) (req : Nat) (unit raise : BitVec 16) (out : Option Nat) (o : Occurrence) (s : State), s.up = true →
    s.inRun = true → s.occOf k.val = some o →
    let r := queryReqOf (s.load req 128)
    let b := s.batchAns r (o.epochs.getD r.coll 0) false
    let bs := batchHeader b ++ (s.queryBlocks r b).flatMap id
    let tiles := (s.batchReads req r).flatMap (fun x => slotsIn x.1 x.2)
    (∀ i, s.orderBroken unit.toNat tiles (s.batchReads req r) (s.batchWrites r) = some i → s.faults.queue.length < 256 →
      ∃ t, exec (.searchBatch k req unit raise out) s = .next t ∧ bitAt (t.reg (0x70000C + 0x10000 * lanternSheet i)) 2 = true ∧
        t.mem = s.mem ∧ t.search = s.search ∧ t.sheets = s.sheets ∧ t.steps = s.steps) ∧
    (s.orderBroken unit.toNat tiles (s.batchReads req r) (s.batchWrites r) = none →
    ∃ t, exec (.searchBatch k req unit raise out) s = .next t ∧ t.reports s blockSearch b.outcome b.cause ∧
      (s.resultRoom r = false → t.mem = s.mem) ∧
      (s.resultRoom r = true → t.load r.resultAddr (32 + r.queries * (16 + 16 * r.k)) = bs ∧
        ∀ x, x < r.resultAddr ∨ r.resultAddr + 32 + r.queries * (16 + 16 * r.k) ≤ x → t.byte x = s.byte x) ∧
      (out = none → t.search.outs = s.search.outs) ∧
      (∀ stream, out = some stream → t.search.outs = s.search.outs ++
        [⟨k.val, o.step, stream, r.coll, r.k, b.outcome == served, batchHeader b, s.queryBlocks r b⟩]) ∧
      State.sameButStores { t with search := s.search } s)) ∧
  (∀ (h : CmdHdr) (req : Bytes) (ns : Nat) (s : State), s.offers h = true → s.search.queue = [] →
    let r := queryReqOf req
    let b := s.batchAns r (s.coll r.coll).epoch true
    ∃ t, exec (.searchQuery h req true ns) s = .next t ∧ t.search.queue = [] ∧
      (b.outcome = served → t.reports s blockSearch
        (if r.deadlineUs ≠ 0 ∧ r.deadlineUs * 1000 < ns then delayed else served) 0) ∧
      (b.outcome ≠ served → t.reports s blockSearch refused b.cause) ∧
      (s.resultRoom r = true → t.load r.resultAddr (32 + r.queries * (16 + 16 * r.k)) =
        batchHeader b ++ (s.queryBlocks r b).flatMap id) ∧
      (∀ x, s.resultRoom r = false ∨ x < r.resultAddr ∨ r.resultAddr + 32 + r.queries * (16 + 16 * r.k) ≤ x →
        t.byte x = s.byte x)) ∧
  (∀ (h : CmdHdr) (i : Nat) (id : BitVec 32) (reply : Nat) (s : State), s.offers h = true → s.search.queue = [] →
    s.inService (engineRegion 4) = true → s.collCause i = 0 →
    (∃ t, exec (.searchGet h i id reply true) s = .next t ∧
      { t with host := s.host, regs := s.regs, answers := s.answers } = s ∧
      (∀ x, ((s.coll i).visibleAt (s.coll i).epoch).find? (fun x => x.id == id.toNat) = some x →
        t.reports s blockSearch served 0 ∧ t.host.written = (reply, vecBytes x) :: s.host.written) ∧
      (((s.coll i).visibleAt (s.coll i).epoch).find? (fun x => x.id == id.toNat) = none →
        t.reports s blockSearch refused 0x52)) ∧
    ∃ t, exec (.searchExport h i reply true) s = .next t ∧ t.reports s blockSearch served 0 ∧
      t.host.written = (reply, s.snapshotBytes i) :: s.host.written ∧
      { t with host := s.host, regs := s.regs, answers := s.answers } = s) ∧
  (∀ s : State, s.up = true →
    ∃ t, exec .hostQueryDeadline s = .next t ∧
      t.search = { s.search with queue := s.search.queue.filter (fun q => !q.expired s.now) } ∧
      t.reg 0xD00054 = min (s.reg 0xD00054 + (s.search.queue.filter (fun q => q.expired s.now)).length) (2 ^ 32 - 1) ∧
      { t with host := s.host, regs := s.regs, answers := s.answers, search := s.search } = s) ∧
  (∀ (i : Nat) (s : State), s.up = true → (s.coll i).merging = true → s.search.waitCommits = [] →
    i < s.search.colls.length →
    ∃ t, exec (.backgroundMergeEnd i) s = .next t ∧ (t.coll i).merging = false ∧
      (∀ x, x ∈ (t.coll i).entries ↔ x ∈ (s.coll i).entries ∧ min (s.coll i).merged (s.leastAdmission i) < x.epochDel) ∧
      (∀ j, j ≠ i → t.coll j = s.coll j) ∧ { t with search := s.search } = s) ∧
  ∀ s : State, s.readable = true → s.fld ⟨0xD00014, 0, 6⟩ < s.collDecls.length →
    let c := s.coll (s.fld ⟨0xD00014, 0, 6⟩)
    ∃ t, exec .collViewSample s = .next t ∧ t.reg64 0xD00020 = c.epoch % 2 ^ 64 ∧
      t.reg64 0xD00028 = (c.visibleAt c.epoch).length % 2 ^ 64 ∧ t.reg 0xD00034 = c.nextId % 2 ^ 32 ∧
      t.host = { s.host with reply := .data (t.reg 0xD00018) } ∧ { t with regs := s.regs, host := s.host } = s

/-! ## Map, solver and signal chains (08, 09, 11) -/

/-- SOLVER_SUBMISSION (R310, R325, R326) of well-formed deltas sets the solver's solution and result, stores the
solution entries and, in a slot that is its own (R153), the result status, and is Shed with the solve's cause when ill-posed; a malformed one is Refused
with 0x0C. INSERTION_LIST (R281–R283, R297) advances no epoch, keeps every keyframe's identifier, inserts a first
candidate with room under the next identifier, deletes a live landmark at the new epoch, and writes only its delta
blocks. MERGE (R287) removes entries deleted at least two epochs before. MAP_READ (R289, R290, R303) at idle answers a
page of the entries it selects, or the cause. A read of CHAN_VIEW_0 samples the selected channel. Where a reply lies is
the model's choice (assumption 21). -/
def Obligations.MapSolverAndChannelCommands : Prop :=
  (∀ (count epoch : Nat) (reorder : Bool) (addr : Nat) (o : Occurrence) (s : State),
    s.mayIssue s.solverDecl.cadence = true → s.occOf s.solverDecl.cadence = some o →
    s.inService (engineRegion 3) = true →
    let ds := (List.range count).map (fun i => deltaOf (s.load (deltaAddr addr i) 768))
    let good := decide (count ≤ maxDeltas) && s.solver.submitted != some o.step && s.solver.wellFormed ds
    let r := s.solver.solve s.solveCfg ds epoch reorder
    let base := s.solverDecl.solutionBase
    let lan := lanternAddr s.solverDecl.resultLantern
    let writes := s.mayWriteSlot s.solverDecl.unit s.solverDecl.resultLantern
    (good = true → writes = true ∨ s.faults.queue.length < 256 →
      ∃ t, exec (.solverSubmission count epoch reorder addr) s = .next t ∧
        t.solver = { r.1 with submitted := some o.step, result := some r.2 } ∧
        (r.2.status = 2 → t.reports s blockSolver shed r.2.cause) ∧
        (r.2.status ≠ 2 → t.reports s blockSolver served 0) ∧ (writes = true → t.load lan 256 = resultBytes r.2) ∧
        (∀ x, x < base ∨ base + ceilDiv r.2.entries.length 341 * tileBytes ≤ x → x < lan ∨ lan + tileBytes ≤ x →
          t.byte x = s.byte x) ∧
        (writes = true → State.sameButStores { t with solver := s.solver } s)) ∧
    (good = false → s.faults.queue.length < 256 →
      ∃ t, exec (.solverSubmission count epoch reorder addr) s = .next t ∧ t.reports s blockSolver refused 0x0C ∧
        t.solver = s.solver ∧ t.mem = s.mem ∧ t.steps = s.steps)) ∧
  (∀ (l : InsertList) (o : Occurrence) (s : State), s.mayIssue s.mapDecl.cadence = true →
    s.occOf s.mapDecl.cadence = some o → s.inService (engineRegion 2) = true → s.map.e1 ≠ liveEpoch →
    ∃ t n, exec (.insertionList l) s = .next t ∧ t.map.epoch = s.map.epoch ∧ t.map.merged = s.map.merged ∧
      t.map.pegs = s.map.pegs ∧ (t.map.keyframes.map (·.id)).take s.map.keyframes.length = s.map.keyframes.map (·.id) ∧
      (∃ b, t.map.work.header = some (n, s.map.e1, b, s.mapDecl.deltaBase)) ∧
      (∀ x, (∀ i, i < n → x < deltaAddr s.mapDecl.deltaBase i ∨ deltaAddr s.mapDecl.deltaBase i + 768 ≤ x) →
        t.byte x = s.byte x) ∧
      (∀ id, MapDelete.landmark id ∈ l.deletes → ∀ y ∈ t.map.landmarks, y.id = id → y.epochIn ≠ s.map.e1 →
        y.live = false) ∧
      ∀ k ks, l.keyframes = k :: ks → s.map.awnKfs < awningKfs → s.map.keyframes.length < s.mapDecl.kfCap →
        ∃ x ∈ t.map.keyframes, x.id = s.map.nextKf ∧ x.sensor = k.sensor ∧ x.stamp = k.stamp ∧ x.epochIn = s.map.e1) ∧
  (∀ s : State, s.mayIssue s.mapDecl.cadence = true → s.inService (engineRegion 2) = true →
    ∃ t, exec .merge s = .next t ∧ t.map.keyframes = s.map.keyframes ∧ t.map.epoch = s.map.epoch ∧
      (∀ x, x ∈ t.map.landmarks ↔ x ∈ s.map.landmarks ∧ ¬x.epochDel + 2 ≤ s.map.e1) ∧
      (∀ x, x ∈ t.map.factors ↔ x ∈ s.map.factors ∧ ¬x.epochDel + 2 ≤ s.map.e1) ∧ { t with map := s.map } = s) ∧
  (∀ (h : CmdHdr) (kind first page : Nat) (epoch : BitVec 64) (args : List Nat) (reply : Nat) (s : State),
    s.offers h = true → s.mapQueue = [] →
    let e := if epoch.toNat = liveEpoch then s.map.epoch else epoch.toNat
    let cause :=
      if page = 0 ∨ 4096 < page ∨ 6 < kind then 0x0C
      else if s.inService (engineRegion 2) = false then 0x0A
      else if e + 1 < s.map.epoch then 0x42
      else if s.map.epoch < e then 0x47
      else 0
    ∃ t, exec (.mapRead h kind epoch first page args reply true) s = .next t ∧
      { t with host := s.host, regs := s.regs, answers := s.answers } = s ∧
      (cause = 0 → t.reports s blockMap served 0 ∧ t.host.written =
        (reply, ((s.mapSelect kind e first args).take page).flatMap (·.2)) :: s.host.written) ∧
      (cause ≠ 0 → t.reports s blockMap refused cause ∧ t.host.written = s.host.written)) ∧
  ∀ s : State, s.readable = true →
    ∃ t, exec .chanViewSample s = .next t ∧
      (∀ d, s.channelDecls.find? (fun d => d.index == s.fld ⟨0x500034, 0, 13⟩) = some d →
        t.reg 0x500038 = (d.slot + d.element * 2 ^ 12 + d.stream * 2 ^ 16) % 2 ^ 32 ∧ t.reg 0x500040 = d.ratio % 2 ^ 32) ∧
      (s.channelDecls.find? (fun d => d.index == s.fld ⟨0x500034, 0, 13⟩) = none →
        t.reg 0x500038 = 0 ∧ t.reg 0x50003C = 0 ∧ t.reg 0x500040 = 0 ∧ t.reg 0x500044 = 0) ∧
      t.host = { s.host with reply := .data (t.reg 0x500038) } ∧ { t with regs := s.regs, host := s.host } = s

/-! ## Event counters (18) -/

/-- The counters of a die that is not lost. A read of CNT_k_LO (R586) latches the counter with its overflow bit and
shows the time. A write of CNT_CFG_k (R583) that changes the event, instance or mode clears the counter and its
overflow bit, and one that leaves them unchanged clears nothing; no other counter changes. CNT_CLEAR (R6, R590) clears
the counters named by the held low half and the high half, and no other. The page of a lost die (R585) reads 0 and
ignores writes. -/
def Obligations.CountersLatchConfigureAndClear : Prop :=
  (∀ (d : Fin 4) (k : Fin 64) (s : State), s.readable = true → s.pageLost d.val = false →
    let c := s.counter d.val k.val
    ∃ t, exec (.cntLatch d k) s = .next t ∧ t.host = { s.host with reply := .data (c.value % 2 ^ 32) } ∧
      lookupKey (counterPage d.val + 0x104 + 8 * k.val) t.latches =
        some (BitVec.ofNat 32 (c.value / 2 ^ 32 + b2n c.ovf * 2 ^ 31)) ∧
      t.reg64 (counterPage d.val + 0x310) = compact s.now ∧
      { t with regs := s.regs, host := s.host, latches := s.latches } = s) ∧
  (∀ (d : Fin 4) (k : Fin 64) (v : Word) (s : State), s.up = true → s.pageLost d.val = false →
    let c := s.counter d.val k.val
    let same := bitsOf v.toNat 0 8 = c.event ∧ bitsOf v.toNat 8 4 = c.instNo ∧ bitAt v.toNat 12 = c.level
    ∃ t, exec (.cntCfgWrite d k v) s = .next t ∧
      t.counter d.val k.val = { c with
        event := bitsOf v.toNat 0 8, instNo := bitsOf v.toNat 8 4, level := bitAt v.toNat 12, sat := bitAt v.toNat 13
        value := if same then c.value else 0, ovf := if same then c.ovf else false } ∧
      (∀ d' k', d' ≠ d.val ∨ k' ≠ k.val → t.counter d' k' = s.counter d' k') ∧ { t with counters := s.counters } = s) ∧
  (∀ (d : Fin 4) (hi : Word) (s : State), s.up = true → s.pageLost d.val = false →
    (s.counters.map (fun c => (c.die, c.k))).Nodup →
    let mask := ((lookupKey (counterPage d.val + 0x308) s.heldLo).map BitVec.toNat).getD 0 + hi.toNat * 2 ^ 32
    ∃ t, exec (.cntClear d hi) s = .next t ∧
      (∀ k, k < 64 → t.counter d.val k =
        if bitAt mask k then { s.counter d.val k with value := 0, ovf := false } else s.counter d.val k) ∧
      (∀ d' k, d' ≠ d.val → t.counter d' k = s.counter d' k) ∧ lookupKey (counterPage d.val + 0x308) t.heldLo = none ∧
      { t with counters := s.counters, heldLo := s.heldLo } = s) ∧
  ∀ (d : Fin 4) (k : Fin 64) (s : State), s.up = true → s.pageLost d.val = true →
    exec (.cntLatch d k) s = .next (s.replyWith 0) ∧ (∀ v, exec (.cntCfgWrite d k v) s = .next s) ∧
      ∀ hi, exec (.cntClear d hi) s = .next s
end

