-- ==== Sys2Proof/Laws/Bits.lean ====
section
/-! SUPPORT. Laws of the sparse maps that hold registers and memory, and of bit fields. -/

namespace Sys2Proof.Machine

variable {α : Type}

/-! Sparse maps: what a read gives after a write. -/

theorem sparseGet_filter_ne (d : Nat → α) (a b : Nat) (h : b ≠ a) (m : List (Nat × α)) :
    sparseGet d b (m.filter (fun p => p.1 != a)) = sparseGet d b m := by
  induction m with
  | nil => rfl
  | cons p m ih =>
    obtain ⟨k, v⟩ := p
    by_cases hk : k = a
    · have : k ≠ b := by omega
      simp [hk, sparseGet, ih]
      intro e; omega
    · simp [hk, sparseGet, ih]

theorem sparseGet_filter_self (d : Nat → α) (a : Nat) (m : List (Nat × α)) :
    sparseGet d a (m.filter (fun p => p.1 != a)) = d a := by
  induction m with
  | nil => rfl
  | cons p m ih =>
    obtain ⟨k, v⟩ := p
    by_cases hk : k = a
    · simp [hk, ih]
    · simp [hk, sparseGet, ih]

theorem sparseGet_insert_self (d : Nat → α) (a : Nat) (v : α) (m : List (Nat × α)) (h : ∀ p ∈ m, p.1 ≠ a) :
    sparseGet d a (sparseInsert a v m) = v := by
  induction m with
  | nil => simp [sparseInsert, sparseGet]
  | cons p m ih =>
    obtain ⟨k, w⟩ := p
    have hk : k ≠ a := h (k, w) (by simp)
    have hm : ∀ p ∈ m, p.1 ≠ a := fun p hp => h p (by simp [hp])
    by_cases hlt : a < k
    · simp [sparseInsert, hlt, sparseGet]
    · simp [sparseInsert, hlt, sparseGet, hk, ih hm]

theorem sparseGet_insert_ne (d : Nat → α) (a b : Nat) (v : α) (h : b ≠ a) (m : List (Nat × α)) :
    sparseGet d b (sparseInsert a v m) = sparseGet d b m := by
  induction m with
  | nil => simp [sparseInsert, sparseGet, h.symm]
  | cons p m ih =>
    obtain ⟨k, w⟩ := p
    by_cases hlt : a < k
    · simp [sparseInsert, hlt, sparseGet, h.symm]
    · simp [sparseInsert, hlt, sparseGet, ih]

/-- A read of the written address gives the value written. -/
theorem sparseGet_set_self [DecidableEq α] (d : Nat → α) (a : Nat) (v : α) (m : List (Nat × α)) :
    sparseGet d a (sparseSet d a v m) = v := by
  unfold sparseSet
  by_cases h : v = d a
  · simp [h, sparseGet_filter_self]
  · simp only [h, if_false]
    exact sparseGet_insert_self d a v _ (fun p hp => by simpa using (List.mem_filter.mp hp).2)

/-- A write leaves every other address as it was. -/
theorem sparseGet_set_ne [DecidableEq α] (d : Nat → α) (a b : Nat) (v : α) (h : b ≠ a) (m : List (Nat × α)) :
    sparseGet d b (sparseSet d a v m) = sparseGet d b m := by
  unfold sparseSet
  by_cases hv : v = d a
  · simp [hv, sparseGet_filter_ne d a b h]
  · simp [hv, sparseGet_insert_ne d a b v h, sparseGet_filter_ne d a b h]

/-- What a read gives after a write. -/
theorem sparseGet_set [DecidableEq α] (d : Nat → α) (a b : Nat) (v : α) (m : List (Nat × α)) :
    sparseGet d b (sparseSet d a v m) = if b = a then v else sparseGet d b m := by
  by_cases h : b = a
  · simp [h, sparseGet_set_self]
  · simp [h, sparseGet_set_ne d a b v h]

/-! The canonical form is kept. -/

theorem sparseWfFrom_mono [DecidableEq α] (d : Nat → α) (lo lo' : Option Nat) (m : List (Nat × α))
    (hl : ∀ x, lo' = some x → ∃ y, lo = some y ∧ x ≤ y) (h : sparseWfFrom d lo m = true) :
    sparseWfFrom d lo' m = true := by
  cases m with
  | nil => rfl
  | cons p m =>
    obtain ⟨k, v⟩ := p
    cases lo' with
    | none => simp_all [sparseWfFrom]
    | some x =>
      obtain ⟨y, rfl, hxy⟩ := hl x rfl
      simp_all [sparseWfFrom]
      omega

theorem sparseWfFrom_filter [DecidableEq α] (d : Nat → α) (p : Nat × α → Bool) (m : List (Nat × α)) :
    ∀ lo, sparseWfFrom d lo m = true → sparseWfFrom d lo (m.filter p) = true := by
  induction m with
  | nil => intro lo _; rfl
  | cons x m ih =>
    obtain ⟨k, v⟩ := x
    intro lo h
    simp only [sparseWfFrom, Bool.and_eq_true] at h
    obtain ⟨⟨h1, h2⟩, h3⟩ := h
    by_cases hp : p (k, v)
    · simp [hp, sparseWfFrom, ih _ h3] at *
      exact ⟨h1, h2⟩
    · simp only [List.filter_cons, hp]
      refine sparseWfFrom_mono d (some k) lo _ ?_ (ih _ h3)
      intro x hx
      subst hx
      exact ⟨k, rfl, by simp at h1; omega⟩

theorem sparseWfFrom_insert [DecidableEq α] (d : Nat → α) (a : Nat) (v : α) (hv : v ≠ d a) (m : List (Nat × α)) :
    ∀ lo, (∀ x, lo = some x → x < a) → (∀ p ∈ m, p.1 ≠ a) → sparseWfFrom d lo m = true →
      sparseWfFrom d lo (sparseInsert a v m) = true := by
  induction m with
  | nil =>
    intro lo hlo _ _
    cases lo with
    | none => simp [sparseInsert, sparseWfFrom, hv]
    | some x => simp [sparseInsert, sparseWfFrom, hv, hlo x rfl]
  | cons q m ih =>
    obtain ⟨k, w⟩ := q
    intro lo hlo hne h
    have hk : k ≠ a := hne (k, w) (by simp)
    simp only [sparseWfFrom, Bool.and_eq_true] at h
    obtain ⟨⟨h1, h2⟩, h3⟩ := h
    by_cases hlt : a < k
    · cases lo with
      | none => simp_all [sparseInsert, sparseWfFrom]
      | some x => have := hlo x rfl; simp_all [sparseInsert, sparseWfFrom]
    · have := ih (some k) (by intro x hx; cases hx; omega) (fun p hp => hne p (by simp [hp])) h3
      rw [sparseInsert, if_neg hlt]
      simp only [sparseWfFrom, Bool.and_eq_true]
      exact ⟨⟨h1, h2⟩, this⟩

theorem sparseWf_filter [DecidableEq α] (d : Nat → α) (p : Nat × α → Bool) (m : List (Nat × α))
    (h : sparseWf d m = true) : sparseWf d (m.filter p) = true := sparseWfFrom_filter d p m none h

/-- A write keeps the canonical form. -/
theorem sparseWf_set [DecidableEq α] (d : Nat → α) (a : Nat) (v : α) (m : List (Nat × α)) (h : sparseWf d m = true) :
    sparseWf d (sparseSet d a v m) = true := by
  unfold sparseSet
  have hf := sparseWf_filter d (fun p => p.1 != a) m h
  by_cases hv : v = d a
  · simpa [hv] using hf
  · simp only [hv, if_false]
    exact sparseWfFrom_insert d a v hv _ none (by simp) (fun p hp => by simpa using (List.mem_filter.mp hp).2) hf

/-! Bit fields. -/

theorem bitsOf_lt (v lo w : Nat) : bitsOf v lo w < 2 ^ w := Nat.mod_lt _ (Nat.two_pow_pos w)

theorem bitsOf_eq (v lo w : Nat) : bitsOf v lo w = v / 2 ^ lo % 2 ^ w := by simp [bitsOf, Nat.shiftRight_eq_div_pow]

/-- The field that holds the value of three parts: below, the field and above. -/
theorem putBits_split (v lo w x : Nat) :
    putBits v lo w x = v % 2 ^ lo + 2 ^ lo * (x % 2 ^ w + 2 ^ w * (v / 2 ^ lo / 2 ^ w)) := by
  have h1 := Nat.div_add_mod v (2 ^ lo)
  have h2 := Nat.div_add_mod (v / 2 ^ lo) (2 ^ w)
  unfold putBits
  rw [bitsOf_eq]
  have e : 2 ^ lo * (x % 2 ^ w + 2 ^ w * (v / 2 ^ lo / 2 ^ w)) =
      x % 2 ^ w * 2 ^ lo + 2 ^ lo * (2 ^ w * (v / 2 ^ lo / 2 ^ w)) := by ring
  have e' : 2 ^ lo * (2 ^ w * (v / 2 ^ lo / 2 ^ w)) + v / 2 ^ lo % 2 ^ w * 2 ^ lo = 2 ^ lo * (v / 2 ^ lo) := by
    rw [Nat.mul_comm (v / 2 ^ lo % 2 ^ w), ← Nat.mul_add, h2]
  rw [e]
  omega

/-- A field reads as written. -/
theorem bitsOf_putBits (v lo w x : Nat) : bitsOf (putBits v lo w x) lo w = x % 2 ^ w := by
  rw [bitsOf_eq, putBits_split]
  rw [Nat.add_mul_div_left _ _ (Nat.two_pow_pos lo), Nat.div_eq_of_lt (Nat.mod_lt _ (Nat.two_pow_pos lo)), Nat.zero_add,
    Nat.add_mul_mod_self_left, Nat.mod_mod]

/-- A field written leaves the fields above it. -/
theorem bitsOf_putBits_above (v lo w x lo' w' : Nat) (h : lo + w ≤ lo') :
    bitsOf (putBits v lo w x) lo' w' = bitsOf v lo' w' := by
  obtain ⟨k, rfl⟩ := Nat.exists_eq_add_of_le h
  rw [bitsOf_eq, bitsOf_eq, putBits_split]
  congr 1
  rw [Nat.pow_add, Nat.pow_add, ← Nat.div_div_eq_div_mul, ← Nat.div_div_eq_div_mul,
    Nat.add_mul_div_left _ _ (Nat.two_pow_pos lo), Nat.div_eq_of_lt (Nat.mod_lt _ (Nat.two_pow_pos lo)), Nat.zero_add,
    Nat.add_mul_div_left _ _ (Nat.two_pow_pos w), Nat.div_eq_of_lt (Nat.mod_lt _ (Nat.two_pow_pos w)), Nat.zero_add,
    ← Nat.div_div_eq_div_mul, ← Nat.div_div_eq_div_mul]

/-- A field written leaves the fields below it. -/
theorem bitsOf_putBits_below (v lo w x lo' w' : Nat) (h : lo' + w' ≤ lo) :
    bitsOf (putBits v lo w x) lo' w' = bitsOf v lo' w' := by
  obtain ⟨k, rfl⟩ := Nat.exists_eq_add_of_le h
  have e (y : Nat) : bitsOf y lo' w' = y % 2 ^ (lo' + w') / 2 ^ lo' := by
    rw [bitsOf_eq, Nat.pow_add, Nat.mod_mul_right_div_self]
  rw [e, e, putBits_split, Nat.pow_add _ (lo' + w') k, Nat.mul_assoc, Nat.add_mul_mod_self_left,
    Nat.mod_mul_right_mod]

theorem b2n_le (b : Bool) : b2n b ≤ 1 := by cases b <;> decide

theorem length_leBytes (n v : Nat) : (leBytes n v).length = n := by
  induction n generalizing v with
  | zero => rfl
  | succ n ih => simp [leBytes, ih]

theorem leVal_leBytes (n v : Nat) : leVal (leBytes n v) = v % 2 ^ (8 * n) := by
  induction n generalizing v with
  | zero => simp [leBytes, leVal, Nat.mod_one]
  | succ n ih =>
    simp only [leBytes, leVal, ih]
    have : 2 ^ (8 * (n + 1)) = 256 * 2 ^ (8 * n) := by rw [show 8 * (n + 1) = 8 + 8 * n by ring, Nat.pow_add]
    rw [this, Nat.mod_mul]
    simp

theorem length_fitBytes (n : Nat) (bs : Bytes) : (fitBytes n bs).length = n := by
  simp [fitBytes]; omega

end Sys2Proof.Machine
end

