-- ==== Sys2Proof/Laws/Crypto.lean ====
section
/-! SUPPORT. Lengths of digests and keyed checks (R536, R537). -/

namespace Sys2Proof.Machine

theorem shaStep_length (q : List (Nat × Nat)) (kw : Nat) (h : q.length = 4) : (shaStep q kw).length = 4 := by
  unfold shaStep
  split
  · rfl
  · exact h

theorem shaRounds_length (ks w : List Nat) (q : List (Nat × Nat)) (h : q.length = 4) : (shaRounds ks w q).length = 4 := by
  induction ks generalizing w q with
  | nil => exact h
  | cons k ks ih => exact ih _ _ (shaStep_length _ _ h)

theorem shaBlock_length (q : List (Nat × Nat)) (b : Bytes) (h : q.length = 4) : (shaBlock q b).length = 4 := by
  simp [shaBlock, shaRounds_length _ _ _ h, h]

theorem shaBlocks_length (n : Nat) (m : Bytes) (q : List (Nat × Nat)) (h : q.length = 4) : (shaBlocks n m q).length = 4 := by
  induction n generalizing m q with
  | zero => exact h
  | succ n ih => exact ih _ _ (shaBlock_length _ _ h)

@[simp] theorem leBytes_length (n v : Nat) : (leBytes n v).length = n := by
  induction n generalizing v with
  | zero => rfl
  | succ n ih => simp [leBytes, ih]

@[simp] theorem beBytes_length (n v : Nat) : (beBytes n v).length = n := by simp [beBytes]

theorem primes409_length : primes409.length = 80 := by decide

@[simp] theorem sha384Start_length : sha384Start.length = 4 := by simp [sha384Start, primes409_length]

/-- SHA-384 gives 48 bytes. -/
theorem sha384_length (m : Bytes) : (sha384 m).length = 48 := by
  have h := shaBlocks_length ((shaPadded m).length / 128) (shaPadded m) sha384Start sha384Start_length
  unfold sha384
  simp only
  generalize shaBlocks _ _ _ = q at h ⊢
  match q, h with
  | [a, b, c, d], _ => simp

/-- HMAC-SHA-384 gives 48 bytes. -/
theorem hmac384_length (k m : Bytes) : (hmac384 k m).length = 48 := sha384_length _

end Sys2Proof.Machine
end

