-- ==== Sys2Proof/Laws/Memory.lean ====
section
/-! SUPPORT. Laws of memory: what a byte reads as after a write, and that every memory operation keeps the canonical form. -/

namespace Sys2Proof.Machine

theorem Memory.get_set (m : Memory) (a b : Nat) (v : Byte) : (m.set a v).get b = if b = a then v else m.get b :=
  sparseGet_set _ _ _ _ _

/-- A byte after bytes have been written. -/
theorem Memory.get_setBytes (bs : Bytes) : ∀ (m : Memory) (a b : Nat),
    (Memory.setBytes m a bs).get b = if h : a ≤ b ∧ b < a + bs.length then bs[b - a] else m.get b := by
  induction bs with
  | nil =>
    intro m a b
    have : ¬(a ≤ b ∧ b < a) := by omega
    simp [Memory.setBytes, this]
  | cons x xs ih =>
    intro m a b
    simp only [Memory.setBytes, ih, List.length_cons]
    by_cases h1 : a + 1 ≤ b ∧ b < a + 1 + xs.length
    · have h2 : a ≤ b ∧ b < a + (xs.length + 1) := by omega
      have h3 : b - a = (b - (a + 1)) + 1 := by omega
      simp [h1, h2, h3]
    · by_cases hb : b = a
      · subst hb
        simp [Memory.get_set]
      · have h2 : ¬(a ≤ b ∧ b < a + (xs.length + 1)) := by omega
        rw [dif_neg h1, dif_neg h2, Memory.get_set, if_neg hb]

theorem Memory.get_setBytes_outside (bs : Bytes) (m : Memory) (a b : Nat) (h : b < a ∨ a + bs.length ≤ b) :
    (Memory.setBytes m a bs).get b = m.get b := by
  rw [Memory.get_setBytes, dif_neg (by omega)]

/-- The bytes written are read back. -/
theorem Memory.getBytes_setBytes (bs : Bytes) (m : Memory) (a : Nat) :
    Memory.getBytes (Memory.setBytes m a bs) a bs.length = bs := by
  apply List.ext_getElem
  · simp [Memory.getBytes]
  · intro i h1 h2
    simp [Memory.getBytes, Memory.get_setBytes, h2]

theorem Memory.wf_set (m : Memory) (a : Nat) (v : Byte) (h : m.wf = true) : (m.set a v).wf = true := sparseWf_set _ _ _ _ h

theorem Memory.wf_setBytes (bs : Bytes) : ∀ (m : Memory) (a : Nat), m.wf = true → (Memory.setBytes m a bs).wf = true := by
  induction bs with
  | nil => intro m a h; exact h
  | cons x xs ih => intro m a h; exact ih _ _ (Memory.wf_set m a x h)

theorem Memory.wf_clear (m : Memory) (a n : Nat) (h : m.wf = true) : (m.clear a n).wf = true := sparseWf_filter _ _ _ h

/-- The memory of the reset state is canonical. -/
theorem Memory.wf_reset : Memory.wf State.reset.mem = true := rfl

/-! Stores. -/

@[simp] theorem State.touchTile_mem (s : State) (t : Nat) : (s.touchTile t).mem = s.mem := by
  unfold State.touchTile
  split <;> rfl

theorem State.foldl_touch_mem (t0 : Nat) (is : List Nat) (s : State) :
    (is.foldl (fun s i => s.touchTile (t0 + i)) s).mem = s.mem := by
  induction is generalizing s with
  | nil => rfl
  | cons i is ih => simp [ih]

@[simp] theorem State.touchRange_mem (s : State) (a n : Nat) : (s.touchRange a n).mem = s.mem := by
  unfold State.touchRange
  split
  · rfl
  · exact State.foldl_touch_mem _ _ _

/-- A store writes its bytes. -/
@[simp] theorem State.store_mem (s : State) (a : Nat) (bs : Bytes) : (s.store a bs).mem = Memory.setBytes s.mem a bs := by
  simp [State.store]

/-- Every byte outside a store reads as before. -/
theorem State.store_outside (s : State) (a b : Nat) (bs : Bytes) (h : b < a ∨ a + bs.length ≤ b) :
    Memory.get (s.store a bs).mem b = Memory.get s.mem b := by
  rw [State.store_mem]; exact Memory.get_setBytes_outside bs s.mem a b h

theorem State.store_wf (s : State) (a : Nat) (bs : Bytes) (h : Memory.wf s.mem = true) : Memory.wf (s.store a bs).mem = true := by
  rw [State.store_mem]; exact Memory.wf_setBytes bs _ _ h

end Sys2Proof.Machine
end

