-- ==== Sys2Proof/Laws/State.lean ====
section
/-! SUPPORT. Laws of the state's updates: for each, the fields it leaves as they were, one rewrite rule per field. -/

namespace Sys2Proof.Machine

/-- A register write changes the register file only. -/
@[simp] theorem State.setReg_frame (s : State) (off v : Nat) :
    (s.setReg off v).pending = s.pending ∧ (s.setReg off v).free = s.free ∧ (s.setReg off v).active = s.active ∧
    (s.setReg off v).shadowed = s.shadowed ∧ (s.setReg off v).latches = s.latches ∧
    (s.setReg off v).heldLo = s.heldLo ∧ (s.setReg off v).mem = s.mem ∧ (s.setReg off v).power = s.power ∧
    (s.setReg off v).flash = s.flash ∧ (s.setReg off v).steps = s.steps ∧ (s.setReg off v).trail = s.trail ∧
    (s.setReg off v).out = s.out ∧ (s.setReg off v).host = s.host ∧ (s.setReg off v).time = s.time ∧
    (s.setReg off v).tiers = s.tiers ∧ (s.setReg off v).sheets = s.sheets ∧ (s.setReg off v).arrays = s.arrays ∧
    (s.setReg off v).faults = s.faults ∧ (s.setReg off v).sec = s.sec ∧ (s.setReg off v).ports = s.ports ∧
    (s.setReg off v).fusion = s.fusion ∧ (s.setReg off v).vision = s.vision ∧
    (s.setReg off v).checkpoints = s.checkpoints ∧ (s.setReg off v).track = s.track ∧
    (s.setReg off v).search = s.search ∧ (s.setReg off v).solver = s.solver ∧ (s.setReg off v).map = s.map ∧
    (s.setReg off v).mapQueue = s.mapQueue ∧ (s.setReg off v).trackQueue = s.trackQueue ∧
    (s.setReg off v).signal = s.signal ∧ (s.setReg off v).counters = s.counters ∧ (s.setReg off v).anchors = s.anchors ∧
    (s.setReg off v).tensors = s.tensors ∧ (s.setReg off v).answers = s.answers :=
  ⟨rfl, rfl, rfl, rfl, rfl, rfl, rfl, rfl, rfl, rfl, rfl, rfl, rfl, rfl, rfl, rfl, rfl, rfl, rfl, rfl, rfl, rfl, rfl,
    rfl, rfl, rfl, rfl, rfl, rfl, rfl, rfl, rfl, rfl, rfl⟩


/-- An active value's write changes the active values only. -/
@[simp] theorem State.setActive_frame (s : State) (off v : Nat) :
    (s.setActive off v).pending = s.pending ∧ (s.setActive off v).free = s.free ∧ (s.setActive off v).regs = s.regs ∧
    (s.setActive off v).shadowed = s.shadowed ∧ (s.setActive off v).latches = s.latches ∧
    (s.setActive off v).heldLo = s.heldLo ∧ (s.setActive off v).mem = s.mem ∧ (s.setActive off v).power = s.power ∧
    (s.setActive off v).flash = s.flash ∧ (s.setActive off v).steps = s.steps ∧ (s.setActive off v).trail = s.trail ∧
    (s.setActive off v).out = s.out ∧ (s.setActive off v).host = s.host ∧ (s.setActive off v).time = s.time ∧
    (s.setActive off v).tiers = s.tiers ∧ (s.setActive off v).sheets = s.sheets ∧
    (s.setActive off v).arrays = s.arrays ∧ (s.setActive off v).faults = s.faults ∧ (s.setActive off v).sec = s.sec ∧
    (s.setActive off v).ports = s.ports ∧ (s.setActive off v).fusion = s.fusion ∧
    (s.setActive off v).vision = s.vision ∧ (s.setActive off v).checkpoints = s.checkpoints ∧
    (s.setActive off v).track = s.track ∧ (s.setActive off v).search = s.search ∧
    (s.setActive off v).solver = s.solver ∧ (s.setActive off v).map = s.map ∧
    (s.setActive off v).mapQueue = s.mapQueue ∧ (s.setActive off v).trackQueue = s.trackQueue ∧
    (s.setActive off v).signal = s.signal ∧ (s.setActive off v).counters = s.counters ∧
    (s.setActive off v).anchors = s.anchors ∧
    (s.setActive off v).tensors = s.tensors ∧ (s.setActive off v).answers = s.answers :=
  ⟨rfl, rfl, rfl, rfl, rfl, rfl, rfl, rfl, rfl, rfl, rfl, rfl, rfl, rfl, rfl, rfl, rfl, rfl, rfl, rfl, rfl, rfl, rfl,
    rfl, rfl, rfl, rfl, rfl, rfl, rfl, rfl, rfl, rfl, rfl⟩


/-- A field write changes the register file only. -/
@[simp] theorem State.setFld_frame (s : State) (f : Fld) (v : Nat) :
    (s.setFld f v).pending = s.pending ∧ (s.setFld f v).free = s.free ∧ (s.setFld f v).active = s.active ∧
    (s.setFld f v).shadowed = s.shadowed ∧ (s.setFld f v).latches = s.latches ∧ (s.setFld f v).heldLo = s.heldLo ∧
    (s.setFld f v).mem = s.mem ∧ (s.setFld f v).power = s.power ∧ (s.setFld f v).flash = s.flash ∧
    (s.setFld f v).steps = s.steps ∧ (s.setFld f v).trail = s.trail ∧ (s.setFld f v).out = s.out ∧
    (s.setFld f v).host = s.host ∧ (s.setFld f v).time = s.time ∧ (s.setFld f v).tiers = s.tiers ∧
    (s.setFld f v).sheets = s.sheets ∧ (s.setFld f v).arrays = s.arrays ∧ (s.setFld f v).faults = s.faults ∧
    (s.setFld f v).sec = s.sec ∧ (s.setFld f v).ports = s.ports ∧ (s.setFld f v).fusion = s.fusion ∧
    (s.setFld f v).vision = s.vision ∧ (s.setFld f v).checkpoints = s.checkpoints ∧ (s.setFld f v).track = s.track ∧
    (s.setFld f v).search = s.search ∧ (s.setFld f v).solver = s.solver ∧ (s.setFld f v).map = s.map ∧
    (s.setFld f v).mapQueue = s.mapQueue ∧ (s.setFld f v).trackQueue = s.trackQueue ∧
    (s.setFld f v).signal = s.signal ∧ (s.setFld f v).counters = s.counters ∧ (s.setFld f v).anchors = s.anchors ∧
    (s.setFld f v).tensors = s.tensors ∧ (s.setFld f v).answers = s.answers := by
  unfold State.setFld
  simp


/-- A saturating count changes the register file only. -/
@[simp] theorem State.satReg_frame (s : State) (off n : Nat) :
    (s.satReg off n).pending = s.pending ∧ (s.satReg off n).free = s.free ∧ (s.satReg off n).active = s.active ∧
    (s.satReg off n).shadowed = s.shadowed ∧ (s.satReg off n).latches = s.latches ∧
    (s.satReg off n).heldLo = s.heldLo ∧ (s.satReg off n).mem = s.mem ∧ (s.satReg off n).power = s.power ∧
    (s.satReg off n).flash = s.flash ∧ (s.satReg off n).steps = s.steps ∧ (s.satReg off n).trail = s.trail ∧
    (s.satReg off n).out = s.out ∧ (s.satReg off n).host = s.host ∧ (s.satReg off n).time = s.time ∧
    (s.satReg off n).tiers = s.tiers ∧ (s.satReg off n).sheets = s.sheets ∧ (s.satReg off n).arrays = s.arrays ∧
    (s.satReg off n).faults = s.faults ∧ (s.satReg off n).sec = s.sec ∧ (s.satReg off n).ports = s.ports ∧
    (s.satReg off n).fusion = s.fusion ∧ (s.satReg off n).vision = s.vision ∧
    (s.satReg off n).checkpoints = s.checkpoints ∧ (s.satReg off n).track = s.track ∧
    (s.satReg off n).search = s.search ∧ (s.satReg off n).solver = s.solver ∧ (s.satReg off n).map = s.map ∧
    (s.satReg off n).mapQueue = s.mapQueue ∧ (s.satReg off n).trackQueue = s.trackQueue ∧
    (s.satReg off n).signal = s.signal ∧ (s.satReg off n).counters = s.counters ∧ (s.satReg off n).anchors = s.anchors ∧
    (s.satReg off n).tensors = s.tensors ∧ (s.satReg off n).answers = s.answers := by
  unfold State.satReg
  simp


/-- A saturating field changes the register file only. -/
@[simp] theorem State.satFld_frame (s : State) (f : Fld) (n : Nat) :
    (s.satFld f n).pending = s.pending ∧ (s.satFld f n).free = s.free ∧ (s.satFld f n).active = s.active ∧
    (s.satFld f n).shadowed = s.shadowed ∧ (s.satFld f n).latches = s.latches ∧ (s.satFld f n).heldLo = s.heldLo ∧
    (s.satFld f n).mem = s.mem ∧ (s.satFld f n).power = s.power ∧ (s.satFld f n).flash = s.flash ∧
    (s.satFld f n).steps = s.steps ∧ (s.satFld f n).trail = s.trail ∧ (s.satFld f n).out = s.out ∧
    (s.satFld f n).host = s.host ∧ (s.satFld f n).time = s.time ∧ (s.satFld f n).tiers = s.tiers ∧
    (s.satFld f n).sheets = s.sheets ∧ (s.satFld f n).arrays = s.arrays ∧ (s.satFld f n).faults = s.faults ∧
    (s.satFld f n).sec = s.sec ∧ (s.satFld f n).ports = s.ports ∧ (s.satFld f n).fusion = s.fusion ∧
    (s.satFld f n).vision = s.vision ∧ (s.satFld f n).checkpoints = s.checkpoints ∧ (s.satFld f n).track = s.track ∧
    (s.satFld f n).search = s.search ∧ (s.satFld f n).solver = s.solver ∧ (s.satFld f n).map = s.map ∧
    (s.satFld f n).mapQueue = s.mapQueue ∧ (s.satFld f n).trackQueue = s.trackQueue ∧
    (s.satFld f n).signal = s.signal ∧ (s.satFld f n).counters = s.counters ∧ (s.satFld f n).anchors = s.anchors ∧
    (s.satFld f n).tensors = s.tensors ∧ (s.satFld f n).answers = s.answers := by
  unfold State.satFld
  simp


/-- A pair's write changes the register file only. -/
@[simp] theorem State.setReg64_frame (s : State) (off v : Nat) :
    (s.setReg64 off v).pending = s.pending ∧ (s.setReg64 off v).free = s.free ∧
    (s.setReg64 off v).active = s.active ∧ (s.setReg64 off v).shadowed = s.shadowed ∧
    (s.setReg64 off v).latches = s.latches ∧ (s.setReg64 off v).heldLo = s.heldLo ∧ (s.setReg64 off v).mem = s.mem ∧
    (s.setReg64 off v).power = s.power ∧ (s.setReg64 off v).flash = s.flash ∧ (s.setReg64 off v).steps = s.steps ∧
    (s.setReg64 off v).trail = s.trail ∧ (s.setReg64 off v).out = s.out ∧ (s.setReg64 off v).host = s.host ∧
    (s.setReg64 off v).time = s.time ∧ (s.setReg64 off v).tiers = s.tiers ∧ (s.setReg64 off v).sheets = s.sheets ∧
    (s.setReg64 off v).arrays = s.arrays ∧ (s.setReg64 off v).faults = s.faults ∧ (s.setReg64 off v).sec = s.sec ∧
    (s.setReg64 off v).ports = s.ports ∧ (s.setReg64 off v).fusion = s.fusion ∧
    (s.setReg64 off v).vision = s.vision ∧ (s.setReg64 off v).checkpoints = s.checkpoints ∧
    (s.setReg64 off v).track = s.track ∧ (s.setReg64 off v).search = s.search ∧
    (s.setReg64 off v).solver = s.solver ∧ (s.setReg64 off v).map = s.map ∧
    (s.setReg64 off v).mapQueue = s.mapQueue ∧ (s.setReg64 off v).trackQueue = s.trackQueue ∧
    (s.setReg64 off v).signal = s.signal ∧ (s.setReg64 off v).counters = s.counters ∧
    (s.setReg64 off v).anchors = s.anchors ∧
    (s.setReg64 off v).tensors = s.tensors ∧ (s.setReg64 off v).answers = s.answers := by
  unfold State.setReg64
  simp


/-- A 64-bit count changes the register file only. -/
@[simp] theorem State.addReg64_frame (s : State) (off n : Nat) :
    (s.addReg64 off n).pending = s.pending ∧ (s.addReg64 off n).free = s.free ∧
    (s.addReg64 off n).active = s.active ∧ (s.addReg64 off n).shadowed = s.shadowed ∧
    (s.addReg64 off n).latches = s.latches ∧ (s.addReg64 off n).heldLo = s.heldLo ∧ (s.addReg64 off n).mem = s.mem ∧
    (s.addReg64 off n).power = s.power ∧ (s.addReg64 off n).flash = s.flash ∧ (s.addReg64 off n).steps = s.steps ∧
    (s.addReg64 off n).trail = s.trail ∧ (s.addReg64 off n).out = s.out ∧ (s.addReg64 off n).host = s.host ∧
    (s.addReg64 off n).time = s.time ∧ (s.addReg64 off n).tiers = s.tiers ∧ (s.addReg64 off n).sheets = s.sheets ∧
    (s.addReg64 off n).arrays = s.arrays ∧ (s.addReg64 off n).faults = s.faults ∧ (s.addReg64 off n).sec = s.sec ∧
    (s.addReg64 off n).ports = s.ports ∧ (s.addReg64 off n).fusion = s.fusion ∧
    (s.addReg64 off n).vision = s.vision ∧ (s.addReg64 off n).checkpoints = s.checkpoints ∧
    (s.addReg64 off n).track = s.track ∧ (s.addReg64 off n).search = s.search ∧
    (s.addReg64 off n).solver = s.solver ∧ (s.addReg64 off n).map = s.map ∧
    (s.addReg64 off n).mapQueue = s.mapQueue ∧ (s.addReg64 off n).trackQueue = s.trackQueue ∧
    (s.addReg64 off n).signal = s.signal ∧ (s.addReg64 off n).counters = s.counters ∧
    (s.addReg64 off n).anchors = s.anchors ∧
    (s.addReg64 off n).tensors = s.tensors ∧ (s.addReg64 off n).answers = s.answers := by
  unfold State.addReg64
  simp


/-- A block's answer changes the register file only (R38). -/
@[simp] theorem State.answer_frame (s : State) (b o c : Nat) :
    (s.answer b o c).pending = s.pending ∧ (s.answer b o c).free = s.free ∧ (s.answer b o c).active = s.active ∧
    (s.answer b o c).shadowed = s.shadowed ∧ (s.answer b o c).latches = s.latches ∧
    (s.answer b o c).heldLo = s.heldLo ∧ (s.answer b o c).mem = s.mem ∧ (s.answer b o c).power = s.power ∧
    (s.answer b o c).flash = s.flash ∧ (s.answer b o c).steps = s.steps ∧ (s.answer b o c).trail = s.trail ∧
    (s.answer b o c).out = s.out ∧ (s.answer b o c).host = s.host ∧ (s.answer b o c).time = s.time ∧
    (s.answer b o c).tiers = s.tiers ∧ (s.answer b o c).sheets = s.sheets ∧ (s.answer b o c).arrays = s.arrays ∧
    (s.answer b o c).faults = s.faults ∧ (s.answer b o c).sec = s.sec ∧ (s.answer b o c).ports = s.ports ∧
    (s.answer b o c).fusion = s.fusion ∧ (s.answer b o c).vision = s.vision ∧
    (s.answer b o c).checkpoints = s.checkpoints ∧ (s.answer b o c).track = s.track ∧
    (s.answer b o c).search = s.search ∧ (s.answer b o c).solver = s.solver ∧ (s.answer b o c).map = s.map ∧
    (s.answer b o c).mapQueue = s.mapQueue ∧ (s.answer b o c).trackQueue = s.trackQueue ∧
    (s.answer b o c).signal = s.signal ∧ (s.answer b o c).counters = s.counters ∧ (s.answer b o c).anchors = s.anchors ∧
    (s.answer b o c).tensors = s.tensors := by
  unfold State.answer State.answerAt
  simp


/-- A SECURITY or FAULT answer changes the register file only (R552, R579). -/
@[simp] theorem State.answerHi_frame (s : State) (b o c : Nat) :
    (s.answerHi b o c).pending = s.pending ∧ (s.answerHi b o c).free = s.free ∧
    (s.answerHi b o c).active = s.active ∧ (s.answerHi b o c).shadowed = s.shadowed ∧
    (s.answerHi b o c).latches = s.latches ∧ (s.answerHi b o c).heldLo = s.heldLo ∧ (s.answerHi b o c).mem = s.mem ∧
    (s.answerHi b o c).power = s.power ∧ (s.answerHi b o c).flash = s.flash ∧ (s.answerHi b o c).steps = s.steps ∧
    (s.answerHi b o c).trail = s.trail ∧ (s.answerHi b o c).out = s.out ∧ (s.answerHi b o c).host = s.host ∧
    (s.answerHi b o c).time = s.time ∧ (s.answerHi b o c).tiers = s.tiers ∧ (s.answerHi b o c).sheets = s.sheets ∧
    (s.answerHi b o c).arrays = s.arrays ∧ (s.answerHi b o c).faults = s.faults ∧ (s.answerHi b o c).sec = s.sec ∧
    (s.answerHi b o c).ports = s.ports ∧ (s.answerHi b o c).fusion = s.fusion ∧
    (s.answerHi b o c).vision = s.vision ∧ (s.answerHi b o c).checkpoints = s.checkpoints ∧
    (s.answerHi b o c).track = s.track ∧ (s.answerHi b o c).search = s.search ∧
    (s.answerHi b o c).solver = s.solver ∧ (s.answerHi b o c).map = s.map ∧
    (s.answerHi b o c).mapQueue = s.mapQueue ∧ (s.answerHi b o c).trackQueue = s.trackQueue ∧
    (s.answerHi b o c).signal = s.signal ∧ (s.answerHi b o c).counters = s.counters ∧
    (s.answerHi b o c).anchors = s.anchors ∧
    (s.answerHi b o c).tensors = s.tensors := by
  unfold State.answerHi State.answerAt
  simp


/-- A read's answer changes nothing but the reply. -/
@[simp] theorem State.replyWith_frame (s : State) (w : Nat) :
    (s.replyWith w).pending = s.pending ∧ (s.replyWith w).free = s.free ∧ (s.replyWith w).regs = s.regs ∧
    (s.replyWith w).active = s.active ∧ (s.replyWith w).shadowed = s.shadowed ∧ (s.replyWith w).latches = s.latches ∧
    (s.replyWith w).heldLo = s.heldLo ∧ (s.replyWith w).mem = s.mem ∧ (s.replyWith w).power = s.power ∧
    (s.replyWith w).flash = s.flash ∧ (s.replyWith w).steps = s.steps ∧ (s.replyWith w).trail = s.trail ∧
    (s.replyWith w).out = s.out ∧ (s.replyWith w).time = s.time ∧ (s.replyWith w).tiers = s.tiers ∧
    (s.replyWith w).sheets = s.sheets ∧ (s.replyWith w).arrays = s.arrays ∧ (s.replyWith w).faults = s.faults ∧
    (s.replyWith w).sec = s.sec ∧ (s.replyWith w).ports = s.ports ∧ (s.replyWith w).fusion = s.fusion ∧
    (s.replyWith w).vision = s.vision ∧ (s.replyWith w).checkpoints = s.checkpoints ∧
    (s.replyWith w).track = s.track ∧ (s.replyWith w).search = s.search ∧ (s.replyWith w).solver = s.solver ∧
    (s.replyWith w).map = s.map ∧ (s.replyWith w).mapQueue = s.mapQueue ∧ (s.replyWith w).trackQueue = s.trackQueue ∧
    (s.replyWith w).signal = s.signal ∧ (s.replyWith w).counters = s.counters ∧ (s.replyWith w).anchors = s.anchors ∧
    (s.replyWith w).tensors = s.tensors ∧ (s.replyWith w).answers = s.answers ∧
    (s.replyWith w).host.linkUp = s.host.linkUp ∧ (s.replyWith w).host.gen = s.host.gen ∧
    (s.replyWith w).host.width = s.host.width ∧ (s.replyWith w).host.flit = s.host.flit ∧
    (s.replyWith w).host.attached = s.host.attached ∧ (s.replyWith w).host.outBase = s.host.outBase ∧
    (s.replyWith w).host.outSize = s.host.outSize ∧ (s.replyWith w).host.epoch = s.host.epoch ∧
    (s.replyWith w).host.rings = s.host.rings ∧ (s.replyWith w).host.unposted = s.host.unposted ∧
    (s.replyWith w).host.posted = s.host.posted ∧ (s.replyWith w).host.vectorMask = s.host.vectorMask ∧
    (s.replyWith w).host.vectorPending = s.host.vectorPending ∧ (s.replyWith w).host.sent = s.host.sent ∧
    (s.replyWith w).host.written = s.host.written ∧ (s.replyWith w).host.stagedImage = s.host.stagedImage ∧
    (s.replyWith w).host.stagedSlot = s.host.stagedSlot ∧ (s.replyWith w).host.stagedRuntime = s.host.stagedRuntime ∧
    (s.replyWith w).host.bootConfig = s.host.bootConfig :=
  ⟨rfl, rfl, rfl, rfl, rfl, rfl, rfl, rfl, rfl, rfl, rfl, rfl, rfl, rfl, rfl, rfl, rfl, rfl, rfl, rfl, rfl, rfl, rfl,
    rfl, rfl, rfl, rfl, rfl, rfl, rfl, rfl, rfl, rfl, rfl, rfl, rfl, rfl, rfl, rfl, rfl, rfl, rfl, rfl, rfl, rfl,
    rfl, rfl, rfl, rfl, rfl, rfl, rfl, rfl⟩


/-- A held low half consumed changes nothing else. -/
@[simp] theorem State.consumeLo_frame (s : State) (off : Nat) :
    (s.consumeLo off).pending = s.pending ∧ (s.consumeLo off).free = s.free ∧ (s.consumeLo off).regs = s.regs ∧
    (s.consumeLo off).active = s.active ∧ (s.consumeLo off).shadowed = s.shadowed ∧
    (s.consumeLo off).latches = s.latches ∧ (s.consumeLo off).mem = s.mem ∧ (s.consumeLo off).power = s.power ∧
    (s.consumeLo off).flash = s.flash ∧ (s.consumeLo off).steps = s.steps ∧ (s.consumeLo off).trail = s.trail ∧
    (s.consumeLo off).out = s.out ∧ (s.consumeLo off).host = s.host ∧ (s.consumeLo off).time = s.time ∧
    (s.consumeLo off).tiers = s.tiers ∧ (s.consumeLo off).sheets = s.sheets ∧ (s.consumeLo off).arrays = s.arrays ∧
    (s.consumeLo off).faults = s.faults ∧ (s.consumeLo off).sec = s.sec ∧ (s.consumeLo off).ports = s.ports ∧
    (s.consumeLo off).fusion = s.fusion ∧ (s.consumeLo off).vision = s.vision ∧
    (s.consumeLo off).checkpoints = s.checkpoints ∧ (s.consumeLo off).track = s.track ∧
    (s.consumeLo off).search = s.search ∧ (s.consumeLo off).solver = s.solver ∧ (s.consumeLo off).map = s.map ∧
    (s.consumeLo off).mapQueue = s.mapQueue ∧ (s.consumeLo off).trackQueue = s.trackQueue ∧
    (s.consumeLo off).signal = s.signal ∧ (s.consumeLo off).counters = s.counters ∧
    (s.consumeLo off).anchors = s.anchors ∧
    (s.consumeLo off).tensors = s.tensors ∧ (s.consumeLo off).answers = s.answers :=
  ⟨rfl, rfl, rfl, rfl, rfl, rfl, rfl, rfl, rfl, rfl, rfl, rfl, rfl, rfl, rfl, rfl, rfl, rfl, rfl, rfl, rfl, rfl, rfl,
    rfl, rfl, rfl, rfl, rfl, rfl, rfl, rfl, rfl, rfl, rfl⟩


/-- An MSI-X vector raised is sent or left pending; nothing else changes (R497). -/
@[simp] theorem State.msix_frame (s : State) (v : Nat) :
    (s.msix v).pending = s.pending ∧ (s.msix v).free = s.free ∧ (s.msix v).regs = s.regs ∧
    (s.msix v).active = s.active ∧ (s.msix v).shadowed = s.shadowed ∧ (s.msix v).latches = s.latches ∧
    (s.msix v).heldLo = s.heldLo ∧ (s.msix v).mem = s.mem ∧ (s.msix v).power = s.power ∧ (s.msix v).flash = s.flash ∧
    (s.msix v).steps = s.steps ∧ (s.msix v).trail = s.trail ∧ (s.msix v).out = s.out ∧ (s.msix v).time = s.time ∧
    (s.msix v).tiers = s.tiers ∧ (s.msix v).sheets = s.sheets ∧ (s.msix v).arrays = s.arrays ∧
    (s.msix v).faults = s.faults ∧ (s.msix v).sec = s.sec ∧ (s.msix v).ports = s.ports ∧
    (s.msix v).fusion = s.fusion ∧ (s.msix v).vision = s.vision ∧ (s.msix v).checkpoints = s.checkpoints ∧
    (s.msix v).track = s.track ∧ (s.msix v).search = s.search ∧ (s.msix v).solver = s.solver ∧
    (s.msix v).map = s.map ∧ (s.msix v).mapQueue = s.mapQueue ∧ (s.msix v).trackQueue = s.trackQueue ∧
    (s.msix v).signal = s.signal ∧ (s.msix v).counters = s.counters ∧ (s.msix v).anchors = s.anchors ∧
    (s.msix v).tensors = s.tensors ∧ (s.msix v).answers = s.answers ∧
    (s.msix v).host.linkUp = s.host.linkUp ∧ (s.msix v).host.gen = s.host.gen ∧
    (s.msix v).host.width = s.host.width ∧ (s.msix v).host.flit = s.host.flit ∧
    (s.msix v).host.attached = s.host.attached ∧ (s.msix v).host.outBase = s.host.outBase ∧
    (s.msix v).host.outSize = s.host.outSize ∧ (s.msix v).host.epoch = s.host.epoch ∧
    (s.msix v).host.rings = s.host.rings ∧ (s.msix v).host.unposted = s.host.unposted ∧
    (s.msix v).host.posted = s.host.posted ∧ (s.msix v).host.vectorMask = s.host.vectorMask ∧
    (s.msix v).host.written = s.host.written ∧ (s.msix v).host.reply = s.host.reply ∧
    (s.msix v).host.stagedImage = s.host.stagedImage ∧ (s.msix v).host.stagedSlot = s.host.stagedSlot ∧
    (s.msix v).host.stagedRuntime = s.host.stagedRuntime ∧ (s.msix v).host.bootConfig = s.host.bootConfig := by
  unfold State.msix
  split <;> simp


/-- An event sets its flag and may raise its vector; nothing else changes. -/
@[simp] theorem State.event_frame (s : State) (off bit : Nat) (en : Bool) (vec : Nat) :
    (s.event off bit en vec).pending = s.pending ∧ (s.event off bit en vec).free = s.free ∧
    (s.event off bit en vec).active = s.active ∧ (s.event off bit en vec).shadowed = s.shadowed ∧
    (s.event off bit en vec).latches = s.latches ∧ (s.event off bit en vec).heldLo = s.heldLo ∧
    (s.event off bit en vec).mem = s.mem ∧ (s.event off bit en vec).power = s.power ∧
    (s.event off bit en vec).flash = s.flash ∧ (s.event off bit en vec).steps = s.steps ∧
    (s.event off bit en vec).trail = s.trail ∧ (s.event off bit en vec).out = s.out ∧
    (s.event off bit en vec).time = s.time ∧ (s.event off bit en vec).tiers = s.tiers ∧
    (s.event off bit en vec).sheets = s.sheets ∧ (s.event off bit en vec).arrays = s.arrays ∧
    (s.event off bit en vec).faults = s.faults ∧ (s.event off bit en vec).sec = s.sec ∧
    (s.event off bit en vec).ports = s.ports ∧ (s.event off bit en vec).fusion = s.fusion ∧
    (s.event off bit en vec).vision = s.vision ∧ (s.event off bit en vec).checkpoints = s.checkpoints ∧
    (s.event off bit en vec).track = s.track ∧ (s.event off bit en vec).search = s.search ∧
    (s.event off bit en vec).solver = s.solver ∧ (s.event off bit en vec).map = s.map ∧
    (s.event off bit en vec).mapQueue = s.mapQueue ∧ (s.event off bit en vec).trackQueue = s.trackQueue ∧
    (s.event off bit en vec).signal = s.signal ∧ (s.event off bit en vec).counters = s.counters ∧
    (s.event off bit en vec).anchors = s.anchors ∧
    (s.event off bit en vec).tensors = s.tensors ∧ (s.event off bit en vec).answers = s.answers ∧ (s.event off bit en vec).host.linkUp = s.host.linkUp ∧
    (s.event off bit en vec).host.gen = s.host.gen ∧ (s.event off bit en vec).host.width = s.host.width ∧
    (s.event off bit en vec).host.flit = s.host.flit ∧ (s.event off bit en vec).host.attached = s.host.attached ∧
    (s.event off bit en vec).host.outBase = s.host.outBase ∧ (s.event off bit en vec).host.outSize = s.host.outSize ∧
    (s.event off bit en vec).host.epoch = s.host.epoch ∧ (s.event off bit en vec).host.rings = s.host.rings ∧
    (s.event off bit en vec).host.unposted = s.host.unposted ∧ (s.event off bit en vec).host.posted = s.host.posted ∧
    (s.event off bit en vec).host.vectorMask = s.host.vectorMask ∧
    (s.event off bit en vec).host.written = s.host.written ∧ (s.event off bit en vec).host.reply = s.host.reply ∧
    (s.event off bit en vec).host.stagedImage = s.host.stagedImage ∧
    (s.event off bit en vec).host.stagedSlot = s.host.stagedSlot ∧
    (s.event off bit en vec).host.stagedRuntime = s.host.stagedRuntime ∧
    (s.event off bit en vec).host.bootConfig = s.host.bootConfig := by
  unfold State.event
  cases en <;> simp


/-- Counted events change the counters only. -/
@[simp] theorem State.count_frame (s : State) (die ev inst n : Nat) :
    (s.count die ev inst n).pending = s.pending ∧ (s.count die ev inst n).free = s.free ∧
    (s.count die ev inst n).regs = s.regs ∧ (s.count die ev inst n).active = s.active ∧
    (s.count die ev inst n).shadowed = s.shadowed ∧ (s.count die ev inst n).latches = s.latches ∧
    (s.count die ev inst n).heldLo = s.heldLo ∧ (s.count die ev inst n).mem = s.mem ∧
    (s.count die ev inst n).power = s.power ∧ (s.count die ev inst n).flash = s.flash ∧
    (s.count die ev inst n).steps = s.steps ∧ (s.count die ev inst n).trail = s.trail ∧
    (s.count die ev inst n).out = s.out ∧ (s.count die ev inst n).host = s.host ∧
    (s.count die ev inst n).time = s.time ∧ (s.count die ev inst n).tiers = s.tiers ∧
    (s.count die ev inst n).sheets = s.sheets ∧ (s.count die ev inst n).arrays = s.arrays ∧
    (s.count die ev inst n).faults = s.faults ∧ (s.count die ev inst n).sec = s.sec ∧
    (s.count die ev inst n).ports = s.ports ∧ (s.count die ev inst n).fusion = s.fusion ∧
    (s.count die ev inst n).vision = s.vision ∧ (s.count die ev inst n).checkpoints = s.checkpoints ∧
    (s.count die ev inst n).track = s.track ∧ (s.count die ev inst n).search = s.search ∧
    (s.count die ev inst n).solver = s.solver ∧ (s.count die ev inst n).map = s.map ∧
    (s.count die ev inst n).mapQueue = s.mapQueue ∧ (s.count die ev inst n).trackQueue = s.trackQueue ∧
    (s.count die ev inst n).signal = s.signal ∧ (s.count die ev inst n).anchors = s.anchors ∧
    (s.count die ev inst n).tensors = s.tensors ∧ (s.count die ev inst n).answers = s.answers := by
  unfold State.count
  dsimp only
  split <;> simp


end Sys2Proof.Machine
end

