-- ==== Sys2Proof/Laws/Regs.lean ====
section
/-! SUPPORT. Laws of the register file: what a read gives after a write, for registers, active values, fields and pairs. -/

namespace Sys2Proof.Machine

/-- A register after a write: the low 32 bits of what was written. -/
theorem State.reg_setReg (s : State) (a b v : Nat) : (s.setReg a v).reg b = if b = a then v % 2 ^ 32 else s.reg b := by
  unfold State.reg State.setReg
  simp only [sparseGet_set]
  split <;> simp

@[simp] theorem State.reg_setReg_self (s : State) (a v : Nat) : (s.setReg a v).reg a = v % 2 ^ 32 := by
  simp [State.reg_setReg]

@[simp] theorem State.reg_setReg_ne (s : State) (a b v : Nat) (h : b ≠ a) : (s.setReg a v).reg b = s.reg b := by
  simp [State.reg_setReg, h]

/-- An active value after a write. -/
theorem State.activeReg_setActive (s : State) (a b v : Nat) :
    (s.setActive a v).activeReg b = if b = a then v % 2 ^ 32 else s.activeReg b := by
  unfold State.activeReg State.setActive
  simp only [sparseGet_set]
  split <;> simp

/-- Registers and active values are apart. -/
@[simp] theorem State.activeReg_setReg (s : State) (a b v : Nat) : (s.setReg a v).activeReg b = s.activeReg b := rfl
@[simp] theorem State.reg_setActive (s : State) (a b v : Nat) : (s.setActive a v).reg b = s.reg b := rfl

theorem State.reg_lt (s : State) (a : Nat) : s.reg a < 2 ^ 32 := (sparseGet regReset a s.regs).isLt

/-- A register depends on the register file only. -/
theorem State.reg_congr (s t : State) (h : t.regs = s.regs) (a : Nat) : t.reg a = s.reg a := by
  unfold State.reg; rw [h]

theorem State.fld_congr (s t : State) (h : t.regs = s.regs) (f : Fld) : t.fld f = s.fld f := by
  unfold State.fld; rw [State.reg_congr s t h]

/-- A field write leaves every other register. -/
@[simp] theorem State.reg_setFld_ne (s : State) (f : Fld) (v b : Nat) (h : b ≠ f.off) : (s.setFld f v).reg b = s.reg b := by
  simp [State.setFld, h]

theorem putBits_lt (v lo w x n : Nat) (h : lo + w ≤ n) (hv : v < 2 ^ n) : putBits v lo w x < 2 ^ n := by
  obtain ⟨k, rfl⟩ := Nat.exists_eq_add_of_le h
  rw [putBits_split]
  have h1 : v % 2 ^ lo < 2 ^ lo := Nat.mod_lt _ (Nat.two_pow_pos lo)
  have h2 : x % 2 ^ w < 2 ^ w := Nat.mod_lt _ (Nat.two_pow_pos w)
  have h3 : v / 2 ^ lo / 2 ^ w < 2 ^ k := by
    rw [Nat.div_div_eq_div_mul, ← Nat.pow_add]
    exact Nat.div_lt_of_lt_mul (by rwa [← Nat.pow_add])
  have h4 : x % 2 ^ w + 2 ^ w * (v / 2 ^ lo / 2 ^ w) < 2 ^ w * 2 ^ k := by
    calc _ < 2 ^ w + 2 ^ w * (v / 2 ^ lo / 2 ^ w) := by omega
      _ = 2 ^ w * (v / 2 ^ lo / 2 ^ w + 1) := by ring
      _ ≤ 2 ^ w * 2 ^ k := Nat.mul_le_mul_left _ h3
  calc _ < 2 ^ lo + 2 ^ lo * (x % 2 ^ w + 2 ^ w * (v / 2 ^ lo / 2 ^ w)) := by omega
    _ = 2 ^ lo * (x % 2 ^ w + 2 ^ w * (v / 2 ^ lo / 2 ^ w) + 1) := by ring
    _ ≤ 2 ^ lo * (2 ^ w * 2 ^ k) := Nat.mul_le_mul_left _ h4
    _ = 2 ^ (lo + w + k) := by rw [Nat.pow_add, Nat.pow_add, Nat.mul_assoc]

/-- A field of a register reads as written, in a field's width. -/
theorem State.fld_setFld (s : State) (f : Fld) (v : Nat) (h : f.lo + f.width ≤ 32) : (s.setFld f v).fld f = v % 2 ^ f.width := by
  unfold State.fld State.setFld
  rw [State.reg_setReg_self, Nat.mod_eq_of_lt (putBits_lt _ _ _ _ 32 h (s.reg_lt f.off)), bitsOf_putBits]

/-- A field write leaves every field apart from it. -/
theorem State.fld_setFld_ne (s : State) (f g : Fld) (v : Nat) (h : f.lo + f.width ≤ 32)
    (hd : g.off ≠ f.off ∨ f.lo + f.width ≤ g.lo ∨ g.lo + g.width ≤ f.lo) : (s.setFld f v).fld g = s.fld g := by
  unfold State.fld State.setFld
  by_cases ho : g.off = f.off
  · rw [ho, State.reg_setReg_self, Nat.mod_eq_of_lt (putBits_lt _ _ _ _ 32 h (s.reg_lt f.off))]
    rcases hd with hd | hd | hd
    · exact absurd ho hd
    · exact bitsOf_putBits_above _ _ _ _ _ _ hd
    · exact bitsOf_putBits_below _ _ _ _ _ _ hd
  · rw [State.reg_setReg_ne _ _ _ _ ho]

/-- An answer's pair fits its fields. -/
theorem State.keptAnswer_lt (s : State) (b lo hi o c : Nat) :
    (s.keptAnswer b lo hi o c).1 < 4 ∧ (s.keptAnswer b lo hi o c).2 < 256 := by
  unfold State.keptAnswer
  have f1 : s.fld ⟨b, lo, 2⟩ < 4 := by unfold State.fld bitsOf; exact Nat.mod_lt _ (by norm_num)
  have f2 : s.fld ⟨b, hi, 8⟩ < 256 := by unfold State.fld bitsOf; exact Nat.mod_lt _ (by norm_num)
  simp only
  split
  · simp only [pickAnswer, List.foldl]
    split_ifs <;> simp only [] <;> omega
  · simp only; omega

/-- A block's answer is what its STATUS register then reports (R38, R39). -/
theorem State.answer_fields (s : State) (b o c : Nat) :
    ((s.answer b o c).fld ⟨b, 4, 2⟩, (s.answer b o c).fld ⟨b, 8, 8⟩) = s.keptAnswer b 4 8 o c := by
  obtain ⟨l1, l2⟩ := s.keptAnswer_lt b 4 8 o c
  unfold State.answer State.answerAt
  generalize s.keptAnswer b 4 8 o c = a at l1 l2 ⊢
  simp only
  rw [State.fld_setFld_ne _ _ _ _ (Nat.le_of_ble_eq_true rfl) (.inr (.inr (Nat.le_of_ble_eq_true rfl))),
    State.fld_setFld _ _ _ (Nat.le_of_ble_eq_true rfl), State.fld_setFld _ _ _ (Nat.le_of_ble_eq_true rfl)]
  exact Prod.ext (Nat.mod_eq_of_lt l1) (Nat.mod_eq_of_lt l2)

/-- A saturating count after `n` events. -/
theorem State.reg_satReg (s : State) (a n : Nat) : (s.satReg a n).reg a = min (s.reg a + n) (2 ^ 32 - 1) := by
  unfold State.satReg
  rw [State.reg_setReg_self, Nat.mod_eq_of_lt (by omega)]

/-- A pair after a write. -/
theorem State.reg64_setReg64 (s : State) (a v : Nat) : (s.setReg64 a v).reg64 a = v % 2 ^ 64 := by
  unfold State.reg64 State.setReg64
  rw [State.reg_setReg_self, State.reg_setReg_ne _ _ _ _ (by omega), State.reg_setReg_self]
  omega

theorem State.reg64_addReg64 (s : State) (a n : Nat) : (s.addReg64 a n).reg64 a = (s.reg64 a + n) % 2 ^ 64 := by
  unfold State.addReg64
  rw [State.reg64_setReg64, Nat.mod_mod]

/-- A register write keeps the register file canonical. -/
theorem State.setReg_canonical (s : State) (a v : Nat) (h : sparseWf regReset s.regs = true) :
    sparseWf regReset (s.setReg a v).regs = true := sparseWf_set _ _ _ _ h

theorem State.setActive_canonical (s : State) (a v : Nat) (h : sparseWf regReset s.active = true) :
    sparseWf regReset (s.setActive a v).active = true := sparseWf_set _ _ _ _ h

end Sys2Proof.Machine
end

