-- ==== Sys2Proof/Laws/Ops.lean ====
section
/-! SUPPORT. Laws of the shared operations: for each, all that it can do, as the fields it leaves as they were. -/

namespace Sys2Proof.Machine

/-- A DMA write appends to what the device has written; nothing else changes. -/
@[simp] theorem State.hostWrite_frame (s : State) (a : Nat) (bs : Bytes) :
    (s.hostWrite a bs).pending = s.pending ∧ (s.hostWrite a bs).free = s.free ∧ (s.hostWrite a bs).regs = s.regs ∧
    (s.hostWrite a bs).active = s.active ∧ (s.hostWrite a bs).shadowed = s.shadowed ∧
    (s.hostWrite a bs).latches = s.latches ∧ (s.hostWrite a bs).heldLo = s.heldLo ∧ (s.hostWrite a bs).mem = s.mem ∧
    (s.hostWrite a bs).power = s.power ∧ (s.hostWrite a bs).flash = s.flash ∧ (s.hostWrite a bs).steps = s.steps ∧
    (s.hostWrite a bs).trail = s.trail ∧ (s.hostWrite a bs).out = s.out ∧ (s.hostWrite a bs).time = s.time ∧
    (s.hostWrite a bs).tiers = s.tiers ∧ (s.hostWrite a bs).sheets = s.sheets ∧
    (s.hostWrite a bs).arrays = s.arrays ∧ (s.hostWrite a bs).faults = s.faults ∧ (s.hostWrite a bs).sec = s.sec ∧
    (s.hostWrite a bs).ports = s.ports ∧ (s.hostWrite a bs).fusion = s.fusion ∧
    (s.hostWrite a bs).vision = s.vision ∧ (s.hostWrite a bs).checkpoints = s.checkpoints ∧
    (s.hostWrite a bs).track = s.track ∧ (s.hostWrite a bs).search = s.search ∧
    (s.hostWrite a bs).solver = s.solver ∧ (s.hostWrite a bs).map = s.map ∧
    (s.hostWrite a bs).mapQueue = s.mapQueue ∧ (s.hostWrite a bs).trackQueue = s.trackQueue ∧
    (s.hostWrite a bs).signal = s.signal ∧ (s.hostWrite a bs).counters = s.counters ∧
    (s.hostWrite a bs).anchors = s.anchors ∧
    (s.hostWrite a bs).tensors = s.tensors ∧ (s.hostWrite a bs).answers = s.answers ∧ (s.hostWrite a bs).host.linkUp = s.host.linkUp ∧
    (s.hostWrite a bs).host.gen = s.host.gen ∧ (s.hostWrite a bs).host.width = s.host.width ∧
    (s.hostWrite a bs).host.flit = s.host.flit ∧ (s.hostWrite a bs).host.attached = s.host.attached ∧
    (s.hostWrite a bs).host.outBase = s.host.outBase ∧ (s.hostWrite a bs).host.outSize = s.host.outSize ∧
    (s.hostWrite a bs).host.epoch = s.host.epoch ∧ (s.hostWrite a bs).host.rings = s.host.rings ∧
    (s.hostWrite a bs).host.unposted = s.host.unposted ∧ (s.hostWrite a bs).host.posted = s.host.posted ∧
    (s.hostWrite a bs).host.vectorMask = s.host.vectorMask ∧
    (s.hostWrite a bs).host.vectorPending = s.host.vectorPending ∧ (s.hostWrite a bs).host.sent = s.host.sent ∧
    (s.hostWrite a bs).host.reply = s.host.reply ∧ (s.hostWrite a bs).host.stagedImage = s.host.stagedImage ∧
    (s.hostWrite a bs).host.stagedSlot = s.host.stagedSlot ∧
    (s.hostWrite a bs).host.stagedRuntime = s.host.stagedRuntime ∧
    (s.hostWrite a bs).host.bootConfig = s.host.bootConfig :=
  ⟨rfl, rfl, rfl, rfl, rfl, rfl, rfl, rfl, rfl, rfl, rfl, rfl, rfl, rfl, rfl, rfl, rfl, rfl, rfl, rfl, rfl, rfl, rfl,
    rfl, rfl, rfl, rfl, rfl, rfl, rfl, rfl, rfl, rfl, rfl, rfl, rfl, rfl, rfl, rfl, rfl, rfl, rfl, rfl, rfl, rfl,
    rfl, rfl, rfl, rfl, rfl, rfl, rfl, rfl⟩


/-- A ring's update changes the rings only. -/
@[simp] theorem State.setRing_frame (s : State) (r : Nat) (x : Ring) :
    (s.setRing r x).pending = s.pending ∧ (s.setRing r x).free = s.free ∧ (s.setRing r x).regs = s.regs ∧
    (s.setRing r x).active = s.active ∧ (s.setRing r x).shadowed = s.shadowed ∧ (s.setRing r x).latches = s.latches ∧
    (s.setRing r x).heldLo = s.heldLo ∧ (s.setRing r x).mem = s.mem ∧ (s.setRing r x).power = s.power ∧
    (s.setRing r x).flash = s.flash ∧ (s.setRing r x).steps = s.steps ∧ (s.setRing r x).trail = s.trail ∧
    (s.setRing r x).out = s.out ∧ (s.setRing r x).time = s.time ∧ (s.setRing r x).tiers = s.tiers ∧
    (s.setRing r x).sheets = s.sheets ∧ (s.setRing r x).arrays = s.arrays ∧ (s.setRing r x).faults = s.faults ∧
    (s.setRing r x).sec = s.sec ∧ (s.setRing r x).ports = s.ports ∧ (s.setRing r x).fusion = s.fusion ∧
    (s.setRing r x).vision = s.vision ∧ (s.setRing r x).checkpoints = s.checkpoints ∧
    (s.setRing r x).track = s.track ∧ (s.setRing r x).search = s.search ∧ (s.setRing r x).solver = s.solver ∧
    (s.setRing r x).map = s.map ∧ (s.setRing r x).mapQueue = s.mapQueue ∧ (s.setRing r x).trackQueue = s.trackQueue ∧
    (s.setRing r x).signal = s.signal ∧ (s.setRing r x).counters = s.counters ∧ (s.setRing r x).anchors = s.anchors ∧
    (s.setRing r x).tensors = s.tensors ∧ (s.setRing r x).answers = s.answers ∧
    (s.setRing r x).host.linkUp = s.host.linkUp ∧ (s.setRing r x).host.gen = s.host.gen ∧
    (s.setRing r x).host.width = s.host.width ∧ (s.setRing r x).host.flit = s.host.flit ∧
    (s.setRing r x).host.attached = s.host.attached ∧ (s.setRing r x).host.outBase = s.host.outBase ∧
    (s.setRing r x).host.outSize = s.host.outSize ∧ (s.setRing r x).host.epoch = s.host.epoch ∧
    (s.setRing r x).host.unposted = s.host.unposted ∧ (s.setRing r x).host.posted = s.host.posted ∧
    (s.setRing r x).host.vectorMask = s.host.vectorMask ∧ (s.setRing r x).host.vectorPending = s.host.vectorPending ∧
    (s.setRing r x).host.sent = s.host.sent ∧ (s.setRing r x).host.written = s.host.written ∧
    (s.setRing r x).host.reply = s.host.reply ∧ (s.setRing r x).host.stagedImage = s.host.stagedImage ∧
    (s.setRing r x).host.stagedSlot = s.host.stagedSlot ∧ (s.setRing r x).host.stagedRuntime = s.host.stagedRuntime ∧
    (s.setRing r x).host.bootConfig = s.host.bootConfig :=
  ⟨rfl, rfl, rfl, rfl, rfl, rfl, rfl, rfl, rfl, rfl, rfl, rfl, rfl, rfl, rfl, rfl, rfl, rfl, rfl, rfl, rfl, rfl, rfl,
    rfl, rfl, rfl, rfl, rfl, rfl, rfl, rfl, rfl, rfl, rfl, rfl, rfl, rfl, rfl, rfl, rfl, rfl, rfl, rfl, rfl, rfl,
    rfl, rfl, rfl, rfl, rfl, rfl, rfl, rfl⟩


/-- A posted completion changes the rings' pointers, the completions and its vector only. -/
@[simp] theorem State.post_frame (s : State) (c : Completion) (q : Bool) :
    (s.post c q).pending = s.pending ∧ (s.post c q).free = s.free ∧ (s.post c q).regs = s.regs ∧
    (s.post c q).active = s.active ∧ (s.post c q).shadowed = s.shadowed ∧ (s.post c q).latches = s.latches ∧
    (s.post c q).heldLo = s.heldLo ∧ (s.post c q).mem = s.mem ∧ (s.post c q).power = s.power ∧
    (s.post c q).flash = s.flash ∧ (s.post c q).steps = s.steps ∧ (s.post c q).trail = s.trail ∧
    (s.post c q).out = s.out ∧ (s.post c q).time = s.time ∧ (s.post c q).tiers = s.tiers ∧
    (s.post c q).sheets = s.sheets ∧ (s.post c q).arrays = s.arrays ∧ (s.post c q).faults = s.faults ∧
    (s.post c q).sec = s.sec ∧ (s.post c q).ports = s.ports ∧ (s.post c q).fusion = s.fusion ∧
    (s.post c q).vision = s.vision ∧ (s.post c q).checkpoints = s.checkpoints ∧ (s.post c q).track = s.track ∧
    (s.post c q).search = s.search ∧ (s.post c q).solver = s.solver ∧ (s.post c q).map = s.map ∧
    (s.post c q).mapQueue = s.mapQueue ∧ (s.post c q).trackQueue = s.trackQueue ∧ (s.post c q).signal = s.signal ∧
    (s.post c q).counters = s.counters ∧ (s.post c q).anchors = s.anchors ∧
    (s.post c q).tensors = s.tensors ∧ (s.post c q).answers = s.answers ∧
    (s.post c q).host.linkUp = s.host.linkUp ∧ (s.post c q).host.gen = s.host.gen ∧
    (s.post c q).host.width = s.host.width ∧ (s.post c q).host.flit = s.host.flit ∧
    (s.post c q).host.attached = s.host.attached ∧ (s.post c q).host.outBase = s.host.outBase ∧
    (s.post c q).host.outSize = s.host.outSize ∧ (s.post c q).host.epoch = s.host.epoch ∧
    (s.post c q).host.vectorMask = s.host.vectorMask ∧ (s.post c q).host.written = s.host.written ∧
    (s.post c q).host.reply = s.host.reply ∧ (s.post c q).host.stagedImage = s.host.stagedImage ∧
    (s.post c q).host.stagedSlot = s.host.stagedSlot ∧ (s.post c q).host.stagedRuntime = s.host.stagedRuntime ∧
    (s.post c q).host.bootConfig = s.host.bootConfig := by
  unfold State.post
  split
  · simp
  · split
    · simp
    · dsimp only
      cases q <;> simp


/-- A completion changes the rings' pointers, the completions and its vector only. -/
@[simp] theorem State.complete_frame (s : State) (h : CmdHdr) (op o c d : Nat) (r : Bytes) :
    (s.complete h op o c d r).pending = s.pending ∧ (s.complete h op o c d r).free = s.free ∧
    (s.complete h op o c d r).regs = s.regs ∧ (s.complete h op o c d r).active = s.active ∧
    (s.complete h op o c d r).shadowed = s.shadowed ∧ (s.complete h op o c d r).latches = s.latches ∧
    (s.complete h op o c d r).heldLo = s.heldLo ∧ (s.complete h op o c d r).mem = s.mem ∧
    (s.complete h op o c d r).power = s.power ∧ (s.complete h op o c d r).flash = s.flash ∧
    (s.complete h op o c d r).steps = s.steps ∧ (s.complete h op o c d r).trail = s.trail ∧
    (s.complete h op o c d r).out = s.out ∧ (s.complete h op o c d r).time = s.time ∧
    (s.complete h op o c d r).tiers = s.tiers ∧ (s.complete h op o c d r).sheets = s.sheets ∧
    (s.complete h op o c d r).arrays = s.arrays ∧ (s.complete h op o c d r).faults = s.faults ∧
    (s.complete h op o c d r).sec = s.sec ∧ (s.complete h op o c d r).ports = s.ports ∧
    (s.complete h op o c d r).fusion = s.fusion ∧ (s.complete h op o c d r).vision = s.vision ∧
    (s.complete h op o c d r).checkpoints = s.checkpoints ∧ (s.complete h op o c d r).track = s.track ∧
    (s.complete h op o c d r).search = s.search ∧ (s.complete h op o c d r).solver = s.solver ∧
    (s.complete h op o c d r).map = s.map ∧ (s.complete h op o c d r).mapQueue = s.mapQueue ∧
    (s.complete h op o c d r).trackQueue = s.trackQueue ∧ (s.complete h op o c d r).signal = s.signal ∧
    (s.complete h op o c d r).counters = s.counters ∧ (s.complete h op o c d r).anchors = s.anchors ∧
    (s.complete h op o c d r).tensors = s.tensors ∧ (s.complete h op o c d r).answers = s.answers ∧
    (s.complete h op o c d r).host.linkUp = s.host.linkUp ∧ (s.complete h op o c d r).host.gen = s.host.gen ∧
    (s.complete h op o c d r).host.width = s.host.width ∧ (s.complete h op o c d r).host.flit = s.host.flit ∧
    (s.complete h op o c d r).host.attached = s.host.attached ∧
    (s.complete h op o c d r).host.outBase = s.host.outBase ∧
    (s.complete h op o c d r).host.outSize = s.host.outSize ∧ (s.complete h op o c d r).host.epoch = s.host.epoch ∧
    (s.complete h op o c d r).host.vectorMask = s.host.vectorMask ∧
    (s.complete h op o c d r).host.written = s.host.written ∧ (s.complete h op o c d r).host.reply = s.host.reply ∧
    (s.complete h op o c d r).host.stagedImage = s.host.stagedImage ∧
    (s.complete h op o c d r).host.stagedSlot = s.host.stagedSlot ∧
    (s.complete h op o c d r).host.stagedRuntime = s.host.stagedRuntime ∧
    (s.complete h op o c d r).host.bootConfig = s.host.bootConfig := by
  unfold State.complete
  simp


/-- As `complete`, or nothing after a host reset. -/
@[simp] theorem State.completeIn_frame (s : State) (e : Nat) (h : CmdHdr) (op o c d : Nat) (r : Bytes) :
    (s.completeIn e h op o c d r).pending = s.pending ∧ (s.completeIn e h op o c d r).free = s.free ∧
    (s.completeIn e h op o c d r).regs = s.regs ∧ (s.completeIn e h op o c d r).active = s.active ∧
    (s.completeIn e h op o c d r).shadowed = s.shadowed ∧ (s.completeIn e h op o c d r).latches = s.latches ∧
    (s.completeIn e h op o c d r).heldLo = s.heldLo ∧ (s.completeIn e h op o c d r).mem = s.mem ∧
    (s.completeIn e h op o c d r).power = s.power ∧ (s.completeIn e h op o c d r).flash = s.flash ∧
    (s.completeIn e h op o c d r).steps = s.steps ∧ (s.completeIn e h op o c d r).trail = s.trail ∧
    (s.completeIn e h op o c d r).out = s.out ∧ (s.completeIn e h op o c d r).time = s.time ∧
    (s.completeIn e h op o c d r).tiers = s.tiers ∧ (s.completeIn e h op o c d r).sheets = s.sheets ∧
    (s.completeIn e h op o c d r).arrays = s.arrays ∧ (s.completeIn e h op o c d r).faults = s.faults ∧
    (s.completeIn e h op o c d r).sec = s.sec ∧ (s.completeIn e h op o c d r).ports = s.ports ∧
    (s.completeIn e h op o c d r).fusion = s.fusion ∧ (s.completeIn e h op o c d r).vision = s.vision ∧
    (s.completeIn e h op o c d r).checkpoints = s.checkpoints ∧ (s.completeIn e h op o c d r).track = s.track ∧
    (s.completeIn e h op o c d r).search = s.search ∧ (s.completeIn e h op o c d r).solver = s.solver ∧
    (s.completeIn e h op o c d r).map = s.map ∧ (s.completeIn e h op o c d r).mapQueue = s.mapQueue ∧
    (s.completeIn e h op o c d r).trackQueue = s.trackQueue ∧ (s.completeIn e h op o c d r).signal = s.signal ∧
    (s.completeIn e h op o c d r).counters = s.counters ∧ (s.completeIn e h op o c d r).anchors = s.anchors ∧
    (s.completeIn e h op o c d r).tensors = s.tensors ∧ (s.completeIn e h op o c d r).answers = s.answers ∧
    (s.completeIn e h op o c d r).host.linkUp = s.host.linkUp ∧ (s.completeIn e h op o c d r).host.gen = s.host.gen ∧
    (s.completeIn e h op o c d r).host.width = s.host.width ∧ (s.completeIn e h op o c d r).host.flit = s.host.flit ∧
    (s.completeIn e h op o c d r).host.attached = s.host.attached ∧
    (s.completeIn e h op o c d r).host.outBase = s.host.outBase ∧
    (s.completeIn e h op o c d r).host.outSize = s.host.outSize ∧
    (s.completeIn e h op o c d r).host.epoch = s.host.epoch ∧
    (s.completeIn e h op o c d r).host.vectorMask = s.host.vectorMask ∧
    (s.completeIn e h op o c d r).host.written = s.host.written ∧
    (s.completeIn e h op o c d r).host.reply = s.host.reply ∧
    (s.completeIn e h op o c d r).host.stagedImage = s.host.stagedImage ∧
    (s.completeIn e h op o c d r).host.stagedSlot = s.host.stagedSlot ∧
    (s.completeIn e h op o c d r).host.stagedRuntime = s.host.stagedRuntime ∧
    (s.completeIn e h op o c d r).host.bootConfig = s.host.bootConfig := by
  unfold State.completeIn
  split <;> simp


/-- A ring error posts, stops its ring and sets the event flag; nothing else changes (R501). -/
@[simp] theorem State.ringError_frame (s : State) (r t op : Nat) :
    (s.ringError r t op).pending = s.pending ∧ (s.ringError r t op).free = s.free ∧
    (s.ringError r t op).active = s.active ∧ (s.ringError r t op).shadowed = s.shadowed ∧
    (s.ringError r t op).latches = s.latches ∧ (s.ringError r t op).heldLo = s.heldLo ∧
    (s.ringError r t op).mem = s.mem ∧ (s.ringError r t op).power = s.power ∧ (s.ringError r t op).flash = s.flash ∧
    (s.ringError r t op).steps = s.steps ∧ (s.ringError r t op).trail = s.trail ∧ (s.ringError r t op).out = s.out ∧
    (s.ringError r t op).time = s.time ∧ (s.ringError r t op).tiers = s.tiers ∧
    (s.ringError r t op).sheets = s.sheets ∧ (s.ringError r t op).arrays = s.arrays ∧
    (s.ringError r t op).faults = s.faults ∧ (s.ringError r t op).sec = s.sec ∧
    (s.ringError r t op).ports = s.ports ∧ (s.ringError r t op).fusion = s.fusion ∧
    (s.ringError r t op).vision = s.vision ∧ (s.ringError r t op).checkpoints = s.checkpoints ∧
    (s.ringError r t op).track = s.track ∧ (s.ringError r t op).search = s.search ∧
    (s.ringError r t op).solver = s.solver ∧ (s.ringError r t op).map = s.map ∧
    (s.ringError r t op).mapQueue = s.mapQueue ∧ (s.ringError r t op).trackQueue = s.trackQueue ∧
    (s.ringError r t op).signal = s.signal ∧ (s.ringError r t op).counters = s.counters ∧
    (s.ringError r t op).anchors = s.anchors ∧
    (s.ringError r t op).tensors = s.tensors ∧ (s.ringError r t op).answers = s.answers ∧ (s.ringError r t op).host.linkUp = s.host.linkUp ∧
    (s.ringError r t op).host.gen = s.host.gen ∧ (s.ringError r t op).host.width = s.host.width ∧
    (s.ringError r t op).host.flit = s.host.flit ∧ (s.ringError r t op).host.attached = s.host.attached ∧
    (s.ringError r t op).host.outBase = s.host.outBase ∧ (s.ringError r t op).host.outSize = s.host.outSize ∧
    (s.ringError r t op).host.epoch = s.host.epoch ∧ (s.ringError r t op).host.vectorMask = s.host.vectorMask ∧
    (s.ringError r t op).host.written = s.host.written ∧ (s.ringError r t op).host.reply = s.host.reply ∧
    (s.ringError r t op).host.stagedImage = s.host.stagedImage ∧
    (s.ringError r t op).host.stagedSlot = s.host.stagedSlot ∧
    (s.ringError r t op).host.stagedRuntime = s.host.stagedRuntime ∧
    (s.ringError r t op).host.bootConfig = s.host.bootConfig := by
  unfold State.ringError
  simp


/-- Skipping unknown opcodes completes them; nothing else changes. -/
@[simp] theorem State.skipUnknown_frame (fuel : Nat) (s : State) (r : Nat) :
    (State.skipUnknown fuel s r).pending = s.pending ∧ (State.skipUnknown fuel s r).free = s.free ∧
    (State.skipUnknown fuel s r).active = s.active ∧ (State.skipUnknown fuel s r).shadowed = s.shadowed ∧
    (State.skipUnknown fuel s r).latches = s.latches ∧ (State.skipUnknown fuel s r).heldLo = s.heldLo ∧
    (State.skipUnknown fuel s r).mem = s.mem ∧ (State.skipUnknown fuel s r).power = s.power ∧
    (State.skipUnknown fuel s r).flash = s.flash ∧ (State.skipUnknown fuel s r).steps = s.steps ∧
    (State.skipUnknown fuel s r).trail = s.trail ∧ (State.skipUnknown fuel s r).out = s.out ∧
    (State.skipUnknown fuel s r).time = s.time ∧ (State.skipUnknown fuel s r).tiers = s.tiers ∧
    (State.skipUnknown fuel s r).sheets = s.sheets ∧ (State.skipUnknown fuel s r).arrays = s.arrays ∧
    (State.skipUnknown fuel s r).faults = s.faults ∧ (State.skipUnknown fuel s r).sec = s.sec ∧
    (State.skipUnknown fuel s r).ports = s.ports ∧ (State.skipUnknown fuel s r).fusion = s.fusion ∧
    (State.skipUnknown fuel s r).vision = s.vision ∧ (State.skipUnknown fuel s r).checkpoints = s.checkpoints ∧
    (State.skipUnknown fuel s r).track = s.track ∧ (State.skipUnknown fuel s r).search = s.search ∧
    (State.skipUnknown fuel s r).solver = s.solver ∧ (State.skipUnknown fuel s r).map = s.map ∧
    (State.skipUnknown fuel s r).mapQueue = s.mapQueue ∧ (State.skipUnknown fuel s r).trackQueue = s.trackQueue ∧
    (State.skipUnknown fuel s r).signal = s.signal ∧ (State.skipUnknown fuel s r).counters = s.counters ∧
    (State.skipUnknown fuel s r).anchors = s.anchors ∧
    (State.skipUnknown fuel s r).tensors = s.tensors ∧ (State.skipUnknown fuel s r).answers = s.answers ∧ (State.skipUnknown fuel s r).host.linkUp = s.host.linkUp ∧
    (State.skipUnknown fuel s r).host.gen = s.host.gen ∧ (State.skipUnknown fuel s r).host.width = s.host.width ∧
    (State.skipUnknown fuel s r).host.flit = s.host.flit ∧
    (State.skipUnknown fuel s r).host.attached = s.host.attached ∧
    (State.skipUnknown fuel s r).host.outBase = s.host.outBase ∧
    (State.skipUnknown fuel s r).host.outSize = s.host.outSize ∧
    (State.skipUnknown fuel s r).host.epoch = s.host.epoch ∧
    (State.skipUnknown fuel s r).host.vectorMask = s.host.vectorMask ∧
    (State.skipUnknown fuel s r).host.written = s.host.written ∧
    (State.skipUnknown fuel s r).host.reply = s.host.reply ∧
    (State.skipUnknown fuel s r).host.stagedImage = s.host.stagedImage ∧
    (State.skipUnknown fuel s r).host.stagedSlot = s.host.stagedSlot ∧
    (State.skipUnknown fuel s r).host.stagedRuntime = s.host.stagedRuntime ∧
    (State.skipUnknown fuel s r).host.bootConfig = s.host.bootConfig := by
  induction fuel generalizing s with
  | zero => simp [State.skipUnknown]
  | succ n ih =>
    unfold State.skipUnknown
    split
    · simp
    · split
      · simp
      · dsimp only
        split
        · simp
        · simp [ih]


/-- A ring that goes on completes unknown opcodes; nothing else changes. -/
@[simp] theorem State.serveRing_frame (s : State) (r : Nat) :
    (s.serveRing r).pending = s.pending ∧ (s.serveRing r).free = s.free ∧ (s.serveRing r).active = s.active ∧
    (s.serveRing r).shadowed = s.shadowed ∧ (s.serveRing r).latches = s.latches ∧ (s.serveRing r).heldLo = s.heldLo ∧
    (s.serveRing r).mem = s.mem ∧ (s.serveRing r).power = s.power ∧ (s.serveRing r).flash = s.flash ∧
    (s.serveRing r).steps = s.steps ∧ (s.serveRing r).trail = s.trail ∧ (s.serveRing r).out = s.out ∧
    (s.serveRing r).time = s.time ∧ (s.serveRing r).tiers = s.tiers ∧ (s.serveRing r).sheets = s.sheets ∧
    (s.serveRing r).arrays = s.arrays ∧ (s.serveRing r).faults = s.faults ∧ (s.serveRing r).sec = s.sec ∧
    (s.serveRing r).ports = s.ports ∧ (s.serveRing r).fusion = s.fusion ∧ (s.serveRing r).vision = s.vision ∧
    (s.serveRing r).checkpoints = s.checkpoints ∧ (s.serveRing r).track = s.track ∧
    (s.serveRing r).search = s.search ∧ (s.serveRing r).solver = s.solver ∧ (s.serveRing r).map = s.map ∧
    (s.serveRing r).mapQueue = s.mapQueue ∧ (s.serveRing r).trackQueue = s.trackQueue ∧
    (s.serveRing r).signal = s.signal ∧ (s.serveRing r).counters = s.counters ∧ (s.serveRing r).anchors = s.anchors ∧
    (s.serveRing r).tensors = s.tensors ∧ (s.serveRing r).answers = s.answers ∧
    (s.serveRing r).host.linkUp = s.host.linkUp ∧ (s.serveRing r).host.gen = s.host.gen ∧
    (s.serveRing r).host.width = s.host.width ∧ (s.serveRing r).host.flit = s.host.flit ∧
    (s.serveRing r).host.attached = s.host.attached ∧ (s.serveRing r).host.outBase = s.host.outBase ∧
    (s.serveRing r).host.outSize = s.host.outSize ∧ (s.serveRing r).host.epoch = s.host.epoch ∧
    (s.serveRing r).host.vectorMask = s.host.vectorMask ∧ (s.serveRing r).host.written = s.host.written ∧
    (s.serveRing r).host.reply = s.host.reply ∧ (s.serveRing r).host.stagedImage = s.host.stagedImage ∧
    (s.serveRing r).host.stagedSlot = s.host.stagedSlot ∧ (s.serveRing r).host.stagedRuntime = s.host.stagedRuntime ∧
    (s.serveRing r).host.bootConfig = s.host.bootConfig := by
  unfold State.serveRing
  simp


/-- A critical command's answer changes the register file only. -/
@[simp] theorem State.answerCritical_frame (s : State) (op o c : Nat) :
    (s.answerCritical op o c).pending = s.pending ∧ (s.answerCritical op o c).free = s.free ∧
    (s.answerCritical op o c).active = s.active ∧ (s.answerCritical op o c).shadowed = s.shadowed ∧
    (s.answerCritical op o c).latches = s.latches ∧ (s.answerCritical op o c).heldLo = s.heldLo ∧
    (s.answerCritical op o c).mem = s.mem ∧ (s.answerCritical op o c).power = s.power ∧
    (s.answerCritical op o c).flash = s.flash ∧ (s.answerCritical op o c).steps = s.steps ∧
    (s.answerCritical op o c).trail = s.trail ∧ (s.answerCritical op o c).out = s.out ∧
    (s.answerCritical op o c).host = s.host ∧ (s.answerCritical op o c).time = s.time ∧
    (s.answerCritical op o c).tiers = s.tiers ∧ (s.answerCritical op o c).sheets = s.sheets ∧
    (s.answerCritical op o c).arrays = s.arrays ∧ (s.answerCritical op o c).faults = s.faults ∧
    (s.answerCritical op o c).sec = s.sec ∧ (s.answerCritical op o c).ports = s.ports ∧
    (s.answerCritical op o c).fusion = s.fusion ∧ (s.answerCritical op o c).vision = s.vision ∧
    (s.answerCritical op o c).checkpoints = s.checkpoints ∧ (s.answerCritical op o c).track = s.track ∧
    (s.answerCritical op o c).search = s.search ∧ (s.answerCritical op o c).solver = s.solver ∧
    (s.answerCritical op o c).map = s.map ∧ (s.answerCritical op o c).mapQueue = s.mapQueue ∧
    (s.answerCritical op o c).trackQueue = s.trackQueue ∧ (s.answerCritical op o c).signal = s.signal ∧
    (s.answerCritical op o c).counters = s.counters ∧ (s.answerCritical op o c).anchors = s.anchors ∧
    (s.answerCritical op o c).tensors = s.tensors := by
  unfold State.answerCritical
  by_cases h : o = refused <;> simp only [h, if_true, if_false] <;> split
  · simp
  · split <;> simp
  · simp
  · split <;> simp


/-- HOLD set raises the trail's vector; nothing else changes. -/
@[simp] theorem State.setHold_frame (s : State) :
    (s.setHold).pending = s.pending ∧ (s.setHold).free = s.free ∧ (s.setHold).regs = s.regs ∧
    (s.setHold).active = s.active ∧ (s.setHold).shadowed = s.shadowed ∧ (s.setHold).latches = s.latches ∧
    (s.setHold).heldLo = s.heldLo ∧ (s.setHold).mem = s.mem ∧ (s.setHold).power = s.power ∧
    (s.setHold).flash = s.flash ∧ (s.setHold).steps = s.steps ∧ (s.setHold).out = s.out ∧ (s.setHold).time = s.time ∧
    (s.setHold).tiers = s.tiers ∧ (s.setHold).sheets = s.sheets ∧ (s.setHold).arrays = s.arrays ∧
    (s.setHold).faults = s.faults ∧ (s.setHold).sec = s.sec ∧ (s.setHold).ports = s.ports ∧
    (s.setHold).fusion = s.fusion ∧ (s.setHold).vision = s.vision ∧ (s.setHold).checkpoints = s.checkpoints ∧
    (s.setHold).track = s.track ∧ (s.setHold).search = s.search ∧ (s.setHold).solver = s.solver ∧
    (s.setHold).map = s.map ∧ (s.setHold).mapQueue = s.mapQueue ∧ (s.setHold).trackQueue = s.trackQueue ∧
    (s.setHold).signal = s.signal ∧ (s.setHold).counters = s.counters ∧ (s.setHold).anchors = s.anchors ∧
    (s.setHold).tensors = s.tensors ∧ (s.setHold).answers = s.answers ∧
    (s.setHold).host.linkUp = s.host.linkUp ∧ (s.setHold).host.gen = s.host.gen ∧
    (s.setHold).host.width = s.host.width ∧ (s.setHold).host.flit = s.host.flit ∧
    (s.setHold).host.attached = s.host.attached ∧ (s.setHold).host.outBase = s.host.outBase ∧
    (s.setHold).host.outSize = s.host.outSize ∧ (s.setHold).host.epoch = s.host.epoch ∧
    (s.setHold).host.rings = s.host.rings ∧ (s.setHold).host.unposted = s.host.unposted ∧
    (s.setHold).host.posted = s.host.posted ∧ (s.setHold).host.vectorMask = s.host.vectorMask ∧
    (s.setHold).host.written = s.host.written ∧ (s.setHold).host.reply = s.host.reply ∧
    (s.setHold).host.stagedImage = s.host.stagedImage ∧ (s.setHold).host.stagedSlot = s.host.stagedSlot ∧
    (s.setHold).host.stagedRuntime = s.host.stagedRuntime ∧ (s.setHold).host.bootConfig = s.host.bootConfig := by
  unfold State.setHold
  split <;> simp


/-- What an appended record changes: the trail, its vector, and the count of free values for a SEAL's signature. -/
theorem State.trailAppend_frame (s t : State) (d : TrailDraft) (h : s.trailAppend d = some t) :
    (t).pending = s.pending ∧ (t).regs = s.regs ∧ (t).active = s.active ∧ (t).shadowed = s.shadowed ∧
    (t).latches = s.latches ∧ (t).heldLo = s.heldLo ∧ (t).mem = s.mem ∧ (t).power = s.power ∧ (t).flash = s.flash ∧
    (t).steps = s.steps ∧ (t).out = s.out ∧ (t).time = s.time ∧ (t).tiers = s.tiers ∧ (t).sheets = s.sheets ∧
    (t).arrays = s.arrays ∧ (t).faults = s.faults ∧ (t).sec = s.sec ∧ (t).ports = s.ports ∧ (t).fusion = s.fusion ∧
    (t).vision = s.vision ∧ (t).checkpoints = s.checkpoints ∧ (t).track = s.track ∧ (t).search = s.search ∧
    (t).solver = s.solver ∧ (t).map = s.map ∧ (t).mapQueue = s.mapQueue ∧ (t).trackQueue = s.trackQueue ∧
    (t).signal = s.signal ∧ (t).counters = s.counters ∧ (t).anchors = s.anchors ∧
    (t).tensors = s.tensors ∧ (t).answers = s.answers ∧ (t).host.linkUp = s.host.linkUp ∧
    (t).host.gen = s.host.gen ∧ (t).host.width = s.host.width ∧ (t).host.flit = s.host.flit ∧
    (t).host.attached = s.host.attached ∧ (t).host.outBase = s.host.outBase ∧ (t).host.outSize = s.host.outSize ∧
    (t).host.epoch = s.host.epoch ∧ (t).host.rings = s.host.rings ∧ (t).host.unposted = s.host.unposted ∧
    (t).host.posted = s.host.posted ∧ (t).host.vectorMask = s.host.vectorMask ∧ (t).host.written = s.host.written ∧
    (t).host.reply = s.host.reply ∧ (t).host.stagedImage = s.host.stagedImage ∧
    (t).host.stagedSlot = s.host.stagedSlot ∧ (t).host.stagedRuntime = s.host.stagedRuntime ∧
    (t).host.bootConfig = s.host.bootConfig := by
  unfold State.trailAppend at h
  dsimp only at h
  by_cases hk : (s.finishDraft d).kind = kSeal <;> simp only [hk, if_true, if_false] at h <;> split at h
  · split at h <;> (cases h; simp)
  · cases h
  · split at h <;> (cases h; simp)
  · cases h

/-- Drafts written or left waiting change the trail, its vector and the count of free values. -/
@[simp] theorem State.trailPump_frame (fuel : Nat) (s : State) (ds : List TrailDraft) :
    (State.trailPump fuel s ds).pending = s.pending ∧ (State.trailPump fuel s ds).regs = s.regs ∧
    (State.trailPump fuel s ds).active = s.active ∧ (State.trailPump fuel s ds).shadowed = s.shadowed ∧
    (State.trailPump fuel s ds).latches = s.latches ∧ (State.trailPump fuel s ds).heldLo = s.heldLo ∧
    (State.trailPump fuel s ds).mem = s.mem ∧ (State.trailPump fuel s ds).power = s.power ∧
    (State.trailPump fuel s ds).flash = s.flash ∧ (State.trailPump fuel s ds).steps = s.steps ∧
    (State.trailPump fuel s ds).out = s.out ∧ (State.trailPump fuel s ds).time = s.time ∧
    (State.trailPump fuel s ds).tiers = s.tiers ∧ (State.trailPump fuel s ds).sheets = s.sheets ∧
    (State.trailPump fuel s ds).arrays = s.arrays ∧ (State.trailPump fuel s ds).faults = s.faults ∧
    (State.trailPump fuel s ds).sec = s.sec ∧ (State.trailPump fuel s ds).ports = s.ports ∧
    (State.trailPump fuel s ds).fusion = s.fusion ∧ (State.trailPump fuel s ds).vision = s.vision ∧
    (State.trailPump fuel s ds).checkpoints = s.checkpoints ∧ (State.trailPump fuel s ds).track = s.track ∧
    (State.trailPump fuel s ds).search = s.search ∧ (State.trailPump fuel s ds).solver = s.solver ∧
    (State.trailPump fuel s ds).map = s.map ∧ (State.trailPump fuel s ds).mapQueue = s.mapQueue ∧
    (State.trailPump fuel s ds).trackQueue = s.trackQueue ∧ (State.trailPump fuel s ds).signal = s.signal ∧
    (State.trailPump fuel s ds).counters = s.counters ∧ (State.trailPump fuel s ds).anchors = s.anchors ∧
    (State.trailPump fuel s ds).tensors = s.tensors ∧ (State.trailPump fuel s ds).answers = s.answers ∧
    (State.trailPump fuel s ds).host.linkUp = s.host.linkUp ∧ (State.trailPump fuel s ds).host.gen = s.host.gen ∧
    (State.trailPump fuel s ds).host.width = s.host.width ∧ (State.trailPump fuel s ds).host.flit = s.host.flit ∧
    (State.trailPump fuel s ds).host.attached = s.host.attached ∧
    (State.trailPump fuel s ds).host.outBase = s.host.outBase ∧
    (State.trailPump fuel s ds).host.outSize = s.host.outSize ∧
    (State.trailPump fuel s ds).host.epoch = s.host.epoch ∧ (State.trailPump fuel s ds).host.rings = s.host.rings ∧
    (State.trailPump fuel s ds).host.unposted = s.host.unposted ∧
    (State.trailPump fuel s ds).host.posted = s.host.posted ∧
    (State.trailPump fuel s ds).host.vectorMask = s.host.vectorMask ∧
    (State.trailPump fuel s ds).host.written = s.host.written ∧
    (State.trailPump fuel s ds).host.reply = s.host.reply ∧
    (State.trailPump fuel s ds).host.stagedImage = s.host.stagedImage ∧
    (State.trailPump fuel s ds).host.stagedSlot = s.host.stagedSlot ∧
    (State.trailPump fuel s ds).host.stagedRuntime = s.host.stagedRuntime ∧
    (State.trailPump fuel s ds).host.bootConfig = s.host.bootConfig := by
  induction fuel generalizing s ds with
  | zero => simp [State.trailPump]
  | succ n ih =>
    have hd (b : Bool) : State.holdDrafts s ds b = ({ s with trail := { s.trail with
        waiting := ds, sealHold := s.trail.sealHold || b, ringHold := s.trail.ringHold || !b } }).setHold := rfl
    unfold State.trailPump
    simp only [hd]
    repeat' split
    all_goals first
      | simp [ih, State.trailAppend_frame _ _ _ ‹State.trailAppend _ _ = some _›]
      | simp

/-- A record written, held or waiting changes the trail, its vector and the count of free values. -/
@[simp] theorem State.trailWrite_frame (s : State) (d : TrailDraft) :
    (s.trailWrite d).pending = s.pending ∧ (s.trailWrite d).regs = s.regs ∧ (s.trailWrite d).active = s.active ∧
    (s.trailWrite d).shadowed = s.shadowed ∧ (s.trailWrite d).latches = s.latches ∧
    (s.trailWrite d).heldLo = s.heldLo ∧ (s.trailWrite d).mem = s.mem ∧ (s.trailWrite d).power = s.power ∧
    (s.trailWrite d).flash = s.flash ∧ (s.trailWrite d).steps = s.steps ∧ (s.trailWrite d).out = s.out ∧
    (s.trailWrite d).time = s.time ∧ (s.trailWrite d).tiers = s.tiers ∧ (s.trailWrite d).sheets = s.sheets ∧
    (s.trailWrite d).arrays = s.arrays ∧ (s.trailWrite d).faults = s.faults ∧ (s.trailWrite d).sec = s.sec ∧
    (s.trailWrite d).ports = s.ports ∧ (s.trailWrite d).fusion = s.fusion ∧ (s.trailWrite d).vision = s.vision ∧
    (s.trailWrite d).checkpoints = s.checkpoints ∧ (s.trailWrite d).track = s.track ∧
    (s.trailWrite d).search = s.search ∧ (s.trailWrite d).solver = s.solver ∧ (s.trailWrite d).map = s.map ∧
    (s.trailWrite d).mapQueue = s.mapQueue ∧ (s.trailWrite d).trackQueue = s.trackQueue ∧
    (s.trailWrite d).signal = s.signal ∧ (s.trailWrite d).counters = s.counters ∧
    (s.trailWrite d).anchors = s.anchors ∧
    (s.trailWrite d).tensors = s.tensors ∧ (s.trailWrite d).answers = s.answers ∧ (s.trailWrite d).host.linkUp = s.host.linkUp ∧
    (s.trailWrite d).host.gen = s.host.gen ∧ (s.trailWrite d).host.width = s.host.width ∧
    (s.trailWrite d).host.flit = s.host.flit ∧ (s.trailWrite d).host.attached = s.host.attached ∧
    (s.trailWrite d).host.outBase = s.host.outBase ∧ (s.trailWrite d).host.outSize = s.host.outSize ∧
    (s.trailWrite d).host.epoch = s.host.epoch ∧ (s.trailWrite d).host.rings = s.host.rings ∧
    (s.trailWrite d).host.unposted = s.host.unposted ∧ (s.trailWrite d).host.posted = s.host.posted ∧
    (s.trailWrite d).host.vectorMask = s.host.vectorMask ∧ (s.trailWrite d).host.written = s.host.written ∧
    (s.trailWrite d).host.reply = s.host.reply ∧ (s.trailWrite d).host.stagedImage = s.host.stagedImage ∧
    (s.trailWrite d).host.stagedSlot = s.host.stagedSlot ∧
    (s.trailWrite d).host.stagedRuntime = s.host.stagedRuntime ∧ (s.trailWrite d).host.bootConfig = s.host.bootConfig := by
  unfold State.trailWrite
  split
  · split <;> simp
  · split <;> simp


/-- A record changes the trail, its vector and the count of free values. -/
@[simp] theorem State.record_frame (s : State) (k o c n : Nat) (b : Bytes) :
    (s.record k o c n b).pending = s.pending ∧ (s.record k o c n b).regs = s.regs ∧
    (s.record k o c n b).active = s.active ∧ (s.record k o c n b).shadowed = s.shadowed ∧
    (s.record k o c n b).latches = s.latches ∧ (s.record k o c n b).heldLo = s.heldLo ∧
    (s.record k o c n b).mem = s.mem ∧ (s.record k o c n b).power = s.power ∧ (s.record k o c n b).flash = s.flash ∧
    (s.record k o c n b).steps = s.steps ∧ (s.record k o c n b).out = s.out ∧ (s.record k o c n b).time = s.time ∧
    (s.record k o c n b).tiers = s.tiers ∧ (s.record k o c n b).sheets = s.sheets ∧
    (s.record k o c n b).arrays = s.arrays ∧ (s.record k o c n b).faults = s.faults ∧
    (s.record k o c n b).sec = s.sec ∧ (s.record k o c n b).ports = s.ports ∧
    (s.record k o c n b).fusion = s.fusion ∧ (s.record k o c n b).vision = s.vision ∧
    (s.record k o c n b).checkpoints = s.checkpoints ∧ (s.record k o c n b).track = s.track ∧
    (s.record k o c n b).search = s.search ∧ (s.record k o c n b).solver = s.solver ∧
    (s.record k o c n b).map = s.map ∧ (s.record k o c n b).mapQueue = s.mapQueue ∧
    (s.record k o c n b).trackQueue = s.trackQueue ∧ (s.record k o c n b).signal = s.signal ∧
    (s.record k o c n b).counters = s.counters ∧ (s.record k o c n b).anchors = s.anchors ∧
    (s.record k o c n b).tensors = s.tensors ∧ (s.record k o c n b).answers = s.answers ∧
    (s.record k o c n b).host.linkUp = s.host.linkUp ∧ (s.record k o c n b).host.gen = s.host.gen ∧
    (s.record k o c n b).host.width = s.host.width ∧ (s.record k o c n b).host.flit = s.host.flit ∧
    (s.record k o c n b).host.attached = s.host.attached ∧ (s.record k o c n b).host.outBase = s.host.outBase ∧
    (s.record k o c n b).host.outSize = s.host.outSize ∧ (s.record k o c n b).host.epoch = s.host.epoch ∧
    (s.record k o c n b).host.rings = s.host.rings ∧ (s.record k o c n b).host.unposted = s.host.unposted ∧
    (s.record k o c n b).host.posted = s.host.posted ∧ (s.record k o c n b).host.vectorMask = s.host.vectorMask ∧
    (s.record k o c n b).host.written = s.host.written ∧ (s.record k o c n b).host.reply = s.host.reply ∧
    (s.record k o c n b).host.stagedImage = s.host.stagedImage ∧
    (s.record k o c n b).host.stagedSlot = s.host.stagedSlot ∧
    (s.record k o c n b).host.stagedRuntime = s.host.stagedRuntime ∧
    (s.record k o c n b).host.bootConfig = s.host.bootConfig := by
  unfold State.record
  simp


/-- A COMMAND record changes the trail, its vector and the count of free values. -/
@[simp] theorem State.commandRecord_frame (s : State) (f : CritFrame) (o c n : Nat) :
    (s.commandRecord f o c n).pending = s.pending ∧ (s.commandRecord f o c n).regs = s.regs ∧
    (s.commandRecord f o c n).active = s.active ∧ (s.commandRecord f o c n).shadowed = s.shadowed ∧
    (s.commandRecord f o c n).latches = s.latches ∧ (s.commandRecord f o c n).heldLo = s.heldLo ∧
    (s.commandRecord f o c n).mem = s.mem ∧ (s.commandRecord f o c n).power = s.power ∧
    (s.commandRecord f o c n).flash = s.flash ∧ (s.commandRecord f o c n).steps = s.steps ∧
    (s.commandRecord f o c n).out = s.out ∧ (s.commandRecord f o c n).time = s.time ∧
    (s.commandRecord f o c n).tiers = s.tiers ∧ (s.commandRecord f o c n).sheets = s.sheets ∧
    (s.commandRecord f o c n).arrays = s.arrays ∧ (s.commandRecord f o c n).faults = s.faults ∧
    (s.commandRecord f o c n).sec = s.sec ∧ (s.commandRecord f o c n).ports = s.ports ∧
    (s.commandRecord f o c n).fusion = s.fusion ∧ (s.commandRecord f o c n).vision = s.vision ∧
    (s.commandRecord f o c n).checkpoints = s.checkpoints ∧ (s.commandRecord f o c n).track = s.track ∧
    (s.commandRecord f o c n).search = s.search ∧ (s.commandRecord f o c n).solver = s.solver ∧
    (s.commandRecord f o c n).map = s.map ∧ (s.commandRecord f o c n).mapQueue = s.mapQueue ∧
    (s.commandRecord f o c n).trackQueue = s.trackQueue ∧ (s.commandRecord f o c n).signal = s.signal ∧
    (s.commandRecord f o c n).counters = s.counters ∧ (s.commandRecord f o c n).anchors = s.anchors ∧
    (s.commandRecord f o c n).tensors = s.tensors ∧ (s.commandRecord f o c n).answers = s.answers ∧
    (s.commandRecord f o c n).host.linkUp = s.host.linkUp ∧ (s.commandRecord f o c n).host.gen = s.host.gen ∧
    (s.commandRecord f o c n).host.width = s.host.width ∧ (s.commandRecord f o c n).host.flit = s.host.flit ∧
    (s.commandRecord f o c n).host.attached = s.host.attached ∧
    (s.commandRecord f o c n).host.outBase = s.host.outBase ∧
    (s.commandRecord f o c n).host.outSize = s.host.outSize ∧ (s.commandRecord f o c n).host.epoch = s.host.epoch ∧
    (s.commandRecord f o c n).host.rings = s.host.rings ∧ (s.commandRecord f o c n).host.unposted = s.host.unposted ∧
    (s.commandRecord f o c n).host.posted = s.host.posted ∧
    (s.commandRecord f o c n).host.vectorMask = s.host.vectorMask ∧
    (s.commandRecord f o c n).host.written = s.host.written ∧ (s.commandRecord f o c n).host.reply = s.host.reply ∧
    (s.commandRecord f o c n).host.stagedImage = s.host.stagedImage ∧
    (s.commandRecord f o c n).host.stagedSlot = s.host.stagedSlot ∧
    (s.commandRecord f o c n).host.stagedRuntime = s.host.stagedRuntime ∧
    (s.commandRecord f o c n).host.bootConfig = s.host.bootConfig := by
  unfold State.commandRecord
  simp


/-- A step's counts change nothing else. -/
@[simp] theorem State.updStats_frame (s : State) (n : Nat) (f : StepStats → StepStats) :
    (s.updStats n f).pending = s.pending ∧ (s.updStats n f).free = s.free ∧ (s.updStats n f).regs = s.regs ∧
    (s.updStats n f).active = s.active ∧ (s.updStats n f).shadowed = s.shadowed ∧
    (s.updStats n f).latches = s.latches ∧ (s.updStats n f).heldLo = s.heldLo ∧ (s.updStats n f).mem = s.mem ∧
    (s.updStats n f).power = s.power ∧ (s.updStats n f).flash = s.flash ∧ (s.updStats n f).trail = s.trail ∧
    (s.updStats n f).out = s.out ∧ (s.updStats n f).host = s.host ∧ (s.updStats n f).time = s.time ∧
    (s.updStats n f).tiers = s.tiers ∧ (s.updStats n f).sheets = s.sheets ∧ (s.updStats n f).arrays = s.arrays ∧
    (s.updStats n f).faults = s.faults ∧ (s.updStats n f).sec = s.sec ∧ (s.updStats n f).ports = s.ports ∧
    (s.updStats n f).fusion = s.fusion ∧ (s.updStats n f).vision = s.vision ∧
    (s.updStats n f).checkpoints = s.checkpoints ∧ (s.updStats n f).track = s.track ∧
    (s.updStats n f).search = s.search ∧ (s.updStats n f).solver = s.solver ∧ (s.updStats n f).map = s.map ∧
    (s.updStats n f).mapQueue = s.mapQueue ∧ (s.updStats n f).trackQueue = s.trackQueue ∧
    (s.updStats n f).signal = s.signal ∧ (s.updStats n f).counters = s.counters ∧ (s.updStats n f).anchors = s.anchors ∧
    (s.updStats n f).tensors = s.tensors ∧ (s.updStats n f).answers = s.answers :=
  ⟨rfl, rfl, rfl, rfl, rfl, rfl, rfl, rfl, rfl, rfl, rfl, rfl, rfl, rfl, rfl, rfl, rfl, rfl, rfl, rfl, rfl, rfl, rfl,
    rfl, rfl, rfl, rfl, rfl, rfl, rfl, rfl, rfl, rfl, rfl⟩


/-- A security event changes the register file only. -/
@[simp] theorem State.secEvent_frame (s : State) (b : Nat) :
    (s.secEvent b).pending = s.pending ∧ (s.secEvent b).free = s.free ∧ (s.secEvent b).active = s.active ∧
    (s.secEvent b).shadowed = s.shadowed ∧ (s.secEvent b).latches = s.latches ∧ (s.secEvent b).heldLo = s.heldLo ∧
    (s.secEvent b).mem = s.mem ∧ (s.secEvent b).power = s.power ∧ (s.secEvent b).flash = s.flash ∧
    (s.secEvent b).steps = s.steps ∧ (s.secEvent b).trail = s.trail ∧ (s.secEvent b).out = s.out ∧
    (s.secEvent b).host = s.host ∧ (s.secEvent b).time = s.time ∧ (s.secEvent b).tiers = s.tiers ∧
    (s.secEvent b).sheets = s.sheets ∧ (s.secEvent b).arrays = s.arrays ∧ (s.secEvent b).faults = s.faults ∧
    (s.secEvent b).sec = s.sec ∧ (s.secEvent b).ports = s.ports ∧ (s.secEvent b).fusion = s.fusion ∧
    (s.secEvent b).vision = s.vision ∧ (s.secEvent b).checkpoints = s.checkpoints ∧ (s.secEvent b).track = s.track ∧
    (s.secEvent b).search = s.search ∧ (s.secEvent b).solver = s.solver ∧ (s.secEvent b).map = s.map ∧
    (s.secEvent b).mapQueue = s.mapQueue ∧ (s.secEvent b).trackQueue = s.trackQueue ∧
    (s.secEvent b).signal = s.signal ∧ (s.secEvent b).counters = s.counters ∧ (s.secEvent b).anchors = s.anchors ∧
    (s.secEvent b).tensors = s.tensors ∧ (s.secEvent b).answers = s.answers := by
  unfold State.secEvent
  simp


/-- A critical command noted: record, answer, counts and events; nothing else changes. -/
@[simp] theorem State.noteCritical_frame (s : State) (f : CritFrame) (op o c n : Nat) :
    (s.noteCritical f op o c n).pending = s.pending ∧ (s.noteCritical f op o c n).active = s.active ∧
    (s.noteCritical f op o c n).shadowed = s.shadowed ∧ (s.noteCritical f op o c n).latches = s.latches ∧
    (s.noteCritical f op o c n).heldLo = s.heldLo ∧ (s.noteCritical f op o c n).mem = s.mem ∧
    (s.noteCritical f op o c n).power = s.power ∧ (s.noteCritical f op o c n).flash = s.flash ∧
    (s.noteCritical f op o c n).out = s.out ∧ (s.noteCritical f op o c n).time = s.time ∧
    (s.noteCritical f op o c n).tiers = s.tiers ∧ (s.noteCritical f op o c n).sheets = s.sheets ∧
    (s.noteCritical f op o c n).arrays = s.arrays ∧ (s.noteCritical f op o c n).faults = s.faults ∧
    (s.noteCritical f op o c n).sec = s.sec ∧ (s.noteCritical f op o c n).ports = s.ports ∧
    (s.noteCritical f op o c n).fusion = s.fusion ∧ (s.noteCritical f op o c n).vision = s.vision ∧
    (s.noteCritical f op o c n).checkpoints = s.checkpoints ∧ (s.noteCritical f op o c n).track = s.track ∧
    (s.noteCritical f op o c n).search = s.search ∧ (s.noteCritical f op o c n).solver = s.solver ∧
    (s.noteCritical f op o c n).map = s.map ∧ (s.noteCritical f op o c n).mapQueue = s.mapQueue ∧
    (s.noteCritical f op o c n).trackQueue = s.trackQueue ∧ (s.noteCritical f op o c n).signal = s.signal ∧
    (s.noteCritical f op o c n).counters = s.counters ∧ (s.noteCritical f op o c n).anchors = s.anchors ∧
    (s.noteCritical f op o c n).tensors = s.tensors ∧
    (s.noteCritical f op o c n).host.linkUp = s.host.linkUp ∧ (s.noteCritical f op o c n).host.gen = s.host.gen ∧
    (s.noteCritical f op o c n).host.width = s.host.width ∧ (s.noteCritical f op o c n).host.flit = s.host.flit ∧
    (s.noteCritical f op o c n).host.attached = s.host.attached ∧
    (s.noteCritical f op o c n).host.outBase = s.host.outBase ∧
    (s.noteCritical f op o c n).host.outSize = s.host.outSize ∧
    (s.noteCritical f op o c n).host.epoch = s.host.epoch ∧ (s.noteCritical f op o c n).host.rings = s.host.rings ∧
    (s.noteCritical f op o c n).host.unposted = s.host.unposted ∧
    (s.noteCritical f op o c n).host.posted = s.host.posted ∧
    (s.noteCritical f op o c n).host.vectorMask = s.host.vectorMask ∧
    (s.noteCritical f op o c n).host.written = s.host.written ∧
    (s.noteCritical f op o c n).host.reply = s.host.reply ∧
    (s.noteCritical f op o c n).host.stagedImage = s.host.stagedImage ∧
    (s.noteCritical f op o c n).host.stagedSlot = s.host.stagedSlot ∧
    (s.noteCritical f op o c n).host.stagedRuntime = s.host.stagedRuntime ∧
    (s.noteCritical f op o c n).host.bootConfig = s.host.bootConfig := by
  unfold State.noteCritical
  dsimp only
  split <;> split <;> split <;> simp


/-- A critical command ended: noted and completed; nothing else changes. -/
@[simp] theorem State.endCritical_frame (s : State) (f : CritFrame) (op ep o c d n : Nat) (r : Bytes) :
    (s.endCritical f op ep o c d n r).pending = s.pending ∧ (s.endCritical f op ep o c d n r).active = s.active ∧
    (s.endCritical f op ep o c d n r).shadowed = s.shadowed ∧ (s.endCritical f op ep o c d n r).latches = s.latches ∧
    (s.endCritical f op ep o c d n r).heldLo = s.heldLo ∧ (s.endCritical f op ep o c d n r).mem = s.mem ∧
    (s.endCritical f op ep o c d n r).power = s.power ∧ (s.endCritical f op ep o c d n r).flash = s.flash ∧
    (s.endCritical f op ep o c d n r).out = s.out ∧ (s.endCritical f op ep o c d n r).time = s.time ∧
    (s.endCritical f op ep o c d n r).tiers = s.tiers ∧ (s.endCritical f op ep o c d n r).sheets = s.sheets ∧
    (s.endCritical f op ep o c d n r).arrays = s.arrays ∧ (s.endCritical f op ep o c d n r).faults = s.faults ∧
    (s.endCritical f op ep o c d n r).sec = s.sec ∧ (s.endCritical f op ep o c d n r).ports = s.ports ∧
    (s.endCritical f op ep o c d n r).fusion = s.fusion ∧ (s.endCritical f op ep o c d n r).vision = s.vision ∧
    (s.endCritical f op ep o c d n r).checkpoints = s.checkpoints ∧
    (s.endCritical f op ep o c d n r).track = s.track ∧ (s.endCritical f op ep o c d n r).search = s.search ∧
    (s.endCritical f op ep o c d n r).solver = s.solver ∧ (s.endCritical f op ep o c d n r).map = s.map ∧
    (s.endCritical f op ep o c d n r).mapQueue = s.mapQueue ∧
    (s.endCritical f op ep o c d n r).trackQueue = s.trackQueue ∧
    (s.endCritical f op ep o c d n r).signal = s.signal ∧ (s.endCritical f op ep o c d n r).counters = s.counters ∧
    (s.endCritical f op ep o c d n r).anchors = s.anchors ∧
    (s.endCritical f op ep o c d n r).tensors = s.tensors ∧
    (s.endCritical f op ep o c d n r).host.linkUp = s.host.linkUp ∧
    (s.endCritical f op ep o c d n r).host.gen = s.host.gen ∧
    (s.endCritical f op ep o c d n r).host.width = s.host.width ∧
    (s.endCritical f op ep o c d n r).host.flit = s.host.flit ∧
    (s.endCritical f op ep o c d n r).host.attached = s.host.attached ∧
    (s.endCritical f op ep o c d n r).host.outBase = s.host.outBase ∧
    (s.endCritical f op ep o c d n r).host.outSize = s.host.outSize ∧
    (s.endCritical f op ep o c d n r).host.epoch = s.host.epoch ∧
    (s.endCritical f op ep o c d n r).host.vectorMask = s.host.vectorMask ∧
    (s.endCritical f op ep o c d n r).host.written = s.host.written ∧
    (s.endCritical f op ep o c d n r).host.reply = s.host.reply ∧
    (s.endCritical f op ep o c d n r).host.stagedImage = s.host.stagedImage ∧
    (s.endCritical f op ep o c d n r).host.stagedSlot = s.host.stagedSlot ∧
    (s.endCritical f op ep o c d n r).host.stagedRuntime = s.host.stagedRuntime ∧
    (s.endCritical f op ep o c d n r).host.bootConfig = s.host.bootConfig := by
  unfold State.endCritical
  simp


/-- A critical command served at once: noted and completed; nothing else changes. -/
@[simp] theorem State.serveCritical_frame (s : State) (f : CritFrame) (op ep : Nat) (r : Bytes) :
    (s.serveCritical f op ep r).pending = s.pending ∧ (s.serveCritical f op ep r).active = s.active ∧
    (s.serveCritical f op ep r).shadowed = s.shadowed ∧ (s.serveCritical f op ep r).latches = s.latches ∧
    (s.serveCritical f op ep r).heldLo = s.heldLo ∧ (s.serveCritical f op ep r).mem = s.mem ∧
    (s.serveCritical f op ep r).power = s.power ∧ (s.serveCritical f op ep r).flash = s.flash ∧
    (s.serveCritical f op ep r).out = s.out ∧ (s.serveCritical f op ep r).time = s.time ∧
    (s.serveCritical f op ep r).tiers = s.tiers ∧ (s.serveCritical f op ep r).sheets = s.sheets ∧
    (s.serveCritical f op ep r).arrays = s.arrays ∧ (s.serveCritical f op ep r).faults = s.faults ∧
    (s.serveCritical f op ep r).sec = s.sec ∧ (s.serveCritical f op ep r).ports = s.ports ∧
    (s.serveCritical f op ep r).fusion = s.fusion ∧ (s.serveCritical f op ep r).vision = s.vision ∧
    (s.serveCritical f op ep r).checkpoints = s.checkpoints ∧ (s.serveCritical f op ep r).track = s.track ∧
    (s.serveCritical f op ep r).search = s.search ∧ (s.serveCritical f op ep r).solver = s.solver ∧
    (s.serveCritical f op ep r).map = s.map ∧ (s.serveCritical f op ep r).mapQueue = s.mapQueue ∧
    (s.serveCritical f op ep r).trackQueue = s.trackQueue ∧ (s.serveCritical f op ep r).signal = s.signal ∧
    (s.serveCritical f op ep r).counters = s.counters ∧ (s.serveCritical f op ep r).anchors = s.anchors ∧
    (s.serveCritical f op ep r).tensors = s.tensors ∧
    (s.serveCritical f op ep r).host.linkUp = s.host.linkUp ∧ (s.serveCritical f op ep r).host.gen = s.host.gen ∧
    (s.serveCritical f op ep r).host.width = s.host.width ∧ (s.serveCritical f op ep r).host.flit = s.host.flit ∧
    (s.serveCritical f op ep r).host.attached = s.host.attached ∧
    (s.serveCritical f op ep r).host.outBase = s.host.outBase ∧
    (s.serveCritical f op ep r).host.outSize = s.host.outSize ∧
    (s.serveCritical f op ep r).host.epoch = s.host.epoch ∧
    (s.serveCritical f op ep r).host.vectorMask = s.host.vectorMask ∧
    (s.serveCritical f op ep r).host.written = s.host.written ∧
    (s.serveCritical f op ep r).host.reply = s.host.reply ∧
    (s.serveCritical f op ep r).host.stagedImage = s.host.stagedImage ∧
    (s.serveCritical f op ep r).host.stagedSlot = s.host.stagedSlot ∧
    (s.serveCritical f op ep r).host.stagedRuntime = s.host.stagedRuntime ∧
    (s.serveCritical f op ep r).host.bootConfig = s.host.bootConfig := by
  unfold State.serveCritical
  simp


/-- A critical command refused: noted and completed; nothing else changes. -/
@[simp] theorem State.refuseCritical_frame (s : State) (f : CritFrame) (op ep c : Nat) :
    (s.refuseCritical f op ep c).pending = s.pending ∧ (s.refuseCritical f op ep c).active = s.active ∧
    (s.refuseCritical f op ep c).shadowed = s.shadowed ∧ (s.refuseCritical f op ep c).latches = s.latches ∧
    (s.refuseCritical f op ep c).heldLo = s.heldLo ∧ (s.refuseCritical f op ep c).mem = s.mem ∧
    (s.refuseCritical f op ep c).power = s.power ∧ (s.refuseCritical f op ep c).flash = s.flash ∧
    (s.refuseCritical f op ep c).out = s.out ∧ (s.refuseCritical f op ep c).time = s.time ∧
    (s.refuseCritical f op ep c).tiers = s.tiers ∧ (s.refuseCritical f op ep c).sheets = s.sheets ∧
    (s.refuseCritical f op ep c).arrays = s.arrays ∧ (s.refuseCritical f op ep c).faults = s.faults ∧
    (s.refuseCritical f op ep c).sec = s.sec ∧ (s.refuseCritical f op ep c).ports = s.ports ∧
    (s.refuseCritical f op ep c).fusion = s.fusion ∧ (s.refuseCritical f op ep c).vision = s.vision ∧
    (s.refuseCritical f op ep c).checkpoints = s.checkpoints ∧ (s.refuseCritical f op ep c).track = s.track ∧
    (s.refuseCritical f op ep c).search = s.search ∧ (s.refuseCritical f op ep c).solver = s.solver ∧
    (s.refuseCritical f op ep c).map = s.map ∧ (s.refuseCritical f op ep c).mapQueue = s.mapQueue ∧
    (s.refuseCritical f op ep c).trackQueue = s.trackQueue ∧ (s.refuseCritical f op ep c).signal = s.signal ∧
    (s.refuseCritical f op ep c).counters = s.counters ∧ (s.refuseCritical f op ep c).anchors = s.anchors ∧
    (s.refuseCritical f op ep c).tensors = s.tensors ∧
    (s.refuseCritical f op ep c).host.linkUp = s.host.linkUp ∧ (s.refuseCritical f op ep c).host.gen = s.host.gen ∧
    (s.refuseCritical f op ep c).host.width = s.host.width ∧ (s.refuseCritical f op ep c).host.flit = s.host.flit ∧
    (s.refuseCritical f op ep c).host.attached = s.host.attached ∧
    (s.refuseCritical f op ep c).host.outBase = s.host.outBase ∧
    (s.refuseCritical f op ep c).host.outSize = s.host.outSize ∧
    (s.refuseCritical f op ep c).host.epoch = s.host.epoch ∧
    (s.refuseCritical f op ep c).host.vectorMask = s.host.vectorMask ∧
    (s.refuseCritical f op ep c).host.written = s.host.written ∧
    (s.refuseCritical f op ep c).host.reply = s.host.reply ∧
    (s.refuseCritical f op ep c).host.stagedImage = s.host.stagedImage ∧
    (s.refuseCritical f op ep c).host.stagedSlot = s.host.stagedSlot ∧
    (s.refuseCritical f op ep c).host.stagedRuntime = s.host.stagedRuntime ∧
    (s.refuseCritical f op ep c).host.bootConfig = s.host.bootConfig := by
  unfold State.refuseCritical
  simp


/-- Bytes copied into the output ring are in host memory; nothing else changes. -/
@[simp] theorem State.ringWrite_frame (s : State) (a : Nat) (bs : Bytes) :
    (s.ringWrite a bs).pending = s.pending ∧ (s.ringWrite a bs).free = s.free ∧ (s.ringWrite a bs).regs = s.regs ∧
    (s.ringWrite a bs).active = s.active ∧ (s.ringWrite a bs).shadowed = s.shadowed ∧
    (s.ringWrite a bs).latches = s.latches ∧ (s.ringWrite a bs).heldLo = s.heldLo ∧ (s.ringWrite a bs).mem = s.mem ∧
    (s.ringWrite a bs).power = s.power ∧ (s.ringWrite a bs).flash = s.flash ∧ (s.ringWrite a bs).steps = s.steps ∧
    (s.ringWrite a bs).trail = s.trail ∧ (s.ringWrite a bs).out = s.out ∧ (s.ringWrite a bs).time = s.time ∧
    (s.ringWrite a bs).tiers = s.tiers ∧ (s.ringWrite a bs).sheets = s.sheets ∧
    (s.ringWrite a bs).arrays = s.arrays ∧ (s.ringWrite a bs).faults = s.faults ∧ (s.ringWrite a bs).sec = s.sec ∧
    (s.ringWrite a bs).ports = s.ports ∧ (s.ringWrite a bs).fusion = s.fusion ∧
    (s.ringWrite a bs).vision = s.vision ∧ (s.ringWrite a bs).checkpoints = s.checkpoints ∧
    (s.ringWrite a bs).track = s.track ∧ (s.ringWrite a bs).search = s.search ∧
    (s.ringWrite a bs).solver = s.solver ∧ (s.ringWrite a bs).map = s.map ∧
    (s.ringWrite a bs).mapQueue = s.mapQueue ∧ (s.ringWrite a bs).trackQueue = s.trackQueue ∧
    (s.ringWrite a bs).signal = s.signal ∧ (s.ringWrite a bs).counters = s.counters ∧
    (s.ringWrite a bs).anchors = s.anchors ∧
    (s.ringWrite a bs).tensors = s.tensors ∧ (s.ringWrite a bs).answers = s.answers ∧ (s.ringWrite a bs).host.linkUp = s.host.linkUp ∧
    (s.ringWrite a bs).host.gen = s.host.gen ∧ (s.ringWrite a bs).host.width = s.host.width ∧
    (s.ringWrite a bs).host.flit = s.host.flit ∧ (s.ringWrite a bs).host.attached = s.host.attached ∧
    (s.ringWrite a bs).host.outBase = s.host.outBase ∧ (s.ringWrite a bs).host.outSize = s.host.outSize ∧
    (s.ringWrite a bs).host.epoch = s.host.epoch ∧ (s.ringWrite a bs).host.rings = s.host.rings ∧
    (s.ringWrite a bs).host.unposted = s.host.unposted ∧ (s.ringWrite a bs).host.posted = s.host.posted ∧
    (s.ringWrite a bs).host.vectorMask = s.host.vectorMask ∧
    (s.ringWrite a bs).host.vectorPending = s.host.vectorPending ∧ (s.ringWrite a bs).host.sent = s.host.sent ∧
    (s.ringWrite a bs).host.reply = s.host.reply ∧ (s.ringWrite a bs).host.stagedImage = s.host.stagedImage ∧
    (s.ringWrite a bs).host.stagedSlot = s.host.stagedSlot ∧
    (s.ringWrite a bs).host.stagedRuntime = s.host.stagedRuntime ∧
    (s.ringWrite a bs).host.bootConfig = s.host.bootConfig := by
  unfold State.ringWrite
  simp only
  split <;> simp

/-- Records copied to the host change the output buffer, `OUT_WRITE` and host memory; nothing else. -/
@[simp] theorem State.deliverFrom_frame (fuel : Nat) (s : State) :
    ((State.deliverFrom fuel s).1).pending = s.pending ∧ ((State.deliverFrom fuel s).1).free = s.free ∧
    ((State.deliverFrom fuel s).1).active = s.active ∧ ((State.deliverFrom fuel s).1).shadowed = s.shadowed ∧
    ((State.deliverFrom fuel s).1).latches = s.latches ∧ ((State.deliverFrom fuel s).1).heldLo = s.heldLo ∧
    ((State.deliverFrom fuel s).1).mem = s.mem ∧ ((State.deliverFrom fuel s).1).power = s.power ∧
    ((State.deliverFrom fuel s).1).flash = s.flash ∧ ((State.deliverFrom fuel s).1).steps = s.steps ∧
    ((State.deliverFrom fuel s).1).trail = s.trail ∧
    ((State.deliverFrom fuel s).1).host.linkUp = s.host.linkUp ∧ ((State.deliverFrom fuel s).1).host.gen = s.host.gen ∧
    ((State.deliverFrom fuel s).1).host.width = s.host.width ∧ ((State.deliverFrom fuel s).1).host.flit = s.host.flit ∧
    ((State.deliverFrom fuel s).1).host.attached = s.host.attached ∧
    ((State.deliverFrom fuel s).1).host.outBase = s.host.outBase ∧
    ((State.deliverFrom fuel s).1).host.outSize = s.host.outSize ∧ ((State.deliverFrom fuel s).1).host.epoch = s.host.epoch ∧
    ((State.deliverFrom fuel s).1).host.rings = s.host.rings ∧
    ((State.deliverFrom fuel s).1).host.unposted = s.host.unposted ∧
    ((State.deliverFrom fuel s).1).host.posted = s.host.posted ∧
    ((State.deliverFrom fuel s).1).host.vectorMask = s.host.vectorMask ∧
    ((State.deliverFrom fuel s).1).host.vectorPending = s.host.vectorPending ∧
    ((State.deliverFrom fuel s).1).host.sent = s.host.sent ∧ ((State.deliverFrom fuel s).1).host.reply = s.host.reply ∧
    ((State.deliverFrom fuel s).1).host.stagedImage = s.host.stagedImage ∧
    ((State.deliverFrom fuel s).1).host.stagedSlot = s.host.stagedSlot ∧
    ((State.deliverFrom fuel s).1).host.stagedRuntime = s.host.stagedRuntime ∧
    ((State.deliverFrom fuel s).1).host.bootConfig = s.host.bootConfig ∧
    ((State.deliverFrom fuel s).1).time = s.time ∧ ((State.deliverFrom fuel s).1).tiers = s.tiers ∧
    ((State.deliverFrom fuel s).1).sheets = s.sheets ∧ ((State.deliverFrom fuel s).1).arrays = s.arrays ∧
    ((State.deliverFrom fuel s).1).faults = s.faults ∧ ((State.deliverFrom fuel s).1).sec = s.sec ∧
    ((State.deliverFrom fuel s).1).ports = s.ports ∧ ((State.deliverFrom fuel s).1).fusion = s.fusion ∧
    ((State.deliverFrom fuel s).1).vision = s.vision ∧ ((State.deliverFrom fuel s).1).checkpoints = s.checkpoints ∧
    ((State.deliverFrom fuel s).1).track = s.track ∧ ((State.deliverFrom fuel s).1).search = s.search ∧
    ((State.deliverFrom fuel s).1).solver = s.solver ∧ ((State.deliverFrom fuel s).1).map = s.map ∧
    ((State.deliverFrom fuel s).1).mapQueue = s.mapQueue ∧ ((State.deliverFrom fuel s).1).trackQueue = s.trackQueue ∧
    ((State.deliverFrom fuel s).1).signal = s.signal ∧ ((State.deliverFrom fuel s).1).counters = s.counters ∧
    ((State.deliverFrom fuel s).1).anchors = s.anchors ∧
    ((State.deliverFrom fuel s).1).tensors = s.tensors ∧ ((State.deliverFrom fuel s).1).answers = s.answers := by
  induction fuel generalizing s with
  | zero => simp [State.deliverFrom]
  | succ n ih =>
    unfold State.deliverFrom
    split
    · simp
    · dsimp only
      split
      · simp [ih]
      · simp


/-- Delivery changes the output buffer, `OUT_WRITE`, host memory and vector 2; nothing else. -/
@[simp] theorem State.deliver_frame (s : State) :
    (s.deliver).pending = s.pending ∧ (s.deliver).free = s.free ∧ (s.deliver).active = s.active ∧
    (s.deliver).shadowed = s.shadowed ∧ (s.deliver).latches = s.latches ∧ (s.deliver).heldLo = s.heldLo ∧
    (s.deliver).mem = s.mem ∧ (s.deliver).power = s.power ∧ (s.deliver).flash = s.flash ∧
    (s.deliver).steps = s.steps ∧ (s.deliver).trail = s.trail ∧ (s.deliver).time = s.time ∧
    (s.deliver).tiers = s.tiers ∧ (s.deliver).sheets = s.sheets ∧ (s.deliver).arrays = s.arrays ∧
    (s.deliver).faults = s.faults ∧ (s.deliver).sec = s.sec ∧ (s.deliver).ports = s.ports ∧
    (s.deliver).fusion = s.fusion ∧ (s.deliver).vision = s.vision ∧ (s.deliver).checkpoints = s.checkpoints ∧
    (s.deliver).track = s.track ∧ (s.deliver).search = s.search ∧ (s.deliver).solver = s.solver ∧
    (s.deliver).map = s.map ∧ (s.deliver).mapQueue = s.mapQueue ∧ (s.deliver).trackQueue = s.trackQueue ∧
    (s.deliver).signal = s.signal ∧ (s.deliver).counters = s.counters ∧ (s.deliver).anchors = s.anchors ∧
    (s.deliver).tensors = s.tensors ∧ (s.deliver).answers = s.answers ∧
    (s.deliver).host.linkUp = s.host.linkUp ∧ (s.deliver).host.gen = s.host.gen ∧
    (s.deliver).host.width = s.host.width ∧ (s.deliver).host.flit = s.host.flit ∧
    (s.deliver).host.attached = s.host.attached ∧ (s.deliver).host.outBase = s.host.outBase ∧
    (s.deliver).host.outSize = s.host.outSize ∧ (s.deliver).host.epoch = s.host.epoch ∧
    (s.deliver).host.rings = s.host.rings ∧ (s.deliver).host.unposted = s.host.unposted ∧
    (s.deliver).host.posted = s.host.posted ∧ (s.deliver).host.vectorMask = s.host.vectorMask ∧
    (s.deliver).host.reply = s.host.reply ∧
    (s.deliver).host.stagedImage = s.host.stagedImage ∧ (s.deliver).host.stagedSlot = s.host.stagedSlot ∧
    (s.deliver).host.stagedRuntime = s.host.stagedRuntime ∧ (s.deliver).host.bootConfig = s.host.bootConfig := by
  unfold State.deliver
  dsimp only
  split <;> simp


end Sys2Proof.Machine
end

