-- ==== Sys2Proof/Laws/Gate.lean ====
section
/-! SUPPORT. Every command that needs the device up does nothing while it is not (R505, R506); a sampling read answers 0. -/

namespace Sys2Proof.Machine

theorem State.mayIssue_notUp (s : State) (k : Nat) (hu : s.up = false) : s.mayIssue k = false := by
  simp [State.mayIssue, hu]

theorem State.visionCommand_notUp (s : State) (v : Nat) (w : VisionWait) (hu : s.up = false) : s.visionCommand v w = s := by
  simp [State.visionCommand, State.mayIssue, hu]

theorem State.visionIn_notUp (s : State) (v op : Nat) (d : VisionDesc) (hu : s.up = false) : s.visionIn v op d = .next s := by
  simp [State.visionIn, State.visionCommand_notUp, hu]

theorem effLoadW_notUp (a : Fin 4) (d : ArrayDesc) (s : State) (hu : s.up = false) : effLoadW a d s = s := by
  simp [effLoadW, State.arrayCommand, State.mayIssue, hu]

theorem effStream_notUp (a : Fin 4) (d : ArrayDesc) (s : State) (hu : s.up = false) : effStream a d s = s := by
  simp [effStream, State.arrayCommand, State.mayIssue, hu]

theorem effDrain_notUp (a : Fin 4) (d : ArrayDesc) (s : State) (hu : s.up = false) : effDrain a d s = s := by
  simp [effDrain, State.arrayCommand, State.mayIssue, hu]

theorem effJoin_notUp (a : Fin 4) (d : ArrayDesc) (s : State) (hu : s.up = false) : effJoin a d s = s := by
  simp [effJoin, State.arrayCommand, State.mayIssue, hu]

theorem effVec_notUp (a : Fin 4) (d : ArrayDesc) (s : State) (hu : s.up = false) : effVec a d s = s := by
  simp [effVec, State.arrayCommand, State.mayIssue, hu]

theorem effReduce_notUp (a : Fin 4) (d : ArrayDesc) (s : State) (hu : s.up = false) : effReduce a d s = s := by
  simp [effReduce, State.arrayCommand, State.mayIssue, hu]

theorem effGen_notUp (a : Fin 4) (d : ArrayDesc) (s : State) (hu : s.up = false) : effGen a d s = s := by
  simp [effGen, State.arrayCommand, State.mayIssue, hu]

theorem effWait_notUp (a : Fin 4) (d : ArrayDesc) (s : State) (hu : s.up = false) : effWait a d s = s := by
  simp [effWait, State.arrayCommand, State.mayIssue, hu]

theorem effRaise_notUp (a : Fin 4) (d : ArrayDesc) (s : State) (hu : s.up = false) : effRaise a d s = s := by
  simp [effRaise, State.arrayCommand, State.mayIssue, hu]

theorem effStage_notUp (a : Fin 4) (d : ArrayDesc) (gather : List (Option Nat)) (s : State) (hu : s.up = false) :
    effStage a d gather s = s := by
  simp [effStage, State.arrayCommand, State.mayIssue, hu]

theorem effArrayEnd_notUp (a : Fin 4) (d : ArrayDesc) (s : State) (hu : s.up = false) : effArrayEnd a d s = s := by
  simp [effArrayEnd, State.arrayCommand, State.mayIssue, hu]

theorem effCntLatch_notReadable (d : Fin 4) (k : Fin 64) (s : State) (hu : s.readable = false) :
    effCntLatch d k s = s.replyWith 0 := by
  simp [effCntLatch, hu]

theorem effCntCfgWrite_notUp (d : Fin 4) (k : Fin 64) (v : Word) (s : State) (hu : s.up = false) :
    effCntCfgWrite d k v s = s := by
  simp [effCntCfgWrite, hu]

theorem effCntClear_notUp (d : Fin 4) (hi : Word) (s : State) (hu : s.up = false) : effCntClear d hi s = s := by
  simp [effCntClear, hu]

theorem effErrorHandle_notUp (s : State) (hu : s.up = false) : effErrorHandle s = s := by
  simp [effErrorHandle, hu]

theorem effBistRun_notUp (f : CritFrame) (region : BitVec 16) (force : Bool) (s : State) (hu : s.up = false) :
    effBistRun f region force s = s := by
  simp [effBistRun, State.critical, State.take, State.ringReady, hu]

theorem effBistAbort_notUp (f : CritFrame) (s : State) (hu : s.up = false) : effBistAbort f s = s := by
  simp [effBistAbort, State.critical, State.take, State.ringReady, hu]

theorem effBistCycle_notUp (f : CritFrame) (interval : BitVec 32) (mask : BitVec 16) (s : State) (hu : s.up = false) :
    effBistCycle f interval mask s = s := by
  simp [effBistCycle, State.critical, State.take, State.ringReady, hu]

theorem effBistCycleInterval_notUp (s : State) (hu : s.up = false) : effBistCycleInterval s = s := by
  simp [effBistCycleInterval, hu]

theorem effBistFull_notUp (f : CritFrame) (s : State) (hu : s.up = false) : effBistFull f s = s := by
  simp [effBistFull, State.critical, State.take, State.ringReady, hu]

theorem effRepairLogRead_notUp (f : CritFrame) (reply : Nat) (s : State) (hu : s.up = false) :
    effRepairLogRead f reply s = s := by
  simp [effRepairLogRead, State.critical, State.take, State.ringReady, hu]

theorem effRepairLogClear_notUp (f : CritFrame) (s : State) (hu : s.up = false) : effRepairLogClear f s = s := by
  simp [effRepairLogClear, State.critical, State.take, State.ringReady, hu]

theorem effBistComplete_notUp (v : BistVerdict) (s : State) (hu : s.up = false) : effBistComplete v s = s := by
  simp [effBistComplete, hu]

theorem effConsistencyGate_notUp (maps : List (Nat × List (Nat × List Nat))) (scores : List (Nat × Nat × Nat)) (s : State)
    (hu : s.up = false) : effConsistencyGate maps scores s = s := by
  unfold effConsistencyGate; split <;> simp [hu]

theorem effLadderUpdate_notUp (s : State) (hu : s.up = false) : effLadderUpdate s = s := by
  unfold effLadderUpdate; split <;> simp [hu]

theorem effEgoEstimate_notUp (j : Nat) (inp : EgoInputs) (poses : List (Nat × Nat)) (s : State) (hu : s.up = false) :
    effEgoEstimate j inp poses s = s := by
  unfold effEgoEstimate; split <;> simp [hu]

theorem effStreamStatSample_notReadable (s : State) (hu : s.readable = false) : effStreamStatSample s = s.replyWith 0 := by
  simp [effStreamStatSample, hu]

theorem effHostAttach_notUp (h : CmdHdr) (addr size : Nat) (s : State) (hu : s.up = false) :
    effHostAttach h addr size s = s := by
  simp [effHostAttach, State.hostCommand, State.take, State.ringReady, hu]

theorem effHostDetach_notUp (h : CmdHdr) (s : State) (hu : s.up = false) : effHostDetach h s = s := by
  simp [effHostDetach, State.hostCommand, State.take, State.ringReady, hu]

theorem effSqDoorbell_notUp (r : Fin 16) (v : Word) (unknown : List UnknownEntry) (s : State) (hu : s.up = false) :
    effSqDoorbell r v unknown s = s := by
  simp [effSqDoorbell, State.hostUp, hu]

theorem effCqDoorbell_notUp (r : Fin 16) (v : Word) (s : State) (hu : s.up = false) : effCqDoorbell r v s = s := by
  simp [effCqDoorbell, State.hostUp, hu]

theorem effRingEnable_notUp (r : Fin 16) (en : Bool) (s : State) (hu : s.up = false) : effRingEnable r en s = s := by
  simp [effRingEnable, hu]

theorem effRingReset_notUp (r : Fin 16) (s : State) (hu : s.up = false) : effRingReset r s = s := by
  simp [effRingReset, hu]

theorem effDescriptorComplete_notUp (k : Fin 16) (unit lantern : BitVec 16) (release : Bool) (s : State) (hu : s.up = false) :
    effDescriptorComplete k unit lantern release s = s := by
  simp [effDescriptorComplete, hu]

theorem effLanternGrant_notUp (unit lantern : BitVec 16) (s : State) (hu : s.up = false) :
    effLanternGrant unit lantern s = s := by
  simp [effLanternGrant, hu]

theorem effLanternWatchdog_notUp (unit lantern : BitVec 16) (s : State) (hu : s.up = false) :
    effLanternWatchdog unit lantern s = s := by
  unfold effLanternWatchdog; dsimp only; split <;> simp [hu]

theorem effLendableWindowOpen_notUp (i : Nat) (s : State) (hu : s.up = false) : effLendableWindowOpen i s = s := by
  unfold effLendableWindowOpen; split <;> simp [hu]

theorem effLendableWindowClose_notUp (i : Nat) (s : State) (hu : s.up = false) : effLendableWindowClose i s = s := by
  unfold effLendableWindowClose; split <;> simp [hu]

theorem effGsTagSample_notReadable (g : Fin 3) (s : State) (hu : s.readable = false) : effGsTagSample g s = s.replyWith 0 := by
  simp [effGsTagSample, hu]

theorem effInsertionList_notUp (l : InsertList) (s : State) (hu : s.up = false) : effInsertionList l s = s := by
  have m : ∀ k, s.mayIssue k = false := by simp [State.mayIssue, hu]
  unfold effInsertionList
  simp only [m]
  split <;> rfl

theorem effMerge_notUp (s : State) (hu : s.up = false) : effMerge s = s := by
  simp [effMerge, State.mayIssue, hu]

theorem effMapRead_notUp (h : CmdHdr) (kind : Nat) (epoch : BitVec 64) (first page : Nat) (args : List Nat) (reply : Nat) (idle : Bool) (s : State) (hu : s.up = false) :
    effMapRead h kind epoch first page args reply idle s = s := by
  simp [effMapRead, State.hostCommand, State.take, State.ringReady, hu]

theorem effTileMoveComplete_notUp (tile : Nat) (to_ : MoveTo) (stall : Option Stall) (s : State) (hu : s.up = false) :
    effTileMoveComplete tile to_ stall s = s := by
  unfold effTileMoveComplete; split <;> simp [hu]

theorem effT4FetchComplete_notUp (tile : Nat) (data sidecar : Bytes) (stall : Option Stall) (s : State) (hu : s.up = false) :
    effT4FetchComplete tile data sidecar stall s = s := by
  unfold effT4FetchComplete; split <;> (try split) <;> simp_all

theorem effWindowGrant_notUp (h : CmdHdr) (ranges : List (Nat × Nat)) (s : State) (hu : s.up = false) :
    effWindowGrant h ranges s = s := by
  simp [effWindowGrant, State.hostCommand, State.take, State.ringReady, hu]

theorem effWindowWithdraw_notUp (h : CmdHdr) (slots : List Nat) (s : State) (hu : s.up = false) :
    effWindowWithdraw h slots s = s := by
  simp [effWindowWithdraw, State.hostCommand, State.take, State.ringReady, hu]

theorem effWindowWithdrawComplete_notUp (s : State) (hu : s.up = false) : effWindowWithdrawComplete s = s := by
  unfold effWindowWithdrawComplete; split <;> simp [hu]

theorem effObjAlloc_notUp (h : CmdHdr) (tiles : Nat) (s : State) (hu : s.up = false) : effObjAlloc h tiles s = s := by
  simp [effObjAlloc, State.hostCommand, State.take, State.ringReady, hu]

theorem effObjFree_notUp (h : CmdHdr) (id : BitVec 32) (s : State) (hu : s.up = false) : effObjFree h id s = s := by
  simp [effObjFree, State.hostCommand, State.take, State.ringReady, hu]

theorem effBar2Write_notUp (x : Nat) (data : Bytes) (s : State) (hu : s.up = false) : effBar2Write x data s = s := by
  simp [effBar2Write, hu]

theorem effTileQuery_notUp (hi : Word) (s : State) (hu : s.up = false) : effTileQuery hi s = s := by
  simp [effTileQuery, hu]

theorem effTenantViewSample_notReadable (s : State) (hu : s.readable = false) : effTenantViewSample s = s.replyWith 0 := by
  simp [effTenantViewSample, hu]

theorem effSoftRowRepairComplete_notUp (row : Nat) (s : State) (hu : s.up = false) :
    effSoftRowRepairComplete row s = s := by
  simp [effSoftRowRepairComplete, hu]

theorem effPortLinkChange_notUp (port : Fin 4) (up fecLock localFault remoteFault : Bool) (fecCorr fecUncorr : Nat) (s : State) (hu : s.up = false) :
    effPortLinkChange port up fecLock localFault remoteFault fecCorr fecUncorr s = s := by
  simp [effPortLinkChange, hu]

theorem effPrpSupervision_notUp (s : State) (hu : s.up = false) : effPrpSupervision s = s := by
  simp [effPrpSupervision, hu]

theorem effPrpNodeAgeing_notUp (pair : Fin 2) (mac : Nat) (s : State) (hu : s.up = false) :
    effPrpNodeAgeing pair mac s = s := by
  simp [effPrpNodeAgeing, hu]

theorem effFrameIngress_notUp (port : Fin 4) (quarter : Fin 8) (f : RxFrame) (s : State) (hu : s.up = false) :
    effFrameIngress port quarter f s = s := by
  simp [effFrameIngress, hu]

theorem effFrameOther_notUp (s : State) (hu : s.up = false) : effFrameOther s = s := by
  simp [effFrameOther, hu]

theorem effDeclare_notUp (s : State) (hu : s.up = false) : effDeclare s = s := by
  simp [effDeclare, hu]

theorem effData_notUp (s : State) (hu : s.up = false) : effData s = s := by
  simp [effData, State.tetherCommand, hu]

theorem effDelayQueueRelease_notUp (slot : Fin 4096) (s : State) (hu : s.up = false) :
    effDelayQueueRelease slot s = s := by
  simp [effDelayQueueRelease, hu]

theorem effAck_notUp (slot : Fin 4096) (s : State) (hu : s.up = false) : effAck slot s = s := by
  simp [effAck, hu]

theorem effStatusReq_notUp (s : State) (hu : s.up = false) : effStatusReq s = s := by
  simp [effStatusReq, State.tetherCommand, hu]

theorem effStatus_notUp (slot : Fin 4096) (s : State) (hu : s.up = false) : effStatus slot s = s := by
  simp [effStatus, hu]

theorem effTimeReq_notUp (slot : Fin 4096) (quarter : Fin 8) (s : State) (hu : s.up = false) :
    effTimeReq slot quarter s = s := by
  simp [effTimeReq, hu]

theorem effTimeResp_notUp (s : State) (hu : s.up = false) : effTimeResp s = s := by
  simp [effTimeResp, State.tetherCommand, hu]

theorem effClose_notUp (s : State) (hu : s.up = false) : effClose s = s := by
  simp [effClose, State.tetherCommand, hu]

theorem effLivenessTimeout_notUp (slot : Fin 4096) (s : State) (hu : s.up = false) :
    effLivenessTimeout slot s = s := by
  simp [effLivenessTimeout, hu]

theorem effSessionCloseComplete_notUp (slot : Fin 4096) (s : State) (hu : s.up = false) :
    effSessionCloseComplete slot s = s := by
  simp [effSessionCloseComplete, hu]

theorem effSampledValueFrame_notUp (s : State) (hu : s.up = false) : effSampledValueFrame s = s := by
  simp [effSampledValueFrame, hu]

theorem effSlotViewSample_notReadable (s : State) (hu : s.readable = false) : effSlotViewSample s = s.replyWith 0 := by
  simp [effSlotViewSample, hu]

theorem effFlowPredictionField_notUp (k : Fin 16) (slot stream : Nat) (backward : Bool) (dst : Nat) (s : State)
    (hu : s.up = false) : effFlowPredictionField k slot stream backward dst s = s := by
  unfold effFlowPredictionField; split <;> simp [hu]

theorem effRegisterWrite_notUp (off : Nat) (v : Word) (w : Writer) (s : State) (hu : s.up = false) :
    effRegisterWrite off v w s = s := by
  simp [effRegisterWrite, hu]

theorem effSearchBatch_notUp (k : Fin 16) (req : Nat) (unit raise : BitVec 16) (out : Option Nat) (s : State) (hu : s.up = false) :
    effSearchBatch k req unit raise out s = s := by
  simp [effSearchBatch, hu]

theorem effSearchQuery_notUp (h : CmdHdr) (req : Bytes) (idle : Bool) (ns : Nat) (s : State) (hu : s.up = false) :
    effSearchQuery h req idle ns s = s := by
  simp [effSearchQuery, State.searchRequest, State.hostCommand, State.take, State.ringReady, hu]

theorem effSearchGet_notUp (h : CmdHdr) (i : Nat) (id : BitVec 32) (reply : Nat) (idle : Bool) (s : State) (hu : s.up = false) :
    effSearchGet h i id reply idle s = s := by
  simp [effSearchGet, State.searchRequest, State.hostCommand, State.take, State.ringReady, hu]

theorem effSearchExport_notUp (h : CmdHdr) (i reply : Nat) (idle : Bool) (s : State) (hu : s.up = false) :
    effSearchExport h i reply idle s = s := by
  simp [effSearchExport, State.searchRequest, State.hostCommand, State.take, State.ringReady, hu]

theorem effHostQueryDeadline_notUp (s : State) (hu : s.up = false) : effHostQueryDeadline s = s := by
  simp [effHostQueryDeadline, hu]

theorem effCollViewSample_notReadable (s : State) (hu : s.readable = false) : effCollViewSample s = s.replyWith 0 := by
  simp [effCollViewSample, hu]

theorem effKeyAgree_notUp (f : CritFrame) (chain : List Cert) (bulk : Bulk) (qh : Nat × Nat) (nh : Bytes) (reply : Nat) (s : State) (hu : s.up = false) :
    effKeyAgree f chain bulk qh nh reply s = s := by
  simp [effKeyAgree, State.critical, State.take, State.ringReady, hu]

theorem effKeyRetire_notUp (f : CritFrame) (s : State) (hu : s.up = false) : effKeyRetire f s = s := by
  simp [effKeyRetire, State.critical, State.take, State.ringReady, hu]

theorem effAttest_notUp (f : CritFrame) (nonce : Bytes) (reply : Nat) (s : State) (hu : s.up = false) :
    effAttest f nonce reply s = s := by
  simp [effAttest, State.critical, State.take, State.ringReady, hu]

theorem effCertRead_notUp (f : CritFrame) (reply : Nat) (s : State) (hu : s.up = false) :
    effCertRead f reply s = s := by
  simp [effCertRead, State.critical, State.take, State.ringReady, hu]

theorem effDeviceCertInstall_notUp (f : CritFrame) (bulk : Bulk) (chain : List Cert) (s : State) (hu : s.up = false) :
    effDeviceCertInstall f bulk chain s = s := by
  simp [effDeviceCertInstall, State.critical, State.take, State.ringReady, hu]

theorem effLcProvision_notUp (f : CritFrame) (s : State) (hu : s.up = false) : effLcProvision f s = s := by
  simp [effLcProvision, State.critical, State.take, State.ringReady, hu]

theorem effLcService_notUp (f : CritFrame) (s : State) (hu : s.up = false) : effLcService f s = s := by
  simp [effLcService, State.critical, State.take, State.ringReady, hu]

theorem effLcReturn_notUp (f : CritFrame) (s : State) (hu : s.up = false) : effLcReturn f s = s := by
  simp [effLcReturn, State.critical, State.take, State.ringReady, hu]

theorem effLcEnd_notUp (f : CritFrame) (s : State) (hu : s.up = false) : effLcEnd f s = s := by
  simp [effLcEnd, State.critical, State.take, State.ringReady, hu]

theorem effSiteInstall_notUp (f : CritFrame) (bulk : Bulk) (root : Option Cert) (siteCert : Bytes) (revoked : List Bytes) (rootSig : Option (Nat × Nat)) (flashOk : Bool) (s : State) (hu : s.up = false) :
    effSiteInstall f bulk root siteCert revoked rootSig flashOk s = s := by
  simp [effSiteInstall, State.critical, State.take, State.ringReady, hu]

theorem effConfigKeySet_notUp (f : CritFrame) (key : Nat × Nat) (flashOk : Bool) (s : State) (hu : s.up = false) :
    effConfigKeySet f key flashOk s = s := by
  simp [effConfigKeySet, State.critical, State.take, State.ringReady, hu]

theorem effImageKeysSet_notUp (f : CritFrame) (keys : List (Nat × Nat)) (flashOk : Bool) (s : State) (hu : s.up = false) :
    effImageKeysSet f keys flashOk s = s := by
  simp [effImageKeysSet, State.critical, State.take, State.ringReady, hu]

theorem effCalibrationSet_notUp (f : CritFrame) (bulk : Bulk) (entries : List Calibration) (flashOk : Bool) (s : State) (hu : s.up = false) :
    effCalibrationSet f bulk entries flashOk s = s := by
  simp [effCalibrationSet, State.critical, State.take, State.ringReady, hu]

theorem effRosterSet_notUp (f : CritFrame) (bulk : Bulk) (entries : List RosterEntry) (flashOk : Bool) (s : State) (hu : s.up = false) :
    effRosterSet f bulk entries flashOk s = s := by
  simp [effRosterSet, State.critical, State.take, State.ringReady, hu]

theorem effPegSet_notUp (f : CritFrame) (bulk : Bulk) (pegs : List Peg) (flashOk : Bool) (s : State) (hu : s.up = false) :
    effPegSet f bulk pegs flashOk s = s := by
  simp [effPegSet, State.critical, State.take, State.ringReady, hu]

theorem effDatumSet_notUp (f : CritFrame) (d : Datum) (flashOk : Bool) (s : State) (hu : s.up = false) :
    effDatumSet f d flashOk s = s := by
  simp [effDatumSet, State.critical, State.take, State.ringReady, hu]

theorem effSecurityVersionRaise_notUp (f : CritFrame) (v : BitVec 32) (s : State) (hu : s.up = false) :
    effSecurityVersionRaise f v s = s := by
  simp [effSecurityVersionRaise, State.critical, State.take, State.ringReady, hu]

theorem effPipelineStart_notUp (f : CritFrame) (pipeline : BitVec 16) (s : State) (hu : s.up = false) :
    effPipelineStart f pipeline s = s := by
  simp [effPipelineStart, State.critical, State.take, State.ringReady, hu]

theorem effPipelineStop_notUp (f : CritFrame) (pipeline : BitVec 16) (s : State) (hu : s.up = false) :
    effPipelineStop f pipeline s = s := by
  simp [effPipelineStop, State.critical, State.take, State.ringReady, hu]

theorem effChanViewSample_notReadable (s : State) (hu : s.readable = false) : effChanViewSample s = s.replyWith 0 := by
  simp [effChanViewSample, hu]

theorem effSolverSubmission_notUp (count epoch : Nat) (reorder : Bool) (addr : Nat) (s : State) (hu : s.up = false) :
    effSolverSubmission count epoch reorder addr s = s := by
  have m : ∀ k, s.mayIssue k = false := by simp [State.mayIssue, hu]
  unfold effSolverSubmission
  simp only [m]
  split <;> rfl

theorem effRunStart_notUp (s : State) (hu : s.up = false) : effRunStart s = s := by
  unfold effRunStart; split <;> simp [hu]

theorem effAdmissionClose_notUp (k : Fin 16) (s : State) (hu : s.up = false) : effAdmissionClose k s = s := by
  unfold effAdmissionClose; split <;> simp [hu]

theorem effStepEdge_notUp (q : List Quality) (s : State) (hu : s.up = false) : effStepEdge q s = s := by
  unfold effStepEdge; split <;> simp [hu]

theorem effOccurrenceCommit_notUp (k : Fin 16) (outs : List ModelOutput) (ops : List SearchOps) (s : State) (hu : s.up = false) :
    effOccurrenceCommit k outs ops s = s := by
  unfold effOccurrenceCommit; split <;> simp [hu]

theorem effBackgroundMergeEnd_notUp (coll : Nat) (s : State) (hu : s.up = false) :
    effBackgroundMergeEnd coll s = s := by
  simp [effBackgroundMergeEnd, hu]

theorem effStallAbort_notUp (k : Fin 16) (s : State) (hu : s.up = false) : effStallAbort k s = s := by
  unfold effStallAbort; split <;> simp [hu]

theorem effTrailReadWrite_notUp (v : Word) (s : State) (hu : s.up = false) : effTrailReadWrite v s = s := by
  simp [effTrailReadWrite, hu]

theorem effArchiveReadWrite_notUp (v : Word) (s : State) (hu : s.up = false) : effArchiveReadWrite v s = s := by
  simp [effArchiveReadWrite, hu]

theorem effOutReadWrite_notUp (v : Word) (s : State) (hu : s.up = false) : effOutReadWrite v s = s := by
  simp [effOutReadWrite, hu]

theorem effIncWrite_notUp (k : Fin 2) (w : Writer) (hi : Word) (s : State) (hu : s.up = false) :
    effIncWrite k w hi s = s := by
  simp [effIncWrite, hu]

theorem effDomAdjWrite_notUp (k : Fin 2) (w : Writer) (hi : Word) (s : State) (hu : s.up = false) :
    effDomAdjWrite k w hi s = s := by
  simp [effDomAdjWrite, hu]

theorem effDomStateWrite_notUp (k : Fin 2) (w : Writer) (state : Fin 4) (s : State) (hu : s.up = false) :
    effDomStateWrite k w state s = s := by
  simp [effDomStateWrite, hu]

theorem effDevSelSwitch_notUp (s : State) (hu : s.up = false) : effDevSelSwitch s = s := by
  simp [effDevSelSwitch, hu]

theorem effAnnounceReceiptTimeout_notUp (k : Fin 2) (lanB : Bool) (s : State) (hu : s.up = false) :
    effAnnounceReceiptTimeout k lanB s = s := by
  simp [effAnnounceReceiptTimeout, hu]

theorem effAutoReturn_notUp (s : State) (hu : s.up = false) : effAutoReturn s = s := by
  simp [effAutoReturn, hu]

theorem effTransmitStamp_notUp (port : Fin 4) (id : BitVec 16) (clock : Fin 3) (quarter : Fin 8) (s : State) (hu : s.up = false) :
    effTransmitStamp port id clock quarter s = s := by
  simp [effTransmitStamp, hu]

theorem effPtpMessageReceive_notUp (port : Fin 4) (number : BitVec 8) (quarter : Fin 8) (m : PtpMsg) (s : State) (hu : s.up = false) :
    effPtpMessageReceive port number quarter m s = s := by
  simp [effPtpMessageReceive, hu]

theorem effDelayReqTransmit_notUp (k : Fin 2) (s : State) (hu : s.up = false) : effDelayReqTransmit k s = s := by
  simp [effDelayReqTransmit, hu]

theorem effToutArm_notUp (m : Fin 4) (s : State) (hu : s.up = false) : effToutArm m s = s := by
  simp [effToutArm, hu]

theorem effToutPulse_notUp (m : Fin 4) (s : State) (hu : s.up = false) : effToutPulse m s = s := by
  unfold effToutPulse; dsimp only; split <;> simp [hu]

theorem effToutPulseEnd_notUp (m : Fin 4) (s : State) (hu : s.up = false) : effToutPulseEnd m s = s := by
  simp [effToutPulseEnd, hu]

theorem effTimeInEdge_notUp (m : Fin 4) (quarter : Fin 8) (rising : Bool) (s : State) (hu : s.up = false) :
    effTimeInEdge m quarter rising s = s := by
  simp [effTimeInEdge, hu]

theorem effTinStampPop_notReadable (m : Fin 4) (s : State) (hu : s.readable = false) : effTinStampPop m s = s.replyWith 0 := by
  simp [effTinStampPop, hu]

theorem effDevTimeSample_notReadable (s : State) (hu : s.readable = false) : effDevTimeSample s = s.replyWith 0 := by
  simp [effDevTimeSample, hu]

theorem effDomTimeSample_notReadable (k : Fin 2) (s : State) (hu : s.readable = false) : effDomTimeSample k s = s.replyWith 0 := by
  simp [effDomTimeSample, hu]

theorem effTrackEngineStep_notUp (lists : List (Nat × Nat)) (s : State) (hu : s.up = false) :
    effTrackEngineStep lists s = s := by
  have m : ∀ k, s.mayIssue k = false := by simp [State.mayIssue, hu]
  unfold effTrackEngineStep
  simp only [m]
  split <;> rfl

theorem effTrackRead_notUp (h : CmdHdr) (region : Option Nat) (id : BitVec 32) (reply : Nat) (idle : Bool) (s : State) (hu : s.up = false) :
    effTrackRead h region id reply idle s = s := by
  simp [effTrackRead, State.trackRequest, State.hostCommand, State.take, State.ringReady, hu]

theorem effTrackPredict_notUp (h : CmdHdr) (id : BitVec 32) (time : BitVec 64) (reply : Nat) (idle : Bool) (s : State) (hu : s.up = false) :
    effTrackPredict h id time reply idle s = s := by
  simp [effTrackPredict, State.trackRequest, State.hostCommand, State.take, State.ringReady, hu]

theorem effTrackViewSample_notReadable (s : State) (hu : s.readable = false) : effTrackViewSample s = s.replyWith 0 := by
  simp [effTrackViewSample, hu]

theorem effImageStage_notUp (f : CritFrame) (bulks : List Bulk) (images : List Component) (config : Option Component) (seeds : List (Nat × Bytes)) (flashOk : Bool) (s : State) (hu : s.up = false) :
    effImageStage f bulks images config seeds flashOk s = s := by
  simp [effImageStage, State.critical, State.take, State.ringReady, hu]

theorem effImageActivate_notUp (f : CritFrame) (n : BitVec 64) (s : State) (hu : s.up = false) :
    effImageActivate f n s = s := by
  simp [effImageActivate, State.critical, State.take, State.ringReady, hu]

theorem effRuntimeStage_notUp (f : CritFrame) (bulk : Bulk) (rt : Component) (flashOk : Bool) (s : State) (hu : s.up = false) :
    effRuntimeStage f bulk rt flashOk s = s := by
  simp [effRuntimeStage, State.critical, State.take, State.ringReady, hu]

theorem effRuntimeActivate_notUp (f : CritFrame) (n : BitVec 64) (s : State) (hu : s.up = false) :
    effRuntimeActivate f n s = s := by
  simp [effRuntimeActivate, State.critical, State.take, State.ringReady, hu]

theorem effStandbyReloadComplete_notUp (s : State) (hu : s.up = false) : effStandbyReloadComplete s = s := by
  simp [effStandbyReloadComplete, hu]

theorem effSearchInsert_notUp (f : CritFrame) (coll dim : Nat) (bulk : Bulk) (items : List (Nat × List Nat)) (reply : Nat) (s : State) (hu : s.up = false) :
    effSearchInsert f coll dim bulk items reply s = s := by
  simp [effSearchInsert, State.critical, State.take, State.ringReady, hu]

theorem effSearchDelete_notUp (f : CritFrame) (coll : Nat) (bulk : Bulk) (ids : List Nat) (reply : Nat) (s : State) (hu : s.up = false) :
    effSearchDelete f coll bulk ids reply s = s := by
  simp [effSearchDelete, State.critical, State.take, State.ringReady, hu]

theorem effSearchLoad_notUp (f : CritFrame) (coll : Nat) (bulk : Bulk) (s : State) (hu : s.up = false) :
    effSearchLoad f coll bulk s = s := by
  simp [effSearchLoad, State.critical, State.take, State.ringReady, hu]

theorem effGridFusion_notUp (maps : List (Nat × List (Nat × List Nat))) (s : State) (hu : s.up = false) :
    effGridFusion maps s = s := by
  unfold effGridFusion; split <;> simp [hu]

end Sys2Proof.Machine
end

