-- ==== Sys2Proof/WellFormed.lean ====
section
/-! DEFINITION. Which commands are well formed: operands that the type leaves wider than the manual does. A command that
is not well formed is no command of the manual's; one that is well formed may still be refused by the device. -/

namespace Sys2Proof

/-- Offsets of BAR0, 64 MiB (R5, R36). -/
def bar0Size : Nat := 0x4000000

/-- The window of BAR2, 64 GiB (R487). -/
def bar2Size : Nat := 0x1000000000

/-- A PCIe generation and width as trained (R491, R524): x1, x4 and x8 are 0, 2 and 3. -/
def linkOk (gen width : Nat) : Bool := decide (1 ≤ gen ∧ gen ≤ 6) && (width == 0 || width == 2 || width == 3)

/-- A region identifier (R554): 16 bits, of class 0x0 to 0xA. -/
def regionOk (r : Nat) : Bool := decide (r < 0xB000)

/-! What the bounds of the manual leave of the images that Trosil produces. -/

/-- A cadence within R46 and R51: multiple, phase and settle window, in a base step of `b` µs with `CADENCE_0`'s window `w0`. -/
def CadenceDecl.ok (b w0 : Nat) (c : CadenceDecl) : Bool :=
  decide (1 ≤ c.multiple ∧ c.multiple ≤ 65535 ∧ c.phase < c.multiple ∧ w0 ≤ c.settleUs ∧
    c.settleUs ≤ min (c.multiple * b) (4 * b))

/-- One to sixteen cadences, the first at every step with a window of at most B (R46, R51). -/
def cadencesOk (b : Nat) (cs : List CadenceDecl) : Bool :=
  match cs with
  | [] => false
  | c :: _ => decide (cs.length ≤ 16 ∧ c.multiple = 1 ∧ c.settleUs ≤ b) && cs.all (CadenceDecl.ok b c.settleUs)

/-- A use lists one to eight consumer or reader units (R149). -/
def LanternUse.ok (u : LanternUse) : Bool := decide (1 ≤ u.units.length ∧ u.units.length ≤ 8)

/-- The plan fits the plan memory of each groundsheet: 65,536 uses (R149). -/
def planOk (plan : List SlotPlan) : Bool :=
  plan.all (fun p => p.uses.all LanternUse.ok) &&
    (List.range 3).all (fun g =>
      decide (((plan.filter (fun p => p.lantern / 4096 == g)).map (fun p => p.uses.length)).foldl (· + ·) 0 ≤ 65536))

/-- The tiles of a lendable memory (R159): a pack 8 MiB, the line buffer of a flow or stereo engine 3 MiB, else 1 MiB. -/
def lendTiles (m : Nat) : Nat := if m < 4 then 256 else if m % 4 < 2 then 96 else 32

/-- A window lies within its memory, and closes after it opens (R159, R160). -/
def LendWindow.ok (w : LendWindow) : Bool :=
  decide (w.memory < 12 ∧ w.first ≤ w.last ∧ w.last < lendTiles w.memory) && w.times.all (fun t => decide (t.2.1 < t.2.2))

/-- A schedule image within the bounds that Trosil keeps: grid (R26), privileged set (R28), cadences (R46, R51), lantern plan
(R149), windows (R159, R160), regions (R252) and collections (R330). -/
def Image.ok (i : Image) : Bool :=
  decide (i.gridCols ≤ 4096 ∧ i.gridRows ≤ 4096 ∧ (i.streams.filter (·.privileged)).length ≤ 4 ∧
    i.track.regions ≤ 256 ∧ i.collections.length ≤ 64) &&
    cadencesOk i.baseUs i.cadences && planOk i.plan && i.windows.all LendWindow.ok

def Component.ok (c : Component) : Bool :=
  match c.body with
  | .image i _ => i.ok
  | _ => true

def slotOk : Option Slot → Bool
  | none => true
  | some t => t.components.all Component.ok

def flashOk : Option Flash → Bool
  | none => true
  | some f => slotOk f.slotA && slotOk f.slotB

def BootInputs.ok (b : BootInputs) : Bool := linkOk b.pcieGen b.pcieWidth && b.failing.all regionOk && flashOk b.flash

/-- A stall record's cause (R68), cadence and dies. -/
def Stall.ok (t : Stall) : Bool := decide (1 ≤ t.cause ∧ t.cause ≤ 7 ∧ t.cadence < 16) && t.dies.all (fun d => decide (d < 4))

def stallOk : Option Stall → Bool
  | none => true
  | some t => t.ok

/-- A critical frame's parameters fit its 16-bit length, and its check is 32 or 96 bytes (R535). -/
def CritFrame.ok (f : CritFrame) : Bool :=
  decide (f.params.length < 2 ^ 16) && (f.check.length == 32 || f.check.length == 96)

/-- A bulk reference's digest is SHA-384's (R536). -/
def Bulk.ok (b : Bulk) : Bool := b.digest.length == 48

/-- A cause code that a chapter defines (R31, R32); the device emits no other. -/
def causeOk (c : Nat) : Bool :=
  decide (c ≤ 0x10 ∨ (0x20 ≤ c ∧ c ≤ 0x22) ∨ (0x30 ≤ c ∧ c ≤ 0x34) ∨ (0x38 ≤ c ∧ c ≤ 0x3D) ∨ (0x40 ≤ c ∧ c ≤ 0x4C)
    ∨ (0x50 ≤ c ∧ c ≤ 0x57) ∨ (0x60 ≤ c ∧ c ≤ 0x63) ∨ c = 0x66 ∨ (0x70 ≤ c ∧ c ≤ 0x77) ∨ (0x80 ≤ c ∧ c ≤ 0x8A))

def ErrorInfo.ok (e : ErrorInfo) : Bool :=
  regionOk e.region && decide (e.kind ≤ 6) && causeOk e.cause && e.detail.length == 16 && e.occs.all (fun p => decide (p.1 < 16))

def BistVerdict.ok (v : BistVerdict) : Bool := regionOk v.region && decide (1 ≤ v.outcome ∧ v.outcome ≤ 3)

def RxFrame.ok (f : RxFrame) : Bool :=
  decide (f.ipBytes < 2 ^ 16) && (match f.vlan with | some v => decide (v < 4096) | none => true) &&
    (match f.prp with | some t => decide (t.lan < 2 ∧ t.seq < 2 ^ 16 ∧ t.mac < 2 ^ 48) | none => true)

def PtpMsg.ok : PtpMsg → Bool
  | .announce gm utc _ _ => decide (gm < 2 ^ 64 ∧ utc < 2 ^ 16)
  | .sync seq _ _ _ | .followUp seq _ _ | .delayResp seq _ _ | .pdelayReq seq | .pdelayResp seq _ _ _
  | .pdelayRespFollowUp seq _ _ => decide (seq < 2 ^ 16)
  | .malformed => true

def DescCtx.ok (c : DescCtx) : Bool := decide (c.cadence < 16)

/-- The size in bits of an element of a format code of R132; none where the code is reserved. -/
def formatBits (f : Nat) : Option Nat :=
  if f < 2 then some 4
  else if f = 2 ∨ f = 3 ∨ f = 8 ∨ f = 9 then some 8
  else if f = 4 ∨ f = 5 ∨ f = 10 ∨ f = 11 then some 16
  else if f = 12 then some 32
  else none

/-- A compiled output within the fields of its payload (R135–R137): extents, a payload of at most 1,048,512 bytes (R40), quantiles
ascending and as many as the third extent, one entry of each asset per class. -/
def TensorHead.ok (head : Nat) (h : TensorHead) : Bool :=
  (match formatBits h.format with
    | some w => decide (head + (h.dims.foldl (· * ·) 1 * w + 7) / 8 ≤ 1048512)
    | none => false) &&
    decide (h.model < 2 ^ 16 ∧ 1 ≤ h.dims.length ∧ h.dims.length ≤ 4) && h.dims.all (fun d => decide (d < 2 ^ 32))

def ModelBody.ok : ModelBody → Bool
  | .tensor h a => h.ok 32 && decide (a < 2 ^ 48)
  | .forecast h t ms q qs a =>
    h.ok 80 && decide (h.dims.length = 3 ∧ 1 ≤ qs.length ∧ qs.length ≤ 8 ∧ h.dims.getD 2 0 = qs.length) &&
      decide (t < 2 ^ 64 ∧ ms < 2 ^ 32 ∧ q < 2 ^ 16 ∧ a < 2 ^ 48) && qs.all (fun x => decide (x < 2 ^ 16)) &&
      (List.zip qs (qs.drop 1)).all (fun p => decide (p.1 ≤ p.2))
  | .faults classes a n assets =>
    decide (classes < 2 ^ 16 ∧ a < 2 ^ 48 ∧ n < 2 ^ 48 ∧ 16 + 8 * classes * assets.length ≤ 1048512 ∧ assets.length < 2 ^ 16) &&
      assets.all (fun a => decide (a.1 < 2 ^ 32 ∧ a.2.length = classes) &&
        a.2.all (fun c => decide (c.1 < 2 ^ 16 ∧ c.2 ≤ 0x8000)))

def ModelOutput.ok (x : ModelOutput) : Bool := x.body.ok && decide (x.confidence ≤ 0x8000)

/-- The well-formed commands. -/
def Instr.wf : Instr → Bool
  | .resetNRelease b => b.ok
  | .pcieLinkReturn g w => linkOk g w
  | .pllCheckWindow devs => devs.length == 13
  | .clockTick n => decide (0 < n)
  | .ptpMessageReceive _ _ _ m => m.ok
  | .loadW _ d | .stream _ d | .drain _ d | .join _ d | .vec _ d | .reduce _ d | .gen _ d | .wait _ d | .raise _ d
  | .arrayEnd _ d => d.ctx.ok
  | .stage _ d => d.desc.ctx.ok
  | .insertionList l => l.ok
  | .flow _ d | .stereo _ d | .feature _ d | .matchFeatures _ d | .projRay _ d | .projPlane _ d | .projPtsImage _ d
  | .projPtsGrid _ d | .visionWait _ _ d | .visionRaise _ _ d | .visionEnd _ _ d => d.ctx.ok
  | .tileMoveComplete _ _ stall => stallOk stall
  | .t4FetchComplete _ t side stall => t.length == 32768 && side.length == 64 && stallOk stall
  | .bar2Read x n => decide (0 < n ∧ x + n ≤ bar2Size)
  | .bar2Write x bs => !bs.isEmpty && decide (x + bs.length ≤ bar2Size)
  | .sqDoorbell _ _ unknown => unknown.all (fun u => decide (u.place < 4096))
  | .unsupportedAccess off _ => decide (off < bar0Size)
  | .registerWrite off _ _ | .loReadLatch off | .readClear off => decide (off < bar0Size ∧ off % 4 = 0)
  | .errorDetect e => e.ok
  | .bistComplete v => v.ok
  | .keyAgree f _ bulk _ nh _ => f.ok && bulk.ok && nh.length == 16
  | .attest f nonce _ => f.ok && nonce.length == 32
  | .deviceCertInstall f bulk _ | .calibrationSet f bulk _ _ | .rosterSet f bulk _ _ | .pegSet f bulk _ _
  | .siteInstall f bulk _ _ _ _ _ | .runtimeStage f bulk _ _ | .searchInsert f _ _ bulk _ _ | .searchDelete f _ bulk _ _
  | .searchLoad f _ bulk => f.ok && bulk.ok
  | .imageStage f bulks images config _ _ =>
    f.ok && bulks.all Bulk.ok && images.all Component.ok && (config.map Component.ok).getD true
  | .keyRetire f | .certRead f _ | .lcProvision f | .lcService f | .lcReturn f | .lcEnd f | .configKeySet f _ _
  | .imageKeysSet f _ _ | .datumSet f _ _ | .securityVersionRaise f _ | .pipelineStart f _ | .pipelineStop f _
  | .bistRun f _ _ | .bistAbort f | .bistCycle f _ _ | .bistFull f | .repairLogRead f _ | .repairLogClear f
  | .imageActivate f _ | .runtimeActivate f _ => f.ok
  | .frameIngress _ _ f => f.ok
  | .occurrenceCommit _ outs _ => outs.all ModelOutput.ok
  | .windowGrant _ ranges => ranges.all (fun r => decide (r.1 + r.2 ≤ 2 ^ 64))
  | .hostAttach _ addr size => decide (addr < 2 ^ 64 ∧ size < 2 ^ 64)
  | .prpNodeAgeing _ mac => decide (mac < 2 ^ 48)
  | .softRowRepairComplete _ => true
  | .resetNAssert | .runtimeReady | .perstN | .hostInterfaceReset _ | .timeInEdge _ _ _ | .incWrite _ _ _
  | .domAdjWrite _ _ _ | .domStateWrite _ _ _ | .devSelSwitch | .announceReceiptTimeout _ _ | .autoReturn
  | .transmitStamp _ _ _ _ | .toutArm _ | .toutPulse _ | .toutPulseEnd _ | .tinStampPop _ | .devTimeSample
  | .domTimeSample _ | .delayReqTransmit _ | .runStart | .stepEdge _ | .admissionClose _
  | .stallAbort _ | .trailReadWrite _ | .archiveReadWrite _ | .outReadWrite _ | .descriptorComplete _ _ _
  | .lanternGrant _ _ | .lanternWatchdog _ _ | .lendableWindowOpen _ | .lendableWindowClose _ | .windowWithdraw _ _
  | .windowWithdrawComplete | .objAlloc _ _ | .objFree _ _ | .hostDetach _ | .cqDoorbell _ _ | .ringEnable _ _
  | .ringReset _ | .tileQuery _ | .tenantViewSample | .gsTagSample _ | .errorHandle | .lockstepMismatch _
  | .dieHeartbeatLoss _ | .securityRetestComplete _ | .bistCycleInterval | .entropyHealthFail | .jtagInstruction _
  | .standbyReloadComplete | .portLinkChange _ _ _ _ _ _ _ | .frameOther | .prpSupervision | .declare | .data | .ack _
  | .statusReq | .status _ | .timeReq _ _ | .timeResp | .close | .livenessTimeout _ | .sessionCloseComplete _
  | .delayQueueRelease _ | .sampledValueFrame | .slotViewSample | .gridFusion _ | .consistencyGate _ | .egoEstimate _ _ _ _ _
  | .ladderUpdate | .flowPredictionField _ _ _ | .streamStatSample | .trackEngineStep _ | .trackRead _ _ _ _ _ | .trackPredict _ _ _ _ _
  | .trackViewSample | .searchBatch _ _ _ _ _ | .searchQuery _ _ _ _ | .hostQueryDeadline | .searchGet _ _ _ _ _
  | .searchExport _ _ _ _ | .backgroundMergeEnd _ | .collViewSample | .solverSubmission _ _ _ _ | .merge
  | .mapRead _ _ _ _ _ _ _ _ | .chanViewSample | .cntLatch _ _ | .cntCfgWrite _ _ _ | .cntClear _ _ => true

end Sys2Proof
end

