-- ==== Sys2Proof/Tests/Slice0.lean ====
section
/-! SUPPORT. Tests: an ill-formed term for each check of `WellFormed`, known answers of the manual and of the standards it
names, and for every statement of `Obligations` whose clauses have hypotheses a state and operands that meet them. -/

namespace Sys2Proof.Tests

open Sys2Proof.Machine

-- one theorem at a time: those in flight each hold a thread's stack
set_option Elab.async false

/-! ## Fixtures -/

/-- A command header of ring 0, tenant 0x8000; `critical` sets flag 0 (R499). -/
def hdr (critical : Bool) : CmdHdr := ⟨0, 1, if critical then 1 else 0, 0x8000, true⟩

/-- A critical frame of a role with counter 1; the check is still to be filled in (R535). -/
def rawFrame (role op : Nat) : CritFrame :=
  ⟨hdr true, BitVec.ofNat 8 role, 1, BitVec.ofNat 16 op, 5, 1, 0, 0, 0, [], List.replicate 32 0⟩

def bulk0 : Bulk := ⟨List.replicate 48 0, []⟩

def errorAt (region kind : Nat) (occs : List (Nat × Nat)) : ErrorInfo :=
  ⟨region, kind, 1, 0, List.replicate 16 0, occs, []⟩

/-- An array descriptor of cadence 0 with no lanterns. -/
def arrayDesc : ArrayDesc :=
  { (default : ArrayDesc) with wait := 0xFFFF, raise := 0xFFFF }

/-- A vision descriptor of cadence 0 with no lanterns. -/
def visionDesc : VisionDesc :=
  { (default : VisionDesc) with wait := 0xFFFF, raise := 0xFFFF }

/-- A schedule image with a base step of 20 ms and two cadences. -/
def image0 : Image :=
  { (default : Image) with
    id := 7, baseUs := 20000, cadences := [⟨1, 0, 2000, [10000], [], false⟩, ⟨2, 0, 2000, [10000], [], false⟩]
    schedules := [0] }

/-! ## Well-formedness refuses -/

def bootOk : BootInputs := ⟨true, true, true, true, true, true, [], none, 5, 3⟩
def stall0 : Stall := ⟨1, [0], 0, 0, 0, 5⟩

theorem test_wf_bootInputs :
    (Instr.resetNRelease bootOk).wf = true ∧ (Instr.resetNRelease { bootOk with pcieGen := 7 }).wf = false ∧
      (Instr.resetNRelease { bootOk with pcieGen := 0 }).wf = false ∧
      (Instr.resetNRelease { bootOk with pcieWidth := 1 }).wf = false ∧
      (Instr.resetNRelease { bootOk with failing := [0xB000] }).wf = false := by decide

theorem test_wf_link : (Instr.pcieLinkReturn 6 3).wf = true ∧ (Instr.pcieLinkReturn 7 3).wf = false ∧
    (Instr.pcieLinkReturn 6 4).wf = false := by decide

def kfCandidate0 : KfCandidate := ⟨0, 0, [], [], [], none, false⟩

theorem test_wf_insertions : (Instr.insertionList ⟨[], List.replicate 256 kfCandidate0, [], []⟩).wf = true ∧
    (Instr.insertionList ⟨[], List.replicate 257 kfCandidate0, [], []⟩).wf = false := by
  simp only [Instr.wf, InsertList.ok, List.length_replicate, List.length_nil]
  decide

theorem test_wf_pll : (Instr.pllCheckWindow (List.replicate 13 0)).wf = true ∧
    (Instr.pllCheckWindow (List.replicate 12 0)).wf = false := by decide

theorem test_wf_ticks : (Instr.clockTick 1).wf = true ∧ (Instr.clockTick 0).wf = false := by decide

theorem test_wf_ptp : (Instr.ptpMessageReceive 0 0 0 (.sync 65535 true 0 0)).wf = true ∧
    (Instr.ptpMessageReceive 0 0 0 (.sync 65536 true 0 0)).wf = false ∧
    (Instr.ptpMessageReceive 0 0 0 (.announce (2 ^ 64) 0 true true)).wf = false ∧
    (Instr.ptpMessageReceive 0 0 0 (.announce 0 65536 true true)).wf = false := by decide

theorem test_wf_descriptors : (Instr.vec 0 arrayDesc).wf = true ∧
    (Instr.vec 0 { arrayDesc with ctx := ⟨16, 0⟩ }).wf = false ∧
    (Instr.flow 0 { visionDesc with ctx := ⟨16, 0⟩ }).wf = false := by decide

theorem test_wf_stalls : (Instr.tileMoveComplete 0 .t3 (some stall0)).wf = true ∧
    (Instr.tileMoveComplete 0 .t3 (some { stall0 with cause := 8 })).wf = false ∧
    (Instr.tileMoveComplete 0 .t3 (some { stall0 with cause := 0 })).wf = false ∧
    (Instr.tileMoveComplete 0 .t3 (some { stall0 with cadence := 16 })).wf = false ∧
    (Instr.tileMoveComplete 0 .t3 (some { stall0 with dies := [4] })).wf = false := by decide

theorem test_wf_fetch : (Instr.t4FetchComplete 0 [] (List.replicate 64 0) none).wf = false ∧
    (Instr.t4FetchComplete 0 (List.replicate 32768 0) [] none).wf = false := by decide +kernel

theorem test_wf_bar2 : (Instr.bar2Read 0 4).wf = true ∧ (Instr.bar2Read 0 0).wf = false ∧
    (Instr.bar2Read 0xFFFFFFFFF 2).wf = false ∧ (Instr.bar2Write 0 []).wf = false ∧
    (Instr.bar2Write 0xFFFFFFFFF [1, 2]).wf = false := by decide

theorem test_wf_doorbell : (Instr.sqDoorbell 0 0 [⟨4095, 0, 0, 0⟩]).wf = true ∧
    (Instr.sqDoorbell 0 0 [⟨4096, 0, 0, 0⟩]).wf = false := by decide

theorem test_wf_offsets : (Instr.unsupportedAccess 0x3FFFFFF true).wf = true ∧
    (Instr.unsupportedAccess 0x4000000 true).wf = false ∧ (Instr.registerWrite 2 0 .host).wf = false ∧
    (Instr.registerWrite 0x4000000 0 .host).wf = false ∧ (Instr.loReadLatch 1).wf = false ∧
    (Instr.readClear 3).wf = false := by decide

theorem test_wf_errors : (Instr.errorDetect (errorAt 0x1000 6 [(15, 0)])).wf = true ∧
    (Instr.errorDetect (errorAt 0xB000 1 [])).wf = false ∧ (Instr.errorDetect (errorAt 0x1000 7 [])).wf = false ∧
    (Instr.errorDetect (errorAt 0x1000 1 [(16, 0)])).wf = false ∧
    (Instr.errorDetect { errorAt 0x1000 1 [] with detail := [] }).wf = false ∧
    (Instr.errorDetect { errorAt 0x1000 1 [] with cause := 0x11 }).wf = false ∧
    (Instr.errorDetect { errorAt 0x1000 1 [] with cause := 0x90 }).wf = false := by decide

/-- Images (R26, R28, R46, R51, R149, R159, R160, R252, R330), as a staged component holds them. -/
theorem test_wf_images :
    image0.ok = true ∧ { image0 with gridCols := 4097 }.ok = false ∧ { image0 with gridRows := 4097 }.ok = false ∧
      { image0 with streams := List.replicate 5 { (default : StreamDecl) with privileged := true } }.ok = false ∧
      { image0 with track := { image0.track with regions := 257 } }.ok = false ∧
      { image0 with collections := List.replicate 65 default }.ok = false ∧ { image0 with cadences := [] }.ok = false ∧
      { image0 with cadences := [⟨2, 0, 2000, [], [], false⟩] }.ok = false ∧
      { image0 with cadences := [⟨1, 0, 20001, [], [], false⟩] }.ok = false ∧
      { image0 with cadences := [⟨1, 0, 2000, [], [], false⟩, ⟨2, 2, 2000, [], [], false⟩] }.ok = false ∧
      { image0 with cadences := [⟨1, 0, 2000, [], [], false⟩, ⟨2, 0, 1999, [], [], false⟩] }.ok = false ∧
      { image0 with plan := [⟨0, [⟨1, false, [], 0, 0⟩]⟩] }.ok = false ∧
      { image0 with plan := [⟨0, [⟨1, false, List.replicate 9 0, 0, 0⟩]⟩] }.ok = false ∧
      { image0 with windows := [⟨0, 0, 256, [], []⟩] }.ok = false ∧ { image0 with windows := [⟨12, 0, 0, [], []⟩] }.ok = false ∧
      { image0 with windows := [⟨0, 1, 0, [], []⟩] }.ok = false ∧
      { image0 with windows := [⟨4, 0, 95, [(0, 5, 6)], []⟩] }.ok = true ∧
      { image0 with windows := [⟨4, 0, 95, [(0, 5, 5)], []⟩] }.ok = false := by decide +kernel

theorem test_wf_components :
    (Instr.imageStage (rawFrame 3 0x200) [] [⟨[], [], 0, 0, .image image0 false⟩] none [] true).wf = true ∧
      (Instr.imageStage (rawFrame 3 0x200) [] [⟨[], [], 0, 0, .image { image0 with gridCols := 4097 } false⟩] none [] true).wf =
        false ∧
      (Instr.imageStage (rawFrame 3 0x200) [] [] (some ⟨[], [], 0, 0, .image default false⟩) [] true).wf = false := by
  decide +kernel

theorem test_wf_verdict : (Instr.bistComplete ⟨0x1000, 3, 0, 0, 0⟩).wf = true ∧
    (Instr.bistComplete ⟨0x1000, 0, 0, 0, 0⟩).wf = false ∧ (Instr.bistComplete ⟨0x1000, 4, 0, 0, 0⟩).wf = false ∧
    (Instr.bistComplete ⟨0xB000, 1, 0, 0, 0⟩).wf = false := by decide

theorem test_wf_frames : (Instr.keyRetire (rawFrame 2 0x101)).wf = true ∧
    (Instr.keyRetire { rawFrame 2 0x101 with check := [] }).wf = false ∧
    (Instr.keyAgree { rawFrame 2 0x100 with check := List.replicate 96 0 } [] bulk0 (0, 0) (List.replicate 15 0) 0).wf =
      false ∧
    (Instr.attest (rawFrame 2 0x102) (List.replicate 31 0) 0).wf = false ∧
    (Instr.deviceCertInstall (rawFrame 1 0x104) ⟨[], []⟩ []).wf = false ∧
    (Instr.imageStage (rawFrame 3 0x200) [⟨[], []⟩] [] none [] true).wf = false := by decide

theorem wf_params (f : CritFrame) (h : 2 ^ 16 ≤ f.params.length) : (Instr.keyRetire f).wf = false := by
  simp only [Instr.wf, CritFrame.ok]
  rw [decide_eq_false (by omega)]
  rfl

theorem test_wf_frame_params :
    (Instr.keyRetire { rawFrame 2 0x101 with params := List.replicate (2 ^ 16) 0 }).wf = false :=
  wf_params _ (Nat.le_of_eq (List.length_replicate).symm)

theorem test_wf_ingress : (Instr.frameIngress 0 0 ⟨some 4095, 65535, none, .arp⟩).wf = true ∧
    (Instr.frameIngress 0 0 ⟨some 4096, 0, none, .arp⟩).wf = false ∧
    (Instr.frameIngress 0 0 ⟨none, 65536, none, .arp⟩).wf = false ∧
    (Instr.frameIngress 0 0 ⟨none, 0, some ⟨0, 0, 2⟩, .arp⟩).wf = false ∧
    (Instr.frameIngress 0 0 ⟨none, 0, some ⟨2 ^ 48, 0, 1⟩, .arp⟩).wf = false := by decide

/-- Payloads (R40, R132, R135, R136): a format code of the table, extents that fit, and as many ascending quantiles as the third
extent. -/
theorem test_wf_outputs :
    let h : TensorHead := ⟨0xC, 7, [2, 3, 2]⟩
    let commit (b : ModelBody) : Instr := .occurrenceCommit 0 [⟨1, b, 0x8000⟩] []
    (commit (.forecast h 0 1000 5 [100, 200] 0)).wf = true ∧
      (commit (.forecast h 0 1000 5 [100, 200, 300] 0)).wf = false ∧
      (commit (.forecast h 0 1000 5 [200, 100] 0)).wf = false ∧ (commit (.tensor h 0)).wf = true ∧
      (commit (.tensor { h with dims := [] } 0)).wf = false ∧ (commit (.tensor { h with format := 6 } 0)).wf = false ∧
      (commit (.tensor { h with dims := [262121] } 0)).wf = false ∧ (commit (.tensor { h with dims := [262120] } 0)).wf = true ∧
      (commit (.faults 2 0 0 [(9, [(1, 0x8000)])])).wf = false ∧ (commit (.faults 1 0 0 [(9, [(1, 0x8001)])])).wf = false := by
  decide +kernel

theorem test_wf_host : (Instr.windowGrant (hdr false) [(2 ^ 64, 1)]).wf = false ∧
    (Instr.hostAttach (hdr false) (2 ^ 64) 65536).wf = false ∧ (Instr.prpNodeAgeing 0 (2 ^ 48)).wf = false := by decide

/-- The table gives no bits for any command, so no word spells one. -/
theorem test_no_word_spells_a_command : decodeTableWord 32 0x12345678 = none := by decide

/-! ## States for the witnesses -/

/-- Registers set one after another. -/
def withRegs (s : State) (rs : List (Nat × Nat)) : State := rs.foldl (fun s r => s.setReg r.1 r.2) s

/-- One command key for each role, number 5. -/
def roleKeys : List RoleKey := [⟨1, 5, [], [], []⟩, ⟨2, 5, [], [], []⟩, ⟨3, 5, [], [], []⟩]

/-- A device in SERVICE with the runtime ready, the link up and no run; device time is 1,000 s. -/
def ready : State :=
  { State.reset with
    power := { State.reset.power with
      resetHeld := false, ready := true, devReady := true, stage := 5, statusPins := 5, standby := true }
    host := { State.reset.host with linkUp := true }
    sec := { State.reset.sec with lcWords := [0, 1, 2], keys := roleKeys, entropyOk := true }
    steps := { State.reset.steps with image := some image0 }
    time := { State.reset.time with dev := 1000 * 1000000000 * 2 ^ 40 } }

/-- The same in another life-cycle state. -/
def readyIn (lc : Nat) : State := { ready with sec := { ready.sec with lcWords := [lc] } }

/-- Ring 0 of a state enabled, with one entry waiting. -/
def offer (s : State) : State :=
  { withRegs s [(ringReg 0 0x14, 1)] with
    host := { s.host with rings := s.host.rings.set 0 { Ring.fresh with sqTail := 1 } } }

/-- An occurrence whose work has begun. -/
def occ0 : Occurrence := { (default : Occurrence) with begun := true }

/-- A run of one step edge, begun 10 s ago, with an occurrence of `CADENCE_0` running. -/
def running : State :=
  { ready with steps := { ready.steps with
      run := some ⟨List.replicate 16 0, 990 * secUnits, 20000 * usUnits, 1, [1, 0]⟩, occs := [occ0] } }

/-- A frame with the keyed check under its role's key in the fixtures. -/
def sign (f : CritFrame) : CritFrame := { f with check := (hmac384 [] (frameBytes f)).take 32 }

/-- Every check of a critical frame but the keyed one. -/
def formed (s : State) (f : CritFrame) (op : Nat) : Bool :=
  s.entryOk f.hdr && f.hdr.flags.getLsbD 0 && frameOk f op && op != opKeyAgree && s.sec.quarantined == false &&
    decide (s.counterOf f.role.toNat < f.counter.toNat) && hasRight op f.role.toNat &&
    stateAllows op f.role.toNat s.lc &&
    ((s.roleKey f.role.toNat).map (fun k => (k.key, k.id)) == some ([], f.keyId.toNat))

/-- The keyed check of a signed frame verifies under its role's key. -/
theorem checkOk_sign {s : State} {f : CritFrame} {k : RoleKey} (hk : s.roleKey f.role.toNat = some k) (he : k.key = [])
    (hi : k.id = f.keyId.toNat) : s.checkOk (sign f) = true := by
  have hk2 : s.roleKey (sign f).role.toNat = some k := hk
  have hb : frameBytes (sign f) = frameBytes f := rfl
  simp only [State.checkOk, hk2, hb, he]
  simp [sign, hi]

/-- A signed frame is well formed when the frame is. -/
theorem frameOk_sign {f : CritFrame} {op : Nat} (hop : op ≠ opKeyAgree) (h : frameOk f op = true) :
    frameOk (sign f) op = true := by
  simp only [frameOk, hop, ↓reduceIte, Bool.and_eq_true] at h ⊢
  refine ⟨h.1, h.2.1, ?_⟩
  simp [sign, hmac384_length]

/-- A signed frame whose other checks pass is accepted. -/
theorem accepts_sign {s : State} {f : CritFrame} {op : Nat} (h : formed s f op = true) : s.accepts (sign f) op = true := by
  simp only [formed, Bool.and_eq_true, bne_iff_ne, beq_iff_eq, ne_eq] at h
  obtain ⟨⟨⟨⟨⟨⟨⟨⟨h1, h2⟩, h3⟩, h4⟩, h5⟩, h6⟩, h7⟩, h8⟩, h9⟩ := h
  obtain ⟨k, hk, hk'⟩ := Option.map_eq_some_iff.mp h9
  simp only [Prod.mk.injEq] at hk'
  have a1 : s.entryOk (sign f).hdr = true := h1
  have a2 : (sign f).hdr.flags.getLsbD 0 = true := h2
  have a3 : frameOk (sign f) op = true := frameOk_sign h4 h3
  have a4 : s.checkOk (sign f) = true := checkOk_sign hk hk'.1 hk'.2
  have a6 : decide (s.counterOf (sign f).role.toNat < (sign f).counter.toNat) = true := h6
  have a7 : hasRight op (sign f).role.toNat = true := h7
  have a8 : stateAllows op (sign f).role.toNat s.lc = true := h8
  simp only [State.accepts, a1, a2, a3, a4, h5, a6, a7, a8, Bool.not_false, Bool.and_self]

/-- A frame of a role and opcode in a state that offers an entry. -/
theorem accepts_frame {s : State} {role op : Nat} (h : formed s (rawFrame role op) op = true) :
    s.accepts (sign (rawFrame role op)) op = true := accepts_sign h

/-- A register of no ring is locked by none. -/
theorem not_locked {s : State} {off : Nat} (h : lockedRing off = none) :
    ∀ n, lockedRing off = some n → s.ringEnabled n = false := by simp [h]

/-- A register of ring `r` while that is disabled. -/
theorem ring_unlocked {s : State} {off r : Nat} (h : lockedRing off = some r) (he : s.ringEnabled r = false) :
    ∀ n, lockedRing off = some n → s.ringEnabled n = false := by simp [h, he]

/-- Where R136 puts the fields of a forecast: rank and fourth extent, spacing, first quantity, data at 0x50; and R135's counts,
those of the stores that made it. -/
theorem test_forecast_bytes :
    let s := { ready with mem := [⟨0x1000000, 9⟩], tensors := [⟨0x1000000, 48, [], 5, 6⟩] }
    let b := s.bodyBytes (.forecast ⟨0xC, 7, [2, 3, 2]⟩ 0 1000 5 [100, 200] 0x1000000)
    b.length = 0x80 ∧ b.getD 1 0 = 3 ∧ leVal (sliceBytes 0x10 4 b) = 1 ∧ leVal (sliceBytes 0x14 4 b) = 5 ∧
      leVal (sliceBytes 0x18 4 b) = 6 ∧ leVal (sliceBytes 0x28 4 b) = 1000 ∧ leVal (sliceBytes 0x2C 2 b) = 5 ∧
      leVal (sliceBytes 0x2E 2 b) = 2 ∧ leVal (sliceBytes 0x32 2 b) = 200 ∧ b.getD 0x50 0 = 9 := by decide +kernel

/-! ## Witnesses: the queue, power and registers -/

theorem witness_StepRunsTheFrontCommand :
    { ready with pending := [.merge] }.pending = .merge :: [] ∧ ready.pending = [] := by decide

theorem witness_ReleaseBootsTheDevice :
    State.reset.power.resetHeld = true ∧ ready.power.resetHeld = false ∧
      bootFailure State.reset.flash { bootOk with pllLocks := false } = some 0xE ∧
      bootFailure State.reset.flash { bootOk with hbmTrains := false } = some 0xF ∧
      bootFailure State.reset.flash bootOk = none ∧ State.reset.lc ≠ lcEnd ∧ (readyIn lcEnd).lc = lcEnd ∧
      (State.reset.chooseSlot 0).1 = none := by decide

theorem witness_RuntimeReadyStartsTheRuntime :
    let s := { ready with power := { ready.power with ready := false, devReady := false, stage := 4 } }
    s.power.resetHeld = false ∧ s.power.ready = false ∧ s.power.safe = false ∧ s.power.stage = 4 ∧
      s.lc = lcService ∧ s.steps.image ≠ none ∧ s.selectSchedule s.faults.out = some 0 ∧
      (readyIn lcFab).lc ≠ lcService := by decide +kernel

theorem witness_NothingRunsUnlessUp :
    State.reset.up = false ∧ powerEvent (.stepEdge []) = false ∧ hardwareEvent (.stepEdge []) = false := by decide

theorem witness_SafeStateEndsOnlyAtReset :
    let s := { ready with power := { ready.power with safe := true, stage := 0xB }, pending := [.runtimeReady] }
    s.power.safe = true ∧ s.power.resetHeld = false ∧ (∀ rest, s.pending ≠ .resetNAssert :: rest) ∧
      s.windowUsable = false := by
  refine ⟨rfl, rfl, ?_, by decide⟩
  intro rest h
  cases h

theorem witness_UnsupportedAccessChangesNothing : (2 : Nat) % 4 ≠ 0 ∧ ready.up = true := by decide

theorem witness_UndefinedOffsets :
    findReg 0x1000000 = none ∧ findReg 0x3FFFFFC = none ∧ (0x1000000 : Nat) % 4 = 0 ∧
      inActiveWindow 0x1000000 = false ∧ inActiveWindow 0x1008000 = true ∧ shadowMask 0x1000000 = 0 ∧
      findReg 0x10 ≠ none ∧ findReg 0x7FFC = none ∧ inActiveWindow 0x7FFC = false ∧ findReg 0x18000 = none ∧
      inActiveWindow 0x18000 = true ∧ shadowMask 0x10000 = 0 := by decide +kernel

theorem witness_ActiveWindow :
    (0x17FFC : Nat) % 0x10000 < 0x8000 ∧ ready.power.ready = true ∧ ready.power.resetHeld = false ∧
      (0x17FFC : Nat) % 4 = 0 := by decide

theorem witness_PlainRegisterWrite :
    ready.up = true ∧ plainRegister 0x600008 = true ∧ plainRegister 0x100008 = true ∧ plainRegister 0x10028 = true ∧
      (∀ n, lockedRing 0x600008 = some n → ready.ringEnabled n = false) ∧ plainRegister 0x101010 = true ∧
      (∀ n, lockedRing 0x101010 = some n → ready.ringEnabled n = false) ∧
      (∀ i, i < 32 → bitHas 0x10028 (fun f => f.cls == .bootStatic) i = true →
        (BitVec.ofNat 32 (ready.reg 0x10028)).getLsbD i = (ready.reg 0x10028).testBit i) ∧
      (∀ i, i < 32 → bitHas 0x600008 (fun f => f.cls == .bootStatic) i = true →
        (5 : Word).getLsbD i = (ready.reg 0x600008).testBit i) :=
  ⟨by decide, by decide +kernel, by decide +kernel, by decide +kernel, not_locked (by decide), by decide +kernel,
    ring_unlocked (r := 0) (by decide) (by decide +kernel), by decide +kernel, by decide +kernel⟩

theorem witness_ClassBFieldsNeverChange :
    ready.up = true ∧ plainRegister 0x10028 = true ∧ bitHas 0x10028 (fun f => f.cls == .bootStatic) 0 = true ∧
      bitHas 0x10028 (fun f => f.cls == .bootStatic) 15 = true ∧ (1 : Word).getLsbD 0 ≠ (ready.reg 0x10028).testBit 0 ∧
      (∀ i, i < 32 → bitHas 0x10028 (fun f => f.cls == .bootStatic) i = true →
        (BitVec.ofNat 32 (ready.reg 0x10028)).getLsbD i = (ready.reg 0x10028).testBit i) := by decide +kernel

theorem witness_Pairs_read :
    ready.power.ready = true ∧ ready.power.resetHeld = false ∧ (0x10018 : Nat) % 4 = 0 ∧ inActiveWindow 0x10018 = false ∧
      (findReg 0x10018).map (·.part) = some .lo ∧ (findReg 0x1001C).map (·.part) = some .hi ∧
      (findReg (0x10018 + 4)).isSome = true := by decide +kernel

theorem witness_Pairs_write :
    ready.up = true ∧ (0x101000 : Nat) % 4 = 0 ∧ inActiveWindow 0x101000 = false ∧ inActiveWindow 0x101004 = false ∧
      (findReg 0x101000).map (fun r => (r.part, rwMask r, w1cMask r, classBMask r)) = some (.lo, 2 ^ 32 - 1, 0, 0) ∧
      (findReg 0x101004).map (fun r => (r.part, rwMask r, w1cMask r, classBMask r)) = some (.hi, 2 ^ 32 - 1, 0, 0) ∧
      pairWritable 0x101000 = true ∧ servoPair 0x101000 = none ∧
      (∀ n, lockedRing 0x101000 = some n → ready.ringEnabled n = false) ∧
      (∀ n, lockedRing (0x101000 + 4) = some n → ready.ringEnabled n = false) :=
  ⟨by decide, by decide, by decide, by decide, by decide +kernel, by decide +kernel, by decide +kernel, by decide +kernel,
    ring_unlocked (r := 0) (by decide) (by decide +kernel), ring_unlocked (r := 0) (by decide) (by decide +kernel)⟩

theorem witness_ReadClear :
    ready.power.ready = true ∧ ready.power.resetHeld = false ∧ (0x10 : Nat) % 4 = 0 ∧ inActiveWindow 0x10 = false ∧
      (findReg 0x10).isSome = true ∧ indexIn 0x10 0x300408 0x40 4 = none := by decide +kernel

/-! ## Witnesses: the host interface -/

theorem witness_AttachmentsBeginAndEnd :
    (offer ready).offers (hdr false) = true ∧ outRingOk 65536 = true ∧ outRingOk (2 ^ 32) = true ∧ outRingOk 0 = false ∧
      outRingOk 65537 = false ∧ outRingOk (2 ^ 32 + 65536) = false ∧ ready.out.buffer = [] ∧
      { ready with host := { ready.host with linkUp := false } }.host.linkUp = false ∧ ready.power.resetHeld = false ∧
      ready.windowUsable = false := by decide +kernel

theorem witness_CommandRings :
    (offer ready).hostUp = true ∧ (offer ready).ringEnabled 0 = true ∧ ((offer ready).ring 0).err = false ∧
      (offer ready).host.rings.length = 16 ∧ (15 : Word).toNat < (offer ready).sqEntries 0 ∧
      (offer ready).sqEntries 0 ≤ (16 : Word).toNat ∧ (15 : Word).toNat < (offer ready).cqEntries 0 ∧
      (offer ready).cqEntries 0 ≤ (16 : Word).toNat ∧ ready.up = true ∧ ready.host.unposted = [] := by decide +kernel

theorem witness_CompletionsArePosted :
    (offer ready).ringEnabled 0 = true ∧ (offer ready).cqFull 0 = false ∧
      { offer ready with host := { ready.host with rings := [{ Ring.fresh with cqTail := 15 }] } }.cqFull 0 = true ∧
      0 < (offer ready).host.rings.length ∧
      bitAt { offer ready with host := { (offer ready).host with vectorMask := 0 } }.host.vectorMask 18 = false := by
  decide +kernel

/-! ## Witnesses: memory tiers and lanterns -/

/-- A host object of tenant 0x8000 with one tile, and an image object. -/
def obj0 : Obj := ⟨0x80000000, .host, .hot, 0x8000, firstRuntimeTile, 1, 0⟩
def obj1 : Obj := ⟨3, .weights, .hot, 7, 0x100000, 4, 0⟩

/-- A tile of the host object in a location. -/
def tileIn (loc : TileLoc) (home : Option Nat) : Tile :=
  { (default : Tile) with index := firstRuntimeTile, loc := loc, home := home }

/-- A state with those objects, one tile, and quotas of 4 tiles. -/
def withTile (t : Tile) (s : State) : State :=
  { s with tiers := { s.tiers with
      objects := [obj0, obj1], tiles := [t], quotas := [⟨0x8000, 4, 4, 4⟩] } }

/-- A window of one range of 2 MiB. -/
def granted (s : State) : State :=
  { s with tiers := { s.tiers with ranges := [(0x200000, 0x200000)], windowState := windowGranted } }

theorem witness_Bar2 :
    let s := withTile (tileIn (.t3 0) none) ready
    let x := firstRuntimeTile * tileBytes % bar2Size
    let y := obj1.baseTile * tileBytes % bar2Size
    let s0 := { s with regs := (withRegs s [(0x600010, firstRuntimeTile * tileBytes % 2 ^ 32),
      (0x600014, firstRuntimeTile * tileBytes / 2 ^ 32)]).regs }
    s0.up = true ∧ s0.host.linkUp = true ∧ x + 4 ≤ bar2Size ∧ s0.mapped (s0.bar2Base + x) 4 = true ∧
      (s0.objectAt (s0.bar2Base + x)).any Obj.isHostClient = true ∧ s0.onlyT4 (s0.bar2Base + x) = false ∧
      s0.mapped (s0.bar2Base + x + tileBytes) 1 = false ∧ s.mapped (s.bar2Base + y) 4 = true ∧
      (s.objectAt (s.bar2Base + y)).any Obj.isHostClient = false ∧ bar2Size - 4 + 4 ≤ bar2Size ∧
      s0.power.resetHeld = false ∧ s0.power.perstHeld = false ∧ s0.power.safe = false ∧ s0.power.ready = true ∧
      { s0 with power := { s0.power with ready := false } }.power.ready = false ∧
      (withTile (tileIn (.t4 0) none) s0).onlyT4 (s0.bar2Base + x) = true := by decide +kernel

theorem witness_HostObjects_alloc :
    let s := withTile (tileIn (.t3 0) none) (offer ready)
    let h := hdr false
    s.offers h = true ∧ 0x8000 ≤ h.tenant.toNat ∧ h.tenant.toNat ≤ 0x80FF ∧
      3 ≤ min ((s.quotaOf h.tenant.toNat).t3 - s.allocated h.tenant.toNat) s.t3Free ∧
      s.tiers.nextTile + 3 ≤ runtimeLastTile ∧ s.tiers.nextId ≤ 0xFFFFFFFE := by decide +kernel

theorem witness_HostObjects_free :
    let s := withTile (tileIn (.t3 0) none) (offer ready)
    let h := hdr false
    s.offers h = true ∧ s.nothingWaits = true ∧ s.tiers.objects.find? (fun o => o.id == (0x80000000 : BitVec 32).toNat && o.isHostClient &&
      o.tenant == h.tenant.toNat) = some obj0 := by decide +kernel

theorem witness_Window :
    let s := offer ready
    let g := granted s
    let w : Withdrawal := ⟨[1], hdr false, 0⟩
    s.offers (hdr false) = true ∧ [(0x200000, 0x200000)].all rangeOk = true ∧ s.windowUsable = false ∧
      ([(0, 2 ^ 41)].map (·.2)).foldl (· + ·) 0 ≤ 2 ^ 41 ∧ [(0, 2 ^ 41)].all rangeOk = true ∧
      g.offers (hdr false) = true ∧ g.tiers.windowState = windowGranted ∧
      (∀ k ∈ [g.slotCount - 1], k < g.slotCount ∧ g.tiers.withdrawn.contains k = false) ∧
      g.tiers.tiles.filter (g.mustMove [g.slotCount - 1]) = [] ∧
      { g with tiers := { g.tiers with withdraw := some w } }.tiers.withdraw = some w ∧
      (∀ k ∈ w.slots, g.slotsHeld.contains k = false) ∧ (w.slots ++ g.tiers.withdrawn).length < g.slotCount ∧
      { g with tiers := { g.tiers with ranges := [] } }.slotCount ≤ (w.slots ++ g.tiers.withdrawn).length := by
  decide +kernel

theorem witness_TilesMove_lent :
    let x := tileIn (.t2 0 0) none
    let s := withTile x ready
    s.up = true ∧ s.tileAt firstRuntimeTile = some x ∧ s.objectAt (firstRuntimeTile * tileBytes) = some obj0 ∧
      x.loc = .t2 0 0 ∧ s.t3Used obj0.tenant < (s.quotaOf obj0.tenant).t3 ∧ 0 < s.t3Free ∧ s.nothingWaits = true := by
  decide +kernel

theorem witness_TilesMove_clean :
    let x := tileIn (.t3 5) (some 0)
    let s := granted (withTile x ready)
    s.up = true ∧ s.tileAt firstRuntimeTile = some x ∧ s.objectAt (firstRuntimeTile * tileBytes) = some obj0 ∧
      x.loc = .t3 5 ∧ x.home = some 0 ∧ x.dirty = false ∧ s.windowUsable = true ∧ classT4 obj0.cls = true ∧
      s.tilePinned x = false ∧ s.nothingWaits = true := by decide +kernel

theorem witness_TilesMove_views :
    let s := { ready with tiers := { ready.tiers with repairing := [3] } }
    s.up = true ∧ s.readable = true ∧ s.tiers.repairing.contains 3 = true ∧ s.tiers.tierWaits = [] := by decide

/-- A lantern plan: slot 0 filled by unit 1 and consumed by units 2 and 3. -/
def use0 : LanternUse := ⟨1, false, [2, 3], 0, 0⟩
/-- Two windows of pack 0: one whose interval device time lies in, one whose interval has passed. -/
def window0 : LendWindow := ⟨0, 0, 3, [(0, 0, 2 ^ 34)], [0]⟩
def window1 : LendWindow := ⟨0, 0, 3, [(0, 0, 1000)], [0]⟩
def planned (s : State) : State :=
  { s with steps := { s.steps with image := some { image0 with plan := [⟨0, [use0]⟩], windows := [window0, window1] } } }

/-- That slot with a phase and units that have released it. -/
def slot0 (phase : Nat) (released : List Nat) (s : State) : State :=
  { planned s with sheets := { s.sheets with
      lanterns := [{ (default : LanternState) with phase := phase, released := released }] } }

theorem witness_Lanterns_release :
    let s := slot0 lit [3] running
    let z := slot0 lit [] running
    s.up = true ∧ s.inRun = true ∧ (0 : BitVec 16).toNat ≠ noLantern ∧ lanternOk 0 = true ∧ lanternOk 0x2BFF = true ∧
      lanternOk 0x2C00 = false ∧
      s.useOf 0 = some use0 ∧ (s.lantern 0).phase = lit ∧ use0.held = false ∧ use0.units.contains 2 = true ∧
      (s.lantern 0).released.contains 2 = false ∧ (s.lantern 0).released.length + 1 = use0.units.length ∧
      z.useOf 0 = some use0 ∧ (z.lantern 0).phase = lit ∧ (z.lantern 0).released.contains 2 = false ∧
      (z.lantern 0).released.length + 1 ≠ use0.units.length := by decide +kernel

theorem witness_Lanterns_light :
    let s := slot0 filling [] running
    s.up = true ∧ s.inRun = true ∧ lanternOk 0 = true ∧ s.useOf 0 = some use0 ∧ s.occOf use0.cadence = some occ0 ∧
      (s.lantern 0).phase = filling ∧ use0.producer = (1 : BitVec 16).toNat := by decide +kernel

/-- A wait of unit 2 for that slot. -/
def waiting (s : State) : State := { s with sheets := { s.sheets with waits := [⟨0, 2, 0, 0⟩] } }

theorem witness_Waits_grant :
    let s := waiting (slot0 lit [] running)
    s.up = true ∧ s.sheets.waits.any (fun w => w.unit == 2 && w.lantern == 0) = true ∧ s.waitGranted 2 0 = true ∧
      s.unitIdle 2 = true := by decide +kernel

theorem witness_Waits_watchdog :
    let z := waiting (slot0 unlit [] running)
    let s := { z with active := (z.setActive (gsPage 0 + 8) 0x10001).active }
    s.up = true ∧ s.sheets.waits.find? (fun w => w.unit == 2 && w.lantern == 0) = some ⟨0, 2, 0, 0⟩ ∧
      s.watchdogOn 0 = true ∧ s.waitGranted 2 0 = false ∧ s.producerStalled 0 = false ∧ 0 + s.watchdogLimit 0 ≤ s.now ∧
      s.faults.queue.length < 256 := by decide +kernel

theorem witness_Windows_lend :
    let z := planned running
    let s := { z with sheets := { z.sheets with schedule := 0 } }
    let o := { s with sheets := { s.sheets with open_ := [window1] } }
    s.up = true ∧ s.inRun = true ∧ s.windowDecl 0 = some window0 ∧ window0.schedules.contains s.sheets.schedule = true ∧
      s.inService (lentOwner window0.memory) = true ∧ s.windowCovers window0 = true ∧
      s.sheets.open_.contains window0 = false ∧ s.windowDecl 1 = some window1 ∧ o.windowDecl 1 = some window1 ∧
      o.sheets.open_.contains window1 = true ∧ o.windowCovers window1 = false ∧ s.readable = true := by decide +kernel

/-! ## Witnesses: the time engine -/

/-- The host owns the servo, or the runtime does. -/
def hostServo : State := withRegs ready [(0x300004, 1)]
def ownServo : State := withRegs ready [(0x300004, 0)]

theorem witness_Inc :
    ready.up = true ∧ hostServo.ownsServo .host = true ∧ ownServo.ownsServo .runtime = true ∧
      (let v := hostServo.loForCommit (domReg 0 0x18) true + (0x200 : Word).toNat % 65536 * 2 ^ 32
       2000 * (((v : Nat) : Int) - 2 ^ 41).natAbs ≤ 2 ^ 41) ∧
      (let v := hostServo.loForCommit (domReg 0 0x18) true + (0x201 : Word).toNat % 65536 * 2 ^ 32
       2 ^ 41 < 2000 * (((v : Nat) : Int) - 2 ^ 41).natAbs) := by decide +kernel

theorem witness_ServoOwner :
    hostServo.up = true ∧ hostServo.ownsServo .runtime = false ∧ ownServo.ownsServo .host = false ∧
      hostServo.ownsServo .host = true ∧ hostServo.inRun = false ∧ (1 : Nat) ≠ ready.time.selected := by decide +kernel

theorem witness_Ticks :
    ready.power.resetHeld = false ∧ ready.time.selected < 2 ∧ ready.inRun = false ∧ running.inRun = true ∧
      ready.time.adj0 = 0 ∧ ready.time.adj1 = 0 ∧ ready.sigmaMax ≤ ready.inc ready.time.selected := by decide +kernel

/-- A state with `DOMAIN_0` locked on device time and `DOMAIN_1` selected. -/
def locked (rs : List (Nat × Nat)) (sel : Nat) : State :=
  let s := withRegs ready (rs ++ [(domReg 0 4, 2)])
  { s with time := { s.time with
      dom0 := s.time.dev, selected := sel, locked0 := 65535 * 1000000000 * 2 ^ 40, autoAway := true } }

theorem witness_DomainSwitches :
    (locked [] 1).up = true ∧ (locked [] 1).time.selected < 2 ∧ (locked [] 1).switchable 0 = true ∧
      (locked [] 0).switchable 1 = false ∧
      (let s := locked [(0x300004, 0xFFF6)] 1
       s.autoSwitch = true ∧ s.fld ⟨0x300004, 2, 1⟩ = 1 ∧ s.time.selected = 1 ∧ s.time.autoAway = true ∧
         zeroAsOne (s.fld ⟨0x300004, 4, 12⟩) ≤ s.lockedSeconds 0 ∧ s.switchable 0 = true) ∧
      (let s := locked [(domReg 1 0, 2 ^ 21), (0x300004, 2)] 1
       s.domEnabled 1 = true ∧ s.domPort 1 < 4 ∧ s.autoSwitch = true ∧ s.switchable (1 - 1) = true) ∧
      (let s := withRegs ready [(domReg 1 0, 2 ^ 21 + 5 * 2 ^ 10)]
       s.domEnabled 1 = true ∧ 4 ≤ s.domPort 1 ∧ s.time.lanB.contains 1 = false) := by decide +kernel

theorem witness_Ptp :
    let s := withRegs ready [(domReg 0 0, 2 ^ 21 + 24)]
    s.up = true ∧ s.time.txts.length = 4 ∧ (s.time.txts.getD 3 []).length < 64 ∧ s.domEnabled 0 = true ∧
      s.domPort 0 < 4 ∧ s.domainOf 0 24 = some 0 ∧ s.usesLan 0 0 = true ∧ s.domainOf 0 25 = none ∧
      s.domainOf 1 24 = none ∧
      (let z := { s with time := { s.time with txts := List.replicate 4 (List.replicate 64 (0, 0, 0)) } }
       z.time.txts.length = 4 ∧ 64 ≤ (z.time.txts.getD 0 []).length) := by decide +kernel

theorem witness_Pulses :
    let p : Pulse := ⟨0, 1000 * nsUnits, 8, 0, 0⟩
    let low : TimeOut := { (default : TimeOut) with prog := some p }
    let s := withRegs ready [(toutReg 3 0, 1)]
    let a := { s with time := { s.time with tout := s.time.tout.set 3 low } }
    let b := { s with time := { s.time with ticks := 4, tout := s.time.tout.set 3 { low with high := true } } }
    s.up = true ∧ s.time.tout.length = 4 ∧ (a.time.tout.getD 3 default).prog = some p ∧
      (a.time.tout.getD 3 default).high = false ∧ a.fld ⟨toutReg 3 0, 0, 1⟩ = 1 ∧
      p.next < p.reached (full (a.clockOf p.clock)) ∧ (b.time.tout.getD 3 default).prog = some p ∧
      (b.time.tout.getD 3 default).high = true ∧
      (b.time.tout.getD 3 default).startedAt * 2 + p.widthNs ≤ b.time.ticks * 2 ∧
      (ready.fullAt (toutReg 0 4) < full (ready.clockOf (ready.fld ⟨toutReg 0 0, 2, 2⟩)) + usUnits) ∧
      (let g := withRegs ready [(toutReg 0 0xC, 2000), (toutReg 0 0x1C, 8)]
       ¬(g.fullAt (toutReg 0 4) < full (g.clockOf (g.fld ⟨toutReg 0 0, 2, 2⟩)) + usUnits ∨ g.reg (toutReg 0 0x1C) < 8 ∨
         (g.reg64 (toutReg 0 0x14) ≠ 0 ∧ (g.reg64 (toutReg 0 0x14) < 16 * nsUnits ∨
           g.reg64 (toutReg 0 0x14) < 2 * g.reg (toutReg 0 0x1C) * nsUnits)))) := by decide +kernel

theorem witness_Captures :
    let s := withRegs ready [(tinReg 3 0, 3)]
    let t (q : Nat) : TimeIn := { (default : TimeIn) with queue := List.replicate q (7, true) }
    let z := { s with time := { s.time with tin := s.time.tin.set 3 (t 16) } }
    s.up = true ∧ s.time.tin.length = 4 ∧ s.fld ⟨tinReg 3 0, 0, 1⟩ = 1 ∧
      bitAt (s.fld ⟨tinReg 3 0, 1, 2⟩) 0 = true ∧ (s.time.tin.getD 3 default).lastEdge = none ∧
      (s.time.tin.getD 3 default).queue.length < 16 ∧ 16 ≤ (z.time.tin.getD 3 default).queue.length ∧
      (z.time.tin.getD 3 default).queue = (7, true) :: List.replicate 15 (7, true) ∧
      ready.readable = true := by decide +kernel

/-- A sidecar whose authentication tag matches an archive tile. -/
def archiveSide (key : Bytes) (slot counter owner index : Nat) (data : Bytes) : Bytes :=
  List.replicate 24 0 ++
    gcmTag key (sealIv slot counter) (sealAad slot owner index ++ fitBytes tileBytes data ++ List.replicate 24 0) []

theorem openTile_archiveSide (key : Bytes) (slot counter owner index : Nat) (data : Bytes) :
    openTile key true slot counter owner index data (archiveSide key slot counter owner index data) =
      some (fitBytes tileBytes data, List.replicate 24 0) := by
  have h1 (t : Bytes) : fitBytes 24 (List.replicate 24 (0 : Byte) ++ t) = List.replicate 24 0 := by
    simp [fitBytes]
  have h2 (t : Bytes) (h : t.length = 16) : sliceBytes 24 16 (List.replicate 24 (0 : Byte) ++ t) = t := by
    rw [sliceBytes, List.drop_left' (by simp), List.take_of_length_le (by omega)]
  have h3 (k iv a c : Bytes) : (gcmTag k iv a c).length = 16 := beBytes_length _ _
  simp only [openTile, archiveSide, h1, h2 _ (h3 _ _ _ _), ↓reduceIte]

theorem witness_TilesMove_fetch :
    let x := tileIn (.t4 9) none
    let t := granted (withTile x ready)
    let s := { t with tiers := { t.tiers with slots := [⟨9, 1, some firstRuntimeTile, true⟩] } }
    s.up = true ∧ s.windowUsable = true ∧ s.sec.quarantined = false ∧ s.tileAt firstRuntimeTile = some x ∧
      s.objectAt (firstRuntimeTile * tileBytes) = some obj0 ∧ x.slot? = some 9 ∧ s.tiers.withdraw = none ∧
      s.tiers.tierWaits = [] ∧
      openTile s.tiers.hostKey (s.slotEntry 9).archive 9 (s.slotEntry 9).counter obj0.id (x.index - obj0.baseTile) []
        (archiveSide s.tiers.hostKey 9 1 obj0.id 0 []) = some (fitBytes tileBytes [], List.replicate 24 0) := by
  refine ⟨by decide, by decide, by decide, by decide, by decide, by decide, by decide, by decide, ?_⟩
  exact openTile_archiveSide _ _ _ _ _ _

/-! ## Witnesses: runs, steps and the trail -/

theorem witness_RunsStart :
    let s := { ready with steps := { ready.steps with runDue := some (1000 * secUnits) } }
    s.up = true ∧ s.inRun = false ∧ s.trail.hold = false ∧ s.sec.entropyOk = true ∧
      s.steps.runDue = some (1000 * secUnits) ∧ s.steps.image = some image0 ∧ 0 < image0.baseUs ∧
      (let z := withRegs s [(0x10028, 1)]
       272 ≤ z.trailFree) := by decide +kernel

/-- The run of `running` with a number of edges passed and the next close of `CADENCE_1`. -/
def runAt (edges next : Nat) : Run := ⟨List.replicate 16 0, 990 * secUnits, 20000 * usUnits, edges, [edges, next]⟩
def runningAt (edges next : Nat) : State :=
  { running with steps := { running.steps with run := some (runAt edges next), occs := [] } }

theorem witness_StepEdges :
    let c : CadenceDecl := ⟨1, 0, 2000, [10000], [], false⟩
    let late := { runningAt 1 0 with ports := { running.ports with ingress := [⟨0, 0, 0, .other, none, 0, 0⟩] } }
    let held := { runningAt 1 0 with trail := { running.trail with hold := true } }
    (runningAt 1 0).up = true ∧ (runningAt 1 0).steps.run = some (runAt 1 0) ∧ (runningAt 1 0).cadences[0]? = some c ∧
      (runAt 1 0).close c 1 ≤ (runningAt 1 0).now ∧ (runningAt 1 0).ingressBefore ((runAt 1 0).close c 1) = false ∧
      (runningAt 1 0).edgeIsPlain 1 = true ∧ (runningAt 1 0).trail.hold = false ∧ (runningAt 1 0).stepLost 1 = false ∧
      (runningAt 1 0).steps.occs = [] ∧ (runningAt 501 0).now < (runAt 501 0).close c 501 ∧
      late.ingressBefore ((runAt 1 0).close c 1) = true ∧ held.trail.hold = true ∧ held.edgeIsPlain 1 = true ∧
      held.ingressBefore ((runAt 1 0).close c 1) = false := by decide +kernel

theorem witness_LongerCadences :
    let c : CadenceDecl := ⟨2, 0, 2000, [10000], [], false⟩
    (runningAt 5 4).up = true ∧ (1 : Fin 16).val ≠ 0 ∧ (runningAt 5 4).steps.run = some (runAt 5 4) ∧
      (runningAt 5 4).cadences[1]? = some c ∧ (runAt 5 4).nextClose.getD 1 0 < (runAt 5 4).edges ∧
      (runAt 5 4).close c 4 ≤ (runningAt 5 4).now ∧ (runningAt 5 4).ingressBefore ((runAt 5 4).close c 4) = false ∧
      (runningAt 5 4).search.waitCommits = [] ∧ (runningAt 5 4).stepLost (runningAt 5 4).stepNow = false ∧
      (runAt 4 4).edges ≤ (runAt 4 4).nextClose.getD 1 0 := by
  decide +kernel

/-- A run whose commits wait for a background merge. -/
def merging0 : State :=
  { running with
    steps := { running.steps with image := some { image0 with collections := [{ (default : CollDecl) with merge := some 0 }] } }
    search := { running.search with colls := [{ (default : Collection) with merging := true }] } }

theorem witness_Occurrences :
    running.up = true ∧ running.inRun = true ∧ running.occOf 0 = some occ0 ∧ running.mergeBlocks 0 = false ∧
      running.search.waitCommits.any (waitsFor 0) = false ∧ running.trail.hold = false ∧ occ0.cadence = 0 ∧
      (let s := withRegs running [(0x10028, 1)]
       s.mergeBlocks 0 = false ∧ (s.commitOcc occ0 [] []).trail.hold = false) ∧
      merging0.up = true ∧ merging0.inRun = true ∧ merging0.occOf 0 = some occ0 ∧ merging0.mergeBlocks 0 = true ∧
      merging0.search.waitCommits.any (waitsFor 0) = false ∧
      occ0.close + running.stallLimit ≤ running.now ∧
      (let o := { occ0 with close := 1000 * secUnits }
       let s := { running with steps := { running.steps with occs := [o] } }
       s.occOf 0 = some o ∧ s.now < o.close + s.stallLimit) := by decide +kernel

theorem witness_Trail : ready.trailChained := ⟨trivial, .inl ⟨rfl, rfl⟩⟩

theorem witness_ReadPointers :
    let s := withRegs ready [(0x10028, 1), (0x60006C, 1), (0x10001C, 16)]
    let t := { s with trail := { s.trail with write := 16 }, host := { s.host with attached := true, outSize := 65536 } }
    t.up = true ∧ t.host.attached = true ∧ t.search.waitCommits = [] ∧ 16 % 8 = 0 ∧ 16 < t.ringBytes ∧ t.ringBytes ≤ 2 ^ 32 - 8 ∧
      8192 % 4096 = 0 ∧ 8192 < t.archiveBytes ∧ (12 : Nat) % 8 ≠ 0 ∧ (12 : Nat) % 4096 ≠ 0 := by decide +kernel

/-! ## Witnesses: tensor arrays -/

/-- An address in pack 0. -/
def pack0 : BitVec 64 := 0x080010000000

/-- A descriptor with its check. -/
def sealed (op : Nat) (d : ArrayDesc) : ArrayDesc := { d with check := BitVec.ofNat 32 (crc32 (arrayBytes op d)) }

/-- INT8 operands of the largest sizes. -/
def dInt : ArrayDesc :=
  { arrayDesc with
    fmtA := 2, fmtW := 2, fmtOut := 2, m := 2048, k := 128, n := 512, pass := 1, srcA := pack0, srcW := pack0
    dst := pack0 + 0x100000, param := pack0 }

/-- The cells of array 0 hold a slice. -/
def slice0 : Slice := ⟨2, 1, 1, [[1]], [], [], []⟩
def sliced : State := { running with arrays := running.arrays.set 0 { ArrayUnit.fresh with slice := some slice0 } }

/-- Jobs of a sealed descriptor; one that waits for slot 0 as its consumer. -/
def job (op : Nat) (d : ArrayDesc) : ArrayJob := ⟨op, sealed op d, []⟩
def jobWait : ArrayJob := job opWait { arrayDesc with unit := 2, wait := 0 }

theorem witness_ArrayDescriptors :
    let j := job opStage dInt
    arrayJobOf (.stage 0 ⟨sealed opStage dInt, []⟩) = some (0, j) ∧ running.mayIssue j.desc.ctx.cadence = true ∧
      running.arrays.length = 4 ∧ running.arrayReady 0 j = true ∧ (running.array 0).queue = [] ∧
      running.arrayOk 0 opStage dInt = false ∧ running.faults.queue.length < 256 ∧ running.arrayOk 0 opStage j.desc = true ∧
      { running with faults := { running.faults with out := [0] } }.inService (arrayRegion 0) = false ∧
      ({ running with arrays := running.arrays.set 0 { ArrayUnit.fresh with queue := [j] } }.array 0).queue ≠ [] := by
  decide +kernel

/-- A STAGE into a slot that no plan gives the unit breaks R153 there; a consumer's WAIT for a slot that is not lit waits. -/
theorem witness_ArrayOrderAndWait :
    let j := job opStage { dInt with dst := BitVec.ofNat 64 (gsBase 0 + tileBytes) }
    let w := jobWait
    let z := slot0 unlit [] running
    running.arrayTurn 0 j = true ∧ running.arrayOk 0 opStage j.desc = true ∧
      running.memoryWaits (arrayRegion 0) (arrayReads j ++ arrayWrites j) = false ∧
      running.waitOver j.desc.unit j.desc.wait = true ∧
      running.orderBroken j.desc.unit.toNat [j.desc.wait.toNat] (arrayReads j) (arrayWrites j) = some 1 ∧
      z.arrayTurn 0 w = true ∧ z.arrayOk 0 w.op w.desc = true ∧
      z.memoryWaits (arrayRegion 0) (arrayReads w ++ arrayWrites w) = false ∧ z.waitOver w.desc.unit w.desc.wait = false := by
  decide +kernel

/-- A STAGE within a tile. -/
def jobHeld : ArrayJob :=
  let x : BitVec 64 := BitVec.ofNat 64 (firstRuntimeTile * tileBytes)
  job opStage { dInt with srcA := x, dst := x + 0x1000, m := 1, k := 1 }

/-- A tile whose pseudo-channel is held while row 3 is repaired keeps an array's descriptor waiting, as does one held only in T4. -/
theorem witness_ArrayMemoryWait :
    let h := withTile (tileIn (.t3 5) none) { running with tiers := { running.tiers with repairing := [3], heldPcs := [(3, 5)] } }
    let f := withTile (tileIn (.t4 0) none) running
    let acc := arrayReads jobHeld ++ arrayWrites jobHeld
    h.arrayTurn 0 jobHeld = true ∧ h.arrayOk 0 jobHeld.op jobHeld.desc = true ∧ h.memoryWaits (arrayRegion 0) acc = true ∧
      f.arrayTurn 0 jobHeld = true ∧ f.arrayOk 0 jobHeld.op jobHeld.desc = true ∧ f.memoryWaits (arrayRegion 0) acc = true := by
  decide +kernel

/-- The waiting descriptor goes on when the row's repair ends (R485). -/
theorem test_row_repair_lets_go :
    let h := withTile (tileIn (.t3 5) none) { running with
      tiers := { running.tiers with repairing := [3], heldPcs := [(3, 5)], tierWaits := [
        ⟨0, 0, 0, arrayReads jobHeld ++ arrayWrites jobHeld, firstRuntimeTile, 0⟩] }
      arrays := running.arrays.set 0 { ArrayUnit.fresh with queue := [jobHeld] } }
    (match execSoftRowRepairComplete 3 h with
     | .next t => (t.array 0).queue == [] && t.tiers.tierWaits == []
     | _ => false) = true := by decide +kernel

/-- That WAIT goes on when its slot is lit. -/
theorem witness_Waits_array :
    let z := waiting (slot0 lit [] running)
    let s := { z with arrays := z.arrays.set 0 { ArrayUnit.fresh with queue := [jobWait] } }
    s.up = true ∧ s.sheets.waits.any (fun w => w.unit == jobWait.desc.unit.toNat && w.lantern == jobWait.desc.wait.toNat) =
        true ∧
      s.waitGranted jobWait.desc.unit.toNat jobWait.desc.wait.toNat = true ∧ s.arrays.length = 4 ∧
      (s.array 0).queue = [jobWait] ∧ (∀ b, b < 4 → b ≠ 0 → (s.array b).queue = []) ∧ s.visionIdle = true ∧
      s.fusion.due = [] ∧ s.inService (arrayRegion 0) = true ∧ s.arrayFit 0 jobWait = true := by decide +kernel

theorem witness_LoadAndStream :
    let d := sealed opLoadW { dInt with fmtA := 0, fmtW := 0, k := 256 }
    let e := sealed opStream { dInt with flags := 1 }
    let f := sealed opStream { dInt with pass := 0xF9 }
    running.arrayReady 0 ⟨opLoadW, d, []⟩ = true ∧ blockScaled d = false ∧ running.arrays.length = 4 ∧
      sliced.arrayReady 0 ⟨opStream, e, []⟩ = true ∧ sliced.arrayReady 0 ⟨opStream, f, []⟩ = true ∧ blockScaled e = false ∧
      sliced.arrays.length = 4 ∧ (sliced.array 0).slice = some slice0 ∧ slice0.blocks = [] ∧ fmtBits e.fmtA.toNat ≤ 8 ∧
      fmtBits slice0.fmt ≤ 8 := by decide +kernel

theorem witness_JoinAndDrain :
    running.arrayReady 0 (job opJoin dInt) = true ∧ running.arrays.length = 4 ∧
      running.arrayReady 0 (job opDrain dInt) = true ∧ (job opDrain dInt).desc.fmtOut = 2 ∧
      running.arrayReady 0 (job opDrain { dInt with fmtOut := 4 }) = true ∧ (running.array 0).frac = 0 ∧
      (∀ b ∈ (running.array 0).rowNf, b = false) ∧ (∀ b ∈ (running.array 0).colNf, b = false) ∧
      (running.array 0).joined = none := by decide +kernel

/-- Addresses outside the groundsheets touch no slot. -/
theorem slotsIn_none {x n : Nat} (h : lanternAt x = none) : slotsIn x n = [] := by simp [slotsIn, h]

/-- A descriptor whose addresses lie outside the groundsheets, in an array none of whose tiles are lent, breaks no order. -/
theorem order_kept {s : State} {u : Nat} {ws : List Nat} {rs os : List (Nat × Nat)} (hr : ∀ r ∈ rs, lanternAt r.1 = none)
    (ho : ∀ r ∈ os, lanternAt r.1 = none) : s.orderBroken u ws rs os = none := by
  have h1 : rs.flatMap (fun r => slotsIn r.1 r.2) = [] := List.flatMap_eq_nil_iff.mpr (fun r h => slotsIn_none (hr r h))
  have h2 : os.flatMap (fun r => slotsIn r.1 r.2) = [] := List.flatMap_eq_nil_iff.mpr (fun r h => slotsIn_none (ho r h))
  simp [State.orderBroken, h1, h2]

theorem owner_free {s : State} {r : Nat} {acc : List (Nat × Nat)} (h : s.sheets.lent = []) : s.ownerWaits r acc = false := by
  unfold State.ownerWaits
  split <;> simp [h]

theorem memory_free {s : State} {r : Nat} {acc : List (Nat × Nat)} (h : s.sheets.lent = []) (ht : s.tiers.tiles = []) :
    s.memoryWaits r acc = false := by
  simp [State.memoryWaits, State.heldBy, owner_free h, ht]

/-- A descriptor on addresses outside the groundsheets whose other checks pass. -/
theorem ready_of {s : State} {a : Fin 4} {j : ArrayJob} (h1 : s.arrayTurn a j = true) (h2 : s.arrayOk a j.op j.desc = true)
    (h3 : s.sheets.lent = [] ∧ s.tiers.tiles = []) (h4 : s.waitOver j.desc.unit j.desc.wait = true)
    (hr : ∀ r ∈ arrayReads j, lanternAt r.1 = none) (ho : ∀ r ∈ arrayWrites j, lanternAt r.1 = none) :
    s.arrayReady a j = true := by
  simp [State.arrayReady, State.arrayFit, h1, h2, h4, memory_free h3.1 h3.2, order_kept hr ho]

theorem witness_VectorCommands_gen :
    running.arrayReady 0 (job opGen dInt) = true ∧ running.occOf (job opGen dInt).desc.ctx.cadence = some occ0 := by
  refine ⟨ready_of (by decide +kernel) (by decide +kernel) (by decide) (by decide +kernel) ?_ (by decide +kernel), by decide⟩
  intro r h
  simp only [arrayReads, job, sealed, opGen, opLoadW, opStream, opDrain, opJoin, opVec, opReduce,
    Nat.reduceEqDiff, ↓reduceIte] at h
  revert h
  split <;> (intro h; revert r; decide +kernel)

theorem witness_VectorCommands_reduce : running.arrayReady 0 (job opReduce { dInt with fmtOut := 0xC }) = true := by
  refine ready_of (by decide +kernel) (by decide +kernel) (by decide) (by decide +kernel) (by decide +kernel) ?_
  intro r h
  have h' : r.1 = (pack0 + 0x100000).toNat := by
    simp only [arrayWrites, job, sealed, opReduce, opDrain, opVec, opJoin, Nat.reduceEqDiff, or_self, ↓reduceIte,
      List.mem_singleton] at h
    rw [h]
    rfl
  rw [h']
  decide +kernel

theorem witness_VectorCommands :
    let v := job opVec { dInt with fmtOut := 0xC, fn := 1 }
    running.arrayReady 0 v = true ∧ v.desc.fmtOut = 0xC ∧ 1 ≤ v.desc.fn.toNat ∧ v.desc.fn.toNat < 0x20 ∧
      running.arrayReady 0 (job opStage dInt) = true ∧
      running.arrayReady 0 ⟨opStage, sealed opStage dInt, [some 3, none]⟩ = true ∧ fmtBits dInt.fmtA.toNat = 8 := by
  decide +kernel

theorem witness_SequencerCommands :
    let r := sealed opRaise { arrayDesc with unit := 1, raise := 0 }
    let s := slot0 filling [] running
    running.arrayReady 0 (job opWait arrayDesc) = true ∧ running.arrayReady 0 (job opEnd arrayDesc) = true ∧
      s.arrayReady 0 ⟨opRaise, r, []⟩ = true ∧ r.wait.toNat = noLantern ∧ s.useOf r.raise.toNat = some use0 ∧
      use0.producer = r.unit.toNat ∧ (s.lantern r.raise.toNat).phase = filling ∧ s.occOf r.ctx.cadence = some occ0 ∧
      r.raise.toNat ≠ noLantern := by decide +kernel

/-! ## Witnesses: vision -/

/-- A parameter block that suits every opcode, in pack 0, and a grid of one cell; tether 9 is bound to cluster 0. -/
def seeing : State :=
  let p := pack0.toNat
  { running with
    mem := [⟨p, 1⟩, ⟨p + 4, 1⟩, ⟨p + 8, 1⟩, ⟨p + 9, 2⟩, ⟨p + 0x16, 1⟩, ⟨p + 0x18, 1⟩]
    steps := { running.steps with image := some { image0 with gridCols := 1, gridRows := 1, bindings := [(9, 0)] } } }

/-- A vision descriptor on memory sources, with its check. -/
def look (op : Nat) (d : VisionDesc) : VisionDesc := { d with check := BitVec.ofNat 32 (crc32 (visionBytes op d)) }
def dSee : VisionDesc :=
  { visionDesc with
    selA := 0x8000, selB := 0x8000, param := pack0, srcAddr := pack0 + 0x100000, dstAddr := pack0 + 0x200000
    dstRing := 0x1000, dstMode := 1, levels := 1, memW := 1, memH := 1, memPoints := 1 }

/-- Engine 0 of cluster 0 with a descriptor that waits. -/
def queued : State :=
  { seeing with vision := seeing.vision.modify 0 (fun u => { u with queue := [⟨0, opFlow, dSee⟩] }) }

theorem witness_Vision_ready :
    (∀ op ∈ [opFlow, opStereo, opFeature, opMatch, opProjRay, opProjPlane, opProjPtsImage, opProjPtsGrid],
      seeing.visionReady 0 op (look op dSee) = true) ∧
      visionDescOf (.flow 0 (look opFlow dSee)) = some (0, opFlow, look opFlow dSee) ∧
      seeing.mayIssue (look opFlow dSee).ctx.cadence = true ∧ seeing.vision.length = 2 ∧ dSee.dstMode ≠ 0 ∧
      dSee.raise.toNat = noLantern ∧ (queued.vision.getD 0 default).busy 0 = true ∧
      (seeing.vision.getD 0 default).busy 0 = false := by decide +kernel

theorem witness_Vision_sources :
    let f := look opFlow { dSee with selA := 9, selB := 9 }
    seeing.visionReady 0 opFlow f = true ∧ (seeing.sourceImage f f.selA).isNone = true ∧
      (seeing.sourceImage dSee dSee.selA).isSome = true ∧ (seeing.sourcePoints dSee).isSome = true ∧
      (seeing.calOf 0 (leAt (seeing.load dSee.param.toNat 64) 4 2)).isNone = true := by decide +kernel

theorem witness_Vision_refused :
    let g := look opFlow { dSee with selA := 8, selB := 8 }
    seeing.engineTurn 0 0 g = true ∧ seeing.faults.queue.length < 256 ∧ seeing.visionOk 0 opFlow dSee = false ∧
      seeing.visionOk 0 opFlow g = true ∧ (∃ x ∈ visionSlots opFlow g, seeing.mayRead 0 0 x = false) ∧
      { seeing with faults := { seeing.faults with out := [0x1000] } }.inService (visionRegion 0 0) = false := by
  decide +kernel

/-- A destination in a slot that no plan gives the unit breaks R153; a wait for a slot that is not lit is not granted. -/
theorem witness_Vision_orderAndWait :
    let f := look opFeature { dSee with dstAddr := BitVec.ofNat 64 (gsBase 0 + tileBytes) }
    let w := look opFeature { dSee with wait := 0 }
    let put (i : Image) : Image := { i with plan := [⟨0, [⟨1, false, [0], 0, 0⟩]⟩] }
    let z := { seeing with steps := { seeing.steps with image := seeing.steps.image.map put } }
    seeing.engineTurn 0 2 f = true ∧ seeing.visionOk 0 opFeature f = true ∧ visionSlots opFeature f = [] ∧
      seeing.memoryWaits (visionRegion 0 2) (seeing.visionAccesses opFeature f) = false ∧ seeing.visionWaits opFeature f = [] ∧
      (seeing.orderBroken f.unit.toNat (seeing.visionWaits opFeature f) (seeing.visionReads opFeature f)
        (visionWrites f (seeing.visionWork opFeature f).tiles.length)).isSome = true ∧ visionEngineOf opFeature = 2 ∧
      z.engineTurn 0 2 w = true ∧ z.visionOk 0 opFeature w = true ∧ z.visionWaits opFeature w = [0] ∧
      z.waitGranted w.unit.toNat 0 = false := by decide +kernel

theorem witness_Vision_sequencer :
    let r := look 0x09 { visionDesc with unit := 1, raise := 0, dstRing := 0x1000, levels := 1 }
    let v := { visionDesc with dstRing := 0x1000, levels := 1 }
    let s := slot0 filling [] running
    s.engineTurn 0 3 r = true ∧ s.waitOver r.unit r.wait = true ∧ s.vision.length = 2 ∧
      s.visionCommonOk 0 0x08 (look 0x08 v) = true ∧ s.visionCommonOk 0 0x0B (look 0x0B v) = true ∧
      s.visionCommonOk 0 0x09 r = true ∧ s.occOf r.ctx.cadence = some occ0 ∧ s.useOf r.raise.toNat = some use0 ∧
      use0.producer = r.unit.toNat ∧ (s.lantern r.raise.toNat).phase = filling := by decide +kernel

/-! ## Witnesses: errors, recovery and self-test -/

/-- One error record at the head of the queue. -/
def errRec (region kind : Nat) : ErrRec := ⟨1, 0, region, kind, 1, 0, 1, List.replicate 16 0, [(0, 0)], []⟩
def withErr (e : ErrRec) (s : State) : State := { s with faults := { s.faults with queue := [e] } }

theorem witness_Errors :
    ready.power.resetHeld = false ∧ ready.power.safe = false ∧ ready.faults.queue.length < 256 ∧
      State.reset.power.resetHeld = true ∧ (errorAt 0 1 []).kind = 1 ∧ (errorAt 0 0 []).kind = 0 ∧
      (withErr (errRec 0 0) ready).up = true ∧ (withErr (errRec 0 0) ready).faults.queue = [errRec 0 0] ∧
      (withErr (errRec 0 0) ready).faults.lostCount = 0 ∧ (errRec 0 0).kind = 0 ∧ regionClass (errRec 0 0).region ≠ 3 ∧
      ready.inRun = false ∧ ready.trail.preRun.length < 4096 := by decide

theorem witness_Errors_reexecute :
    let e := errRec 0 1
    let s := withErr e running
    s.up = true ∧ s.faults.queue = [e] ∧ s.faults.lostCount = 0 ∧ e.kind = 1 ∧ e.cause ≠ 0x0F ∧
      regionClass e.region ≠ 6 ∧ regionClass e.region ≠ 8 ∧ s.underTest e.region = false ∧ e.lost = [] ∧
      (∀ w ∈ s.faults.windows, w.region ≠ e.region) ∧ s.affected e = [(0, 0)] ∧ s.liveOcc (0, 0) = some occ0 ∧
      { occ0 with attempts := 1 }.attempts < 2 := by decide +kernel

theorem witness_Losses :
    ready.power.resetHeld = false ∧ ready.power.safe = false ∧ ready.isOut (pairRegion 0) = false ∧
      ready.underTest (pairRegion 1) = false ∧ ready.power.activePair = 0 ∧ ready.power.standby = true ∧
      ready.isOut (dieRegion 3) = false ∧ ready.underTest (dieRegion 0) = false ∧ ready.faults.queue = [] ∧
      ready.faults.lostCount = 0 ∧ ready.faults.bist = none ∧
      { ready with faults := { ready.faults with secRetest := true } }.faults.secRetest = true ∧
      (∀ i, i < 13 → pllBeyond ((List.replicate 13 20000).getD i 0) = true → ready.faults.pllBad.contains i = true →
        bitAt ready.faults.pllFail i = true) ∧
      pllBeyond ((List.replicate 13 20001).getD 0 0) = true ∧
      { ready with faults := { ready.faults with pllBad := [0] } }.faults.pllBad.contains 0 = true ∧
      bitAt ready.faults.pllFail 0 = false ∧ ready.sec.entropyOk = true := by decide +kernel

theorem witness_SelfTests :
    (offer ready).accepts (sign (rawFrame 3 0x180)) 0x180 = true ∧ (offer running).accepts (sign (rawFrame 3 0x180)) 0x180 = true ∧
      regionExists 0 = true ∧ regionExists 0x9004 = true ∧ (offer ready).bistRefused 0xA000 false = true ∧
      (offer ready).bistRefused 0x9000 true = true ∧ (offer ready).bistRefused 0x6001 false = false ∧
      (offer running).bistRefused 0x6001 false = false ∧
      (offer ready).accepts (sign (rawFrame 3 0x181)) 0x181 = true ∧
      (offer ready).accepts (sign (rawFrame 3 0x182)) 0x182 = true :=
  ⟨accepts_frame (by decide +kernel), accepts_frame (by decide +kernel), by decide +kernel, by decide +kernel, by decide +kernel,
    by decide +kernel, by decide +kernel, by decide +kernel, accepts_frame (by decide +kernel), accepts_frame (by decide +kernel)⟩

theorem witness_SelfTests_verdicts :
    let b : Bist := ⟨0x9004, 2, none, 0, false⟩
    let s := { ready with faults := { ready.faults with bist := some b } }
    let t := { running with faults := { running.faults with cycleSteps := 1 } }
    s.up = true ∧ s.faults.bist = some b ∧ b.full = false ∧ b.state = 2 ∧ b.region = (0x9004 : Nat) ∧
      s.faults.testing.contains 0x9004 = false ∧ ready.faults.bist = none ∧
      { ready with faults := { ready.faults with bist := some { b with full := true } } }.faults.bist =
        some { b with full := true } ∧
      (let c := { b with command := some (rawFrame 3 0x180, 0) }
       c.full = false ∧ c.state ≠ 3 ∧ c.command = some (rawFrame 3 0x180, 0) ∧ 0x180 ≤ (rawFrame 3 0x180).opcode.toNat ∧
         (rawFrame 3 0x180).opcode.toNat ≤ 0x1BF) ∧ b.region < 65536 ∧ t.up = true ∧ t.inRun = true ∧
      t.faults.cycleSteps ≠ 0 ∧ t.faults.cycleAt ≤ t.stepNow ∧ t.cycleRegions = [] := by decide +kernel

theorem witness_FullTestAndRepairLog :
    (offer (readyIn lcReturn)).accepts (sign (rawFrame 1 0x1A0)) 0x1A0 = true ∧
      (offer (readyIn lcReturn)).faults.bist = none ∧
      (offer (readyIn lcReturn)).accepts (sign (rawFrame 1 0x1A1)) 0x1A1 = true ∧
      (offer (readyIn lcReturn)).accepts (sign (rawFrame 1 0x1A2)) 0x1A2 = true ∧ (readyIn lcReturn).lc = lcReturn ∧
      (offer (readyIn lcFab)).accepts (sign (rawFrame 1 0x1A2)) 0x1A2 = true ∧ (readyIn lcFab).lc ≠ lcReturn :=
  ⟨accepts_frame (by decide +kernel), by decide, accepts_frame (by decide +kernel), accepts_frame (by decide +kernel), by decide,
    accepts_frame (by decide +kernel), by decide⟩

/-! ## Witnesses: critical commands -/

theorem witness_CriticalCommands :
    let f := rawFrame 2 0x101
    let g := { rawFrame 3 0x110 with opcode := 0x110 }
    critOf (.keyRetire f) = some (f, 0x101) ∧ (offer ready).entryOk f.hdr = true ∧
      frameOk { f with version := 2 } 0x101 = false ∧ frameOk f 0x101 = true ∧ frameOk f 0x102 = false ∧
      { offer ready with sec := { ready.sec with quarantined := true } }.sec.quarantined = true ∧
      (offer ready).checkOk { f with keyId := 6 } = false ∧
      (offer ready).counterOf f.role.toNat < f.counter.toNat ∧ hasRight 0x110 g.role.toNat = false ∧
      stateAllows 0x101 3 lcFab = false := by decide +kernel

theorem witness_CriticalCommands_keyed :
    let f := sign { rawFrame 2 0x101 with counter := 0 }
    let g := sign (rawFrame 3 0x110)
    (offer ready).checkOk f = true ∧ frameOk f 0x101 = true ∧ ¬(offer ready).counterOf f.role.toNat < f.counter.toNat ∧
      (offer ready).checkOk g = true ∧ frameOk g 0x110 = true ∧ (offer ready).counterOf g.role.toNat < g.counter.toNat ∧
      hasRight 0x110 g.role.toNat = false ∧ (offer ready).entryOk f.hdr = true ∧ f.hdr.flags.getLsbD 0 = true :=
  ⟨checkOk_sign (k := ⟨2, 5, [], [], []⟩) (by decide) rfl rfl, frameOk_sign (by decide) (by decide), by decide,
    checkOk_sign (k := ⟨3, 5, [], [], []⟩) (by decide) rfl rfl, frameOk_sign (by decide) (by decide), by decide,
    by decide, by decide +kernel, by decide⟩

/-- A P-384 key whose private key is 1, and its signature of the empty string. -/
def emptyR : Nat := 0xaa87ca22be8b05378eb1c71ef320ad746e1d3b628ba79b9859f741e082542a385502f25dbf55296c3a545e3872760ab7
def emptyS : Nat := 0xe3382aca10379b6fdb8af99da4d290de901af273a065a2dba604099fe64b0c127c51d11da6c48f680f6f3129bb0ec412
def frameS : Nat := 0x2014079953844f574fae8bef7c44a31e4a243453bf2f52fb3e5a1beecdb53b0197954b55e852768471876c40e0da04a7
def leaf0 : Cert := ⟨300, [1], 2, p384G, true, [], emptyR, emptyS⟩

/-- The KEY_AGREE frame of the installer, signed with that key. -/
def agreeFrame : CritFrame :=
  { rawFrame 2 0x100 with keyId := 0, counter := 0, check := beBytes 48 emptyR ++ beBytes 48 frameS }

/-- An empty bulk object. -/
def bulkE : Bulk := ⟨sha384 [], []⟩

theorem bulkE_ok : bulkOk bulkE = true := by simp [bulkOk, bulkE]

theorem witness_KeyAgree :
    let s := offer (readyIn lcProvision)
    let f := agreeFrame
    s.entryOk f.hdr = true ∧ f.hdr.flags.getLsbD 0 = true ∧ frameOk f opKeyAgree = true ∧ s.sec.quarantined = false ∧
      s.sec.counters.length = 3 ∧ hasRight opKeyAgree f.role.toNat = true ∧
      stateAllows opKeyAgree f.role.toNat s.lc = true ∧ s.sec.entropyOk = true ∧ s.revoked [leaf0] = false := by
  decide +kernel

/-- Standard answer: the signatures verify, so the device's P-384, SHA-384 and ECDSA agree with the standards. -/
theorem witness_KeyAgree_signature :
    ecdsaVerify leaf0.pub (sha384 (frameBytes agreeFrame)) (beAt agreeFrame.check 0 48) (beAt agreeFrame.check 48 48) =
      true := by decide +kernel

theorem witness_KeyAgree_chain : ((offer (readyIn lcProvision)).chainRoot 2 [leaf0]).isSome = true := by decide +kernel

theorem witness_Keys :
    (offer ready).accepts (sign (rawFrame 3 0x101)) 0x101 = true ∧
      (offer ready).accepts (sign (rawFrame 2 0x102)) 0x102 = true ∧ (offer ready).sec.entropyOk = true ∧
      (offer ready).accepts (sign (rawFrame 1 0x103)) 0x103 = true ∧
      (let z := readyIn lcProvision
       let s := offer { z with sec := { z.sec with identity := some 1 } }
       s.accepts (sign (rawFrame 1 0x104)) 0x104 = true ∧ s.sec.deviceCert = none ∧ s.sec.identity = some 1 ∧
         bulkOk bulkE = true) :=
  ⟨accepts_frame (by decide +kernel), accepts_frame (by decide +kernel), by decide, accepts_frame (by decide +kernel),
    accepts_frame (by decide +kernel), by decide, by decide, bulkE_ok⟩

theorem witness_LifeCycle :
    (offer (readyIn lcFab)).accepts (sign (rawFrame 1 0x110)) 0x110 = true ∧ (offer (readyIn lcFab)).sec.identity = none ∧
      (offer (readyIn lcProvision)).accepts (sign (rawFrame 2 0x111)) 0x111 = true ∧
      (offer (readyIn lcProvision)).accepts (sign (rawFrame 2 0x112)) 0x112 = true ∧
      (offer (readyIn lcReturn)).accepts (sign (rawFrame 1 0x113)) 0x113 = true ∧
      (offer (readyIn lcFab)).accepts (sign (rawFrame 1 0x113)) 0x113 = true ∧
      (offer (readyIn lcProvision)).accepts (sign (rawFrame 2 0x121)) 0x121 = true ∧ p384OnCurve p384G = true ∧
      (offer ready).accepts (sign (rawFrame 2 0x127)) 0x127 = true :=
  ⟨accepts_frame (by decide +kernel), by decide, accepts_frame (by decide +kernel), accepts_frame (by decide +kernel),
    accepts_frame (by decide +kernel), accepts_frame (by decide +kernel), accepts_frame (by decide +kernel), by decide +kernel,
    accepts_frame (by decide +kernel)⟩

/-- A device with one output pipeline and one writable collection, unloaded or usable. -/
def serving (state : Nat) (s : State) : State :=
  { s with
    steps := { s.steps with image := some { image0 with
      outputs := [⟨1, 0, 5, 0, 0, []⟩]
      collections := [{ (default : CollDecl) with
        hostWrite := true, dim := 1, snapshot := some (sha384 (List.replicate 68 0 ++ [1] ++ List.replicate 11 0)) }] } }
    search := { s.search with colls := [{ (default : Collection) with state := state }] } }

/-- The offered state without a run, and in one. -/
def idle0 : State := offer (serving collUsable ready)
def busy0 : State := offer (serving collUsable running)

theorem witness_EdgeCommands_accepted :
    idle0.accepts (sign (rawFrame 2 0x110)) 0x110 = true ∧ idle0.accepts (sign (rawFrame 2 0x112)) 0x112 = true ∧
      idle0.accepts (sign (rawFrame 2 0x120)) 0x120 = true ∧ idle0.accepts (sign (rawFrame 2 0x126)) 0x126 = true ∧
      idle0.accepts (sign (rawFrame 3 0x140)) 0x140 = true ∧ idle0.accepts (sign (rawFrame 3 0x141)) 0x141 = true ∧
      idle0.accepts (sign (rawFrame 3 0x43)) 0x43 = true ∧ idle0.accepts (sign (rawFrame 3 0x44)) 0x44 = true ∧
      idle0.accepts (sign (rawFrame 3 0x45)) 0x45 = true ∧ busy0.accepts (sign (rawFrame 2 0x110)) 0x110 = true ∧
      busy0.accepts (sign (rawFrame 3 0x45)) 0x45 = true ∧ busy0.inRun = true ∧ idle0.inRun = false :=
  ⟨accepts_frame (by decide +kernel), accepts_frame (by decide +kernel), accepts_frame (by decide +kernel),
    accepts_frame (by decide +kernel), accepts_frame (by decide +kernel), accepts_frame (by decide +kernel),
    accepts_frame (by decide +kernel), accepts_frame (by decide +kernel), accepts_frame (by decide +kernel),
    accepts_frame (by decide +kernel), accepts_frame (by decide +kernel), by decide, by decide⟩

theorem witness_EdgeCommands_checks :
    idle0.edgeReady (.lcProvision (rawFrame 2 0x110)) = true ∧ idle0.edgeReady (.lcReturn (rawFrame 2 0x112)) = true ∧
      idle0.edgeReady (.imageKeysSet (rawFrame 2 0x122) (List.replicate 8 p384G) true) = true ∧
      idle0.edgeReady (.datumSet (rawFrame 2 0x126) default false) = true ∧
      flashFails (.datumSet (rawFrame 2 0x126) default false) = true ∧
      idle0.edgeReady (.pipelineStart (rawFrame 3 0x140) 5) = true ∧
      idle0.edgeReady (.pipelineStop (rawFrame 3 0x141) 5) = true ∧
      busy0.edgeReady (.pipelineStop (rawFrame 3 0x141) 5) = true := by decide +kernel

theorem witness_EdgeCommands_bulk :
    idle0.edgeReady (.calibrationSet (rawFrame 2 0x123) bulkE [default] true) = true ∧
      idle0.edgeReady (.rosterSet (rawFrame 2 0x124) bulkE [{ (default : RosterEntry) with slot := 4095, kind := 1 }] true) =
        true ∧
      idle0.edgeReady (.pegSet (rawFrame 2 0x125) bulkE [] true) = true ∧
      idle0.edgeReady (.searchInsert (rawFrame 3 0x43) 0 1 bulkE [(0, [0])] 0) = true ∧
      idle0.edgeReady (.searchDelete (rawFrame 3 0x44) 0 bulkE [0] 0) = true := by
  refine ⟨?_, ?_, ?_, ?_, ?_⟩ <;> (simp only [State.edgeReady, bulkE_ok]; decide +kernel)

theorem witness_EdgeCommands_load :
    let b := List.replicate 68 0 ++ [1] ++ List.replicate 11 0
    (offer (serving collUnloaded ready)).edgeReady (.searchLoad (rawFrame 3 0x45) 0 ⟨sha384 b, b⟩) = true := by
  decide +kernel

theorem witness_SiteInstall :
    let s := { idle0 with sec := { ready.sec with keys := [⟨2, 5, [], [], certDigest leaf0⟩] } }
    s.siteRootCause (rawFrame 2 0x120) (some leaf0) none = none ∧
      formed s (rawFrame 2 0x120) 0x120 = true := by decide +kernel

/-! ## Witnesses: updates -/

/-- An image component signed with the site's image key, and a slot that holds a boot configuration. -/
def imageComp : Component := ⟨[], sha384 [], emptyR, emptyS, .image image0 true⟩
def slot1 : Slot :=
  { (default : Slot) with committed := true, components := [⟨[], sha384 [], 0, 0, .bootConfig [.sizes 16 16 64 32]⟩] }

/-- A device that runs from slot 0 and has one image key. -/
def updating (s : State) : State :=
  { s with
    power := { s.power with slot := some 0 }
    flash := { s.flash with slotA := some slot1 }
    sec := { s.sec with site := { s.sec.site with imageKeys := [p384G] } } }

theorem witness_ImageStage :
    let s := offer (updating ready)
    let cs := stagedComponents slot1.components ([imageComp].map (withSeed [])) none
    let imgs := cs.filterMap Component.image?
    formed s (rawFrame 3 0x200) 0x200 = true ∧ s.activeSlot = some slot1 ∧ s.host.stagedSlot = none ∧
      [imageComp].all (fun c => c.image?.isSome) = true ∧ imgs.length ≤ 15 ∧
      imgs.filter (fun p => p.2) = [(image0, true)] ∧
      imgs.all (fun p => ratesFit p.1.channels s.sec.site.roster) = true ∧
      [imageComp].all (fun c => s.signedOk c) = true ∧
      configOk ((cs.findSome? Component.config?).getD []) (some image0) = true ∧
      sumTiles (image0.objects.filter ObjectDecl.inT3) ≤ s.t3Free := by decide +kernel

theorem witness_ImageStage_digests :
    ([imageComp] ++ (none : Option Component).toList).all (fun c => sha384 c.bytes == c.digest) = true := by
  simp [imageComp]

/-- An image and a runtime that await their activation. -/
def runtime3 : Component := ⟨[], [], 0, 0, .runtime 3⟩
def staged (s : State) : State :=
  { s with host := { s.host with stagedImage := some image0, stagedRuntime := some runtime3 } }

theorem witness_Updates :
    let s := offer (staged ready)
    let r := offer (staged running)
    formed s (rawFrame 3 0x201) 0x201 = true ∧ formed r (rawFrame 3 0x201) 0x201 = true ∧
      s.host.stagedImage = some image0 ∧ r.host.stagedImage = some image0 ∧
      formed s (rawFrame 2 0x202) 0x202 = true ∧ runtime3.runtime? = some 3 ∧
      formed s (rawFrame 2 0x203) 0x203 = true ∧ formed r (rawFrame 2 0x203) 0x203 = true ∧
      s.host.stagedRuntime = some runtime3 ∧ r.host.stagedRuntime = some runtime3 ∧ s.power.standby = true ∧
      r.power.standby = true ∧ s.inRun = false ∧ r.inRun = true ∧
      (let z := { ready with power := { ready.power with standby := false } }
       z.up = true ∧ z.power.standby = false ∧ z.isOut (pairRegion (1 - z.power.activePair)) = false ∧
         z.power.pairsUnusable.contains (1 - z.power.activePair) = false) := by decide +kernel

/-! ## Witnesses: ports and sessions -/

/-- A roster entry of slot 9 with generous limits. -/
def entry9 : RosterEntry :=
  { (default : RosterEntry) with slot := 9, quota := 65536, rate := 2 ^ 31, burst := 2 ^ 31, pps := 2 ^ 31, burstPkts := 60000 }

/-- A live session 77 of that entry under an empty key, with full buckets. -/
def session9 : Session :=
  { (default : Session) with
    slot := 9, entry := entry9, id := 77, state := 1, cls := 0, rate := 1, burst := 4096, pps := 1, burstPkts := 8
    quota := 65536, livenessS := 10, lastFrame := 980 * secUnits, timeMs := 1000, requests := [(5, 999 * secUnits)] }

/-- A frame of that session with its tag. -/
def tether9 (type seq : Nat) (body : Bytes) : Bytes := tetherFrame [] type 9 77 seq body

/-- That frame as the oldest of the ingress buffer. -/
def buffered (p : Bytes) : BufFrame := ⟨0, 0, 1000 * secUnits, .tether 0 p, none, 0, 0⟩
def withSession (x : Session) (p : Bytes) (s : State) : State :=
  { s with ports := { s.ports with sessions := [x], ingress := [buffered p] } }

theorem witness_Ports :
    let s := withRegs ready [(portReg 3 0, 9 + 1500 * 2 ^ 16)]
    let f : RxFrame := ⟨none, 1500, none, .arp⟩
    s.up = true ∧ s.fld ⟨portReg 3 0, 0, 2⟩ ≠ 0 ∧ s.isOut (portRegion 3) = false ∧
      s.fld ⟨portReg 3 0, 16, 14⟩ < { f with ipBytes := 1501 }.ipBytes ∧
      ¬(s.fld ⟨portReg 3 0, 16, 14⟩ < f.ipBytes ∨ s.vlanOk 3 f.vlan = false ∨ f.body = .fragmented) ∧
      s.ports.ingress.length < ingressSize ∧
      (let b : BufFrame := ⟨0, 2, 0, .other, none, 0, 0⟩
       { s with ports := { s.ports with ingress := [b] } }.ports.ingress = [b] ∧ isTether b.body = false ∧
         isSv b.body = false) := by decide +kernel

theorem apart_one (x : Session) (p : Bytes) (s : State) : (withSession x p s).sessionsApart := by
  simp [State.sessionsApart, withSession]

theorem witness_Close :
    (withSession session9 (tether9 tClose 1 []) ready).newFrame tClose (buffered (tether9 tClose 1 [])) (tether9 tClose 1 [])
      session9 = true := by decide +kernel

theorem witness_StatusReq :
    (withSession session9 (tether9 tStatusReq 1 []) ready).newFrame tStatusReq (buffered (tether9 tStatusReq 1 []))
      (tether9 tStatusReq 1 []) session9 = true := by decide +kernel

theorem witness_Data_refused :
    (withSession session9 (tether9 tData 1 []) ready).newFrame tData (buffered (tether9 tData 1 [])) (tether9 tData 1 [])
      session9 = true ∧
      ((withSession session9 (tether9 tData 1 []) ready).dataCause session9 []).1 ≠ 0 := by decide +kernel

/-- A block of no sample sets of stream 1, and a session with empty buckets in a run whose image has that stream. -/
def block1 : Bytes := beBytes 2 1 ++ beBytes 1 0 ++ beBytes 1 1 ++ List.replicate 36 0
def session0 : Session := { session9 with tokAt := 1000 * secUnits }
def taking : State :=
  withSession session0 (tether9 tData 1 block1) { running with steps := { running.steps with image := some { image0 with
    tethers := [{ (default : TetherStream) with slot := 9, stream := 1, elements := 1 }] } } }

/-- The same with full buckets draws its tokens; one with an empty quota is shed. -/
theorem witness_Data_taken :
    let p := tether9 tData 1 block1
    let s := { taking with ports := { taking.ports with sessions := [session9] } }
    let y := { session0 with quota := 0 }
    let z := { taking with ports := { taking.ports with sessions := [y] } }
    s.newFrame tData (buffered p) p session9 = true ∧ (s.dataCause session9 (frBody p)).1 = 0 ∧
      (session9.fill (buffered p).arrival).holds p.length 1 = true ∧ z.newFrame tData (buffered p) p y = true ∧
      (z.dataCause y (frBody p)).1 = 0 ∧ (y.fill (buffered p).arrival).holds p.length 1 = false ∧
      ¬y.used + z.closingUsed y.slot + p.length ≤ y.quota := by decide +kernel

theorem witness_Data_queued :
    let p := tether9 tData 1 block1
    taking.newFrame tData (buffered p) p session0 = true ∧ (taking.dataCause session0 (frBody p)).1 = 0 ∧
      (session0.fill (buffered p).arrival).holds p.length 1 = false ∧
      session0.used + taking.closingUsed session0.slot + p.length ≤ session0.quota := by decide +kernel

/-- A DECLARE of slot 9 with small rates, and one with an unknown class. -/
def declareBody (cls : Nat) : Bytes :=
  List.replicate 16 0 ++ beBytes 1 cls ++ List.replicate 3 0 ++ beBytes 4 1000 ++ beBytes 4 1000 ++ beBytes 4 1 ++
    beBytes 2 1 ++ beBytes 2 10 ++ beBytes 4 0 ++ beBytes 1 1 ++ List.replicate 7 0
def declare9 (cls : Nat) : Bytes := tetherFrame [] tDeclare 9 0 1 (declareBody cls)

theorem witness_Declare :
    let p := declare9 0
    let s := withSession session9 p { ready with sec := { ready.sec with
      site := { ready.sec.site with roster := [entry9] } } }
    s.up = true ∧ s.ports.ingress = [buffered p] ∧ frKind p = tDeclare ∧ frHead p = true ∧ frLengthOk p = true ∧
      (s.sec.site.roster.filter (fun e => e.slot == frSlot p && e.kind == 0)).find?
        (fun e => frTagOk e.key p && e.addr == 0) = some entry9 ∧
      s.declareCause entry9 p = 0 ∧ s.declareCause entry9 (declare9 4) ≠ 0 := by decide +kernel

/-- An answer to exchange 5. -/
def answer5 : Bytes := beBytes 4 5 ++ List.replicate 28 0

theorem witness_TimeResp :
    (withSession session9 (tether9 tTimeResp 1 answer5) ready).newFrame tTimeResp (buffered (tether9 tTimeResp 1 answer5))
      (tether9 tTimeResp 1 answer5) session9 = true ∧ (frBody (tether9 tTimeResp 1 answer5)).length = 32 ∧
      session9.requests.find? (fun r => r.1 == beAt (frBody (tether9 tTimeResp 1 answer5)) 0 4 &&
        decide ((buffered []).arrival ≤ r.2 + 4 * secUnits)) = some (5, 999 * secUnits) := by decide +kernel

/-- Its round trip is 1 s; in a run whose next step's interval holds its ingress stamp it becomes a clock input. -/
def run5 : Run := ⟨List.replicate 16 0, 1000 * secUnits, 20000 * usUnits, 0, [0, 0]⟩
theorem witness_TimeResp_input :
    let s := withSession session9 (tether9 tTimeResp 1 answer5)
      { running with steps := { running.steps with run := some run5, occs := [] } }
    let c : CadenceDecl := ⟨1, 0, 2000, [10000], [], false⟩
    let a := (buffered []).arrival
    s.newFrame tTimeResp (buffered (tether9 tTimeResp 1 answer5)) (tether9 tTimeResp 1 answer5) session9 = true ∧
      s.steps.run = some run5 ∧ s.cadences[0]? = some c ∧ run5.occurrenceOf c a = some 0 ∧ run5.hasClosed 0 0 = false ∧
      a ≤ s.admitLimit ∧ s.steps.seen.contains (9, clockStream, a) = false ∧ s.steps.inputs = [] ∧
      0 ≤ ((compact a : Nat) : Int) - (compact (999 * secUnits) : Nat) - (0 - 0) ∧
      (let late := { session9 with requests := [(5, 1001 * secUnits)] }
       ((compact a : Nat) : Int) - (compact (1001 * secUnits) : Nat) - (0 - 0) < 0 ∧ a ≤ 1001 * secUnits + 4 * secUnits ∧
         late.requests.length = 1) := by decide +kernel

theorem witness_Sessions :
    let s := withSession session9 [] ready
    let z := { session9 with state := 2 }
    let q : QueuedFrame := ⟨1, 0, false, []⟩
    let w := { session9 with queue := [q], tokBytes := 2 ^ 80, tokPkts := 2 ^ 80 }
    s.up = true ∧ s.liveSession 9 = some session9 ∧ session9.lastFrame + session9.livenessS * secUnits ≤ s.now ∧
      (withSession z [] ready).ports.sessions.find? (fun x => x.slot == 9 && x.state == 2) = some z ∧ z.queue = [] ∧
      z.opened = [] ∧ (withSession w [] ready).releasable 9 = some (w, q) ∧ session9.timeMs ≠ 0 ∧
      session9.port < s.time.txts.length ∧ (s.time.txts.getD session9.port []).length < 64 := by decide +kernel

theorem witness_Sessions_view :
    let s := withSession session9 [] (withRegs ready [(0x40001C, 9)])
    s.readable = true ∧ s.liveSession (s.fld ⟨0x40001C, 0, 12⟩) = some session9 ∧ session9.timeSource ≤ 3 := by decide +kernel

/-- A sampled-value tether of MAC 3, APPID 4 and an empty identifier. -/
def sv0 : SvTether :=
  { (default : SvTether) with entry := { (default : RosterEntry) with kind := 1, addr := 3, appid := 4 } }

theorem witness_SampledValues :
    let a : Asdu := ⟨[], 0, 0, []⟩
    let f : BufFrame := ⟨0, 0, 1000 * secUnits, .sv 3 4 [a], none, 0, 0⟩
    let s := { running with ports := { running.ports with ingress := [f], sv := [sv0] } }
    let d : ChannelDecl := default
    let img := { image0 with channels := [d] }
    s.up = true ∧ s.ports.ingress = [f] ∧ f.body = .sv 3 4 [a] ∧ s.svOf 3 5 [a] = none ∧ s.svOf 3 4 [a] = some sv0 ∧
      s.inRun = true ∧ [a].filter (fun a => a.svid == sv0.entry.svid) = [a] ∧
      sv0.seen.contains (s.svSecond sv0.entry f.arrival 0, 0) = false ∧
      ({ sv0 with seen := [(s.svSecond sv0.entry f.arrival 0, 0)] }.seen.contains (s.svSecond sv0.entry f.arrival 0, 0)) =
        true ∧
      (s.channelsOf 0 0).all (fun d => [a].all (fun b => decide (b.samples.length ≤ d.element))) = true ∧
      ({ s with steps := { s.steps with image := some img } }.channelsOf 0 0).all
        (fun d => [{ a with samples := [(0, 0)] }].all (fun b => decide (b.samples.length ≤ d.element))) = false := by
  decide +kernel

/-! ## Witnesses: fusion, tracks, search, map, solver and counters -/

/-- An ego entry that takes features, and a fusion stream. -/
def egoEntry0 : EgoEntry := { (default : EgoEntry) with features := true, minInliers := 1, maxRms := 0x3F800000 }
def stream0 : StreamDecl := { (default : StreamDecl) with slot := 9, stream := 1 }

/-- A run with one ego entry, one fusion stream, one check region of one cell, and an admitted frame of tether 0. -/
def frame0 : FrameRec := { (default : FrameRec) with stamp := 990 * secUnits }
def occ1 : Occurrence := { occ0 with frames := [{ (default : FrameSel) with current := some frame0 }] }
def fusing : State :=
  { running with
    steps := { running.steps with
      occs := [occ1]
      image := some { image0 with
        egos := [egoEntry0], streams := [stream0], gridCols := 1, gridRows := 1, gridBase := 0x1000000
        statusBase := 0x2000000, checks := [⟨[0], [], [0]⟩], vectorBase := [0x3000000], fusionUnit := 5
        tethers := [{ (default : TetherStream) with slot := 9, stream := 1, width := 1, height := 1 }] } }
    fusion := { running.fusion with egos := [default], streams := [default] } }

/-- Work of the occurrence that is done. -/
def fused : State := { fusing with fusion := { fusing.fusion with gated := true, laddered := true, egoDone := [0] } }

theorem witness_Fusion :
    fusing.up = true ∧ fusing.inRun = true ∧ fusing.readable = true ∧ fusing.steps.image.isSome = true ∧
      fusing.occOf 0 = some occ1 ∧ fusing.fusion.rungs.length = 5 ∧ fusing.fusion.gated = false ∧
      fusing.fusion.laddered = false ∧ fused.fusion.gated = true ∧ fused.fusion.laddered = true ∧
      fusing.steps.image.bind (fun i => i.egos[0]?) = some egoEntry0 ∧ fusing.fusion.egos[0]? = some default ∧
      fusing.fusion.egoDone.contains 0 = false ∧ fused.fusion.egoDone.contains 0 = true ∧
      fusing.frameSelOf 0 egoEntry0.slot false = some frame0 ∧ (slotsIn 0x1000000 48).all (fusing.waitGranted 5) = true ∧
      fusing.streamDecls[fusing.fld ⟨0xA00040, 0, 13⟩]? = some stream0 ∧
      fusing.fusion.streams[fusing.fld ⟨0xA00040, 0, 13⟩]? = some default := by decide +kernel

theorem witness_Fusion_grid :
    0x1000000 + ceilDiv 1 32 * ceilDiv 1 32 * tileBytes ≤ 0x2000000 ∧ fusing.usable stream0 default = true ∧
      fusing.usable stream0 { (default : FStream) with stale := true } = false ∧ lookupKey 0 [(1, [0])] = none := by
  decide +kernel

theorem witness_Fusion_gate :
    (fusing.steps.image.map (·.checks)) ≠ some [] ∧ (fusing.steps.image.map (·.vectorBase)) = some [0x3000000] ∧
      (∀ d ∈ fusing.streamDecls, d.privileged = false) ∧ fusing.streamDecls[0]? = some stream0 ∧
      (slotsIn 0x3000000 (2 * fusing.streamPairs.length)).all (fusing.waitGranted 5) = true ∧
      (running.steps.image.map (·.checks)) = some [] ∧
      { running.fusion with streams := [{ (default : FStream) with outlier := true }] }.streams.length = 1 := by decide +kernel

/-- The field of a tether of one pixel is written where no groundsheet is, or waits for slots that are not free. -/
theorem witness_Fusion_flow :
    fusing.steps.image.bind (fun i => i.tethers.find? (fun t => t.slot == 9 && t.stream == 1)) =
        some { (default : TetherStream) with slot := 9, stream := 1, width := 1, height := 1 } ∧
      (∀ n, (slotsIn 0x1000000 n).all (fusing.waitGranted 5) = true) ∧ lanternAt (gsBase 0) = some 0 ∧
      fusing.waitGranted 5 0 = false ∧
      (List.zip [egoEntry0] [{ (default : EgoState) with masked := true }]).find? (fun p => p.1.slot == 0 && p.1.stream == 0) =
        some (egoEntry0, { (default : EgoState) with masked := true }) ∧
      (List.zip [egoEntry0] [(default : EgoState)]).find? (fun p => p.1.slot == 9 && p.1.stream == 1) = none :=
  ⟨by decide +kernel, fun n => by rw [slotsIn_none (by decide +kernel)]; rfl, by decide +kernel, by decide +kernel,
    by decide +kernel, by decide +kernel⟩

/-- A committed track of slot 0 and identifier 6, last set at 999 s. -/
def track0 : Track := { (default : Track) with id := 6, time := 999 * 1000000000 }
def tracking (s : State) : State :=
  { s with track := { s.track with committed := [track0] } }

theorem witness_Tracks :
    let s := tracking (offer ready)
    let r := { running with steps := { running.steps with
      fusedStep := some 0
      image := some { image0 with track := { (default : TrackDecl) with tables := [0x1000000, 0x2000000] } } } }
    r.mayIssue r.trackDecl.cadence = true ∧ r.occOf r.trackDecl.cadence = some occ0 ∧
      r.track.work = none ∧ r.vectorReady 0 = true ∧ running.vectorReady 0 = false ∧ s.readable = true ∧
      { r with track := { r.track with work := some [] } }.track.work.isSome = true ∧
      r.trackDecl.tables[1 - r.track.set]? = some 0x2000000 ∧
      running.trackDecl.tables[1 - running.track.set]? = none ∧ s.offers (hdr false) = true ∧ s.trackQueue = [] ∧
      { s with trackQueue := List.replicate 64 ⟨.merge, 0⟩ }.trackQueue.length = 64 ∧
      s.track.committed.find? (fun x => x.id == (6 : BitVec 32).toNat) = some track0 ∧
      s.track.committed.find? (fun x => x.id == (7 : BitVec 32).toNat) = none ∧
      (s.fusion.rungs.getD 4 default).level < 2 ∧ track0.time ≤ (999000000000 : BitVec 64).toNat ∧
      (1059000000000 : BitVec 64).toNat ≤ track0.time + 60000000000 ∧
      track0.time + 60000000000 < (1059000000001 : BitVec 64).toNat ∧
      s.track.committed.find? (fun x => x.slot == s.fld ⟨0xA10020, 0, 14⟩) = some track0 ∧
      { s with fusion := { s.fusion with rungs := List.replicate 5 ⟨2, 0, 0, 0⟩ } }.fusion.rungs.getD 4 default =
        ⟨2, 0, 0, 0⟩ := by decide +kernel

/-- A request of one exhaustive query to collection 0: query and result in pack 0. -/
def query0 : Bytes :=
  leBytes 1 0 ++ leBytes 1 1 ++ leBytes 2 1 ++ leBytes 4 0 ++ leBytes 2 1 ++ List.replicate 6 0 ++
    leBytes 8 pack0.toNat ++ leBytes 8 0 ++ leBytes 8 (pack0.toNat + 0x10000) ++ List.replicate 88 0
def entry0 : VecEntry := { (default : VecEntry) with id := 6, epochDel := liveEpoch, vec := [0] }
def searching (s : State) : State :=
  let z := serving collUsable s
  { z with search := { z.search with colls := [{ (default : Collection) with
    state := collUsable, entries := [entry0], merging := true }] } }

theorem witness_Search :
    let s := offer (searching ready)
    let b := searching running
    b.up = true ∧ b.inRun = true ∧ b.occOf 0 = some occ0 ∧ s.offers (hdr false) = true ∧ s.search.queue = [] ∧
      s.inService (engineRegion 4) = true ∧ s.collCause 0 = 0 ∧
      ((s.coll 0).visibleAt (s.coll 0).epoch).find? (fun x => x.id == (6 : BitVec 32).toNat) = some entry0 ∧
      ((s.coll 0).visibleAt (s.coll 0).epoch).find? (fun x => x.id == (7 : BitVec 32).toNat) = none ∧
      (s.coll 0).merging = true ∧ s.search.waitCommits = [] ∧ 0 < s.search.colls.length ∧
      s.fld ⟨0xD00014, 0, 6⟩ < s.collDecls.length ∧
      (b.batchAns (queryReqOf (b.load pack0.toNat 128)) 0 false).outcome ≠ served ∧
      b.orderBroken 0 [] (b.batchReads pack0.toNat (queryReqOf (b.load pack0.toNat 128)))
        (b.batchWrites (queryReqOf (b.load pack0.toNat 128))) = none ∧ s.readable = true ∧
      b.orderBroken 0 ((b.batchReads (gsBase 0) (queryReqOf (b.load (gsBase 0) 128))).flatMap (fun x => slotsIn x.1 x.2))
        (b.batchReads (gsBase 0) (queryReqOf (b.load (gsBase 0) 128))) (b.batchWrites (queryReqOf (b.load (gsBase 0) 128))) =
          some 0 ∧ b.faults.queue.length < 256 ∧
      s.resultRoom (queryReqOf query0) = true ∧
      (s.batchAns (queryReqOf query0) (s.coll 0).epoch true).outcome = served ∧
      s.resultRoom (queryReqOf (List.replicate 128 0)) = false := by decide +kernel

/-- A run that may map and solve, into slot 0. -/
def mapping : State :=
  { running with steps := { running.steps with image := some { image0 with
    map := { (default : MapDecl) with kfCap := 4 }, solver := { (default : SolverDecl) with unit := 1 }
    plan := [⟨0, [use0]⟩] } } }

theorem witness_MapAndSolver :
    let s := offer ready
    mapping.mayIssue mapping.solverDecl.cadence = true ∧ mapping.occOf mapping.solverDecl.cadence = some occ0 ∧
      mapping.inService (engineRegion 3) = true ∧
      (decide (0 ≤ maxDeltas) && mapping.solver.submitted != some occ0.step && mapping.solver.wellFormed []) = true ∧
      decide (maxDeltas + 1 ≤ maxDeltas) = false ∧ mapping.faults.queue.length < 256 ∧
      mapping.mayWriteSlot mapping.solverDecl.unit mapping.solverDecl.resultLantern = true ∧
      mapping.mayIssue mapping.mapDecl.cadence = true ∧ mapping.occOf mapping.mapDecl.cadence = some occ0 ∧
      mapping.inService (engineRegion 2) = true ∧ mapping.map.e1 ≠ liveEpoch ∧ mapping.map.awnKfs < awningKfs ∧
      mapping.map.keyframes.length < mapping.mapDecl.kfCap ∧ s.offers (hdr false) = true ∧ s.mapQueue = [] := by
  decide +kernel

theorem witness_Map_channels :
    let d : ChannelDecl := default
    let s := { ready with steps := { ready.steps with image := some { image0 with channels := [d] } } }
    s.readable = true ∧ s.channelDecls.find? (fun d => d.index == s.fld ⟨0x500034, 0, 13⟩) = some d ∧
      (ready.channelDecls.find? (fun d => d.index == ready.fld ⟨0x500034, 0, 13⟩)).isNone = true := by decide +kernel

theorem witness_Counters :
    ready.up = true ∧ ready.readable = true ∧ ready.pageLost 3 = false ∧ (ready.counters.map (fun c => (c.die, c.k))).Nodup ∧
      { ready with faults := { ready.faults with out := [0xA003] } }.pageLost 3 = true := by decide +kernel

/-! ## Known answers -/

/-- FIPS 180-4: SHA-384 of "abc". -/
theorem test_sha384 : beVal (sha384 [0x61, 0x62, 0x63]) =
    0xcb00753f45a35e8bb5a03d699ac65007272c32ab0eded1631a8b605a43ff5bed8086072ba1e7cc2358baeca134c825a7 := by decide +kernel

/-- FIPS 197, appendix C.3: AES-256. -/
theorem test_aes256 : beVal (aes256 ((List.range 32).map (fun i => BitVec.ofNat 8 i)) (beBytes 16 0x00112233445566778899aabbccddeeff)) =
    0x8ea2b7ca516745bfeafc49904b496089 := by decide +kernel

/-- The check value of CRC-32: "123456789". -/
theorem test_crc32 : crc32 [0x31, 0x32, 0x33, 0x34, 0x35, 0x36, 0x37, 0x38, 0x39] = 0xCBF43926 := by decide +kernel

/-! ## Single commands -/

/-- R393: ten ticks of 2 ns move every clock by 20 ns. -/
theorem test_tick : (effClockTick 10 ready).now = ready.now + 20 * nsUnits := by decide +kernel

/-- R505: before the runtime is ready a read of `TRAIL_SIZE` gives 0; after, its value. -/
theorem test_read : State.reset.readReg 0x10028 = 0 ∧ (withRegs ready [(0x10028, 7)]).readReg 0x10028 = 7 := by decide +kernel

/-- R8: writing 1 to an event bit clears it. -/
theorem test_event_clear :
    (effRegisterWrite 0x100008 1 .host (withRegs ready [(0x100008, 3)])).reg 0x100008 = 2 := by decide +kernel

/-- R418: an output whose start is in the past is refused with cause 0x61. -/
theorem test_arm_past : (effToutArm 0 ready).fld ⟨blockTime, 8, 8⟩ = 0x61 := by decide +kernel

end Sys2Proof.Tests
end

section
/-! SUPPORT. The register map bit by bit, what register reads and writes do (R5-R10), and the statements about registers. -/

namespace Sys2Proof.Machine

/-! The register map: what its masks hold. -/

/-- A mask has the bits of the fields that it names. -/
theorem testBit_fieldMask (p : RegField → Bool) (fs : List RegField) (i : Nat) :
    (fieldMask p fs).testBit i = fs.any (fun f => p f && decide (f.lo ≤ i ∧ i < f.lo + f.width)) := by
  have fold : ∀ m : Nat, (fs.foldl (fun m f => if p f then m ||| ((2 ^ f.width - 1) <<< f.lo) else m) m).testBit i =
      (m.testBit i || fs.any (fun f => p f && decide (f.lo ≤ i ∧ i < f.lo + f.width))) := by
    induction fs with
    | nil => simp
    | cons f fs ih =>
      intro m
      rw [List.foldl_cons, ih, List.any_cons, ← Bool.or_assoc]
      congr 1
      cases hp : p f
      · simp
      · have e : (decide (f.lo ≤ i) && decide (i - f.lo < f.width)) = decide (f.lo ≤ i ∧ i < f.lo + f.width) := by
          rw [← Bool.decide_and]
          exact decide_eq_decide.mpr (by omega)
        simp [Nat.testBit_or, Nat.testBit_shiftLeft, Nat.testBit_two_pow_sub_one, ← e]
  simpa [fieldMask] using fold 0

theorem fieldsAt_eq {off : Nat} {r : RegRow} (h : findReg off = some r) : fieldsAt off = r.fields := by
  simp [fieldsAt, h]

/-- Whether a bit belongs to a field with a property is a bit of the property's mask. -/
theorem bitHas_eq_testBit {off : Nat} {r : RegRow} (h : findReg off = some r) (p : RegField → Bool) (i : Nat) :
    bitHas off p i = (fieldMask p r.fields).testBit i := by
  rw [testBit_fieldMask, bitHas, fieldsAt_eq h]

/-- Every field lies in its 32-bit register (R5). -/
theorem regTable_fieldsFit : regTable.all (fun r => r.fields.all (fun f => decide (f.lo + f.width ≤ 32))) = true := by
  decide +kernel

/-- RW and W1C fields are apart, and no class B field is written (R7, R9). -/
theorem regTable_masksApart : regTable.all (fun r =>
    rwMask r &&& w1cMask r == 0 && classBMask r &&& (rwMask r ||| w1cMask r) == 0) = true := by
  decide +kernel

theorem findReg_mem {off : Nat} {r : RegRow} (h : findReg off = some r) : r ∈ regTable := List.mem_of_find?_eq_some h

theorem fieldMask_lt {off : Nat} {r : RegRow} (h : findReg off = some r) (p : RegField → Bool) :
    fieldMask p r.fields < 2 ^ 32 := by
  refine Nat.lt_pow_two_of_testBit _ (fun i hi => ?_)
  rw [testBit_fieldMask, List.any_eq_false]
  intro f hf
  have fit := List.all_eq_true.mp (List.all_eq_true.mp regTable_fieldsFit r (findReg_mem h)) f hf
  have : f.lo + f.width ≤ 32 := of_decide_eq_true fit
  have : ¬(f.lo ≤ i ∧ i < f.lo + f.width) := by omega
  simp [this]

/-- No bit of a register is both RW and W1C. -/
theorem w1cMask_testBit_of_rw {off : Nat} {r : RegRow} (h : findReg off = some r) {i : Nat} (hi : (rwMask r).testBit i = true) :
    (w1cMask r).testBit i = false := by
  have apart := List.all_eq_true.mp regTable_masksApart r (findReg_mem h)
  simp only [Bool.and_eq_true, beq_iff_eq] at apart
  have := congrArg (Nat.testBit · i) apart.1
  simpa [Nat.testBit_and, hi] using this

/-- No bit of class B is RW or W1C. -/
theorem testBit_of_classB {off : Nat} {r : RegRow} (h : findReg off = some r) {i : Nat}
    (hi : (classBMask r).testBit i = true) : (rwMask r).testBit i = false ∧ (w1cMask r).testBit i = false := by
  have apart := List.all_eq_true.mp regTable_masksApart r (findReg_mem h)
  simp only [Bool.and_eq_true, beq_iff_eq] at apart
  have := congrArg (Nat.testBit · i) apart.2
  simpa [Nat.testBit_and, Nat.testBit_or, hi] using this

/-- The bits outside a 32-bit mask. -/
theorem testBit_compl32 {m : Nat} (hm : m < 2 ^ 32) (i : Nat) :
    (2 ^ 32 - 1 - m).testBit i = (decide (i < 32) && !m.testBit i) := by
  rw [show 2 ^ 32 - 1 - m = 2 ^ 32 - (m + 1) by omega, Nat.testBit_two_pow_sub_succ hm]

/-- A written word bit by bit (R7, R8). -/
theorem testBit_writtenWord {off : Nat} {r : RegRow} (h : findReg off = some r) (old : Nat) (v : Word) {i : Nat} (hi : i < 32) :
    (writtenWord r old v.toNat).testBit i =
      if (rwMask r).testBit i then v.getLsbD i
      else if (w1cMask r).testBit i && v.getLsbD i then false else old.testBit i := by
  have hw : v.toNat &&& w1cMask r < 2 ^ 32 := Nat.lt_of_le_of_lt Nat.and_le_left v.isLt
  have hm : rwMask r < 2 ^ 32 := fieldMask_lt h _
  simp only [writtenWord, Nat.testBit_and, Nat.testBit_or, testBit_compl32 hw, testBit_compl32 hm, hi, decide_true,
    Bool.true_and, BitVec.testBit_toNat]
  cases hrw : (rwMask r).testBit i
  · cases (w1cMask r).testBit i <;> cases v.getLsbD i <;> simp
  · simp [w1cMask_testBit_of_rw h hrw]

/-- A pair whose half is RW throughout takes the value written. -/
theorem writtenWord_of_full {r : RegRow} (hrw : rwMask r = 2 ^ 32 - 1) (hw : w1cMask r = 0) (old : Nat) {v : Nat}
    (hv : v < 2 ^ 32) : writtenWord r old v = v := by
  simp only [writtenWord, hrw, hw, Nat.sub_self, Nat.and_zero, Nat.zero_or, Nat.sub_zero,
    Nat.and_two_pow_sub_one_eq_mod, Nat.mod_mod]
  exact Nat.mod_eq_of_lt hv

/-- Two words agree on a mask when they agree on its bits. -/
theorem and_eq_and_iff {m : Nat} (hm : m < 2 ^ 32) (a b : Nat) :
    a &&& m = b &&& m ↔ ∀ i, i < 32 → m.testBit i = true → a.testBit i = b.testBit i := by
  constructor
  · intro h i _ hi
    simpa [Nat.testBit_and, hi] using congrArg (Nat.testBit · i) h
  · intro h
    refine Nat.eq_of_testBit_eq (fun i => ?_)
    rw [Nat.testBit_and, Nat.testBit_and]
    cases hi : m.testBit i
    · simp
    · have : i < 32 := by
        by_contra hge
        rw [Nat.testBit_lt_two_pow (Nat.lt_of_lt_of_le hm (Nat.pow_le_pow_right (by decide) (by omega)))] at hi
        cases hi
      rw [h i this hi]

/-- A register write is settled by its bits. -/
theorem State.testBit_setReg_self (s : State) (off v : Nat) {i : Nat} (hi : i < 32) :
    ((s.setReg off v).reg off).testBit i = v.testBit i := by
  rw [State.reg_setReg_self, Nat.testBit_mod_two_pow]
  simp [hi]

/-! What a register write does. -/

/-- What a plain register is (R7): a single register that is not `GLINT_LEVEL`, aligned and outside the active window, whose
write goes to no event of its own. -/
theorem plainRegister_spec {off : Nat} (h : plainRegister off = true) :
    ∃ r, findReg off = some r ∧ r.part = .single ∧ inActiveWindow off = false ∧ off % 4 = 0 ∧
      ∀ (s : State) (v : Word) (w : Writer), s.writeSingle r off v w =
        (s.setReg off (writtenWord r (s.reg off) v.toNat)).noteShadow off := by
  unfold plainRegister at h
  cases hf : findReg off with
  | none => simp [hf] at h
  | some r =>
    simp only [hf, Bool.and_eq_true, beq_iff_eq, bne_iff_ne, Bool.not_eq_true', Option.isNone_iff_eq_none,
      List.contains_eq_mem, decide_eq_false_iff_not, List.mem_cons, List.not_mem_nil, or_false, not_or,
      Bool.and_eq_false_imp, decide_eq_true_eq] at h
    obtain ⟨⟨⟨⟨⟨⟨⟨hpart, hname⟩, hwin⟩, hal⟩, hno⟩, htout⟩, hring⟩, hcnt⟩ := h
    obtain ⟨h1, h2, h3, h4, h5, h6⟩ := hno
    refine ⟨r, rfl, hpart, hwin, hal, fun s v w => ?_⟩
    have hc : ¬(0xF00000 ≤ off ∧ (off - 0xF00000) % 0x10000 < 0x100) := fun hh => by
      have := hcnt hh.1; omega
    simp [State.writeSingle, State.writePlain, h1, h2, h3, h4, h5, h6, htout, hring, hc, hname]

@[simp] theorem State.reg_replyWith (s : State) (w a : Nat) : (s.replyWith w).reg a = s.reg a := rfl

/-- A ring register whose ring, if any, is not enabled is not locked (R524). -/
theorem lockedRing_any_eq_false {s : State} {off : Nat} (h : ∀ n, lockedRing off = some n → s.ringEnabled n = false) :
    (lockedRing off).any (fun n => s.ringEnabled n) = false := by
  cases hl : lockedRing off with
  | none => rfl
  | some n => exact h n hl

@[simp] theorem State.reg_noteShadow (s : State) (off a : Nat) : (s.noteShadow off).reg a = s.reg a := by
  unfold State.noteShadow
  split <;> rfl

theorem State.noteShadow_contains (s : State) (off : Nat) (h : shadowMask off ≠ 0) :
    (s.noteShadow off).shadowed.contains off = true := by
  unfold State.noteShadow
  split
  · next hc => exact hc.resolve_left h
  · simp

/-- Noting a register changes the list of registers noted and nothing else. -/
theorem State.noteShadow_frame (s : State) (off : Nat) : { s.noteShadow off with shadowed := s.shadowed } = s := by
  unfold State.noteShadow
  split <;> rfl

@[simp] theorem State.activeReg_noteShadow (s : State) (off a : Nat) : (s.noteShadow off).activeReg a = s.activeReg a := by
  unfold State.noteShadow
  split <;> rfl

/-- A write to a plain register in a device that is up: the access error of R9, then, unless its ring is enabled, the written
word. -/
theorem effRegisterWrite_plain {s : State} {off : Nat} {r : RegRow} (v : Word) (w : Writer) (hup : s.up = true)
    (hp : plainRegister off = true) (hr : findReg off = some r) :
    effRegisterWrite off v w s =
      let t := if (v.toNat &&& classBMask r) = (s.reg off &&& classBMask r) then s else s.accessError off
      if (lockedRing off).any (fun n => t.ringEnabled n) then t
      else (t.setReg off (writtenWord r (t.reg off) v.toNat)).noteShadow off := by
  obtain ⟨r', hf, hpart, hwin, hal, hw⟩ := plainRegister_spec hp
  obtain rfl : r' = r := by simpa [hf] using hr
  simp [effRegisterWrite, hup, hal, hwin, hf, hpart, hw]

/-- The class B bits that a write carries unchanged are those that the mask compares (R9). -/
theorem classB_agrees_iff {off : Nat} {r : RegRow} (hr : findReg off = some r) (v : Word) (x : Nat) :
    (v.toNat &&& classBMask r) = (x &&& classBMask r) ↔
      ∀ i, i < 32 → bitHas off (fun f => f.cls == .bootStatic) i = true → v.getLsbD i = x.testBit i := by
  have hm : classBMask r < 2 ^ 32 := fieldMask_lt hr _
  rw [and_eq_and_iff hm]
  simp [bitHas_eq_testBit hr, classBMask, BitVec.testBit_toNat]

/-- An access error records the offset and counts, saturating (R9). -/
theorem State.reg_accessError (s : State) (off : Nat) :
    (s.accessError off).reg 0xC = off % 2 ^ 24 ∧ (s.accessError off).reg 0x10 = min (s.reg 0x10 + 1) (2 ^ 32 - 1) ∧
      ∀ a, a ≠ 0xC → a ≠ 0x10 → (s.accessError off).reg a = s.reg a := by
  unfold State.accessError
  refine ⟨?_, ?_, fun a h1 h2 => ?_⟩
  · rw [State.satReg, State.reg_setReg_ne _ _ _ _ (by decide), State.reg_setReg_self]
    omega
  · rw [State.reg_satReg, State.reg_setReg_ne _ _ _ _ (by decide)]
  · rw [State.satReg, State.reg_setReg_ne _ _ _ _ h2, State.reg_setReg_ne _ _ _ _ h1]

/-- What a write makes of a plain register's own value: its class B bits stand, and no other register changes after the access
error of R9. -/
theorem effRegisterWrite_plain_reg {s t : State} {off : Nat} {r : RegRow} {v : Word} {w : Writer} (hup : s.up = true)
    (hp : plainRegister off = true) (hr : findReg off = some r)
    (ht : t = if (v.toNat &&& classBMask r) = (s.reg off &&& classBMask r) then s else s.accessError off) :
    (∀ a, a ≠ off → (effRegisterWrite off v w s).reg a = t.reg a) ∧
      ∀ i, i < 32 → (classBMask r).testBit i = true →
        ((effRegisterWrite off v w s).reg off).testBit i = (t.reg off).testBit i := by
  rw [effRegisterWrite_plain v w hup hp hr, ← ht]
  dsimp only
  split
  · exact ⟨fun _ _ => rfl, fun _ _ _ => rfl⟩
  · refine ⟨fun a ha => ?_, fun i hi hB => ?_⟩
    · rw [State.reg_noteShadow, State.reg_setReg_ne _ _ _ _ ha]
    · obtain ⟨hrw, hw1c⟩ := testBit_of_classB hr hB
      rw [State.reg_noteShadow, State.testBit_setReg_self _ _ _ hi, testBit_writtenWord hr _ _ hi]
      simp [hrw, hw1c]

/-! What a register read does. -/

/-- The reset value bit by bit. -/
theorem testBit_fieldsReset {off : Nat} {r : RegRow} (hr : findReg off = some r) {i : Nat} (hi : i < 32) :
    (fieldsReset r.fields).testBit i = (regReset off).getLsbD i := by
  simp only [regReset, hr, BitVec.getLsbD_ofNat, hi, decide_true, Bool.true_and]

/-- What READ_CLEAR leaves in a register (R7): the RC bits at their reset value. -/
def clearedWord (r : RegRow) (old : Nat) : Nat :=
  let m := fieldMask (fun f => f.access == .rc) r.fields
  (old &&& (2 ^ 32 - 1 - m)) ||| (fieldsReset r.fields &&& m)

theorem testBit_clearedWord {off : Nat} {r : RegRow} (hr : findReg off = some r) (old : Nat) {i : Nat} (hi : i < 32) :
    (clearedWord r old).testBit i =
      if bitHas off (fun f => f.access == .rc) i then (regReset off).getLsbD i else old.testBit i := by
  have hm : fieldMask (fun f => f.access == .rc) r.fields < 2 ^ 32 := fieldMask_lt hr _
  rw [clearedWord, Nat.testBit_or, Nat.testBit_and, Nat.testBit_and, testBit_compl32 hm, testBit_fieldsReset hr hi,
    bitHas_eq_testBit hr]
  cases (fieldMask (fun f => f.access == .rc) r.fields).testBit i <;> simp [hi]

/-- READ_CLEAR of a register that is not a transmit stamp port, in a device that answers reads. -/
theorem effReadClear_eq {s : State} {off : Nat} {r : RegRow} (hready : s.power.ready = true) (hheld : s.power.resetHeld = false)
    (hal : off % 4 = 0) (hwin : inActiveWindow off = false) (hr : findReg off = some r)
    (hport : indexIn off 0x300408 0x40 4 = none) :
    effReadClear off s =
      (if fieldMask (fun f => f.access == .rc) r.fields = 0 then s else s.setReg off (clearedWord r (s.reg off))).replyWith
        (s.readReg off) := by
  by_cases hm : fieldMask (fun f => f.access == .rc) r.fields = 0
  · simp [effReadClear, hal, hr, hm]
  · simp [effReadClear, hal, hr, hm, hready, hheld, hwin, hport, clearedWord]

/-! Keyed lists: latches and held low halves. -/

theorem lookupKey_dropKey_self {α : Type} (k : Nat) (m : List (Nat × α)) : lookupKey k (dropKey k m) = none := by
  induction m with
  | nil => rfl
  | cons p m ih =>
    obtain ⟨k', x⟩ := p
    unfold dropKey at ih ⊢
    by_cases h : k' = k
    · simpa [h] using ih
    · simpa [h, lookupKey] using ih

theorem lookupKey_putKey {α : Type} (k a : Nat) (v : α) (m : List (Nat × α)) :
    lookupKey a (putKey k v m) = if a = k then some v else lookupKey a m := by
  induction m with
  | nil =>
    by_cases ha : a = k
    · simp [putKey, lookupKey, ha]
    · simp [putKey, lookupKey, ha, Ne.symm ha]
  | cons p m ih =>
    obtain ⟨k', x⟩ := p
    by_cases h : k' = k
    · subst h
      by_cases ha : a = k'
      · simp [putKey, lookupKey, ha]
      · simp [putKey, lookupKey, ha, Ne.symm ha]
    · by_cases ha : k' = a
      · subst ha; simp [putKey, lookupKey, h]
      · simp [putKey, lookupKey, h, ha, ih]

/-- The low half that a commit of an RW pair takes. -/
theorem State.loForCommit_rw (s : State) (lo : Nat) :
    s.loForCommit lo true = ((lookupKey lo s.heldLo).map BitVec.toNat).getD (s.reg lo) := by
  unfold State.loForCommit
  cases lookupKey lo s.heldLo <;> rfl

theorem State.loForCommit_lt (s : State) (lo : Nat) : s.loForCommit lo true < 2 ^ 32 := by
  unfold State.loForCommit
  split
  · exact BitVec.isLt _
  · exact s.reg_lt lo

/-! Pairs (R6). -/

/-- A write of `_LO` that no access error, ring lock or servo owner stops is held. -/
theorem effRegisterWrite_lo {s : State} {off : Nat} {r : RegRow} (v : Word) (w : Writer) (hup : s.up = true)
    (hal : off % 4 = 0) (hwin : inActiveWindow off = false) (hr : findReg off = some r) (hpart : r.part = .lo)
    (hpair : pairWritable off = true) (hB : classBMask r = 0) (hservo : servoPair off = none)
    (hring : (lockedRing off).any (fun n => s.ringEnabled n) = false) :
    effRegisterWrite off v w s = { s with heldLo := putKey off v s.heldLo } := by
  simp [effRegisterWrite, hup, hal, hwin, hr, hpart, hB, hring, State.holdLo, hpair, hservo]

/-- A write of `_HI` to a pair without an event of its own commits the pair. -/
theorem effRegisterWrite_hi {s : State} {lo : Nat} {r : RegRow} (v : Word) (w : Writer) (hup : s.up = true)
    (hal : lo % 4 = 0) (hwin : inActiveWindow (lo + 4) = false) (hr : findReg (lo + 4) = some r) (hpart : r.part = .hi)
    (hrw : rwMask r ≠ 0) (hB : classBMask r = 0) (hservo : servoPair lo = none) (hquery : lo ≠ 0x600060)
    (hcnt : lo < 0xF00000) (hring : (lockedRing (lo + 4)).any (fun n => s.ringEnabled n) = false) :
    effRegisterWrite (lo + 4) v w s = s.commitPair lo v.toNat := by
  have h1 : indexIn lo 0xF00300 0x10000 4 = none := by simp [indexIn]; omega
  have h2 : indexIn lo 0xF00308 0x10000 4 = none := by simp [indexIn]; omega
  simp [effRegisterWrite, hup, hal, hwin, hr, hpart, hB, hring, State.writeHi, hquery, hservo, h1, h2, hrw]

/-- The commit of a pair that is RW throughout: both halves are written and the held half is consumed. -/
theorem State.commitPair_eq {s : State} {lo : Nat} {rl rh : RegRow} (hl : findReg lo = some rl) (hh : findReg (lo + 4) = some rh)
    (hrl : rwMask rl = 2 ^ 32 - 1) (hrh : rwMask rh = 2 ^ 32 - 1) (hwl : w1cMask rl = 0) (hwh : w1cMask rh = 0) (v : Word) :
    s.commitPair lo v.toNat = ((s.consumeLo lo).setReg lo (s.loForCommit lo true)).setReg (lo + 4) v.toNat := by
  simp only [State.commitPair, hl, hh, writtenWord_of_full hrl hwl _ (s.loForCommit_lt lo), writtenWord_of_full hrh hwh _ v.isLt]

/-- LO_READ_LATCH of a pair outside the counter pages. -/
theorem effLoReadLatch_eq {s : State} {off : Nat} {r : RegRow} (hready : s.power.ready = true)
    (hheld : s.power.resetHeld = false) (hal : off % 4 = 0) (hwin : inActiveWindow off = false) (hcnt : off < 0xF00000)
    (hr : findReg off = some r) (hpart : r.part = .lo) (hhi : (findReg (off + 4)).isSome = true) :
    effLoReadLatch off s = ({ s with latches := putKey (off + 4) (BitVec.ofNat 32 (s.pairValue off / 2 ^ 32 &&&
        (2 ^ 32 - 1 - fieldMask (fun f => f.access == Access.wo) (fieldsAt (off + 4))))) s.latches }).replyWith (s.readReg off) := by
  obtain ⟨h, hh⟩ := Option.isSome_iff_exists.mp hhi
  have hc : ¬(0xF00000 ≤ off) := by omega
  simp [effLoReadLatch, hal, hr, hready, hheld, hwin, hpart, hc, hh, fieldsAt]

/-- A device that answers reads gives the latched half of a pair. -/
theorem State.readReg_hi {s : State} {off : Nat} {r : RegRow} (hready : s.power.ready = true) (hheld : s.power.resetHeld = false)
    (hwin : inActiveWindow off = false) (hr : findReg off = some r) (hpart : r.part = .hi) :
    s.readReg off = ((lookupKey off s.latches).map BitVec.toNat).getD 0 := by
  simp [State.readReg, hready, hheld, hwin, hr, hpart]

end Sys2Proof.Machine

open Sys2Proof Sys2Proof.Machine

/-- Settles O7: every access that R5 refuses answers `.unsupported` at its alignment check. -/
theorem unsupportedAccessChangesNothing : Obligations.UnsupportedAccessChangesNothing := by
  intro s off
  refine ⟨s.reg_lt off, fun _ => rfl, fun hal => ⟨?_, ?_, fun v w hup => ?_⟩⟩
  · simp [exec, execLoReadLatch, effLoReadLatch, hal, effUnsupportedAccess]
  · simp [exec, execReadClear, effReadClear, hal, effUnsupportedAccess]
  · simp [exec, execRegisterWrite, effRegisterWrite, hup, hal, effUnsupportedAccess]

/-- Settles O10: with no class B bit changed and its ring not enabled, the write is `writtenWord` and the note. -/
theorem plainRegisterWriteFollowsAccessTypes : Obligations.PlainRegisterWriteFollowsAccessTypes := by
  intro s off v w hup hp hring hB
  obtain ⟨r, hr, -⟩ := plainRegister_spec hp
  have written : effRegisterWrite off v w s = (s.setReg off (writtenWord r (s.reg off) v.toNat)).noteShadow off := by
    simp [effRegisterWrite_plain v w hup hp hr, (classB_agrees_iff hr v (s.reg off)).mpr hB, lockedRing_any_eq_false hring]
  refine ⟨_, congrArg Host.Outcome.next written, fun i hi => ?_, fun a ha => ?_, fun a => ?_, fun hs => ?_, ?_⟩
  · rw [State.reg_noteShadow, State.testBit_setReg_self _ _ _ hi, testBit_writtenWord hr _ _ hi,
      bitHas_eq_testBit hr, bitHas_eq_testBit hr]
    rfl
  · rw [State.reg_noteShadow, State.reg_setReg_ne _ _ _ _ ha]
  · rw [State.activeReg_noteShadow, State.activeReg_setReg]
  · exact State.noteShadow_contains _ _ hs
  · exact congrArg (fun t : State => { t with regs := s.regs }) (State.noteShadow_frame (s.setReg off _) off)

/-- Settles O11: the write is the access error, if any, and a write that leaves class B bits alone. -/
theorem classBFieldsNeverChange : Obligations.ClassBFieldsNeverChange := by
  intro s off v w hup hp hC h10
  obtain ⟨r, hr, -⟩ := plainRegister_spec hp
  obtain ⟨others, classB⟩ := effRegisterWrite_plain_reg (v := v) (w := w) hup hp hr rfl
  obtain ⟨errOff, errCount, errRest⟩ := s.reg_accessError off
  refine ⟨_, rfl, fun i hi hB => ?_, fun hdiff => ?_, fun hsame => ?_⟩
  · rw [bitHas_eq_testBit hr] at hB
    rw [classB i hi hB]
    split
    · rfl
    · rw [errRest off hC h10]
  · have hne : ¬(v.toNat &&& classBMask r) = (s.reg off &&& classBMask r) := by
      obtain ⟨i, hi, hB, hv⟩ := hdiff
      exact fun h => hv ((classB_agrees_iff hr v _).mp h i hi hB)
    rw [others 0xC hC.symm, others 0x10 h10.symm, if_neg hne]
    exact ⟨errOff, errCount⟩
  · rw [others 0xC hC.symm, others 0x10 h10.symm, if_pos ((classB_agrees_iff hr v _).mpr hsame)]
    exact ⟨rfl, rfl⟩

/-- Settles O13: READ_CLEAR writes `clearedWord` and answers what the register read. -/
theorem readClearClearsRcFields : Obligations.ReadClearClearsRcFields := by
  intro s off hready hheld hal hwin hsome hport
  obtain ⟨r, hr⟩ := Option.isSome_iff_exists.mp hsome
  refine ⟨_, congrArg Host.Outcome.next (effReadClear_eq hready hheld hal hwin hr hport), rfl, fun i hi => ?_, fun a ha => ?_,
    ?_, ?_⟩
  · rw [State.reg_replyWith]
    split
    · next hm => simp [bitHas_eq_testBit hr, hm]
    · rw [State.testBit_setReg_self _ _ _ hi, testBit_clearedWord hr _ hi]
  · rw [State.reg_replyWith]
    split
    · rfl
    · exact State.reg_setReg_ne _ _ _ _ ha
  · split <;> rfl
  · split <;> rfl

/-- Settles O12: the latch of `_LO` reads, the latched `_HI`, the held `_LO` and the commit of a pair. -/
theorem pairsLatchHoldAndCommit : Obligations.PairsLatchHoldAndCommit := by
  refine ⟨fun s off r hready hheld hal hwin hcnt hr hpart hhi => ?_,
    fun s off r hready hheld hwin hr hpart => State.readReg_hi hready hheld hwin hr hpart,
    fun s off r v w hup hal hwin hr hpart hpair hB hservo hring => ?_,
    fun s lo rl rh v w hup hal hwin hl hh hpart hrl hrh hwl hwh hB hservo hquery hcnt hring => ?_⟩
  · refine ⟨_, congrArg Host.Outcome.next (effLoReadLatch_eq hready hheld hal hwin hcnt hr hpart hhi), rfl, ?_, rfl⟩
    simp only [State.replyWith_frame, lookupKey_putKey, if_true]
  · refine ⟨_, congrArg Host.Outcome.next (effRegisterWrite_lo v w hup hal hwin hr hpart hpair hB hservo
      (lockedRing_any_eq_false hring)), ?_, fun a ha => ?_, rfl⟩
    · rw [lookupKey_putKey, if_pos rfl]
    · rw [lookupKey_putKey, if_neg ha]
  · have hrw : rwMask rh ≠ 0 := by rw [hrh]; decide
    have written : effRegisterWrite (lo + 4) v w s =
        ((s.consumeLo lo).setReg lo (s.loForCommit lo true)).setReg (lo + 4) v.toNat :=
      (effRegisterWrite_hi v w hup hal hwin hh hpart hrw hB hservo hquery hcnt (lockedRing_any_eq_false hring)).trans
        (State.commitPair_eq hl hh hrl hrh hwl hwh v)
    refine ⟨_, congrArg Host.Outcome.next written, ?_, ?_, lookupKey_dropKey_self lo s.heldLo, fun a h1 h2 => ?_, rfl⟩
    · rw [State.reg_setReg_self, Nat.mod_eq_of_lt v.isLt]
    · rw [State.reg_setReg_ne _ _ _ _ (by omega), State.reg_setReg_self, Nat.mod_eq_of_lt (s.loForCommit_lt lo),
        State.loForCommit_rw]
    · rw [State.reg_setReg_ne _ _ _ _ h2, State.reg_setReg_ne _ _ _ _ h1]
      rfl

end

section
/-! SUPPORT. Event counters: what one reads as after it is set or cleared (R583-R590), and the statement about counters. -/

namespace Sys2Proof.Machine

/-! Event counters: what a counter reads as after it is set. -/

/-- Whether a counter is the one of a die and number. -/
def Counter.isAt (d k : Nat) (c : Counter) : Bool := c.die == d && c.k == k

/-- A counter as after reset, which the state does not list. -/
def Counter.blank (d k : Nat) : Counter := { (default : Counter) with die := d, k := k }

theorem Counter.isAt_iff {c : Counter} {d k : Nat} : c.isAt d k = true ↔ c.die = d ∧ c.k = k := by
  simp [Counter.isAt]

theorem State.counter_eq (s : State) (d k : Nat) :
    s.counter d k = (s.counters.find? (Counter.isAt d k)).getD (Counter.blank d k) := rfl

theorem State.counter_isAt (s : State) (d k : Nat) : (s.counter d k).isAt d k = true := by
  rw [State.counter_eq]
  cases h : s.counters.find? (Counter.isAt d k) with
  | none => exact Counter.isAt_iff.mpr ⟨rfl, rfl⟩
  | some c => exact List.find?_some h

/-- An element that matches is found where nothing else does. -/
theorem find?_insertSorted_of_match {α : Type} (le : α → α → Bool) {p : α → Bool} {x : α} (hx : p x = true) {l : List α}
    (hl : ∀ y ∈ l, p y = false) : (insertSorted le x l).find? p = some x := by
  induction l with
  | nil => simp [insertSorted, hx]
  | cons y l ih =>
    have hy : p y = false := hl y (by simp)
    have hrest := ih (fun z hz => hl z (by simp [hz]))
    unfold insertSorted
    split
    · simp [hy, hrest]
    · simp [hx]

/-- An element that does not match is passed over. -/
theorem find?_insertSorted_of_not {α : Type} (le : α → α → Bool) {p : α → Bool} {x : α} (hx : p x = false) (l : List α) :
    (insertSorted le x l).find? p = l.find? p := by
  induction l with
  | nil => simp [insertSorted, hx]
  | cons y l ih =>
    unfold insertSorted
    split
    · simp [List.find?_cons, ih]
    · simp [hx]

/-- A counter that is set reads as set, and every other one as before. -/
theorem State.counter_setCounter (s : State) (c : Counter) (d k : Nat) :
    (s.setCounter c).counter d k = if c.isAt d k then c else s.counter d k := by
  let rest := s.counters.filter (fun x => !x.isAt c.die c.k)
  have hset : (s.setCounter c).counters = if c = Counter.blank c.die c.k then rest
      else insertSorted (fun a b => decide (a.die * 64 + a.k ≤ b.die * 64 + b.k)) c rest := rfl
  rw [State.counter_eq, hset]
  cases hc : c.isAt d k with
  | true =>
    obtain ⟨rfl, rfl⟩ := Counter.isAt_iff.mp hc
    have gone : ∀ y ∈ rest, y.isAt c.die c.k = false := fun y hy => by simpa using (List.mem_filter.mp hy).2
    split
    · next hb =>
      rw [List.find?_eq_none.mpr (fun y hy => by simp [gone y hy])]
      exact hb.symm
    · rw [find?_insertSorted_of_match _ hc gone]
      rfl
  | false =>
    have kept : rest.find? (Counter.isAt d k) = s.counters.find? (Counter.isAt d k) := by
      rw [List.find?_filter]
      congr 1
      funext y
      cases hy : y.isAt d k with
      | false => simp
      | true =>
        obtain ⟨rfl, rfl⟩ := Counter.isAt_iff.mp hy
        have : y.isAt c.die c.k = false := by
          by_contra hyc
          obtain ⟨hd, hk⟩ := Counter.isAt_iff.mp (by simpa using hyc)
          exact absurd (Counter.isAt_iff.mpr ⟨hd.symm, hk.symm⟩) (by simp [hc])
        simp [this]
    rw [State.counter_eq]
    split
    · rw [kept]; rfl
    · rw [find?_insertSorted_of_not _ hc, kept]; rfl

/-- A counter cleared, as CNT_CLEAR clears it (R590). -/
def Counter.cleared (c : Counter) : Counter := { c with value := 0, ovf := false }

/-- Clearing counters of different places, one after the other, clears exactly those. -/
theorem State.counter_foldl_cleared (l : List Counter) (hl : (l.map (fun c => (c.die, c.k))).Nodup) (s : State) (d k : Nat) :
    (l.foldl (fun s c => s.setCounter c.cleared) s).counter d k =
      ((l.find? (Counter.isAt d k)).map Counter.cleared).getD (s.counter d k) := by
  induction l generalizing s with
  | nil => rfl
  | cons c l ih =>
    rw [List.map_cons, List.nodup_cons] at hl
    obtain ⟨hc, hl⟩ := hl
    rw [List.foldl_cons, ih hl, State.counter_setCounter, List.find?_cons]
    cases hat : c.isAt d k with
    | false =>
      have : c.cleared.isAt d k = false := hat
      simp [this]
    | true =>
      have none : l.find? (Counter.isAt d k) = none := by
        refine List.find?_eq_none.mpr (fun y hy hyat => hc ?_)
        obtain ⟨hd, hk⟩ := Counter.isAt_iff.mp hat
        obtain ⟨hyd, hyk⟩ := Counter.isAt_iff.mp hyat
        exact List.mem_map.mpr ⟨y, hy, by rw [hyd, hyk, hd, hk]⟩
      have : c.cleared.isAt d k = true := hat
      simp [none, this]

theorem State.foldl_cleared_frame (l : List Counter) (s : State) :
    { l.foldl (fun s c => s.setCounter c.cleared) s with counters := s.counters } = s := by
  induction l generalizing s with
  | nil => rfl
  | cons c l ih =>
    rw [List.foldl_cons]
    exact congrArg (fun t : State => { t with counters := s.counters }) (ih (s.setCounter c.cleared))

@[simp] theorem State.foldl_cleared_heldLo (l : List Counter) (s : State) :
    (l.foldl (fun s c => s.setCounter c.cleared) s).heldLo = s.heldLo := by
  have frame := congrArg State.heldLo (State.foldl_cleared_frame l s)
  exact frame

@[simp] theorem State.reg64_replyWith (s : State) (w a : Nat) : (s.replyWith w).reg64 a = s.reg64 a := rfl

theorem compact_lt (t : Nat) : compact t < 2 ^ 64 := Nat.mod_lt _ (Nat.two_pow_pos 64)

/-- Among listed counters that `q` selects by their place, the one at a place is found where `q` selects it. -/
theorem find?_isAt_filter {d k : Nat} {q : Counter → Bool} {b : Bool} (hq : ∀ c, Counter.isAt d k c = true → q c = b)
    (l : List Counter) : (l.filter q).find? (Counter.isAt d k) = if b then l.find? (Counter.isAt d k) else none := by
  rw [List.find?_filter]
  cases b with
  | false =>
    refine List.find?_eq_none.mpr (fun c _ => ?_)
    cases hc : Counter.isAt d k c with
    | false => simp
    | true => simp [hq c hc]
  | true =>
    rw [if_pos rfl]
    congr 1
    funext c
    cases hc : Counter.isAt d k c with
    | false => simp
    | true => simp [hq c hc]

/-- A counter once the counters of die `d` that a mask names are cleared. -/
theorem State.counter_clear (s t : State) (ht : t.counters = s.counters) (hs : (s.counters.map (fun c => (c.die, c.k))).Nodup)
    (d mask d' k : Nat) :
    ((s.counters.filter (fun c => c.die == d && bitAt mask c.k)).foldl (fun s c => s.setCounter c.cleared) t).counter d' k =
      if d' = d ∧ bitAt mask k = true then (s.counter d' k).cleared else s.counter d' k := by
  have nodup := (List.filter_sublist (l := s.counters) (p := fun c => c.die == d && bitAt mask c.k)).map
    (fun c => (c.die, c.k)) |>.nodup hs
  have selected : ∀ c, Counter.isAt d' k c = true → (c.die == d && bitAt mask c.k) = (d' == d && bitAt mask k) :=
    fun c hc => by obtain ⟨rfl, rfl⟩ := Counter.isAt_iff.mp hc; rfl
  rw [State.counter_foldl_cleared _ nodup, find?_isAt_filter selected, State.counter_eq t, ht, State.counter_eq s]
  by_cases h : d' = d ∧ bitAt mask k = true
  · simp only [h.1, h.2, beq_self_eq_true, Bool.and_self, if_true, and_self]
    cases s.counters.find? (Counter.isAt d k) <;> rfl
  · have : (d' == d && bitAt mask k) = false := by simpa using h
    simp [this, h]

/-- The low half that a commit of a pair of another kind takes: the held one, or 0 (R6). -/
theorem State.loForCommit_other (s : State) (lo : Nat) :
    s.loForCommit lo false = ((lookupKey lo s.heldLo).map BitVec.toNat).getD 0 := by
  unfold State.loForCommit
  cases lookupKey lo s.heldLo <;> rfl

/-- The latches that a read of `CNT_k_LO` leaves: the upper part of the counter with its overflow bit (R586). -/
def State.latchCounter (s : State) (d k : Nat) : State :=
  let c := s.counter d k
  { s with latches := putKey (counterPage d + 0x104 + 8 * k) (BitVec.ofNat 32 (c.value / 2 ^ 32 + b2n c.ovf * 2 ^ 31)) s.latches }

/-- CNT_LATCH of a live page (R586). -/
theorem effCntLatch_eq {d : Fin 4} {s : State} (k : Fin 64) (hr : s.readable = true) (hl : s.pageLost d.val = false) :
    effCntLatch d k s = ((s.latchCounter d.val k.val).setReg64 (counterPage d.val + 0x310) (compact s.now)).replyWith
      ((s.counter d.val k.val).value % 2 ^ 32) := by
  simp only [effCntLatch, hr, hl, Bool.not_true, Bool.or_self, Bool.false_eq_true, if_false]
  rfl

/-- A counter with the configuration of a written word: cleared where the event, unit number or mode changes (R583). -/
def Counter.configured (c : Counter) (v : Nat) : Counter :=
  let same := bitsOf v 0 8 = c.event ∧ bitsOf v 8 4 = c.instNo ∧ bitAt v 12 = c.level
  { c with
    event := bitsOf v 0 8, instNo := bitsOf v 8 4, level := bitAt v 12, sat := bitAt v 13
    value := if same then c.value else 0, ovf := if same then c.ovf else false }

/-- CNT_CFG_WRITE of a live page (R583). -/
theorem effCntCfgWrite_eq {d : Fin 4} {s : State} (k : Fin 64) (v : Word) (hu : s.up = true) (hl : s.pageLost d.val = false) :
    effCntCfgWrite d k v s = s.setCounter ((s.counter d.val k.val).configured v.toNat) := by
  have same (c : Counter) (ev inst : Nat) (lv : Bool) : (c.event == ev && c.instNo == inst && c.level == lv) =
      decide (ev = c.event ∧ inst = c.instNo ∧ lv = c.level) := by
    rw [Bool.eq_iff_iff]
    simp only [Bool.and_eq_true, beq_iff_eq, decide_eq_true_eq]
    exact ⟨fun ⟨⟨h1, h2⟩, h3⟩ => ⟨h1.symm, h2.symm, h3.symm⟩, fun ⟨h1, h2, h3⟩ => ⟨⟨h1.symm, h2.symm⟩, h3.symm⟩⟩
  have keep (P : Prop) [Decidable P] (b : Bool) : (decide P && b) = if P then b else false := by
    by_cases h : P <;> simp [h]
  simp only [effCntCfgWrite, hu, hl, Bool.not_true, Bool.or_self, Bool.false_eq_true, if_false, same, keep, decide_eq_true_eq]
  rfl

/-- CNT_CLEAR of a live page (R590). -/
theorem effCntClear_eq {d : Fin 4} {s : State} (hi : Word) (hu : s.up = true) (hl : s.pageLost d.val = false) :
    effCntClear d hi s =
      (s.counters.filter (fun c => c.die == d.val &&
        bitAt (((lookupKey (counterPage d.val + 0x308) s.heldLo).map BitVec.toNat).getD 0 + hi.toNat * 2 ^ 32) c.k)).foldl
        (fun s c => s.setCounter c.cleared) (s.consumeLo (counterPage d.val + 0x308)) := by
  simp only [effCntClear, hu, hl, Bool.not_true, Bool.or_self, Bool.false_eq_true, if_false, State.loForCommit_other]
  rfl

end Sys2Proof.Machine

open Sys2Proof Sys2Proof.Machine

/-- Settles O60: what the counter commands do to a live page, through `setCounter`, and that a lost page answers 0. -/
theorem countersLatchConfigureAndClear : Obligations.CountersLatchConfigureAndClear := by
  refine ⟨fun d k s hr hl => ?_, fun d k v s hu hl => ?_, fun d hi s hu hl hnodup => ?_,
    fun d k s hu hl => ⟨?_, fun v => ?_, fun hi => ?_⟩⟩
  · refine ⟨_, congrArg Host.Outcome.next (effCntLatch_eq k hr hl), rfl, ?_, ?_, ?_⟩
    · simp only [State.replyWith_frame, State.setReg64_frame, State.latchCounter, lookupKey_putKey, if_true]
    · rw [State.reg64_replyWith, State.reg64_setReg64, Nat.mod_eq_of_lt (compact_lt s.now)]
    · simp only [State.latchCounter, State.setReg64, State.setReg, State.replyWith]
  · refine ⟨_, congrArg Host.Outcome.next (effCntCfgWrite_eq k v hu hl), ?_, fun d' k' hne => ?_, rfl⟩
    · exact (s.counter_setCounter _ _ _).trans (if_pos (s.counter_isAt d.val k.val))
    · refine (s.counter_setCounter _ _ _).trans (if_neg (fun h => ?_))
      obtain ⟨hd, hk⟩ := Counter.isAt_iff.mp (s.counter_isAt d.val k.val)
      obtain ⟨hd', hk'⟩ := Counter.isAt_iff.mp h
      exact hne.elim (fun hn => hn (hd'.symm.trans hd)) (fun hn => hn (hk'.symm.trans hk))
  · have clear := State.counter_clear s (s.consumeLo (counterPage d.val + 0x308)) rfl hnodup d.val
    refine ⟨_, congrArg Host.Outcome.next (effCntClear_eq hi hu hl), fun k _ => ?_, fun d' k hd => ?_, ?_, ?_⟩
    · rw [clear]
      simp only [true_and]
      rfl
    · rw [clear, if_neg (fun h => hd h.1)]
    · rw [State.foldl_cleared_heldLo]
      exact lookupKey_dropKey_self _ _
    · have frame := State.foldl_cleared_frame (s.counters.filter (fun c => c.die == d.val &&
        bitAt (((lookupKey (counterPage d.val + 0x308) s.heldLo).map BitVec.toNat).getD 0 + hi.toNat * 2 ^ 32) c.k))
        (s.consumeLo (counterPage d.val + 0x308))
      exact congrArg (fun t : State => { t with heldLo := s.heldLo }) frame
  · simp [exec, execCntLatch, effCntLatch, hl]
  · simp [exec, execCntCfgWrite, effCntCfgWrite, hl]
  · simp [exec, execCntClear, effCntClear, hl]

end

section
/-! SUPPORT. The parts of the state that a step edge settles, and the operations of registers, trail, memory and errors
that leave them alone. -/

namespace Sys2Proof.Machine

/-! What a step edge decides, apart from everything else that its work touches. -/

/-- The parts of the state that a step edge settles: the run, its image and its end, the initial values to come, the running
occurrences by cadence, step and close, the registers to commit, the steps lost, and what may be due at an edge. -/
structure EdgeView where
  run : Option Run
  image : Option Image
  endRun : Bool
  imageStart : Bool
  occs : List (Nat × Nat × Nat)
  shadowed : List Nat
  gapSteps : List Nat
  lostSteps : List (Nat × Nat)
  waiting : List WaitingCmd
  bist : Option Bist
  returning : List Nat

/-- An occurrence's cadence, step and close instant. -/
def Occurrence.key (o : Occurrence) : Nat × Nat × Nat := (o.cadence, o.step, o.close)

@[reducible] def State.edgeView (s : State) : EdgeView where
  run := s.steps.run
  image := s.steps.image
  endRun := s.steps.endRun
  imageStart := s.steps.imageStart
  occs := s.steps.occs.map Occurrence.key
  shadowed := s.shadowed
  gapSteps := s.trail.gapSteps
  lostSteps := s.trail.lostSteps
  waiting := s.sec.waiting
  bist := s.faults.bist
  returning := s.faults.returning

/-- Work that leaves the view alone item by item leaves it alone. -/
theorem edgeView_foldl {α : Type} (f : State → α → State) (hf : ∀ s x, (f s x).edgeView = s.edgeView) (l : List α)
    (s : State) : (l.foldl f s).edgeView = s.edgeView := by
  induction l generalizing s with
  | nil => rfl
  | cons x l ih => rw [List.foldl_cons, ih, hf]

theorem edgeView_foldl_fst {α β : Type} (f : State × β → α → State × β) (hf : ∀ a x, (f a x).1.edgeView = a.1.edgeView)
    (l : List α) (a : State × β) : (l.foldl f a).1.edgeView = a.1.edgeView := by
  induction l generalizing a with
  | nil => rfl
  | cons x l ih => rw [List.foldl_cons, ih, hf]

/-! Registers, counters and events. -/

@[simp] theorem State.edgeView_withSignal (s : State) (x : SignalUnit) :
    ({ s with signal := x } : State).edgeView = s.edgeView := by rfl
@[simp] theorem State.edgeView_withFusion (s : State) (x : Fusion) :
    ({ s with fusion := x } : State).edgeView = s.edgeView := by rfl

@[simp] theorem State.edgeView_setReg (s : State) (a v : Nat) : (s.setReg a v).edgeView = s.edgeView := by rfl
@[simp] theorem State.edgeView_setFld (s : State) (f : Fld) (v : Nat) : (s.setFld f v).edgeView = s.edgeView := by
  simp [State.setFld]
@[simp] theorem State.edgeView_satReg (s : State) (a n : Nat) : (s.satReg a n).edgeView = s.edgeView := by
  simp [State.satReg]
@[simp] theorem State.edgeView_setReg64 (s : State) (a v : Nat) : (s.setReg64 a v).edgeView = s.edgeView := by
  simp [State.setReg64]
@[simp] theorem State.edgeView_addReg64 (s : State) (a n : Nat) : (s.addReg64 a n).edgeView = s.edgeView := by
  simp [State.addReg64]
@[simp] theorem State.edgeView_answer (s : State) (b o c : Nat) : (s.answer b o c).edgeView = s.edgeView := by
  simp [State.answer, State.answerAt]
@[simp] theorem State.edgeView_setActive (s : State) (a v : Nat) : (s.setActive a v).edgeView = s.edgeView := by rfl
@[simp] theorem State.edgeView_updStats (s : State) (n : Nat) (f : StepStats → StepStats) :
    (s.updStats n f).edgeView = s.edgeView := by rfl

@[simp] theorem State.edgeView_msix (s : State) (v : Nat) : (s.msix v).edgeView = s.edgeView := by
  unfold State.msix
  split <;> rfl

@[simp] theorem State.edgeView_event (s : State) (off bit : Nat) (en : Bool) (vec : Nat) :
    (s.event off bit en vec).edgeView = s.edgeView := by
  unfold State.event
  cases en <;> simp

@[simp] theorem State.edgeView_count (s : State) (die ev inst n : Nat) : (s.count die ev inst n).edgeView = s.edgeView := by
  unfold State.count
  dsimp only
  split <;> rfl

/-! The trail. -/

@[simp] theorem State.edgeView_setHold (s : State) : s.setHold.edgeView = s.edgeView := by
  unfold State.setHold
  split
  · rfl
  · simp

theorem State.edgeView_trailAppend {s t : State} {d : TrailDraft} (h : s.trailAppend d = some t) : t.edgeView = s.edgeView := by
  unfold State.trailAppend at h
  dsimp only at h
  generalize s.finishDraft d = d' at h
  generalize hfree : (if d'.kind = kSeal then s.free + 1 else s.free) = fr at h
  generalize hfirst : (if d'.kind = kSeal then s.trail.nextSeq + 1 else s.trail.firstSeq) = fs at h
  split at h
  · split at h
    · cases h
      simp
    · cases h
      rfl
  · cases h

@[simp] theorem State.edgeView_holdDrafts (s : State) (ds : List TrailDraft) (b : Bool) :
    (s.holdDrafts ds b).edgeView = s.edgeView := by
  unfold State.holdDrafts
  simp

@[simp] theorem State.edgeView_trailPump (fuel : Nat) (s : State) (ds : List TrailDraft) :
    (State.trailPump fuel s ds).edgeView = s.edgeView := by
  induction fuel generalizing s ds with
  | zero => rfl
  | succ n ih =>
    unfold State.trailPump
    cases ds
    all_goals
      dsimp only
      split
      · rfl
      split
      · simp
      split
      · simp
      next t ht =>
        have step := State.edgeView_trailAppend ht
        split
        · exact step
        · rw [ih, step]

@[simp] theorem State.edgeView_trailWrite (s : State) (d : TrailDraft) : (s.trailWrite d).edgeView = s.edgeView := by
  unfold State.trailWrite
  split
  · split <;> rfl
  · split
    · rfl
    · simp

@[simp] theorem State.edgeView_record (s : State) (k o c n : Nat) (b : Bytes) : (s.record k o c n b).edgeView = s.edgeView := by
  simp [State.record]

@[simp] theorem State.edgeView_logInput (s : State) (i : Input) (m : Nat) (a : Option Nat) :
    (s.logInput i m a).edgeView = s.edgeView := by
  simp [State.logInput]

@[simp] theorem State.edgeView_countStall (s : State) (st : Stall) : (s.countStall st).edgeView = s.edgeView := by
  unfold State.countStall
  dsimp only
  rw [State.edgeView_record, edgeView_foldl _ (fun s d => by simp)]
  simp

/-! Memory, lanterns and checkpoints. -/

@[simp] theorem State.edgeView_touchTile (s : State) (t : Nat) : (s.touchTile t).edgeView = s.edgeView := by
  unfold State.touchTile
  split <;> rfl

@[simp] theorem State.edgeView_touchRange (s : State) (a n : Nat) : (s.touchRange a n).edgeView = s.edgeView := by
  unfold State.touchRange
  split
  · rfl
  · exact edgeView_foldl _ (fun s i => s.edgeView_touchTile _) _ _

@[simp] theorem State.edgeView_store (s : State) (a : Nat) (bs : Bytes) : (s.store a bs).edgeView = s.edgeView := by
  simp [State.store]

@[simp] theorem State.edgeView_setLantern (s : State) (l : LanternState) : (s.setLantern l).edgeView = s.edgeView := by rfl
@[simp] theorem State.edgeView_touchLantern (s : State) (k i : Nat) : (s.touchLantern k i).edgeView = s.edgeView := by rfl
@[simp] theorem State.edgeView_dropWait (s : State) (u i : Nat) : (s.dropWait u i).edgeView = s.edgeView := by rfl
@[simp] theorem State.edgeView_pauseWatchdogs (s : State) (k ns : Nat) : (s.pauseWatchdogs k ns).edgeView = s.edgeView := by rfl
@[simp] theorem State.edgeView_logUndo (s : State) (k a n : Nat) : (s.logUndo k a n).edgeView = s.edgeView := by rfl
@[simp] theorem State.edgeView_forgetTensors (s : State) (a n : Nat) : (s.forgetTensors a n).edgeView = s.edgeView := by rfl
@[simp] theorem State.edgeView_takeCheckpoint (s : State) (k n : Nat) : (s.takeCheckpoint k n).edgeView = s.edgeView := by rfl
@[simp] theorem State.edgeView_closeWindow (s : State) (w : LendWindow) : (s.closeWindow w).edgeView = s.edgeView := by rfl

@[simp] theorem State.edgeView_issueWait (s : State) (k u i : Nat) : (s.issueWait k u i).edgeView = s.edgeView := by
  unfold State.issueWait
  split <;> rfl

@[simp] theorem State.edgeView_fillLantern (s : State) (u i : Nat) : (s.fillLantern u i).edgeView = s.edgeView := by
  unfold State.fillLantern
  dsimp only
  split
  · split <;> rfl
  · rfl

@[simp] theorem State.edgeView_raiseLantern (s : State) (u i t n : Nat) : (s.raiseLantern u i t n).edgeView = s.edgeView := by
  unfold State.raiseLantern
  dsimp only
  split
  · split
    · simp
    · rfl
  · rfl

@[simp] theorem State.edgeView_dirtyTiles (s : State) (a n : Nat) : (s.dirtyTiles a n).edgeView = s.edgeView := by
  unfold State.dirtyTiles
  split
  · rfl
  · rw [edgeView_foldl _ fun s i => State.edgeView_setLantern _ _]

@[simp] theorem State.edgeView_writeBeats (s : State) (a n : Nat) : (s.writeBeats a n).edgeView = s.edgeView := by
  unfold State.writeBeats
  split
  · rfl
  · exact edgeView_foldl _ (fun s i => s.edgeView_count _ _ _ _) _ _

@[simp] theorem State.edgeView_tagRange (s : State) (a n t m u : Nat) : (s.tagRange a n t m u).edgeView = s.edgeView := by
  unfold State.tagRange
  split <;> rfl

@[simp] theorem State.edgeView_cstore (s : State) (k u a : Nat) (bs : Bytes) : (s.cstore k u a bs).edgeView = s.edgeView := by
  simp [State.cstore]

@[simp] theorem State.edgeView_scheduleWindows (s : State) : s.scheduleWindows.edgeView = s.edgeView := by
  unfold State.scheduleWindows
  dsimp only
  rw [edgeView_foldl _ State.edgeView_closeWindow]

/-! Errors of the hub die, which compiled work at a step edge can meet: the loss of a die ends the service (R554, R563). -/

@[simp] theorem State.edgeView_faultEvent (s : State) (b : Nat) : (s.faultEvent b).edgeView = s.edgeView := by
  simp [State.faultEvent]

@[simp] theorem State.edgeView_refreshStage (s : State) : s.refreshStage.edgeView = s.edgeView := by
  unfold State.refreshStage
  split
  · split <;> rfl
  · rfl

@[simp] theorem State.edgeView_newError (s : State) (r k : Nat) : (s.newError r k).2.edgeView = s.edgeView := by
  show (s.setReg64 0xE00040 s.faults.nextSeq).edgeView = s.edgeView
  simp

@[simp] theorem State.edgeView_serviceEnd (s : State) (e : ErrRec) (cause code : Nat) :
    (s.serviceEnd e cause code).edgeView = s.edgeView := by
  show (s.faultRecord e 6 cause 0 [] noSeq s.stepNow).edgeView = s.edgeView
  simp [State.faultRecord]

/-- A die that leaves service has no lendable memory of its own (R159). -/
theorem State.edgeView_markOut_die (s : State) (d : Nat) (hd : d < 4) : (s.markOut (dieRegion d)).edgeView = s.edgeView := by
  have none : lentMemoryOf (dieRegion d) = none := by
    unfold lentMemoryOf dieRegion
    rw [if_neg (by omega), if_neg (by omega)]
  unfold State.markOut State.takeOut
  split
  · rfl
  · rw [State.edgeView_refreshStage, State.closeWindowsOf, none]

/-- The quarantine of the hub die ends the service. -/
theorem State.edgeView_quarantine_hub (s : State) (e : ErrRec) (cause related : Nat) (w : Bool) (he : e.region = dieRegion 0) :
    (s.quarantine e cause related w).edgeView = s.edgeView := by
  have cls : regionClass (dieRegion 0) = 0xA := by decide
  have inst : regionInst (dieRegion 0) = 0 := by decide
  simp only [State.quarantine, he, cls, inst, State.loseDie, if_true, State.edgeView_serviceEnd, State.edgeView_faultEvent,
    State.edgeView_markOut_die _ 0 (by decide), State.edgeView_satReg]

/-- The count of errors that found the queue full (R567). -/
theorem State.edgeView_lostCount (s : State) (n r : Nat) :
    ({ s with faults := { s.faults with lostCount := n, lostRegion := r } } : State).edgeView = s.edgeView := by rfl

/-- A control error of the hub die is recorded, or ends the service when the error queue is full. -/
theorem State.edgeView_detect_hub (s : State) (cause addr : Nat) (detail : Bytes) (occs : List (Nat × Nat)) (lost : List Nat)
    (n : Nat) : (s.detect (dieRegion 0) 3 cause addr detail occs lost n).edgeView = s.edgeView := by
  unfold State.detect
  dsimp only
  simp only [show ¬(3 = 0) by decide, if_false, or_true, if_true]
  have noted : (((s.newError (dieRegion 0) 3).2.satReg 0xE00034 1).faultEvent 1).edgeView = s.edgeView := by simp
  rw [← noted]
  generalize ((s.newError (dieRegion 0) 3).2.satReg 0xE00034 1).faultEvent 1 = x
  split
  · simp [State.queueDepth]
  · rw [State.edgeView_quarantine_hub _ _ _ _ _ rfl]
    rw [State.edgeView_lostCount, State.edgeView_setFld, State.edgeView_satReg]

@[simp] theorem State.edgeView_orderError_hub (s : State) (i : Nat) (ctx : DescCtx) :
    (s.orderError (dieRegion 0) i ctx).edgeView = s.edgeView := by
  rw [State.orderError, State.edgeView_detect_hub, State.edgeView_event]

@[simp] theorem State.edgeView_storeTile_hub (s : State) (k u i : Nat) (bs : Bytes) :
    (s.storeTile (dieRegion 0) k u i bs).edgeView = s.edgeView := by
  unfold State.storeTile
  split <;> simp

end Sys2Proof.Machine

end

section
/-! SUPPORT. The close of a cadence leaves alone what a step edge settles: sessions, inputs, raw inputs and signal chains. -/

namespace Sys2Proof.Machine

/-! Sessions: the fate of an input reaches the frames that carried it. -/

@[simp] theorem State.edgeView_setSession (s : State) (x : Session) : (s.setSession x).edgeView = s.edgeView := by rfl
@[simp] theorem State.edgeView_send (s : State) (f : TxFrame) : (s.send f).edgeView = s.edgeView := by rfl
@[simp] theorem State.edgeView_pruneAhead (s : State) : s.pruneAhead.edgeView = s.edgeView := by rfl

@[simp] theorem State.edgeView_sendTether (s : State) (sid ty : Nat) (b : Bytes) :
    (s.sendTether sid ty b).edgeView = s.edgeView := by
  unfold State.sendTether State.sendOn
  split
  · rfl
  · split <;> simp

@[simp] theorem State.edgeView_sendRanges (fuel : Nat) (s : State) (sid : Nat) (rs : List (Nat × Nat × AckEntry)) :
    (State.sendRanges fuel s sid rs).edgeView = s.edgeView := by
  induction fuel generalizing s rs with
  | zero => rfl
  | succ n ih =>
    unfold State.sendRanges
    split
    · rfl
    · rw [ih, State.edgeView_sendTether]

@[simp] theorem State.edgeView_flushAcks (s : State) (sid : Nat) : (s.flushAcks sid).edgeView = s.edgeView := by
  unfold State.flushAcks
  split
  · rfl
  · simp

@[simp] theorem State.edgeView_reportFrame (s : State) (sid : Nat) (a : AckEntry) (u : Bool) :
    (s.reportFrame sid a u).edgeView = s.edgeView := by
  unfold State.reportFrame
  dsimp only
  split
  · simp
  · simp [apply_ite State.edgeView]

@[simp] theorem State.edgeView_settlePart (s : State) (sid seq : Nat) (got : Bool) (cause : Nat) :
    (s.settlePart sid seq got cause).edgeView = s.edgeView := by
  unfold State.settlePart
  split
  · rfl
  · split
    · rfl
    · dsimp only
      split <;> simp

@[simp] theorem State.edgeView_settleInput (s : State) (i : Input) : (s.settleInput i).edgeView = s.edgeView := by
  unfold State.settleInput
  rw [edgeView_foldl _ fun s q => State.edgeView_settlePart _ _ _ _ _]

/-! Inputs: their counts, the archive, and admission. -/

@[simp] theorem State.edgeView_addInput (s : State) (i : Input) : (s.addInput i).edgeView = s.edgeView := by rfl
@[simp] theorem State.edgeView_dropInput (s : State) (i : Input) : (s.dropInput i).edgeView = s.edgeView := by rfl

theorem State.edgeView_seen (s : State) (x : List (Nat × Nat × Nat)) :
    ({ s with steps := { s.steps with seen := x } } : State).edgeView = s.edgeView := by rfl

@[simp] theorem State.edgeView_noteLate (s : State) (k n slot stream : Nat) :
    (s.noteLate k n slot stream).edgeView = s.edgeView := by
  unfold State.noteLate
  dsimp only
  split <;> rfl

@[simp] theorem State.edgeView_countInput (s : State) (i : Input) (c n : Nat) :
    (s.countInput i c n).1.edgeView = s.edgeView := by
  unfold State.countInput
  dsimp only
  split <;> split <;> simp

@[simp] theorem State.edgeView_exclude (s : State) (i : Input) (ks : List Nat) (n c : Nat) (rs : List (Nat × Nat)) :
    (s.exclude i ks n c rs).1.edgeView = s.edgeView := by
  unfold State.exclude
  dsimp only
  rw [State.edgeView_trailWrite]
  split
  · rw [edgeView_foldl _ fun s k => State.edgeView_noteLate _ _ _ _ _, State.edgeView_countInput]
  · rw [State.edgeView_countInput]

theorem State.edgeView_archiveAppend {s t : State} {bs : Bytes} (h : s.archiveAppend bs = some t) : t.edgeView = s.edgeView := by
  unfold State.archiveAppend at h
  dsimp only at h
  split at h
  · cases h
    rw [State.edgeView_setReg]
    split <;> simp
  · cases h

@[simp] theorem State.edgeView_archive (s : State) (bs : Bytes) : (s.archive bs).1.edgeView = s.edgeView := by
  unfold State.archive
  dsimp only
  split
  · split
    · next t ht => exact State.edgeView_archiveAppend ht
    · simp
  · simp

@[simp] theorem State.edgeView_finishInput (s : State) (i : Input) : (s.finishInput i).edgeView = s.edgeView := by
  unfold State.finishInput
  dsimp only
  rw [State.edgeView_settleInput]
  split
  · rfl
  · split
    · rfl
    · simp

@[simp] theorem State.edgeView_keepInput (s : State) (i : Input) : (s.keepInput i).edgeView = s.edgeView := by
  unfold State.keepInput
  split <;> simp

@[simp] theorem State.edgeView_excludeWhole (s : State) (i : Input) (n c : Nat) :
    (s.excludeWhole i n c).edgeView = s.edgeView := by
  simp [State.excludeWhole, State.excludeFrom]

@[simp] theorem State.edgeView_fusionEvent (s : State) (b : Nat) : (s.fusionEvent b).edgeView = s.edgeView := by
  simp [State.fusionEvent]

@[simp] theorem State.edgeView_queueSample (s : State) (n i t : Nat) (v : List Nat) :
    (s.queueSample n i t v).edgeView = s.edgeView := by rfl

@[simp] theorem State.edgeView_fusionAdmit (s : State) (n slot stream t r : Nat) (p : Bytes) :
    (s.fusionAdmit n slot stream t r p).edgeView = s.edgeView := by
  unfold State.fusionAdmit
  refine edgeView_foldl _ (fun s i => ?_) _ _
  split
  · rfl
  · split
    · rfl
    · split <;> simp

@[simp] theorem State.edgeView_feedInput (s : State) (i : Input) (k n : Nat) : (s.feedInput i k n).edgeView = s.edgeView := by
  unfold State.feedInput State.addFrame
  split
  · rfl
  · rw [State.edgeView_fusionAdmit]
    split <;> rfl

@[simp] theorem State.edgeView_archiveInput (s : State) (i : Input) : (s.archiveInput i).1.edgeView = s.edgeView := by
  unfold State.archiveInput
  split
  · simp
  · rfl

@[simp] theorem State.edgeView_admitFor (s : State) (i : Input) (k n : Nat) : (s.admitFor i k n).1.edgeView = s.edgeView := by
  unfold State.admitFor
  dsimp only
  simp only [apply_ite Prod.fst, apply_ite State.edgeView, State.edgeView_feedInput, State.edgeView_archiveInput,
    State.edgeView_seen, State.edgeView_countInput, ite_self]

/-! Raw inputs and the signal chains. -/

@[simp] theorem State.edgeView_logRaw (s : State) (h : RawHold) : (s.logRaw h).edgeView = s.edgeView := by
  unfold State.logRaw
  dsimp only
  split
  · split <;> rfl
  · split
    · rfl
    · split <;> simp

@[simp] theorem State.edgeView_flushRaw (s : State) : s.flushRaw.edgeView = s.edgeView := by
  unfold State.flushRaw
  rw [edgeView_foldl _ State.edgeView_logRaw]

@[simp] theorem State.edgeView_closeOne (k n : Nat) (a : State × List Input) (x : Input ⊕ RawHold) :
    (State.closeOne k n a x).1.edgeView = a.1.edgeView := by
  cases x <;> simp [State.closeOne]

@[simp] theorem State.edgeView_closeInputs (s : State) (k n : Nat) : (s.closeInputs k n).1.edgeView = s.edgeView := by
  unfold State.closeInputs
  dsimp only
  rw [edgeView_foldl_fst _ (State.edgeView_closeOne k n)]

/-- Of a cause and 0x04, one is reported. -/
theorem pickCause_late_ne_zero (c : Nat) : pickCause [c, 4] ≠ 0 := by
  simp only [pickCause, List.foldl]
  split
  · decide
  · next h =>
    rintro rfl
    exact h (by decide)

/-- An assembly that is shed leaves the view as it is. -/
theorem State.edgeView_endAssembly_shed (s : State) (sid : Nat) (t : TetherStream) (g : Assembly) {c : Nat} (hc : c ≠ 0) :
    (s.endAssembly sid t g c).edgeView = s.edgeView := by
  unfold State.endAssembly
  split
  · rfl
  · simp [hc]

@[simp] theorem State.edgeView_shedIncomplete (s : State) : s.shedIncomplete.edgeView = s.edgeView := by
  unfold State.shedIncomplete
  split
  · rfl
  · refine edgeView_foldl _ (fun s x => edgeView_foldl _ (fun s g => ?_) _ _) _ _
    split
    · rfl
    · dsimp only
      split
      · exact State.edgeView_endAssembly_shed _ _ _ _ (pickCause_late_ne_zero _)
      · rfl

@[simp] theorem State.edgeView_setChan (s : State) (c : Channel) : (s.setChan c).edgeView = s.edgeView := by rfl
@[simp] theorem State.edgeView_pruneOuts (s : State) : s.pruneOuts.edgeView = s.edgeView := by rfl

@[simp] theorem State.edgeView_signalEvent (s : State) (b : Nat) : (s.signalEvent b).edgeView = s.edgeView := by
  simp [State.signalEvent]

@[simp] theorem State.edgeView_decideGlint (s : State) (c : Nat) (e : Decided) : (s.decideGlint c e).edgeView = s.edgeView := by
  unfold State.decideGlint
  split
  · simp
  · rfl

@[simp] theorem State.edgeView_countSat (s : State) (n : Nat) : (s.countSat n).edgeView = s.edgeView := by
  unfold State.countSat
  split
  · rfl
  · simp

@[simp] theorem State.edgeView_lateOutput (s : State) (d : ChannelDecl) (cl : List (Nat × Nat)) (o : ChanOut) :
    (s.lateOutput d cl o).1.edgeView = s.edgeView := by
  unfold State.lateOutput
  refine edgeView_foldl_fst _ (fun a p => ?_) _ _
  split
  · split
    · simp
    · rfl
  · rfl

@[simp] theorem State.edgeView_absorb (s : State) (d : ChannelDecl) (e : Entered) : (s.absorb d e).edgeView = s.edgeView := by
  unfold State.absorb
  dsimp only
  rw [State.edgeView_setChan, edgeView_foldl_fst, edgeView_foldl, State.edgeView_countSat]
  · exact fun s g => s.edgeView_decideGlint _ _
  · exact fun a o => a.1.edgeView_lateOutput _ _ _

@[simp] theorem State.edgeView_writeSignalTiles (s : State) (d : ChannelDecl) (ch : Chain) (c : Channel) (k n lo hi : Nat)
    (outs : List ChanOut) : (s.writeSignalTiles d ch c k n lo hi outs).edgeView = s.edgeView := by
  unfold State.writeSignalTiles
  refine edgeView_foldl _ (fun s p => edgeView_foldl _ (fun s q => ?_) _ _) _ _
  rw [State.edgeView_raiseLantern, State.edgeView_storeTile_hub]

@[simp] theorem State.edgeView_closeChannel (s : State) (img : Image) (d : ChannelDecl) (k n lo hi a : Nat) :
    (s.closeChannel img d k n lo hi a).edgeView = s.edgeView := by
  unfold State.closeChannel
  split
  · rfl
  next c _ =>
  extract_lets _ t _ _
  by_cases out : s.signal.lanesOut.contains (laneOf d.index)
  · rw [if_pos out]
    split <;> simp
  rw [if_neg out]
  have taken : t.edgeView = s.edgeView := by
    simp only [t]
    split
    · rfl
    · split <;> simp
  rw [← taken]
  split
  · rfl
  · simp [apply_ite State.edgeView]

@[simp] theorem State.edgeView_markFed (s : State) (ds : List ChannelDecl) (t : Nat) :
    (s.markFed ds t).edgeView = s.edgeView := by
  unfold State.markFed
  refine edgeView_foldl _ (fun s d => ?_) _ _
  split <;> rfl

@[simp] theorem State.edgeView_feedFusion (k n : Nat) (s : State) (p : Nat × Nat) :
    (State.feedFusion k n s p).edgeView = s.edgeView := by
  unfold State.feedFusion
  dsimp only
  split
  · rfl
  · refine edgeView_foldl _ (fun s t => ?_) _ _
    split
    · rfl
    · rw [State.edgeView_markFed, edgeView_foldl _ fun s i => State.edgeView_queueSample _ _ _ _ _]

@[simp] theorem State.edgeView_answerSignal (s : State) (n : Nat) : (s.answerSignal n).edgeView = s.edgeView := by
  unfold State.answerSignal
  dsimp only
  split
  · rfl
  · rw [State.edgeView_withSignal, State.edgeView_answer]

@[simp] theorem State.edgeView_signalClose (s : State) (k n : Nat) : (s.signalClose k n).edgeView = s.edgeView := by
  unfold State.signalClose
  split
  · next img _ _ _ _ _ =>
    dsimp only
    generalize hc : List.foldl _ s _ = t
    have closed : t.edgeView = s.edgeView := by
      rw [← hc, edgeView_foldl _ fun s d => State.edgeView_closeChannel _ _ _ _ _ _ _ _]
    rw [← closed]
    split <;> split <;> simp [edgeView_foldl _ (State.edgeView_feedFusion k n)]
  · rfl

end Sys2Proof.Machine

end

section
/-! SUPPORT. So do fusion work, the outputs of a skipped occurrence, and what else an edge does on its way. -/

namespace Sys2Proof.Machine

/-! Fusion work at a step edge. -/

@[simp] theorem State.edgeView_alignEdge (s : State) (ts : Nat) (xs : List (Nat × Nat × Int × Int × Int)) :
    (s.alignEdge ts xs).edgeView = s.edgeView := by
  unfold State.alignEdge
  dsimp only
  split <;> simp

@[simp] theorem State.edgeView_alignLost (s : State) (ts : Nat) : (s.alignLost ts).edgeView = s.edgeView := by rfl
@[simp] theorem State.edgeView_addSample (s : State) (i stamp : Nat) (v : List Nat) :
    (s.addSample i stamp v).edgeView = s.edgeView := by rfl
@[simp] theorem State.edgeView_takePoses (s : State) : s.takePoses.edgeView = s.edgeView := by rfl

@[simp] theorem State.edgeView_feedDue (s : State) (n : Nat) : (s.feedDue n).edgeView = s.edgeView := by
  unfold State.feedDue
  exact edgeView_foldl _ (fun s x => s.edgeView_addSample _ _ _) _ _

@[simp] theorem State.edgeView_keepVerdict (s : State) : s.keepVerdict.edgeView = s.edgeView := by
  unfold State.keepVerdict
  split <;> rfl

@[simp] theorem State.edgeView_fusionStep (s : State) (ts : Nat) (q : List Quality) (al : List AlignState) :
    (s.fusionStep ts q al).edgeView = s.edgeView := by
  unfold State.fusionStep
  dsimp only
  split <;> split <;> simp

@[simp] theorem State.edgeView_fusionWrite (s : State) (w : FusionWrite) : (s.fusionWrite w).edgeView = s.edgeView := by
  unfold State.fusionWrite
  dsimp only
  split
  · rw [edgeView_foldl _ fun s i => State.edgeView_raiseLantern _ _ _ _ _, State.edgeView_cstore,
      edgeView_foldl _ fun s i => by simp]
  · rw [State.edgeView_withFusion, edgeView_foldl]
    intro s i
    split <;> simp

@[simp] theorem State.edgeView_writeStreamState (s : State) (o : Occurrence) : (s.writeStreamState o).edgeView = s.edgeView := by
  unfold State.writeStreamState
  split
  · rfl
  · dsimp only
    split <;> simp only [edgeView_foldl _ fun s a => State.edgeView_fusionWrite s _]

/-- The step that fusion has begun. -/
theorem State.edgeView_fusedStep (s : State) (n : Option Nat) :
    ({ s with steps := { s.steps with fusedStep := n } } : State).edgeView = s.edgeView := by rfl

@[simp] theorem State.edgeView_beginFusion (s : State) (o : Occurrence) : (s.beginFusion o).edgeView = s.edgeView := by
  unfold State.beginFusion
  dsimp only
  split <;> simp only [State.edgeView_writeStreamState, State.edgeView_fusedStep, State.edgeView_fusionStep,
    State.edgeView_feedDue, State.edgeView_keepVerdict]

/-- Other running occurrences. -/
theorem State.edgeView_withOccs (s : State) (x : List Occurrence) :
    ({ s with steps := { s.steps with occs := x } } : State).edgeView = { s.edgeView with occs := x.map Occurrence.key } := by
  rfl

/-- Work on an occurrence keeps its cadence, step and close. -/
theorem State.edgeView_updOcc (s : State) (k n : Nat) (f : Occurrence → Occurrence) (hf : ∀ o, (f o).key = o.key) :
    (s.updOcc k n f).edgeView = s.edgeView := by
  have keys : s.steps.occs.map (fun o => (if o.cadence = k ∧ o.step = n then f o else o).key) =
      s.steps.occs.map Occurrence.key := by
    refine List.map_congr_left fun o _ => ?_
    split
    · exact hf o
    · rfl
  unfold State.updOcc
  dsimp only
  rw [State.edgeView_withOccs, List.map_map]
  simp only [Function.comp_def, keys]

/-- What an occurrence has begun is not of its cadence, step and close. -/
theorem Occurrence.key_begun (o : Occurrence) : ({ o with begun := true } : Occurrence).key = o.key := by rfl

/-- Neither is its schedule. -/
theorem Occurrence.key_scheduled (o : Occurrence) (schedule compiledEnd : Nat) :
    ({ o with schedule := schedule, compiledEnd := compiledEnd } : Occurrence).key = o.key := by rfl

theorem State.key_onSchedule (s : State) (o : Occurrence) : (s.onSchedule o).key = o.key :=
  o.key_scheduled s.faults.schedule (s.compiledEndOf o.cadence o.close)

/-- An occurrence whose work begins is on the schedule of the moment. -/
theorem State.edgeView_begun (s : State) (k n : Nat) :
    (s.updOcc k n (fun o => { s.onSchedule o with begun := true })).edgeView = s.edgeView :=
  s.edgeView_updOcc k n _ fun o => (s.onSchedule o).key_begun.trans (s.key_onSchedule o)

@[simp] theorem State.edgeView_beginWork (s : State) (k n : Nat) : (s.beginWork k n).edgeView = s.edgeView := by
  unfold State.beginWork
  split
  · rfl
  · dsimp only
    rw [State.edgeView_takeCheckpoint]
    split
    · rw [State.edgeView_beginFusion, State.edgeView_begun]
    · rw [State.edgeView_begun]

@[simp] theorem State.edgeView_beginNext (s : State) (k : Nat) : (s.beginNext k).edgeView = s.edgeView := by
  unfold State.beginNext
  split
  · split <;> simp
  · rfl

@[simp] theorem State.edgeView_beginWaiting (s : State) : s.beginWaiting.edgeView = s.edgeView := by
  unfold State.beginWaiting
  rw [edgeView_foldl _ State.edgeView_beginNext]

/-! What else an edge does on its way. -/

@[simp] theorem State.edgeView_noteFloors (s : State) : s.noteFloors.edgeView = s.edgeView := by
  unfold State.noteFloors
  refine edgeView_foldl _ (fun s p => ?_) _ _
  split <;> simp

@[simp] theorem State.edgeView_setFloor (s : State) (f v : Nat) : (s.setFloor f v).edgeView = s.edgeView := by
  unfold State.setFloor
  dsimp only
  split
  · rfl
  · rw [State.edgeView_record, State.edgeView_withFusion]

@[simp] theorem State.edgeView_refreshFloors (s : State) : s.refreshFloors.edgeView = s.edgeView := by
  unfold State.refreshFloors
  rw [edgeView_foldl _ fun s f => State.edgeView_setFloor _ _ _]

@[simp] theorem State.edgeView_endFloors (s : State) : s.endFloors.edgeView = s.edgeView := by
  unfold State.endFloors
  dsimp only
  rw [State.edgeView_refreshFloors]
  split <;> rfl

@[simp] theorem State.edgeView_noteCalibrations (s : State) (n : Nat) : (s.noteCalibrations n).edgeView = s.edgeView := by rfl
@[simp] theorem State.edgeView_noteGlints (s : State) (n : Nat) : (s.noteGlints n).edgeView = s.edgeView := by rfl

@[simp] theorem State.edgeView_notePegs (s : State) (n : Nat) : (s.notePegs n).edgeView = s.edgeView := by
  unfold State.notePegs
  dsimp only
  split
  · split <;> rfl
  · rfl

@[simp] theorem State.edgeView_laneEdge (s : State) : s.laneEdge.edgeView = s.edgeView := by
  unfold State.laneEdge
  dsimp only
  split <;> simp

@[simp] theorem State.edgeView_signalLoads (s : State) (img : Image) : (s.signalLoads img).edgeView = s.edgeView := by
  unfold State.signalLoads
  dsimp only
  rw [edgeView_foldl _ fun s k => State.edgeView_setReg _ _ _]
  simp

@[simp] theorem State.edgeView_startChannels (s : State) (img : Image) : (s.startChannels img).edgeView = s.edgeView := by
  simp [State.startChannels]

@[simp] theorem State.edgeView_arraysAtEdge (s : State) : s.arraysAtEdge.edgeView = s.edgeView := by
  unfold State.arraysAtEdge
  rw [edgeView_foldl _ fun s a => State.edgeView_setReg _ _ _]

/-- The vision units' state. -/
theorem State.edgeView_withVision (s : State) (x : List VisionUnit) : ({ s with vision := x } : State).edgeView = s.edgeView := by
  rfl

@[simp] theorem State.edgeView_countEdge (s : State) : s.countEdge.edgeView = s.edgeView := by
  unfold State.countEdge
  dsimp only
  rw [edgeView_foldl _ fun s d => State.edgeView_count _ _ _ _ _, State.edgeView_withVision, State.edgeView_arraysAtEdge]

/-- A restart of the signal chains taken up. -/
theorem State.edgeView_restarted (s : State) (b : Bool) :
    ({ s.restartChannels with trail := { s.trail with restartSignal := b } } : State).edgeView = s.edgeView := by rfl

/-! The output of a skipped occurrence. -/

/-- What the output ring holds. -/
theorem State.edgeView_withOut (s : State) (x : Outputs) : ({ s with out := x } : State).edgeView = s.edgeView := by rfl

@[simp] theorem State.edgeView_emitOutput (s : State) (o : OutRec) : (s.emitOutput o).edgeView = s.edgeView := by
  unfold State.emitOutput
  extract_lets _ _ _ counted written _
  have noted : written.edgeView = s.edgeView := by
    rw [State.edgeView_trailWrite, State.edgeView_withOut]
  rw [← noted]
  split
  · rw [State.edgeView_withOut]
  · rw [State.edgeView_event, State.edgeView_addReg64]

@[simp] theorem State.edgeView_emitFor (s : State) (o : Occurrence) (v : StepVerdict) (rtype f tenant stream conf : Nat)
    (payload : Bytes) : (s.emitFor o v rtype f tenant stream conf payload).edgeView = s.edgeView := by
  unfold State.emitFor
  split <;> simp

/-- The steps' statistics and sums. -/
theorem State.edgeView_withSums (s : State) (x : List StepStats) (y : List Nat) :
    ({ s with steps := { s.steps with stats := x, openSums := y } } : State).edgeView = s.edgeView := by rfl

@[simp] theorem State.edgeView_emitSummary (s : State) (o : Occurrence) : (s.emitSummary o).edgeView = s.edgeView := by
  unfold State.emitSummary
  dsimp only
  rw [State.edgeView_withSums, State.edgeView_emitFor]

@[simp] theorem State.edgeView_noteSkip (s : State) (k n lag : Nat) : (s.noteSkip k n lag).edgeView = s.edgeView := by
  simp [State.noteSkip]

end Sys2Proof.Machine

end

section
/-! SUPPORT. What a step edge changes: a lost step, the close, the commit, and the occurrence that begins. -/

namespace Sys2Proof.Machine

/-! What changes the view at a step edge: a lost step, the close, the commit, and the occurrence that begins. -/

def EdgeView.cadences (v : EdgeView) : List CadenceDecl := (v.image.map (·.cadences)).getD []

/-- Step `n` is lost to a trail hold (R90). -/
def EdgeView.lose (v : EdgeView) (n : Nat) : EdgeView :=
  { v with gapSteps := v.gapSteps ++ [n], lostSteps := (n, n) :: v.lostSteps }

/-- Cadence `k` has closed at step `n`, and closes next one multiple later (R52). -/
def EdgeView.closed (v : EdgeView) (k n : Nat) : EdgeView :=
  let upd (r : Run) : Run := { r with nextClose := r.nextClose.set k (n + max 1 (v.cadences.getD k default).multiple) }
  { v with run := v.run.map upd }

/-- The registers written, and the image's initial values, are committed (R10). -/
def EdgeView.committed (v : EdgeView) : EdgeView := { v with shadowed := [], imageStart := false }

def EdgeView.stepLost (v : EdgeView) (n : Nat) : Bool := v.lostSteps.any (fun r => decide (r.1 ≤ n ∧ n ≤ r.2))

/-- The key of the occurrence that begins as cadence `k` closes at step `n`. -/
def EdgeView.newKey (v : EdgeView) (k n : Nat) : Nat × Nat × Nat :=
  (k, n, (v.run.map (fun r => r.close (v.cadences.getD k default) n)).getD 0)

/-- Nothing but the step itself falls due at the edge of step `n`. -/
structure EdgeView.Quiet (v : EdgeView) (n : Nat) : Prop where
  endRun : v.endRun = false
  waiting : ∀ w ∈ v.waiting, n < w.due
  bist : v.bist = none
  returning : v.returning = []

theorem State.edgeView_loseStep (s : State) (n : Nat) : (s.loseStep n).edgeView = s.edgeView.lose n := by
  unfold State.loseStep
  dsimp only
  rw [edgeView_foldl _ fun s k => State.edgeView_pauseWatchdogs _ _ _, State.edgeView_countStall]
  rfl

/-- The run at a close. -/
theorem State.edgeView_withRun (s : State) (r : Option Run) :
    ({ s with steps := { s.steps with run := r } } : State).edgeView = { s.edgeView with run := r } := by rfl

theorem State.edgeView_closeOcc (s : State) (k n : Nat) : (s.closeOcc k n).1.edgeView = s.edgeView.closed k n := by
  unfold State.closeOcc
  dsimp only
  rw [State.edgeView_pruneAhead, State.edgeView_shedIncomplete, State.edgeView_closeInputs, State.edgeView_signalClose,
    State.edgeView_withRun]
  rfl

@[simp] theorem State.edgeView_applyInit (s : State) (img : Image) : (s.applyInit img).edgeView = s.edgeView := by
  unfold State.applyInit
  refine edgeView_foldl _ (fun s r => ?_) _ _
  dsimp only
  split <;> simp

@[simp] theorem State.edgeView_commitReg (s : State) (off : Nat) : (s.commitReg off).edgeView = s.edgeView := by
  simp [State.commitReg]

/-- The registers committed. -/
theorem State.edgeView_committed (s : State) :
    ({ s with shadowed := [], steps := { s.steps with imageStart := false } } : State).edgeView = s.edgeView.committed := by rfl

theorem State.edgeView_commitConfig (s : State) (n : Nat) : (s.commitConfig n).edgeView = s.edgeView.committed := by
  unfold State.commitConfig
  dsimp only
  rw [State.edgeView_updStats, edgeView_foldl _ fun s c => State.edgeView_record _ _ _ _ _ _, State.edgeView_committed,
    edgeView_foldl _ State.edgeView_commitReg]
  split <;> simp

theorem State.edgeView_edgeWork (s : State) (n : Nat) : (s.edgeWork n).edgeView = s.edgeView.committed := by
  simp [State.edgeWork, State.edgeView_commitConfig]

/-! The occurrence that begins. -/

theorem State.edgeView_addOcc (s : State) (o : Occurrence) :
    (s.addOcc o).edgeView = { s.edgeView with occs := s.edgeView.occs ++ [o.key] } := by
  unfold State.addOcc
  dsimp only
  rw [State.edgeView_updStats, State.edgeView_withOccs, List.map_append]
  rfl

theorem State.key_newOcc (s : State) (k n : Nat) (is : List Input) (q : List Quality) :
    (s.newOcc k n is q).key = s.edgeView.newKey k n := by
  unfold State.newOcc
  rfl

/-- Outputs that a gap leaves out. -/
theorem State.edgeView_gapOutputs (s : State) (n : Nat) :
    ({ s with trail := { s.trail with gapOutputs := n } } : State).edgeView = s.edgeView := by rfl

/-- `CADENCE_0` at the close of a lost step (R90). -/
theorem State.startOcc_lost {s : State} {n : Nat} {is : List Input} {q : List Quality} (lost : s.stepLost n = true) :
    s.startOcc 0 n is q = { s with trail := { s.trail with gapOutputs := s.trail.gapOutputs + s.declaredOutputs 0 } } := by
  simp [State.startOcc, lost]

/-- `CADENCE_0` at its close where none of it runs. -/
theorem State.startOcc_free {s : State} {n : Nat} {is : List Input} {q : List Quality} (kept : s.stepLost n = false)
    (free : s.steps.occs.find? (fun x => x.cadence == 0) = none) :
    s.startOcc 0 n is q = (s.addOcc (s.newOcc 0 n is q)).beginNext 0 := by
  simp [State.startOcc, kept, free]

/-- `CADENCE_0` at its close behind an occurrence that lags: it is skipped, or waits. -/
theorem State.startOcc_behind {s : State} {n : Nat} {is : List Input} {q : List Quality} {p : Occurrence}
    (kept : s.stepLost n = false) (found : s.steps.occs.find? (fun x => x.cadence == 0) = some p) :
    s.startOcc 0 n is q =
      if s.lagLimit 0 < s.now - p.compiledEnd then
        (s.noteSkip 0 n ((s.now - p.compiledEnd) / nsUnits)).emitSummary (s.newOcc 0 n is q)
      else s.addOcc (s.newOcc 0 n is q) := by
  simp [State.startOcc, kept, found]

/-- No occurrence begins in a lost step. -/
theorem State.edgeView_startOcc_lost (s : State) (n : Nat) (is : List Input) (q : List Quality)
    (lost : s.edgeView.stepLost n = true) : (s.startOcc 0 n is q).edgeView = s.edgeView := by
  rw [State.startOcc_lost lost, State.edgeView_gapOutputs]

/-- The occurrence begins where the step is not lost and none of `CADENCE_0` runs. -/
theorem State.edgeView_startOcc_free (s : State) (n : Nat) (is : List Input) (q : List Quality)
    (kept : s.edgeView.stepLost n = false) (free : ∀ x ∈ s.edgeView.occs, x.1 ≠ 0) :
    (s.startOcc 0 n is q).edgeView = { s.edgeView with occs := s.edgeView.occs ++ [s.edgeView.newKey 0 n] } := by
  have none : s.steps.occs.find? (fun x => x.cadence == 0) = none := by
    rw [List.find?_eq_none]
    intro o ho
    have := free o.key (List.mem_map_of_mem ho)
    simpa [Occurrence.key] using this
  rw [State.startOcc_free kept none, State.edgeView_beginNext, State.edgeView_addOcc, State.key_newOcc]

/-- What `CADENCE_0` begins at its close is an occurrence more, or nothing. -/
theorem State.edgeView_startOcc (s : State) (n : Nat) (is : List Input) (q : List Quality) :
    ∃ more, (s.startOcc 0 n is q).edgeView = { s.edgeView with occs := s.edgeView.occs ++ more } := by
  have unchanged : s.edgeView = { s.edgeView with occs := s.edgeView.occs ++ [] } := by rw [List.append_nil]
  cases lost : s.stepLost n with
  | true => exact ⟨[], (s.edgeView_startOcc_lost n is q lost).trans unchanged⟩
  | false =>
    cases found : s.steps.occs.find? (fun x => x.cadence == 0) with
    | none =>
      refine ⟨[(s.newOcc 0 n is q).key], ?_⟩
      rw [State.startOcc_free lost found, State.edgeView_beginNext, State.edgeView_addOcc]
    | some p =>
      rw [State.startOcc_behind lost found]
      split
      · refine ⟨[], ?_⟩
        rw [State.edgeView_emitSummary, State.edgeView_noteSkip]
        exact unchanged
      · exact ⟨_, s.edgeView_addOcc _⟩

/-! An edge where nothing else is due. -/

theorem State.dueCommands_quiet (s : State) (n : Nat) (h : s.edgeView.Quiet n) : s.dueCommands n = s := by
  have none : s.sec.waiting.filter (fun w => decide (w.due ≤ n)) = [] := by
    rw [List.filter_eq_nil_iff]
    intro w hw
    have := h.waiting w hw
    simpa using this
  have all : s.sec.waiting.filter (fun w => !decide (w.due ≤ n)) = s.sec.waiting := by
    rw [List.filter_eq_self]
    intro w hw
    have := h.waiting w hw
    simpa using this
  unfold State.dueCommands
  dsimp only
  rw [none, all]
  rfl

theorem State.isolateDue_quiet (s : State) (n : Nat) (h : s.edgeView.Quiet n) : s.isolateDue n = s := by
  have : s.faults.bist = none := h.bist
  simp [State.isolateDue, this]

theorem State.returnDue_quiet (s : State) (n : Nat) (h : s.edgeView.Quiet n) : s.returnDue n = s := by
  have : s.faults.returning = [] := h.returning
  simp [State.returnDue, this]

/-- The view after the close of step `n`, with its work done where no trail hold keeps it back. -/
def EdgeView.atEdge (v : EdgeView) (held : Bool) (n : Nat) : EdgeView :=
  if held then (v.lose n).closed 0 n else (v.closed 0 n).committed

theorem State.edge_startOcc (s : State) (n : Nat) (starts : Bool) (q : List Quality) (h : s.edgeView.Quiet n) :
    ∃ (t : State) (is : List Input), t.edgeView = s.edgeView.atEdge s.held n ∧
      (s.edge n starts q).edgeView = (t.startOcc 0 n is q).edgeView := by
  unfold State.edge
  extract_lets held ts noted started _ _ lost closed aligned settled worked
  have h1 : started.edgeView = s.edgeView := by
    have h0 : noted.edgeView = s.edgeView := by
      simp only [noted]
      split <;> simp
    rw [← h0]
    simp only [started]
    split <;> simp
  have h2 : lost.edgeView = if held then s.edgeView.lose n else s.edgeView := by
    rw [← h1]
    simp only [lost]
    split
    · exact started.edgeView_loseStep n
    · split
      · exact started.edgeView_restarted false
      · rfl
  have h3 : aligned.edgeView = lost.edgeView.closed 0 n := by
    have : closed.1.edgeView = lost.edgeView.closed 0 n := by
      rw [State.edgeView_closeOcc, State.edgeView_laneEdge]
    rw [← this]
    simp only [aligned]
    split <;> simp
  have quiet : aligned.edgeView.Quiet n := by
    rw [h3, h2]
    split <;> exact ⟨h.endRun, h.waiting, h.bist, h.returning⟩
  have h4 : settled.edgeView = aligned.edgeView := by
    simp only [settled, State.dueCommands_quiet _ _ quiet, State.isolateDue_quiet _ _ quiet, State.returnDue_quiet _ _ quiet,
      State.edgeView_noteCalibrations]
  have goesOn : settled.steps.endRun = false := by
    rw [← h4] at quiet
    exact quiet.endRun
  have h5 : worked.edgeView = if held then settled.edgeView else settled.edgeView.committed := by
    simp only [worked]
    split
    · rfl
    · exact settled.edgeView_edgeWork n
  refine ⟨worked.scheduleWindows.refreshStage, closed.2, ?_, ?_⟩
  · rw [State.edgeView_refreshStage, State.edgeView_scheduleWindows]
    show worked.edgeView = if held then (s.edgeView.lose n).closed 0 n else (s.edgeView.closed 0 n).committed
    rw [h5, h4, h3, h2]
    by_cases hh : held = true <;> simp [hh]
  · rw [goesOn]
    simp

end Sys2Proof.Machine

end

section
/-! SUPPORT. A plain step edge, and the statement about STEP_EDGE (R52, R53, R90). -/

namespace Sys2Proof.Machine

/-- The state whose edge is taken at the close of step `r.edges`: the edge is counted. -/
def State.nextEdge (s : State) (r : Run) : State :=
  ({ s with steps := { s.steps with
      run := some { r with edges := r.edges + 1 }, openSums := s.steps.openSums ++ [r.edges] } } : State).countEdge

/-- The edge of the run's next step is counted. -/
def EdgeView.counted (v : EdgeView) (r : Run) : EdgeView := { v with run := some { r with edges := r.edges + 1 } }

@[simp] theorem State.countEdge_trail (s : State) : s.countEdge.trail = s.trail := by
  have counts (l : List Nat) (t : State) : (l.foldl (fun s d => s.count d 0x02 0 1) t).trail = t.trail := by
    induction l generalizing t with
    | nil => rfl
    | cons d l ih => simp [ih]
  have arrays (l : List Nat) (t : State) : (l.foldl (fun s a => s.setReg (arrayReg a 0x28) 0) t).trail = t.trail := by
    induction l generalizing t with
    | nil => rfl
    | cons a l ih => simp [ih]
  simp [State.countEdge, State.arraysAtEdge, counts, arrays]

/-- The run and the sums that a step edge opens. -/
theorem State.edgeView_opened (s : State) (r : Run) (ns : List Nat) :
    ({ s with steps := { s.steps with run := some { r with edges := r.edges + 1 }, openSums := ns } } : State).edgeView =
      s.edgeView.counted r := by rfl

theorem State.edgeView_nextEdge (s : State) (r : Run) :
    (s.nextEdge r).edgeView = s.edgeView.counted r := by
  rw [State.nextEdge, State.edgeView_countEdge, State.edgeView_opened]

theorem State.nextEdge_held (s : State) (r : Run) : (s.nextEdge r).held = s.trail.hold := by
  simp [State.held, State.nextEdge]

/-- What a plain edge finds: no switch, nothing due, no commit that waits. -/
theorem State.edgeIsPlain_iff (s : State) (n : Nat) :
    s.edgeIsPlain n = true ↔ s.steps.switch = none ∧ s.edgeView.Quiet n ∧ s.search.waitCommits = [] := by
  simp only [State.edgeIsPlain, Bool.and_eq_true, Option.isNone_iff_eq_none, Bool.not_eq_true', List.all_eq_true,
    decide_eq_true_eq, beq_iff_eq]
  constructor
  · rintro ⟨⟨⟨⟨⟨switch, endRun⟩, waiting⟩, bist⟩, returning⟩, commits⟩
    exact ⟨switch, ⟨endRun, waiting, bist, returning⟩, commits⟩
  · rintro ⟨switch, ⟨endRun, waiting, bist, returning⟩, commits⟩
    exact ⟨⟨⟨⟨⟨switch, endRun⟩, waiting⟩, bist⟩, returning⟩, commits⟩

theorem effStepEdge_early {s : State} {r : Run} {c : CadenceDecl} (q : List Quality) (hr : s.steps.run = some r)
    (hc : s.cadences[0]? = some c) (h : s.now < r.close c r.edges ∨ s.ingressBefore (r.close c r.edges) = true) :
    effStepEdge q s = s := by
  rcases h with h | h <;> simp [effStepEdge, hr, hc, h]

theorem effStepEdge_due {s : State} {r : Run} {c : CadenceDecl} (q : List Quality) (up : s.up = true)
    (hr : s.steps.run = some r) (hc : s.cadences[0]? = some c) (due : r.close c r.edges ≤ s.now)
    (clear : s.ingressBefore (r.close c r.edges) = false) (switch : s.steps.switch = none)
    (commits : s.search.waitCommits = []) :
    effStepEdge q s = (s.nextEdge r).edge r.edges (r.edges == 0) q := by
  have resumed : s.resumeCommits = s := by simp [State.resumeCommits, commits]
  simp [effStepEdge, hr, hc, up, Nat.not_lt.mpr due, clear, switch, resumed, State.nextEdge]

/-- A plain step edge: the edge's view, and the occurrence that begins on it. -/
theorem effStepEdge_plain {s : State} {r : Run} {c : CadenceDecl} (q : List Quality) (up : s.up = true)
    (hr : s.steps.run = some r) (hc : s.cadences[0]? = some c) (due : r.close c r.edges ≤ s.now)
    (clear : s.ingressBefore (r.close c r.edges) = false) (plain : s.edgeIsPlain r.edges = true) :
    ∃ (t : State) (is : List Input),
      t.edgeView = (s.edgeView.counted r).atEdge s.trail.hold r.edges ∧
      (effStepEdge q s).edgeView = (t.startOcc 0 r.edges is q).edgeView := by
  obtain ⟨switch, quiet, commits⟩ := (s.edgeIsPlain_iff _).mp plain
  have quiet' : (s.nextEdge r).edgeView.Quiet r.edges := by
    rw [State.edgeView_nextEdge]
    exact ⟨quiet.endRun, quiet.waiting, quiet.bist, quiet.returning⟩
  rw [effStepEdge_due q up hr hc due clear switch commits]
  have := (s.nextEdge r).edge_startOcc r.edges (r.edges == 0) q quiet'
  rwa [State.edgeView_nextEdge, State.nextEdge_held] at this

/-- After its close `CADENCE_0` closes next one multiple later. -/
theorem EdgeView.closed_run {v : EdgeView} {r : Run} {c : CadenceDecl} (n : Nat) (hr : v.run = some r)
    (hc : v.cadences[0]? = some c) :
    (v.closed 0 n).run = some { r with nextClose := r.nextClose.set 0 (n + max 1 c.multiple) } := by
  have first : v.cadences.getD 0 default = c := by simp [hc]
  simp only [EdgeView.closed, first, hr, Option.map_some]

theorem EdgeView.atEdge_run {v : EdgeView} {r : Run} {c : CadenceDecl} (held : Bool) (n : Nat) (hr : v.run = some r)
    (hc : v.cadences[0]? = some c) :
    (v.atEdge held n).run = some { r with nextClose := r.nextClose.set 0 (n + max 1 c.multiple) } := by
  cases held with
  | false => exact v.closed_run n hr hc
  | true => exact (v.lose n).closed_run n hr hc

/-- The close instants of a run's steps are those of its epoch and base. -/
theorem Run.close_nextClose (r : Run) (c : CadenceDecl) (n : Nat) (x : List Nat) :
    ({ r with nextClose := x } : Run).close c n = r.close c n := by rfl

theorem Run.close_edges (r : Run) (c : CadenceDecl) (n e : Nat) : ({ r with edges := e } : Run).close c n = r.close c n := by rfl

/-- The occurrence of `CADENCE_0` that begins at an edge has the close instant of its step. -/
theorem EdgeView.atEdge_newKey {v : EdgeView} {r : Run} {c : CadenceDecl} (held : Bool) (n : Nat) (hr : v.run = some r)
    (hc : v.cadences[0]? = some c) : (v.atEdge held n).newKey 0 n = (0, n, r.close c n) := by
  have cadences : (v.atEdge held n).cadences = v.cadences := by cases held <;> rfl
  have first : v.cadences.getD 0 default = c := by simp [hc]
  rw [EdgeView.newKey, v.atEdge_run held n hr hc, cadences, first, Option.map_some, Option.getD_some, Run.close_nextClose]

/-- In a trail hold the step is lost and stands in the gap. -/
theorem EdgeView.atEdge_lost (v : EdgeView) (n : Nat) :
    n ∈ (v.atEdge true n).gapSteps ∧ (v.atEdge true n).stepLost n = true := by
  simp [EdgeView.atEdge, EdgeView.closed, EdgeView.lose, EdgeView.stepLost]

/-- An occurrence is found by its key. -/
theorem State.mem_occs_of_key {s : State} {k n a : Nat} (h : (k, n, a) ∈ s.edgeView.occs) :
    ∃ o ∈ s.steps.occs, o.cadence = k ∧ o.step = n ∧ o.close = a := by
  obtain ⟨o, ho, key⟩ := List.mem_map.mp h
  simp only [Occurrence.key, Prod.mk.injEq] at key
  exact ⟨o, ho, key⟩

end Sys2Proof.Machine

open Sys2Proof Sys2Proof.Machine

/-- Settles O32: the work of the edge keeps its view but for the loss of the step, the close, the commit and the occurrence
that begins. -/
theorem stepEdgesCountTheSteps : Obligations.StepEdgesCountTheSteps := by
  unfold Obligations.StepEdgesCountTheSteps
  intro q r c s up hr hc
  constructor
  · intro h
    show Host.Outcome.next (effStepEdge q s) = .next s
    rw [effStepEdge_early q hr hc h]
  intro due clear plain
  refine ⟨effStepEdge q s, rfl, ?_⟩
  obtain ⟨x, is, hx, ht⟩ := effStepEdge_plain q up hr hc due clear plain
  generalize effStepEdge q s = t at ht ⊢
  obtain ⟨more, started⟩ := x.edgeView_startOcc r.edges is q
  have grown := ht.trans started
  have run : (s.edgeView.counted r).run = some { r with edges := r.edges + 1 } := rfl
  have cadence : (s.edgeView.counted r).cadences[0]? = some c := hc
  refine ⟨?_, fun free => ?_, fun free kept none => ?_, fun held => ?_⟩
  · have kept : t.steps.run = x.edgeView.run := congrArg EdgeView.run grown
    rw [kept, hx, EdgeView.atEdge_run _ _ run cadence]
  · rw [free] at hx
    have shadowed : t.shadowed = x.edgeView.shadowed := congrArg EdgeView.shadowed grown
    have start : t.steps.imageStart = x.edgeView.imageStart := congrArg EdgeView.imageStart grown
    rw [shadowed, start, hx]
    exact ⟨rfl, rfl⟩
  · rw [free] at hx
    have kept' : x.edgeView.stepLost r.edges = false := by rw [hx]; exact kept
    have none' : ∀ k ∈ x.edgeView.occs, k.1 ≠ 0 := by
      rw [hx]
      intro k hk
      obtain ⟨o, ho, rfl⟩ := List.mem_map.mp hk
      exact none o ho
    have begun := ht.trans (x.edgeView_startOcc_free r.edges is q kept' none')
    apply State.mem_occs_of_key
    rw [begun, hx, EdgeView.atEdge_newKey _ _ run cadence, Run.close_edges]
    exact List.mem_append_right _ (List.mem_singleton_self _)
  · rw [held] at hx
    obtain ⟨gap, lost⟩ := (s.edgeView.counted r).atEdge_lost r.edges
    rw [← hx] at gap lost
    have same := ht.trans (x.edgeView_startOcc_lost r.edges is q lost)
    rw [← same] at gap lost
    refine ⟨gap, lost, fun others o ho _ hstep => ?_⟩
    have key : o.key ∈ s.edgeView.occs := by
      have : o.key ∈ t.edgeView.occs := List.mem_map_of_mem ho
      rw [same, hx] at this
      exact this
    obtain ⟨p, hp, _, step, _⟩ := State.mem_occs_of_key key
    exact others p hp (step.trans hstep)

end

section
/-! SUPPORT. Where the register map ends, what the active window reads as, what a posted completion and a block's answer leave
behind, and the statements about them (R33, R36, R37, R39, R500, R501). -/

namespace Sys2Proof.Machine

/-! The extent of the register map (R36). -/

/-- How far the last register of a row lies above its first. -/
def instSpan (insts : List (Nat × Nat)) : Nat := (insts.map (fun p => (p.1 - 1) * p.2)).sum

theorem le_of_instHas {base : Nat} {insts : List (Nat × Nat)} {off : Nat} (h : instHas base insts off = true) :
    off ≤ base + instSpan insts := by
  induction insts generalizing off with
  | nil =>
    have : off = base := of_decide_eq_true h
    omega
  | cons p rest ih =>
    obtain ⟨n, s⟩ := p
    unfold instHas at h
    split at h
    · cases h
    · have below := ih h
      have index : min ((off - base) / s) (n - 1) * s ≤ (n - 1) * s := Nat.mul_le_mul_right s (Nat.min_le_right _ _)
      have span : instSpan ((n, s) :: rest) = (n - 1) * s + instSpan rest := List.sum_cons
      omega

/-- Every register lies below 0x0100_0000. -/
theorem regTable_below : regTable.all (fun r => decide (r.base + instSpan r.insts < 0x1000000)) = true := by decide +kernel

theorem findReg_above {off : Nat} (h : 0x1000000 ≤ off) : findReg off = none := by
  refine List.find?_eq_none.mpr fun r hr hi => ?_
  have below := of_decide_eq_true (List.all_eq_true.mp regTable_below r hr)
  have := le_of_instHas hi
  omega

theorem shadowMask_eq_zero {off : Nat} (h : findReg off = none) : shadowMask off = 0 := by simp [shadowMask, h]

theorem inActiveWindow_iff {off : Nat} : inActiveWindow off = true ↔ 0x8000 ≤ off % 0x10000 := decide_eq_true_iff

/-- A page's active window lies above its registers by 0x8000 (R37). -/
theorem inActiveWindow_add {off : Nat} (h : off % 0x10000 < 0x8000) : inActiveWindow (off + 0x8000) = true :=
  inActiveWindow_iff.mpr (by omega)

/-- A read inside the active window, in a device that answers reads (R37). -/
theorem State.readReg_window {s : State} {off : Nat} (ready : s.power.ready = true) (held : s.power.resetHeld = false)
    (win : inActiveWindow off = true) : s.readReg off = s.activeReg (off - 0x8000) &&& shadowMask (off - 0x8000) := by
  simp [State.readReg, ready, held, win]

/-- A register that no row defines, and whose page has no active value there, reads as 0 (R36). -/
theorem State.readReg_undefined (s : State) {off : Nat} (noRow : findReg off = none)
    (win : inActiveWindow off = false ∨ shadowMask (off - 0x8000) = 0) : s.readReg off = 0 := by
  unfold State.readReg
  rcases win with win | win
  · simp [win, noRow]
  · simp [win, noRow]

/-- An aligned write inside the active window is ignored (R37). -/
theorem effRegisterWrite_window (s : State) {off : Nat} (v : Word) (w : Writer) (aligned : off % 4 = 0)
    (win : inActiveWindow off = true) : effRegisterWrite off v w s = s := by
  simp [effRegisterWrite, aligned, win]

/-- An aligned write to an offset that no row defines is ignored (R36). -/
theorem effRegisterWrite_undefined (s : State) {off : Nat} (v : Word) (w : Writer) (aligned : off % 4 = 0)
    (noRow : findReg off = none) : effRegisterWrite off v w s = s := by
  simp [effRegisterWrite, aligned, noRow]

/-! Completions (R497, R500, R501). -/

/-- The state with a completion in its ring, before its interrupt (R498, R500). -/
def State.posted (s : State) (c : Completion) : State :=
  let r := s.ring c.ring
  let tail := (r.cqTail + 1) % s.cqEntries c.ring
  let c := { c with phase := r.phase }
  let s := s.setRing c.ring { r with cqTail := tail, phase := if tail = 0 then 1 - r.phase else r.phase }
  { s with host := { s.host with
      posted := c :: s.host.posted, cqWritten := (s.cqAddr c.ring r.cqTail, c.bytes) :: s.host.cqWritten } }

theorem State.post_full {s : State} {c : Completion} (quiet : Bool) (enabled : s.ringEnabled c.ring = true)
    (full : s.cqFull c.ring = true) :
    s.post c quiet = { s with host := { s.host with unposted := s.host.unposted ++ [(c, quiet)] } } := by
  simp [State.post, enabled, full]

theorem State.post_room {s : State} {c : Completion} (quiet : Bool) (enabled : s.ringEnabled c.ring = true)
    (room : s.cqFull c.ring = false) :
    s.post c quiet = if quiet then s.posted c else (s.posted c).msix (18 + c.ring) := by
  simp [State.post, enabled, room, State.posted]

@[simp] theorem State.msix_cqWritten (s : State) (v : Nat) : (s.msix v).host.cqWritten = s.host.cqWritten := by
  unfold State.msix
  split <;> rfl

/-- A vector that is not masked is sent (R497). -/
theorem State.msix_sent {s : State} {v : Nat} (unmasked : bitAt s.host.vectorMask v = false) :
    (s.msix v).host.sent = v :: s.host.sent := by
  simp [State.msix, unmasked]

theorem State.ring_congr {s t : State} (h : t.host.rings = s.host.rings) (r : Nat) : t.ring r = s.ring r := by
  unfold State.ring
  rw [h]

/-- A ring that the host interface has reads as it was set. -/
theorem State.ring_setRing_self {s : State} {r : Nat} (x : Ring) (h : r < s.host.rings.length) : (s.setRing r x).ring r = x := by
  simp [State.ring, State.setRing, h]

theorem State.posted_cqTail {s : State} {c : Completion} (h : c.ring < s.host.rings.length) :
    ((s.posted c).ring c.ring).cqTail = ((s.ring c.ring).cqTail + 1) % s.cqEntries c.ring :=
  congrArg Ring.cqTail (State.ring_setRing_self _ h)

/-- What is posted stands whether or not an interrupt follows. -/
theorem State.post_room_host {s : State} {c : Completion} (quiet : Bool) (enabled : s.ringEnabled c.ring = true)
    (room : s.cqFull c.ring = false) :
    (s.post c quiet).host.posted = (s.posted c).host.posted ∧
      (s.post c quiet).host.cqWritten = (s.posted c).host.cqWritten ∧
      (s.post c quiet).host.rings = (s.posted c).host.rings := by
  rw [State.post_room quiet enabled room]
  cases quiet <;> simp

/-! Answers (R39). -/

/-- Of two answers the first in the order of R39: outcome, then cause. -/
theorem pickAnswer_pair (a b : Nat × Nat) :
    pickAnswer [a, b] = if a.1 < b.1 then b else if b.1 < a.1 then a else if causeRank b.2 < causeRank a.2 then b else a := rfl

theorem State.keptAnswer_alone {s : State} {b : Nat} (lo hi o c : Nat) (h : lookupKey b s.answers ≠ some s.cycle) :
    s.keptAnswer b lo hi o c = (o % 4, c % 256) := by
  simp [State.keptAnswer, h]

theorem State.keptAnswer_same_cycle {s : State} {b : Nat} (lo hi o c : Nat) (h : lookupKey b s.answers = some s.cycle) :
    s.keptAnswer b lo hi o c = pickAnswer [(s.fld ⟨b, lo, 2⟩, s.fld ⟨b, hi, 8⟩), (o % 4, c % 256)] := by
  simp [State.keptAnswer, h]

theorem State.answerAt_answers (s : State) (b lo hi o c : Nat) :
    (s.answerAt b lo hi o c).answers = putKey b s.cycle s.answers := by
  simp [State.answerAt]

/-- An answer changes its block's STATUS register and no other (R38). -/
theorem State.reg_answerAt_ne (s : State) (b lo hi o c : Nat) {a : Nat} (h : a ≠ b) :
    (s.answerAt b lo hi o c).reg a = s.reg a := by
  unfold State.answerAt
  simp only
  rw [State.reg_setFld_ne _ _ _ _ h, State.reg_setFld_ne _ _ _ _ h]
  rfl

end Sys2Proof.Machine

open Sys2Proof Sys2Proof.Machine

/-- Settles O8: every row of the register map ends below 0x0100_0000, and an access without a row changes nothing. -/
theorem undefinedOffsetsReadZeroAndIgnoreWrites : Obligations.UndefinedOffsetsReadZeroAndIgnoreWrites := by
  refine ⟨fun off h _ => findReg_above h, fun off h _ win => ?_, fun s off noRow aligned win => ?_⟩
  · have := inActiveWindow_iff.mp win
    exact shadowMask_eq_zero (findReg_above (by omega))
  · have zero := s.readReg_undefined noRow win
    refine ⟨zero, ?_, ?_, fun v w => congrArg Host.Outcome.next (effRegisterWrite_undefined s v w aligned noRow)⟩
    · simp [exec, execLoReadLatch, effLoReadLatch, aligned, noRow, zero]
    · simp [exec, execReadClear, effReadClear, aligned, noRow, zero]

/-- Settles O9: the window's offset less 0x8000 is the register's own. -/
theorem activeWindowReadsActiveValues : Obligations.ActiveWindowReadsActiveValues := by
  intro s off low ready held
  have win := inActiveWindow_add low
  refine ⟨?_, fun aligned v w => congrArg Host.Outcome.next (effRegisterWrite_window s v w (by omega) win)⟩
  rw [State.readReg_window ready held win, Nat.add_sub_cancel]

/-- Settles O16: a completion with room is `State.posted` and an interrupt, and an answer is `State.keptAnswer`. -/
theorem completionsArePosted : Obligations.CompletionsArePosted := by
  refine ⟨fun s c quiet enabled => ⟨fun full => by rw [State.post_full quiet enabled full], fun room => ?_⟩,
    fun s b o c ho hc => ?_⟩
  · obtain ⟨posted, written, rings⟩ := State.post_room_host quiet enabled room
    refine ⟨posted, written, fun has => ?_, fun loud unmasked => ?_, fun silent => ?_⟩
    · rw [State.ring_congr rings, State.posted_cqTail has]
    · rw [State.post_room quiet enabled room, loud]
      exact State.msix_sent unmasked
    · rw [State.post_room quiet enabled room, silent]
      rfl
  · have now := s.answer_fields b o c
    refine ⟨now, ?_, fun a ha => s.reg_answerAt_ne b 4 8 o c ha, by simp, fun alone => ?_, fun same => ?_⟩
    · rw [State.answer, State.answerAt_answers, lookupKey_putKey, if_pos rfl]
    · rw [now, State.keptAnswer_alone 4 8 o c alone, Nat.mod_eq_of_lt ho, Nat.mod_eq_of_lt hc]
    · rw [now, State.keptAnswer_same_cycle 4 8 o c same, Nat.mod_eq_of_lt ho, Nat.mod_eq_of_lt hc, pickAnswer_pair]
      refine ⟨fun up => if_pos up, fun down => ?_, fun tie => ?_⟩
      · rw [if_neg (Nat.lt_asymm down), if_pos down]
      · rw [if_neg tie.not_lt, if_neg tie.not_gt]

end

section
/-! SUPPORT. What the device does with an accepted critical command and with the answer that ends one (R38, R39, R537, R538,
R552). -/

namespace Sys2Proof.Machine

/-! Answers of a block that reports at [9:8] and [23:16]. -/

/-- An answer is what such a block's STATUS register then reports (R39, R552, R579). -/
theorem State.answerHi_reports (s : State) (b o c : Nat) : (s.answerHi b o c).reportsHi s b o c := by
  obtain ⟨l1, l2⟩ := s.keptAnswer_lt b 8 16 o c
  unfold State.reportsHi State.answerHi State.answerAt
  generalize s.keptAnswer b 8 16 o c = a at l1 l2 ⊢
  simp only
  rw [State.fld_setFld_ne _ _ _ _ (Nat.le_of_ble_eq_true rfl) (.inr (.inr (Nat.le_of_ble_eq_true rfl))),
    State.fld_setFld _ _ _ (Nat.le_of_ble_eq_true rfl), State.fld_setFld _ _ _ (Nat.le_of_ble_eq_true rfl)]
  exact Prod.ext (Nat.mod_eq_of_lt l1) (Nat.mod_eq_of_lt l2)

/-- Two states give a block's answers alike: its STATUS register, the cycles of the answers and device time are the same. -/
def State.answersAlike (t s : State) (b : Nat) : Prop := t.reg b = s.reg b ∧ t.answers = s.answers ∧ t.time = s.time

theorem State.fld_of_reg {s t : State} {f : Fld} (h : t.reg f.off = s.reg f.off) : t.fld f = s.fld f := by
  unfold State.fld
  rw [h]

theorem State.answersAlike.keptAnswer {s t : State} {b : Nat} (h : t.answersAlike s b) (lo hi o c : Nat) :
    t.keptAnswer b lo hi o c = s.keptAnswer b lo hi o c := by
  obtain ⟨reg, answers, time⟩ := h
  have fld (lo w : Nat) : t.fld ⟨b, lo, w⟩ = s.fld ⟨b, lo, w⟩ := State.fld_of_reg reg
  have cycle : t.cycle = s.cycle := by rw [State.cycle, State.now, time]; rfl
  unfold State.keptAnswer
  rw [answers, cycle, fld, fld]

theorem State.reportsHi.of_alike {s t u : State} {b o c : Nat} (h : u.reportsHi t b o c) (alike : t.answersAlike s b) :
    u.reportsHi s b o c := by
  unfold State.reportsHi at h ⊢
  rw [h, alike.keptAnswer]

/-- What a block reports stands while its STATUS register does. -/
theorem State.reportsHi_of_reg {s t u : State} {b o c : Nat} (h : t.reportsHi s b o c) (reg : u.reg b = t.reg b) :
    u.reportsHi s b o c := by
  have fld (lo w : Nat) : u.fld ⟨b, lo, w⟩ = t.fld ⟨b, lo, w⟩ := State.fld_of_reg reg
  unfold State.reportsHi at h ⊢
  rw [fld, fld, h]

/-- An answer Refused has the highest outcome code, so a block that has given it shows outcome 3 (R39). -/
theorem State.keptAnswer_refused (s : State) (b lo hi c : Nat) : (s.keptAnswer b lo hi refused c).1 = 3 := by
  have old : s.fld ⟨b, lo, 2⟩ < 4 := bitsOf_lt _ _ 2
  unfold State.keptAnswer
  simp only
  split
  · rw [pickAnswer_pair]
    simp only [refused, show 3 % 4 = 3 from rfl]
    split_ifs
    · rfl
    · omega
    · rfl
    · simp only; omega
  · rfl

/-- Served, answered in the cycle of an answer that is not Served, leaves that answer (R39). -/
theorem State.keptAnswer_served {s : State} {b lo hi : Nat} (c : Nat) (same : lookupKey b s.answers = some s.cycle)
    (old : 0 < s.fld ⟨b, lo, 2⟩) : s.keptAnswer b lo hi served c = (s.fld ⟨b, lo, 2⟩, s.fld ⟨b, hi, 8⟩) := by
  rw [State.keptAnswer_same_cycle lo hi served c same, pickAnswer_pair]
  exact (if_neg (Nat.not_lt_zero _)).trans (if_pos old)

/-! The registers that the end of a critical command changes. -/

@[simp] theorem State.reg_satReg_ne (s : State) (a b n : Nat) (h : b ≠ a) : (s.satReg a n).reg b = s.reg b := by
  simp [State.satReg, h]

@[simp] theorem State.reg_updStats (s : State) (n : Nat) (f : StepStats → StepStats) (a : Nat) :
    (s.updStats n f).reg a = s.reg a := rfl

@[simp] theorem State.run_updStats (s : State) (n : Nat) (f : StepStats → StepStats) :
    (s.updStats n f).steps.run = s.steps.run := rfl

theorem State.reg_event_ne (s : State) (off bit : Nat) (en : Bool) (vec : Nat) {a : Nat} (h : a ≠ off) :
    (s.event off bit en vec).reg a = s.reg a := by
  unfold State.event
  split
  · rw [State.reg_congr _ _ (State.msix_frame _ _).2.2.1]
    exact State.reg_setReg_ne _ _ _ _ h
  · exact State.reg_setReg_ne _ _ _ _ h

/-- A critical command's outcome recorded and counted, before its answer (R538, R552). -/
def State.noted (s : State) (f : CritFrame) (outcome cause step : Nat) : State :=
  let s := s.commandRecord f outcome cause step
  let s := if outcome = refused then s.satReg 0x200044 1 else s.satReg 0x200040 1
  let s := if outcome ≠ refused ∧ s.inRun then s.updStats step (fun x => { x with commands := x.commands + 1 }) else s
  match cause with
  | 0x06 => s.secEvent 0
  | 0x07 => s.secEvent 1
  | 0x08 => s.secEvent 2
  | 0x09 => s.secEvent 3
  | _ => s

theorem State.noteCritical_eq (s : State) (f : CritFrame) (op o c n : Nat) :
    s.noteCritical f op o c n = (s.noted f o c n).answerCritical op o c := rfl

/-- Noting a command's outcome leaves the run, the answers and every register but the counts and the events of SECURITY. -/
theorem State.noted_frame (s : State) (f : CritFrame) (o c n : Nat) :
    (s.noted f o c n).steps.run = s.steps.run ∧ (s.noted f o c n).answers = s.answers ∧
      (s.noted f o c n).time = s.time ∧
      ∀ a, a ≠ 0x200008 → a ≠ 0x200040 → a ≠ 0x200044 → (s.noted f o c n).reg a = s.reg a := by
  have recorded (a : Nat) : (s.commandRecord f o c n).reg a = s.reg a := State.reg_congr _ _ (by simp) a
  unfold State.noted
  dsimp only
  refine ⟨?_, ?_, ?_, fun a ev se re => ?_⟩
  · split <;> split <;> split <;> simp
  · split <;> split <;> split <;> simp
  · split <;> split <;> split <;> simp
  · split <;> split <;> split <;> simp [State.secEvent, secEvents, ev, se, re, recorded]

/-- The registers in which the security and the search block report a critical command, and the fault block. -/
def critStatusRegs : List Nat := [0x200008, 0x200040, 0x200044, 0xD00054, blockSecurity, blockSearch, blockFault]

theorem State.reg_answerCritical_ne (s : State) (op o c : Nat) {a : Nat} (h : a ∉ critStatusRegs) :
    (s.answerCritical op o c).reg a = s.reg a := by
  simp only [critStatusRegs, List.mem_cons, List.not_mem_nil, or_false, not_or] at h
  obtain ⟨-, -, -, refusals, security, search, fault⟩ := h
  unfold State.answerCritical
  split
  · exact State.reg_answerAt_ne _ _ _ _ _ _ fault
  · split
    · refine (State.reg_answerAt_ne _ _ _ _ _ _ search).trans ?_
      split
      · exact State.reg_satReg_ne _ _ _ _ refusals
      · rfl
    · exact State.reg_answerAt_ne _ _ _ _ _ _ security

@[simp] theorem State.run_answerCritical (s : State) (op o c : Nat) :
    (s.answerCritical op o c).steps.run = s.steps.run := by simp

/-- The completion of a command changes the host interface only. -/
theorem State.endCritical_core (s : State) (f : CritFrame) (op ep o c d n : Nat) (r : Bytes) :
    (s.endCritical f op ep o c d n r).regs = (s.noteCritical f op o c n).regs ∧
      (s.endCritical f op ep o c d n r).answers = (s.noteCritical f op o c n).answers ∧
      (s.endCritical f op ep o c d n r).steps = (s.noteCritical f op o c n).steps := by
  unfold State.endCritical
  simp

/-- The end of a critical command leaves the run. -/
@[simp] theorem State.run_endCritical (s : State) (f : CritFrame) (op ep o c d n : Nat) (r : Bytes) :
    (s.endCritical f op ep o c d n r).steps.run = s.steps.run := by
  obtain ⟨-, -, steps⟩ := s.endCritical_core f op ep o c d n r
  rw [steps, State.noteCritical_eq, State.run_answerCritical, (s.noted_frame f o c n).1]

theorem State.reg_endCritical_ne (s : State) (f : CritFrame) (op ep o c d n : Nat) (r : Bytes) {a : Nat}
    (h : a ∉ critStatusRegs) : (s.endCritical f op ep o c d n r).reg a = s.reg a := by
  obtain ⟨regs, -, -⟩ := s.endCritical_core f op ep o c d n r
  obtain ⟨-, -, -, kept⟩ := s.noted_frame f o c n
  rw [State.reg_congr _ _ regs, State.noteCritical_eq, State.reg_answerCritical_ne _ _ _ _ h]
  simp only [critStatusRegs, List.mem_cons, List.not_mem_nil, or_false, not_or] at h
  obtain ⟨events, servedCount, refusedCount, -⟩ := h
  exact kept a events servedCount refusedCount

/-! Commands that the fault block reports (R571, R579). -/

theorem State.critReports_bist {op : Nat} (h : 0x0180 ≤ op ∧ op ≤ 0x01BF) (t s : State) (o c : Nat) :
    t.critReports s op o c ↔ t.reportsHi s blockFault o c := by
  simp [State.critReports, h]

/-- A command of the self-test range ends in its answer in the fault block's register, in the present cycle. -/
theorem State.endCritical_bist {op : Nat} (h : 0x0180 ≤ op ∧ op ≤ 0x01BF) (s : State) (f : CritFrame) (ep o c d n : Nat)
    (r : Bytes) :
    (s.endCritical f op ep o c d n r).reportsHi s blockFault o c ∧
      lookupKey blockFault (s.endCritical f op ep o c d n r).answers = some s.cycle := by
  obtain ⟨regs, answers, -⟩ := s.endCritical_core f op ep o c d n r
  obtain ⟨-, notedAnswers, time, reg⟩ := s.noted_frame f o c n
  have alike : (s.noted f o c n).answersAlike s blockFault :=
    ⟨reg _ (by decide) (by decide) (by decide), notedAnswers, time⟩
  have noted : s.noteCritical f op o c n = (s.noted f o c n).answerHi blockFault o c := by
    rw [State.noteCritical_eq, State.answerCritical, if_pos h]
  rw [noted] at regs answers
  constructor
  · exact (State.reportsHi_of_reg (State.answerHi_reports _ blockFault o c) (State.reg_congr _ _ regs _)).of_alike alike
  · rw [answers, State.answerHi, State.answerAt_answers, lookupKey_putKey, if_pos rfl, State.cycle, State.now, time]
    rfl

/-! Acceptance (R501, R537). -/

/-- The state once the front entry of a ring has been taken (R501). -/
def State.entryTaken (s : State) (h : CmdHdr) : State :=
  let r := h.ring.val
  (s.setRing r { s.ring r with sqHead := ((s.ring r).sqHead + 1) % s.sqEntries r }).serveRing r

/-- The state in which an accepted critical command begins: its entry taken, and its role's counter advanced. -/
def State.accepted (s : State) (f : CritFrame) : State :=
  (s.entryTaken f.hdr).setCounterOf f.role.toNat f.counter.toNat

theorem State.take_accepted {s : State} {f : CritFrame} {op : Nat} (h : s.accepts f op = true) :
    s.take f.hdr op true = .taken (s.entryTaken f.hdr) := by
  simp only [State.accepts, State.entryOk, Bool.and_eq_true, Bool.or_eq_true, Bool.not_eq_true', beq_iff_eq] at h
  obtain ⟨⟨⟨⟨⟨⟨⟨⟨⟨ready, flags⟩, body⟩, critical⟩, -⟩, -⟩, -⟩, -⟩, -⟩, -⟩ := h
  have orderly : ¬(f.hdr.flags.toNat / 8 ≠ 0 ∨ (f.hdr.flags.getLsbD 1 = true ∧ (!f.hdr.bodyReadable) = true)) := by
    rintro (bad | ⟨bulk, unreadable⟩)
    · exact bad flags
    · rcases body with body | body
      · rw [body] at bulk; cases bulk
      · rw [body] at unreadable; cases unreadable
  unfold State.take
  dsimp only
  rw [if_neg (by simp [ready]), if_neg orderly, if_neg (not_not.mpr critical)]
  rfl

theorem State.ringError_reg (s : State) (r t op : Nat) {a : Nat} (h : a ≠ 0x100008) :
    (s.ringError r t op).reg a = s.reg a := by
  unfold State.ringError
  rw [State.reg_event_ne _ _ _ _ _ h]
  exact State.reg_congr _ _ (by simp) a

/-- Entries with unknown opcodes raise nothing but the host interface's ring error (R501). -/
theorem State.skipUnknown_reg (fuel : Nat) (s : State) (r : Nat) {a : Nat} (h : a ≠ 0x100008) :
    (State.skipUnknown fuel s r).reg a = s.reg a := by
  induction fuel generalizing s with
  | zero => rfl
  | succ fuel ih =>
    unfold State.skipUnknown
    split
    · rfl
    · split
      · rfl
      · dsimp only
        split
        · exact (State.ringError_reg _ _ _ _ h).trans (State.reg_congr _ _ (by simp) a)
        · rw [ih]
          exact State.reg_congr _ _ (by simp) a

/-- What an accepted command finds: only the host interface and the counter of its role have changed. -/
@[simp] theorem State.accepted_frame (s : State) (f : CritFrame) :
    (s.accepted f).sec = s.secAfter f ∧ (s.accepted f).faults = s.faults ∧ (s.accepted f).steps = s.steps ∧
      (s.accepted f).time = s.time ∧ (s.accepted f).tiers = s.tiers ∧ (s.accepted f).power = s.power ∧
      (s.accepted f).answers = s.answers ∧ (s.accepted f).host.epoch = s.host.epoch := by
  simp [State.accepted, State.entryTaken, State.setCounterOf, State.secAfter]

theorem State.reg_accepted (s : State) (f : CritFrame) {a : Nat} (h : a ≠ 0x100008) : (s.accepted f).reg a = s.reg a :=
  (State.skipUnknown_reg _ _ _ h).trans (State.reg_congr _ _ (by simp) a)

theorem State.accepted_alike (s : State) (f : CritFrame) : (s.accepted f).answersAlike s blockFault :=
  ⟨s.reg_accepted f (by decide), by simp, by simp⟩

theorem State.checkOk_of_sec {s t : State} (h : t.sec = s.sec) (f : CritFrame) : t.checkOk f = s.checkOk f := by
  simp [State.checkOk, State.roleKey, h]

theorem State.counterOf_of_sec {s t : State} (h : t.sec = s.sec) (r : Nat) : t.counterOf r = s.counterOf r := by
  simp [State.counterOf, h]

theorem State.lc_accepted (s : State) (f : CritFrame) : (s.accepted f).lc = s.lc := by
  simp [State.lc, State.secAfter]

/-- An accepted critical command does its work from `State.accepted` (R537). -/
theorem State.critical_accepted {s : State} {f : CritFrame} {op : Nat} (h : s.accepts f op = true) (go : State → State) :
    s.critical f op none go = go (s.accepted f) := by
  have taken := State.take_accepted h
  have sec : (s.entryTaken f.hdr).sec = s.sec := by simp [State.entryTaken]
  simp only [State.accepts, Bool.and_eq_true, Bool.not_eq_true', decide_eq_true_eq] at h
  obtain ⟨⟨⟨⟨⟨⟨-, formed⟩, sound⟩, keyed⟩, fresh⟩, right⟩, allowed⟩ := h
  have rights : (s.accepted f).checkRights f op go = go (s.accepted f) := by
    simp [State.checkRights, right, State.lc_accepted, allowed]
  unfold State.critical
  rw [taken]
  dsimp only
  rw [sec, Option.getD_none, State.checkOk_of_sec sec, State.counterOf_of_sec sec, if_neg (by simp [formed]),
    if_neg (by simp [sound]), if_neg (by simp [keyed]), if_neg (by simp), if_neg (Nat.not_le.mpr fresh)]
  exact rights

end Sys2Proof.Machine
end

section
/-! SUPPORT. In-service self-tests: what the operations of a test leave alone and what they settle, and the statement about them
(R559, R560, R571-R573). -/

namespace Sys2Proof.Machine

/-! Fault events, error records and schedules. -/

@[simp] theorem State.faultEvent_frame (s : State) (b : Nat) :
    (s.faultEvent b).sec = s.sec ∧ (s.faultEvent b).faults = s.faults ∧ (s.faultEvent b).steps = s.steps ∧
      (s.faultEvent b).time = s.time ∧ (s.faultEvent b).answers = s.answers := by
  simp [State.faultEvent]

theorem State.reg_faultEvent_ne (s : State) (b : Nat) {a : Nat} (h : a ≠ faultEvents) :
    (s.faultEvent b).reg a = s.reg a := State.reg_event_ne _ _ _ _ _ h

/-- A fresh error record takes its number and writes it to `ERR_SEQ` (R556). -/
@[simp] theorem State.newError_frame (s : State) (r k : Nat) :
    (s.newError r k).2.sec = s.sec ∧ (s.newError r k).2.steps = s.steps ∧ (s.newError r k).2.time = s.time ∧
      (s.newError r k).2.answers = s.answers ∧ (s.newError r k).2.faults.bist = s.faults.bist ∧
      (s.newError r k).2.faults.out = s.faults.out ∧ (s.newError r k).2.faults.returning = s.faults.returning ∧
      (s.newError r k).1.region = r := by
  simp [State.newError]

theorem State.reg_newError_ne (s : State) (r k : Nat) {a : Nat} (lo : a ≠ 0xE00040) (hi : a ≠ 0xE00044) :
    (s.newError r k).2.reg a = s.reg a := by
  have written : (s.newError r k).2.reg a = (s.setReg64 0xE00040 s.faults.nextSeq).reg a := State.reg_congr _ _ rfl a
  rw [written, State.setReg64, State.reg_setReg_ne _ _ _ _ hi, State.reg_setReg_ne _ _ _ _ lo]

/-- A FAULT record enters the trail and raises nothing but the host's trail vector (R84). -/
@[simp] theorem State.faultRecord_frame (s : State) (e : ErrRec) (act cause att : Nat) (occs : List (Nat × Nat)) (rel n : Nat) :
    (s.faultRecord e act cause att occs rel n).sec = s.sec ∧ (s.faultRecord e act cause att occs rel n).faults = s.faults ∧
      (s.faultRecord e act cause att occs rel n).steps = s.steps ∧ (s.faultRecord e act cause att occs rel n).time = s.time ∧
      (s.faultRecord e act cause att occs rel n).answers = s.answers ∧
      (s.faultRecord e act cause att occs rel n).regs = s.regs := by
  simp [State.faultRecord]

/-- The state once a fresh error record of a region has been written to the trail with an action (R556). -/
def State.errorRecorded (s : State) (r act n : Nat) : State :=
  let x := s.newError r 4
  x.2.faultRecord x.1 act 0 0 [] noSeq n

@[simp] theorem State.errorRecorded_frame (s : State) (r act n : Nat) :
    (s.errorRecorded r act n).sec = s.sec ∧ (s.errorRecorded r act n).steps = s.steps ∧
      (s.errorRecorded r act n).time = s.time ∧ (s.errorRecorded r act n).answers = s.answers ∧
      (s.errorRecorded r act n).faults.bist = s.faults.bist ∧ (s.errorRecorded r act n).faults.out = s.faults.out ∧
      (s.errorRecorded r act n).faults.returning = s.faults.returning := by
  simp [State.errorRecorded]

theorem State.reg_errorRecorded_ne (s : State) (r act n : Nat) {a : Nat} (lo : a ≠ 0xE00040) (hi : a ≠ 0xE00044) :
    (s.errorRecorded r act n).reg a = s.reg a :=
  (State.reg_congr _ _ (by simp [State.errorRecorded]) a).trans (s.reg_newError_ne r 4 lo hi)

@[simp] theorem State.sec_setSchedule (s : State) (i : Nat) : (s.setSchedule i).sec = s.sec := by
  unfold State.setSchedule
  split <;> simp

@[simp] theorem State.sec_applySchedule (s : State) : s.applySchedule.sec = s.sec := by
  unfold State.applySchedule
  split
  · split <;> simp
  · rfl

/-- With no run in progress no schedule is in force (R558). -/
theorem State.applySchedule_noRun {s : State} (h : s.inRun = false) : s.applySchedule = s := by
  unfold State.applySchedule
  split <;> simp [h]

@[simp] theorem State.sec_refreshStage (s : State) : s.refreshStage.sec = s.sec := by
  unfold State.refreshStage
  split
  · split <;> rfl
  · rfl

theorem State.refreshStage_noRun {s : State} (h : s.inRun = false) : s.refreshStage = s := by
  have run : s.steps.run = none := by simpa [State.inRun] using h
  simp [State.refreshStage, run]

/-! Isolation of a unit (R163, R559, R573) leaves the security block. -/

theorem sec_foldl {α : Type} (f : State → α → State) (hf : ∀ s x, (f s x).sec = s.sec) (l : List α) (s : State) :
    (l.foldl f s).sec = s.sec := by
  induction l generalizing s with
  | nil => rfl
  | cons x l ih => rw [List.foldl_cons, ih, hf]

@[simp] theorem State.sec_countStall (s : State) (st : Stall) : (s.countStall st).sec = s.sec := by
  simp only [State.countStall, State.record_frame]
  rw [sec_foldl _ fun s d => by simp]
  simp

@[simp] theorem State.sec_pauseWatchdogs (s : State) (k ns : Nat) : (s.pauseWatchdogs k ns).sec = s.sec := by rfl

@[simp] theorem State.sec_endStall (s : State) (st : Stall) : (s.endStall st).sec = s.sec := by
  rw [State.endStall, State.sec_pauseWatchdogs, State.sec_countStall]

@[simp] theorem State.sec_endLentWaits (s : State) : s.endLentWaits.sec = s.sec := by
  unfold State.endLentWaits
  dsimp only
  rw [sec_foldl _ fun s x => by split <;> simp]

@[simp] theorem State.sec_evictDirty (s : State) (m : Nat) : (s.evictDirty m).sec = s.sec := by
  refine sec_foldl _ (fun s t => ?_) _ _
  split
  · dsimp only
    split <;> rfl
  · rfl

@[simp] theorem State.sec_loseLent (s : State) (t : Nat) : (s.loseLent t).sec = s.sec := by
  unfold State.loseLent
  dsimp only
  split <;> simp

@[simp] theorem State.sec_closeWindowsOf (s : State) (r : Nat) (lost : List Nat) : (s.closeWindowsOf r lost).sec = s.sec := by
  unfold State.closeWindowsOf
  split
  · rfl
  · dsimp only
    rw [State.sec_endLentWaits, State.sec_evictDirty, sec_foldl State.closeWindow fun _ _ => rfl,
      sec_foldl State.loseLent State.sec_loseLent]

@[simp] theorem State.sec_markOut (s : State) (r : Nat) : (s.markOut r).sec = s.sec := by
  unfold State.markOut State.takeOut
  split <;> simp

@[simp] theorem State.sec_relocatePc (s : State) (p : Nat) : (s.relocatePc p).sec = s.sec := by
  refine sec_foldl _ (fun s t => ?_) _ _
  split
  · split <;> rfl
  · rfl

/-- Isolation settles the test in progress and leaves the security block (R573). -/
theorem State.isolate_spec (s : State) (b : Bist) (n : Nat) :
    (s.isolate b n).sec = s.sec ∧ (s.isolate b n).faults.bist = some { b with state := 2, step := n } := by
  refine ⟨?_, rfl⟩
  unfold State.isolate
  dsimp only
  refine (State.sec_applySchedule _).trans ?_
  split
  · split <;> rfl
  · split <;> rfl
  · simp
  · simp
  · simp

/-- A test begun in a run waits for its edge; without one its unit is isolated at once (R573). -/
theorem State.beginBist_inRun {s : State} (b : Bist) (h : s.inRun = true) : s.beginBist b = s.setBist (some b) := if_pos h

theorem State.beginBist_noRun {s : State} (b : Bist) (h : s.inRun = false) : s.beginBist b = s.isolate b 0 := by
  simp [State.beginBist, h]

@[simp] theorem State.sec_beginBist (s : State) (b : Bist) : (s.beginBist b).sec = s.sec := by
  unfold State.beginBist
  split
  · rfl
  · exact (s.isolate_spec b 0).1

/-! The end of a test (R560, R571). -/

theorem State.reg_setBist (s : State) (b : Option Bist) (a : Nat) : (s.setBist b).reg a = s.reg a := rfl

/-- The test in progress after its verdict: a unit that passed is returning. -/
def Bist.ended (b : Bist) (outcome ans : Nat) : Option Bist :=
  if ans = served ∧ (outcome = 1 ∨ outcome = 2) ∧ !b.full then some { b with state := 3, command := none } else none

/-- The value of `BIST_RESULT` (R571). -/
def bistResult (region outcome coverage : Nat) : Nat := outcome + min coverage 1023 * 4 + region * 65536

/-- The state with a test's verdict in place, before its command is answered. -/
def State.verdictGiven (s : State) (b : Bist) (region outcome coverage ans : Nat) : State :=
  ((s.setReg 0xE00028 (bistResult region outcome coverage)).faultEvent 5).setBist (b.ended outcome ans)

theorem State.finishBist_eq {s : State} {b : Bist} (h : s.faults.bist = some b)
    (region outcome coverage durUs first ans cause : Nat) :
    s.finishBist region outcome coverage durUs first ans cause =
      let t := s.verdictGiven b region outcome coverage ans
      match b.command with
      | some (f, ep) =>
        t.endCritical f f.opcode.toNat ep ans cause 0 (if ans = refused then t.stepNow else b.step)
          (if ans = refused then []
            else leBytes 2 region ++ leBytes 1 outcome ++ leBytes 2 coverage ++ leBytes 4 durUs ++ leBytes 8 first)
      | none => t := by
  simp only [State.finishBist, h]
  rfl

@[simp] theorem State.verdictGiven_frame (s : State) (b : Bist) (region outcome coverage ans : Nat) :
    let t := s.verdictGiven b region outcome coverage ans
    t.sec = s.sec ∧ t.steps = s.steps ∧ t.time = s.time ∧ t.answers = s.answers ∧
      t.faults = { s.faults with bist := b.ended outcome ans } := by
  simp [State.verdictGiven, State.setBist]

theorem State.verdictGiven_alike (s : State) (b : Bist) (region outcome coverage ans : Nat) :
    (s.verdictGiven b region outcome coverage ans).answersAlike s blockFault := by
  refine ⟨?_, by simp, by simp⟩
  rw [State.verdictGiven, State.reg_setBist, State.reg_faultEvent_ne _ _ (by decide), State.reg_setReg_ne _ _ _ _ (by decide)]

/-- What the end of a test settles: the test in progress and its result; it leaves the security block, time and the run. -/
theorem State.finishBist_spec {s : State} {b : Bist} (h : s.faults.bist = some b)
    (region outcome coverage durUs first ans cause : Nat) :
    let t := s.finishBist region outcome coverage durUs first ans cause
    t.sec = s.sec ∧ t.steps.run = s.steps.run ∧ t.time = s.time ∧
      t.faults = { s.faults with bist := b.ended outcome ans } ∧
      t.reg 0xE00028 = bistResult region outcome coverage % 2 ^ 32 := by
  have result : (s.verdictGiven b region outcome coverage ans).reg 0xE00028 = bistResult region outcome coverage % 2 ^ 32 := by
    rw [State.verdictGiven, State.reg_setBist, State.reg_faultEvent_ne _ _ (by decide), State.reg_setReg_self]
  rw [State.finishBist_eq h]
  dsimp only
  split
  · rw [State.reg_endCritical_ne _ _ _ _ _ _ _ _ _ (by decide)]
    simp [result]
  · simp [result]

/-- A test that BIST_ABORT ends answers the command that began it: Refused, in the fault block's register and in the present
cycle (R571). -/
theorem State.finishBist_reports {s : State} {b : Bist} {g : CritFrame × Nat} (h : s.faults.bist = some b)
    (command : b.command = some g) (range : 0x0180 ≤ g.1.opcode.toNat ∧ g.1.opcode.toNat ≤ 0x01BF)
    (region outcome coverage durUs first ans cause : Nat) :
    let t := s.finishBist region outcome coverage durUs first ans cause
    t.reportsHi s blockFault ans cause ∧ lookupKey blockFault t.answers = some s.cycle := by
  have alike := s.verdictGiven_alike b region outcome coverage ans
  have cycle : (s.verdictGiven b region outcome coverage ans).cycle = s.cycle := by
    rw [State.cycle, State.now, alike.2.2]; rfl
  rw [State.finishBist_eq h]
  simp only [command]
  obtain ⟨reports, latest⟩ := State.endCritical_bist range (s.verdictGiven b region outcome coverage ans) g.1 g.2 ans cause 0
    (if ans = refused then (s.verdictGiven b region outcome coverage ans).stepNow else b.step)
    (if ans = refused then []
      else leBytes 2 region ++ leBytes 1 outcome ++ leBytes 2 coverage ++ leBytes 4 durUs ++ leBytes 8 first)
  exact ⟨reports.of_alike alike, latest.trans (congrArg some cycle)⟩

/-! The return of a unit (R560). -/

/-- A unit back in service is no longer out; the test in progress stays (R560, R570). -/
@[simp] theorem State.bringBack_frame (s : State) (r : Nat) :
    (s.bringBack r).sec = s.sec ∧ (s.bringBack r).steps = s.steps ∧ (s.bringBack r).time = s.time ∧
      (s.bringBack r).answers = s.answers ∧ (s.bringBack r).regs = s.regs ∧
      (s.bringBack r).faults.bist = s.faults.bist ∧ (s.bringBack r).faults.returning = s.faults.returning ∧
      (s.bringBack r).faults.out = s.faults.out.filter (fun x => x != r) := by
  unfold State.bringBack
  dsimp only
  split <;> simp

/-- The registers of a unit's return: the fault events and `ERR_SEQ`. -/
def returnRegs : List Nat := [faultEvents, 0xE00040, 0xE00044]

@[simp] theorem State.returned_frame (s : State) (r n : Nat) :
    (s.returned r n).sec = s.sec ∧ (s.returned r n).steps = s.steps ∧ (s.returned r n).time = s.time ∧
      (s.returned r n).answers = s.answers ∧ (s.returned r n).faults.bist = s.faults.bist ∧
      (s.returned r n).faults.out = s.faults.out := by
  simp [State.returned]

theorem State.reg_returned_ne (s : State) (r n : Nat) {a : Nat} (h : a ∉ returnRegs) : (s.returned r n).reg a = s.reg a := by
  simp only [returnRegs, List.mem_cons, List.not_mem_nil, or_false, not_or] at h
  obtain ⟨events, lo, hi⟩ := h
  exact (State.reg_faultEvent_ne _ _ events).trans (s.reg_errorRecorded_ne r 7 n lo hi)

/-- The test in progress once a unit returns: that of the unit itself has ended. -/
def Bist.afterReturn (r : Nat) (b : Option Bist) : Option Bist := b.filter (fun b => !decide (b.region = r ∧ b.state = 3))

theorem Bist.afterReturn_own {r : Nat} {b : Bist} (h : b.region = r ∧ b.state = 3) : Bist.afterReturn r (some b) = none :=
  Option.filter_some_neg (by simp [h])

theorem Bist.afterReturn_other {r : Nat} {b : Bist} (h : ¬(b.region = r ∧ b.state = 3)) :
    Bist.afterReturn r (some b) = some b := Option.filter_some_pos (by rw [decide_eq_false h]; rfl)

/-- The state once a unit's return has ended its test. -/
def State.testReturned (s : State) (r : Nat) : State :=
  match s.faults.bist with
  | some b => if b.region = r ∧ b.state = 3 then s.setBist none else s
  | none => s

@[simp] theorem State.testReturned_frame (s : State) (r : Nat) :
    (s.testReturned r).sec = s.sec ∧ (s.testReturned r).time = s.time ∧ (s.testReturned r).answers = s.answers ∧
      (s.testReturned r).regs = s.regs ∧ (s.testReturned r).faults.out = s.faults.out ∧
      (s.testReturned r).faults.bist = Bist.afterReturn r s.faults.bist := by
  unfold State.testReturned
  split
  · next b hb =>
    split
    · next own => exact ⟨rfl, rfl, rfl, rfl, rfl, by rw [hb, Bist.afterReturn_own own]; rfl⟩
    · next other => exact ⟨rfl, rfl, rfl, rfl, rfl, by rw [hb, Bist.afterReturn_other other]⟩
  · next hb => exact ⟨rfl, rfl, rfl, rfl, rfl, by rw [hb]; rfl⟩

/-- The state with a unit back in service and no longer among those that are to return. -/
def State.notReturning (s : State) (r : Nat) : State :=
  let s := s.bringBack r
  { s with faults := { s.faults with returning := s.faults.returning.filter (fun x => x != r) } }

theorem State.returnUnit_noRun {s : State} (h : s.inRun = false) (r n : Nat) :
    s.returnUnit r n = ((s.notReturning r).testReturned r).returned r n := by
  have back : (s.bringBack r).inRun = false := by simpa [State.inRun] using h
  unfold State.returnUnit
  rw [State.applySchedule_noRun back, State.refreshStage_noRun back]
  rfl

/-- What a unit that passed its test changes as it returns: during a run it waits, and otherwise it returns now (R560). -/
theorem State.toReturn_frame (s : State) (r : Nat) :
    (s.toReturn r).sec = s.sec ∧ (s.toReturn r).time = s.time ∧ (s.toReturn r).answers = s.answers ∧
      ∀ a, a ∉ returnRegs → (s.toReturn r).reg a = s.reg a := by
  unfold State.toReturn
  split
  · exact ⟨rfl, rfl, rfl, fun _ _ => rfl⟩
  · next h =>
    rw [State.returnUnit_noRun (by simpa using h)]
    refine ⟨by simp [State.notReturning], by simp [State.notReturning], by simp [State.notReturning], fun a ha => ?_⟩
    rw [State.reg_returned_ne _ _ _ ha]
    exact State.reg_congr _ _ (by simp [State.notReturning]) a

theorem State.toReturn_inRun {s : State} (h : s.inRun = true) (r : Nat) :
    s.toReturn r = { s with faults := { s.faults with returning := s.faults.returning ++ [r] } } := if_pos h

/-- With no run in progress the unit is in service again, and its own test has ended. -/
theorem State.toReturn_noRun {s : State} (h : s.inRun = false) (r : Nat) :
    (s.toReturn r).faults.bist = Bist.afterReturn r s.faults.bist ∧ (s.toReturn r).isOut r = false := by
  have now : s.toReturn r = s.returnUnit r 0 := if_neg (by simp [h])
  rw [now, State.returnUnit_noRun h]
  simp [State.notReturning, State.isOut]

end Sys2Proof.Machine
end

section
/-! SUPPORT. The commands and events of in-service self-tests, each from the state it finds, and the statement about them
(R560, R571-R573). -/

namespace Sys2Proof.Machine

theorem State.inRun_of_run {s t : State} (h : t.steps.run = s.steps.run) : t.inRun = s.inRun := by
  rw [State.inRun, h]
  rfl

@[simp] theorem State.inRun_accepted (s : State) (f : CritFrame) : (s.accepted f).inRun = s.inRun :=
  State.inRun_of_run (by simp)

@[simp] theorem State.stepNow_accepted (s : State) (f : CritFrame) : (s.accepted f).stepNow = s.stepNow := by
  simp [State.stepNow]

@[simp] theorem State.effectStep_accepted (s : State) (f : CritFrame) : (s.accepted f).effectStep f = s.effectStep f := by
  simp [State.effectStep, State.nextStep]

/-- A command that the fault block reports, once accepted, ends in its answer (R571, R579). -/
theorem State.accepted_reports {op : Nat} (h : 0x0180 ≤ op ∧ op ≤ 0x01BF) (s : State) (f : CritFrame) (ep o c d n : Nat)
    (r : Bytes) : ((s.accepted f).endCritical f op ep o c d n r).critReports s op o c :=
  (State.critReports_bist h _ s o c).mpr
    ((State.endCritical_bist h (s.accepted f) f ep o c d n r).1.of_alike (s.accepted_alike f))

/-- Served, answered in the cycle of an answer Refused, leaves that answer (R39). -/
theorem State.reportsHi_refused_served {s t u : State} {b c : Nat} (first : t.reportsHi s b refused c)
    (latest : lookupKey b t.answers = some t.cycle) (second : u.reportsHi t b served 0) : u.reportsHi s b refused c := by
  have shown : t.fld ⟨b, 8, 2⟩ = 3 := (congrArg Prod.fst first).trans (s.keptAnswer_refused b 8 16 c)
  unfold State.reportsHi at second ⊢
  rw [second, State.keptAnswer_served 0 latest (by rw [shown]; decide)]
  exact first

/-! BIST_RUN. -/

/-- Which tests are permitted depends on errors, the run, memory, power and the pairing of ports (R572). -/
theorem State.bistRefused_accepted (s : State) (f : CritFrame) (r : Nat) (force : Bool) :
    (s.accepted f).bistRefused r force = s.bistRefused r force := by
  have isOut (x : Nat) : (s.accepted f).isOut x = s.isOut x := by simp [State.isOut]
  have select (out : List Nat) : (s.accepted f).selectSchedule out = s.selectSchedule out := by simp [State.selectSchedule]
  have covered : (s.accepted f).coveredBySchedule r = s.coveredBySchedule r := by simp [State.coveredBySchedule, select]
  have paired (n : Nat) : (s.accepted f).portPaired n = s.portPaired n := by
    unfold State.portPaired
    rw [isOut, State.fld_of_reg (s.reg_accepted f (by dsimp only; omega))]
  have cover : (s.accepted f).hasCover r = s.hasCover r := by
    simp [State.hasCover, State.framesUsed, State.pcsIn, covered, paired]
  simp [State.bistRefused, isOut, covered, cover]

theorem effBistRun_accepted {f : CritFrame} {region : BitVec 16} {force : Bool} {s : State} (h : s.accepts f 0x0180 = true)
    (real : regionExists region.toNat = true) :
    effBistRun f region force s =
      if s.bistRefused region.toNat force then (s.accepted f).refuseCritical f 0x0180 s.host.epoch 0x85
      else (s.accepted f).beginBist ⟨region.toNat, 1, some (f, s.host.epoch), s.effectStep f, false⟩ := by
  simp [effBistRun, State.critical_accepted h, real, State.bistRefused_accepted]

/-! BIST_COMPLETE. -/

/-- The state with a region that is no longer in its quarantine test. -/
def State.notTesting (s : State) (r : Nat) : State :=
  { s with faults := { s.faults with testing := s.faults.testing.filter (fun x => x != r) } }

/-- The state once a commanded test's verdict has been given and its FAULT record written, before its unit returns (R571). -/
def State.testPassed (s : State) (v : BistVerdict) : State :=
  let s := (s.notTesting v.region).finishBist v.region v.outcome v.coverage v.durationUs v.firstFail served 0
  s.errorRecorded v.region 8 s.stepNow

theorem State.underTest_of_bist {s : State} {b : Bist} {r : Nat} (h : s.faults.bist = some b) (region : b.region = r)
    (testing : b.state = 2) : s.underTest r = true := by
  simp [State.underTest, h, region, testing]

/-- A commanded test that passes without a repair: its unit is to return (R560, R571). -/
theorem effBistComplete_passed {v : BistVerdict} {b : Bist} {s : State} (up : s.up = true) (h : s.faults.bist = some b)
    (single : b.full = false) (under : s.underTest v.region = true) (commanded : s.faults.testing.contains v.region = false)
    (passed : v.outcome = 1) : effBistComplete v s = (s.testPassed v).toReturn v.region := by
  have kept : ¬(v.outcome == 2 && (regionClass v.region == 2 || regionClass v.region == 4)) = true := by simp [passed]
  have unrepaired : s.logRepair v = s := if_pos (by rw [passed]; decide)
  unfold effBistComplete
  dsimp only
  rw [if_neg (by simp [up]), if_neg (by simp [h, single]), if_neg (by simp [under]),
    if_neg (by simp [State.testFails, passed]), unrepaired, if_neg kept, if_pos (by rw [commanded]; rfl)]
  rfl

/-- A test that fails leaves its unit out of service (R560, R568). -/
theorem effBistComplete_failed {v : BistVerdict} {b : Bist} {s : State} (up : s.up = true) (h : s.faults.bist = some b)
    (single : b.full = false) (under : s.underTest v.region = true) (failed : v.outcome = 3) :
    effBistComplete v s =
      (s.newError v.region 4).2.testFailed (s.newError v.region 4).1 v.coverage v.durationUs v.firstFail := by
  unfold effBistComplete
  dsimp only
  rw [if_neg (by simp [up]), if_neg (by simp [h, single]), if_neg (by simp [under]),
    if_pos (by simp [State.testFails, failed])]

theorem Bist.ended_passed {b : Bist} (single : b.full = false) :
    b.ended 1 served = some { b with state := 3, command := none } := by
  simp [Bist.ended, single]

theorem Bist.ended_refused (b : Bist) (outcome : Nat) : b.ended outcome refused = none := by
  simp [Bist.ended, refused, served]

theorem Bist.ended_failed (b : Bist) (ans : Nat) : b.ended 3 ans = none := by
  simp [Bist.ended]

theorem State.testPassed_spec {s : State} {v : BistVerdict} {b : Bist} (h : s.faults.bist = some b)
    (single : b.full = false) (passed : v.outcome = 1) :
    (s.testPassed v).steps.run = s.steps.run ∧
      (s.testPassed v).faults.bist = some { b with state := 3, command := none } ∧
      (s.testPassed v).faults.returning = s.faults.returning ∧
      (s.testPassed v).reg 0xE00028 = bistResult v.region 1 v.coverage % 2 ^ 32 := by
  obtain ⟨-, run, -, faults, result⟩ :=
    State.finishBist_spec (s := s.notTesting v.region) h v.region v.outcome v.coverage v.durationUs v.firstFail served 0
  rw [passed] at faults result
  rw [Bist.ended_passed single] at faults
  unfold State.testPassed
  dsimp only
  rw [State.reg_errorRecorded_ne _ _ _ _ (by decide) (by decide), passed]
  simp only [State.errorRecorded_frame, faults, result]
  exact ⟨passed ▸ run, trivial, rfl, trivial⟩

/-- The state once a test has failed and its FAULT record is written, before the test in progress ends (R560, R570). -/
def State.failureNoted (s : State) (e : ErrRec) : State :=
  let s := s.notTesting e.region
  let s := if regionClass e.region = 6 then
      { s with power := { s.power with pairsUnusable := regionInst e.region :: s.power.pairsUnusable } }
    else s
  s.faultRecord e 9 0x84 0 [] noSeq s.stepNow

@[simp] theorem State.failureNoted_frame (s : State) (e : ErrRec) :
    (s.failureNoted e).faults.bist = s.faults.bist ∧ (s.failureNoted e).faults.out = s.faults.out := by
  unfold State.failureNoted
  dsimp only
  split <;> simp [State.notTesting]

/-- The failure of the test in progress ends it and leaves the units out of service as they were. -/
theorem State.testFailed_spec {s : State} {b : Bist} {e : ErrRec} (h : s.faults.bist = some b) (own : b.region = e.region)
    (coverage durUs first : Nat) :
    (s.testFailed e coverage durUs first).faults.bist = none ∧
      (s.testFailed e coverage durUs first).faults.out = s.faults.out := by
  have noted : (s.failureNoted e).faults.bist = some b := by simp [h]
  have ended : s.testFailed e coverage durUs first = (s.failureNoted e).finishBist e.region 3 coverage durUs first served 0 := by
    unfold State.testFailed
    change (match (s.failureNoted e).faults.bist with | some b => _ | none => _) = _
    rw [noted]
    exact if_pos own
  obtain ⟨-, -, -, faults, -⟩ := State.finishBist_spec noted e.region 3 coverage durUs first served 0
  rw [ended, faults, Bist.ended_failed]
  simp

/-! BIST_ABORT. -/

/-- The state once BIST_ABORT has ended the test, before its own answer (R571). -/
def State.testAborted (s : State) : State :=
  match s.faults.bist with
  | some b =>
    if b.full ∨ b.state = 3 then s
    else
      let t := s.finishBist b.region 0 0 0 0 refused 0x85
      if b.state = 2 then (t.setBist (some { b with state := 3, command := none })).toReturn b.region else t
  | none => s

theorem effBistAbort_accepted {f : CritFrame} {s : State} (h : s.accepts f 0x0181 = true) :
    effBistAbort f s = (s.accepted f).testAborted.serveCritical f 0x0181 s.host.epoch [] := by
  have epoch : (s.accepted f).host.epoch = s.host.epoch := by simp
  unfold effBistAbort
  rw [State.critical_accepted h, ← epoch]
  rfl

theorem State.testAborted_idle {s : State} (h : s.faults.bist = none) : s.testAborted = s := by
  simp [State.testAborted, h]

theorem State.testAborted_over {s : State} {b : Bist} (h : s.faults.bist = some b) (done : b.full = true ∨ b.state = 3) :
    s.testAborted = s := by
  simp [State.testAborted, h, done]

/-- A test that has not isolated its unit just ends. -/
theorem State.testAborted_waiting {s : State} {b : Bist} (h : s.faults.bist = some b) (single : b.full = false)
    (waiting : b.state ≠ 3) (notIsolated : b.state ≠ 2) :
    s.testAborted = s.finishBist b.region 0 0 0 0 refused 0x85 := by
  simp [State.testAborted, h, single, waiting, notIsolated]

/-- A unit under test is to return. -/
theorem State.testAborted_isolated {s : State} {b : Bist} (h : s.faults.bist = some b) (single : b.full = false)
    (isolated : b.state = 2) :
    s.testAborted = ((s.finishBist b.region 0 0 0 0 refused 0x85).setBist
      (some { b with state := 3, command := none })).toReturn b.region := by
  simp [State.testAborted, h, single, isolated]

/-- The abort of a test keeps the security block, time, and what a test's end leaves in the fault block's register. -/
theorem State.testAborted_frame {s : State} {b : Bist} (h : s.faults.bist = some b) (single : b.full = false)
    (waiting : b.state ≠ 3) :
    let t := s.finishBist b.region 0 0 0 0 refused 0x85
    s.testAborted.sec = s.sec ∧ s.testAborted.answersAlike t blockFault := by
  obtain ⟨sec, -, time, -, -⟩ := State.finishBist_spec h b.region 0 0 0 0 refused 0x85
  by_cases isolated : b.state = 2
  · obtain ⟨retSec, retTime, retAnswers, retReg⟩ := ((s.finishBist b.region 0 0 0 0 refused 0x85).setBist
      (some { b with state := 3, command := none })).toReturn_frame b.region
    rw [State.testAborted_isolated h single isolated]
    exact ⟨retSec.trans sec, retReg _ (by decide), retAnswers, retTime⟩
  · rw [State.testAborted_waiting h single waiting isolated]
    exact ⟨sec, rfl, rfl, rfl⟩

theorem State.sec_testAborted (s : State) : s.testAborted.sec = s.sec := by
  cases h : s.faults.bist with
  | none => rw [State.testAborted_idle h]
  | some b =>
    by_cases done : b.full = true ∨ b.state = 3
    · rw [State.testAborted_over h done]
    · obtain ⟨single, waiting⟩ := not_or.mp done
      exact (State.testAborted_frame h (by simpa using single) waiting).1

/-- The command that began an aborted test is answered Refused, and the abort's own Served of the same cycle does not take the
place of that answer (R39, R571). -/
theorem State.testAborted_reports {s : State} {b : Bist} {g : CritFrame × Nat} (h : s.faults.bist = some b)
    (single : b.full = false) (waiting : b.state ≠ 3) (command : b.command = some g)
    (range : 0x0180 ≤ g.1.opcode.toNat ∧ g.1.opcode.toNat ≤ 0x01BF) (f : CritFrame) (ep : Nat) :
    (s.testAborted.serveCritical f 0x0181 ep []).reportsHi s blockFault refused 0x85 := by
  obtain ⟨-, alike⟩ := State.testAborted_frame h single waiting
  obtain ⟨-, -, time, -, -⟩ := State.finishBist_spec h b.region 0 0 0 0 refused 0x85
  obtain ⟨reports, latest⟩ := State.finishBist_reports h command range b.region 0 0 0 0 refused 0x85
  obtain ⟨reg, answers, keptTime⟩ := alike
  have cycle : s.testAborted.cycle = s.cycle := by rw [State.cycle, State.now, keptTime, time]; rfl
  refine State.reportsHi_refused_served (State.reportsHi_of_reg reports reg) ?_
    (State.endCritical_bist (by decide) s.testAborted f ep served 0 0 s.testAborted.stepNow []).1
  rw [answers, latest, cycle]

/-! BIST_CYCLE and BIST_CYCLE_INTERVAL. -/

/-- The state with a cycle of tests set (R571). -/
def State.cycleSet (s : State) (interval mask : Nat) : State :=
  { s with faults := { s.faults with cycleSteps := interval, cycleMask := mask, cycleAt := s.stepNow + interval } }

theorem effBistCycle_accepted {f : CritFrame} {n : BitVec 32} {mask : BitVec 16} {s : State}
    (h : s.accepts f 0x0182 = true) :
    effBistCycle f n mask s =
      ((s.accepted f).cycleSet n.toNat mask.toNat).serveCritical f 0x0182 (s.accepted f).host.epoch [] :=
  State.critical_accepted h _

/-- The state with the next interval of the cycle to come (R571). -/
def State.cycleAdvanced (s : State) : State :=
  { s with faults := { s.faults with cycleAt := s.stepNow + s.faults.cycleSteps } }

/-- The next region of the cycle: the first after the last one tested, else the first. -/
def State.nextCycled (s : State) (rs : List Nat) : Option Nat :=
  (rs.find? (fun r => decide (s.faults.cycleLast < r))).orElse (fun _ => rs.head?)

/-- A region's test begun by the cycle, which has no command to answer. -/
def State.cycleBegun (s : State) (r : Nat) : State :=
  { s with faults := { s.faults with cycleLast := r, bist := some ⟨r, 1, none, s.nextStep, false⟩ } }

/-- An interval of the cycle that has passed: the next region is tested, if there is one. -/
theorem effBistCycleInterval_due {s : State} (up : s.up = true) (run : s.inRun = true) (set : s.faults.cycleSteps ≠ 0)
    (due : s.faults.cycleAt ≤ s.stepNow) :
    effBistCycleInterval s =
      match s.nextCycled s.cycleRegions with
      | some r => s.cycleAdvanced.cycleBegun r
      | none => s.cycleAdvanced := by
  have idle : ¬((!s.up) = true ∨ (!s.inRun) = true ∨ s.faults.cycleSteps = 0 ∨ s.stepNow < s.faults.cycleAt) := by
    simp [up, run, set, due]
  unfold effBistCycleInterval
  rw [if_neg idle]
  change (match s.nextCycled s.cycleRegions with | some r => _ | none => _) = _
  cases s.nextCycled s.cycleRegions with
  | none => rfl
  | some r => exact State.beginBist_inRun _ run

theorem State.nextCycled_singleton (s : State) (r : Nat) : s.nextCycled [r] = some r := by
  by_cases h : s.faults.cycleLast < r <;> simp [State.nextCycled, h]

/-! What each command settles. -/

/-- An accepted BIST_RUN is refused with nothing of the errors and tests changed, or begins the test (R572, R573). -/
theorem effBistRun_settles {f : CritFrame} {region : BitVec 16} {force : Bool} {s : State} (h : s.accepts f 0x0180 = true)
    (real : regionExists region.toNat = true) :
    let t := effBistRun f region force s
    t.sec = s.secAfter f ∧
      (s.bistRefused region.toNat force = true → t.faults = s.faults ∧ t.critReports s 0x0180 refused 0x85) ∧
      (s.bistRefused region.toNat force = false → s.inRun = true →
        t = (s.accepted f).setBist (some ⟨region.toNat, 1, some (f, s.host.epoch), s.effectStep f, false⟩)) ∧
      (s.bistRefused region.toNat force = false → s.inRun = false →
        t.faults.bist = some ⟨region.toNat, 2, some (f, s.host.epoch), 0, false⟩) := by
  rw [effBistRun_accepted h real]
  refine ⟨?_, fun no => ?_, fun yes run => ?_, fun yes run => ?_⟩
  · split <;> simp
  · rw [if_pos no]
    exact ⟨by simp, State.accepted_reports (by decide) s f _ refused 0x85 0 _ []⟩
  · rw [if_neg (by simp [yes]), State.beginBist_inRun _ (by simpa using run)]
  · rw [if_neg (by simp [yes]), State.beginBist_noRun _ (by simpa using run)]
    exact (State.isolate_spec _ _ 0).2

/-- A commanded test that passes gives its result, and its unit waits to return during a run and returns at once without one
(R560, R571). -/
theorem effBistComplete_returns {v : BistVerdict} {b : Bist} {s : State} (up : s.up = true) (bist : s.faults.bist = some b)
    (single : b.full = false) (testing : b.state = 2) (region : b.region = v.region)
    (commanded : s.faults.testing.contains v.region = false) (passed : v.outcome = 1) :
    let t := effBistComplete v s
    t.reg 0xE00028 = bistResult v.region 1 v.coverage % 2 ^ 32 ∧
      (s.inRun = true → t.faults.bist = some { b with state := 3, command := none } ∧
        t.faults.returning = s.faults.returning ++ [v.region]) ∧
      (s.inRun = false → t.faults.bist = none ∧ t.isOut v.region = false) := by
  obtain ⟨kept, test, returning, result⟩ := State.testPassed_spec bist single passed
  obtain ⟨-, -, -, reg⟩ := (s.testPassed v).toReturn_frame v.region
  have sameRun := State.inRun_of_run kept
  rw [effBistComplete_passed up bist single (State.underTest_of_bist bist region testing) commanded passed]
  refine ⟨(reg _ (by decide)).trans result, fun run => ?_, fun run => ?_⟩
  · rw [State.toReturn_inRun (sameRun.trans run)]
    exact ⟨test, congrArg (· ++ [v.region]) returning⟩
  · obtain ⟨ended, back⟩ := State.toReturn_noRun (sameRun.trans run) v.region
    rw [test] at ended
    exact ⟨ended.trans (Bist.afterReturn_own (b := { b with state := 3, command := none }) ⟨region, rfl⟩), back⟩

/-- An accepted BIST_ABORT that finds no test to end is just served. -/
theorem effBistAbort_nothing {f : CritFrame} {s : State} (h : s.accepts f 0x0181 = true)
    (nothing : (s.accepted f).testAborted = s.accepted f) :
    (effBistAbort f s).faults = s.faults ∧ (effBistAbort f s).critReports s 0x0181 served 0 := by
  rw [effBistAbort_accepted h, nothing]
  exact ⟨by simp, State.accepted_reports (by decide) s f _ served 0 0 _ []⟩

/-- A test that BIST_ABORT ends before its unit was isolated is over (R571). -/
theorem effBistAbort_waiting {f : CritFrame} {b : Bist} {s : State} (h : s.accepts f 0x0181 = true)
    (bist : (s.accepted f).faults.bist = some b) (single : b.full = false) (begun : b.state = 1) :
    (effBistAbort f s).faults.bist = none := by
  obtain ⟨-, -, -, faults, -⟩ := State.finishBist_spec bist b.region 0 0 0 0 refused 0x85
  rw [effBistAbort_accepted h, State.testAborted_waiting bist single (by simp [begun]) (by simp [begun])]
  simp [faults, Bist.ended_refused]

/-- During a run a unit whose test BIST_ABORT ends waits to return (R560, R571). -/
theorem effBistAbort_isolated {f : CritFrame} {b : Bist} {s : State} (h : s.accepts f 0x0181 = true)
    (bist : (s.accepted f).faults.bist = some b) (single : b.full = false) (isolated : b.state = 2) (run : s.inRun = true) :
    (effBistAbort f s).faults.bist = some { b with state := 3, command := none } ∧
      (effBistAbort f s).faults.returning = s.faults.returning ++ [b.region] := by
  obtain ⟨-, kept, -, faults, -⟩ := State.finishBist_spec bist b.region 0 0 0 0 refused 0x85
  have running : (((s.accepted f).finishBist b.region 0 0 0 0 refused 0x85).setBist
      (some { b with state := 3, command := none })).inRun = true :=
    (State.inRun_of_run kept).trans ((s.inRun_accepted f).trans run)
  rw [effBistAbort_accepted h, State.testAborted_isolated bist single isolated, State.toReturn_inRun running]
  simp [State.setBist, faults]

/-- An accepted BIST_CYCLE sets the cycle and is served (R571). -/
theorem effBistCycle_settles {f : CritFrame} {n : BitVec 32} {mask : BitVec 16} {s : State}
    (h : s.accepts f 0x0182 = true) :
    (effBistCycle f n mask s).sec = s.secAfter f ∧ (effBistCycle f n mask s).critReports s 0x0182 served 0 ∧
      (effBistCycle f n mask s).faults = (s.cycleSet n.toNat mask.toNat).faults := by
  have alike : ((s.accepted f).cycleSet n.toNat mask.toNat).answersAlike s blockFault := s.accepted_alike f
  rw [effBistCycle_accepted h]
  refine ⟨by simp [State.cycleSet], ?_, by simp [State.cycleSet]⟩
  exact (State.critReports_bist (by decide) _ s _ _).mpr
    ((State.endCritical_bist (by decide) _ f _ served 0 0 _ []).1.of_alike alike)

end Sys2Proof.Machine

open Sys2Proof Sys2Proof.Machine

/-- Settles O44: every command is taken through what it does to the test in progress, and an answer through the fault block's
register. -/
theorem selfTestsRunOnOneRegion : Obligations.SelfTestsRunOnOneRegion := by
  refine ⟨fun f region force s h real => ?_, fun v b s up bist single testing region commanded small passed => ?_,
    fun v b s up bist single testing region failed => ?_, fun f s h => ?_,
    fun f n mask s h => ⟨_, rfl, effBistCycle_settles h⟩, fun s up run set due => ?_⟩
  · obtain ⟨sec, no, waits, now⟩ := effBistRun_settles (force := force) h real
    refine ⟨_, rfl, sec, no, fun yes run => ?_, now⟩
    rw [waits yes run]
    simp [State.setBist]
  · obtain ⟨result, returns⟩ := effBistComplete_returns up bist single testing region commanded passed
    exact ⟨_, rfl, result.trans (Nat.mod_eq_of_lt (by unfold bistResult; omega)), returns⟩
  · obtain ⟨test, out⟩ := State.testFailed_spec (s := (s.newError v.region 4).2) (e := (s.newError v.region 4).1)
      (by simpa using bist) (by simpa using region) v.coverage v.durationUs v.firstFail
    have under := State.underTest_of_bist bist region testing
    refine ⟨_, congrArg Host.Outcome.next (effBistComplete_failed up bist single under failed), test, ?_⟩
    simp [State.isOut, out]
  · have found : (s.accepted f).faults.bist = s.faults.bist := by simp
    refine ⟨_, rfl, ?_, fun none => effBistAbort_nothing h (State.testAborted_idle (found.trans none)),
      fun b bist done => effBistAbort_nothing h (State.testAborted_over (found.trans bist) done),
      fun b g bist single waiting command lo hi => ?_,
      fun b bist single begun => effBistAbort_waiting h (found.trans bist) single begun,
      fun b bist single isolated run => effBistAbort_isolated h (found.trans bist) single isolated run⟩
    · rw [effBistAbort_accepted h]
      simp [State.serveCritical, State.sec_testAborted]
    · rw [effBistAbort_accepted h]
      exact (State.critReports_bist (by decide) _ s _ _).mpr
        ((State.testAborted_reports (found.trans bist) single waiting command ⟨lo, hi⟩ f _).of_alike (s.accepted_alike f))
  · refine ⟨_, congrArg Host.Outcome.next (effBistCycleInterval_due up run set due), ?_, fun r one => ?_, fun none => ?_, ?_⟩
    · split <;> rfl
    · rw [one, State.nextCycled_singleton]
      rfl
    · rw [none]
      rfl
    · split <;> rfl

end

section
/-! SUPPORT. The trail: what an appended record leaves (R81, R87, R89), what every write of the trail keeps, and the statement about
its chain. -/

namespace Sys2Proof.Machine

/-! A record appended. -/

/-- The record that a draft becomes when it is written now. -/
def State.nextRec (s : State) (d : TrailDraft) : TrailRec :=
  ⟨s.trail.nextSeq, s.trail.write, s.trail.digest, s.finishDraft d⟩

theorem State.finishDraft_kind (s : State) (d : TrailDraft) : (s.finishDraft d).kind = d.kind := by
  unfold State.finishDraft
  split <;> rfl

/-- Only a SEAL is formed as it is written (R87). -/
theorem State.finishDraft_of_ne {d : TrailDraft} (h : d.kind ≠ kSeal) (s : State) : s.finishDraft d = d := if_neg h

/-- The parts of the trail that carry its chain, after a record more. -/
theorem State.trailAppend_trail {s t : State} {d : TrailDraft} (h : s.trailAppend d = some t) :
    t.trail.records = s.nextRec d :: s.trail.records ∧ t.trail.nextSeq = s.trail.nextSeq + 1 ∧
      t.trail.digest = sha384 (recBytes (s.nextRec d).seq (s.nextRec d).prev (s.nextRec d).draft) ∧
      t.trail.hold = s.trail.hold := by
  unfold State.trailAppend at h
  unfold State.nextRec
  dsimp only at h
  generalize s.finishDraft d = e at h ⊢
  generalize sha384 (recBytes s.trail.nextSeq s.trail.digest e) = digest at h ⊢
  generalize (if e.kind = kSeal then s.free + 1 else s.free) = fr at h
  generalize (if e.kind = kSeal then s.trail.nextSeq + 1 else s.trail.firstSeq) = fs at h
  split at h
  · split at h
    · cases h
      simp
    · cases h
      exact ⟨rfl, rfl, rfl, rfl⟩
  · cases h

/-- A record is appended when it fits (R89). -/
theorem State.trailAppend_isSome {s : State} {d : TrailDraft} (h : recSize (s.finishDraft d) + 8 ≤ s.trailFree) :
    ∃ t, s.trailAppend d = some t := by
  refine Option.isSome_iff_exists.mp ?_
  unfold State.trailAppend
  dsimp only
  rw [if_pos h, apply_ite Option.isSome]
  exact ite_self true

/-! What every write of the trail keeps. -/

/-- What survives a change of the drafts that wait, a hold, and each record appended with a SEAL where one is due survives the
pump. -/
theorem State.trailPump_keeps {P : State → Prop}
    (waits : ∀ s ds, P s → P { s with trail := { s.trail with waiting := ds } })
    (holds : ∀ s ds b, P s → P (s.holdDrafts ds b))
    (appends : ∀ s d t, s.trailAppend d = some t → (s.sealDue = true → d.kind = kSeal) → P s → P t)
    (fuel : Nat) (s : State) (ds : List TrailDraft) (h : P s) : P (State.trailPump fuel s ds) := by
  induction fuel generalizing s ds with
  | zero => exact waits s ds h
  | succ n ih =>
    unfold State.trailPump
    extract_lets stop due
    split
    · exact waits s [] h
    split
    · exact holds s ds true h
    have kind : s.sealDue = true → (if due then sealDraft else ds.headD sealDraft).kind = kSeal := by
      intro hs
      by_cases hd : due = true
      · rw [if_pos hd]
        rfl
      · have stops : stop = true := by simpa [due, hs] using hd
        rw [if_neg hd]
        cases ds with
        | nil => rfl
        | cons d ds => exact beq_iff_eq.mp stops
    split
    · exact holds s ds false h
    · next t ht =>
      have kept := appends s _ t ht kind h
      split
      · exact waits t _ kept
      · exact ih t _ kept

/-- The same of a record written, held back before the run, or left waiting. -/
theorem State.trailWrite_keeps {P : State → Prop}
    (before : ∀ s ds n, P s → P { s with trail := { s.trail with preRun := ds, preRunLost := n } })
    (waits : ∀ s ds, P s → P { s with trail := { s.trail with waiting := ds } })
    (holds : ∀ s ds b, P s → P (s.holdDrafts ds b))
    (appends : ∀ s d t, s.trailAppend d = some t → (s.sealDue = true → d.kind = kSeal) → P s → P t)
    (s : State) (d : TrailDraft) (h : P s) : P (s.trailWrite d) := by
  unfold State.trailWrite
  split
  · split
    · exact before s _ _ h
    · exact before s _ _ h
  · split
    · exact waits s _ h
    · exact State.trailPump_keeps waits holds appends 4 s [d] h

/-- A hold changes neither the records nor what the next one continues. -/
theorem State.holdDrafts_trail (s : State) (ds : List TrailDraft) (b : Bool) :
    (s.holdDrafts ds b).trail.records = s.trail.records ∧ (s.holdDrafts ds b).trail.nextSeq = s.trail.nextSeq ∧
      (s.holdDrafts ds b).trail.digest = s.trail.digest ∧ (s.holdDrafts ds b).trail.hold = true := by
  unfold State.holdDrafts State.setHold
  split
  · next held => exact ⟨rfl, rfl, rfl, held⟩
  · simp

/-! The chain (R81, R87). -/

/-- The chain is in the records, the next sequence number and the last digest. -/
theorem State.trailChained_of_trail {s t : State} (h : s.trailChained) (records : t.trail.records = s.trail.records)
    (seq : t.trail.nextSeq = s.trail.nextSeq) (digest : t.trail.digest = s.trail.digest) : t.trailChained := by
  unfold State.trailChained
  rwa [records, seq, digest]

/-- A record appended continues the chain, where a SEAL is written at its number. -/
theorem State.trailChained_append {s t : State} {d : TrailDraft} (ht : s.trailAppend d = some t)
    (kind : s.sealDue = true → d.kind = kSeal) (h : s.trailChained) : t.trailChained := by
  obtain ⟨records, seq, digest, -⟩ := State.trailAppend_trail ht
  obtain ⟨linked, front⟩ := h
  refine ⟨?_, .inr ⟨s.nextRec d, s.trail.records, records, seq, digest⟩⟩
  rw [records]
  refine ⟨fun full => ?_, ?_, linked⟩
  · show (s.finishDraft d).kind = kSeal
    rw [s.finishDraft_kind d]
    exact kind (beq_iff_eq.mpr full)
  · rcases front with ⟨zero, none⟩ | ⟨y, ys, hy, hseq, hdigest⟩
    · exact .inl ⟨zero, none⟩
    · exact .inr ⟨y, ys, hy, hseq, hdigest⟩

theorem State.trailChained_trailWrite {s : State} (d : TrailDraft) (h : s.trailChained) : (s.trailWrite d).trailChained := by
  refine State.trailWrite_keeps (P := State.trailChained) (fun s ds n h => ?_) (fun s ds h => ?_) (fun s ds b h => ?_)
    (fun s d t ht kind h => State.trailChained_append ht kind h) s d h
  · exact State.trailChained_of_trail h rfl rfl rfl
  · exact State.trailChained_of_trail h rfl rfl rfl
  · obtain ⟨records, seq, digest, -⟩ := s.holdDrafts_trail ds b
    exact State.trailChained_of_trail h records seq digest

/-- The trail of the reset state is empty. -/
theorem State.trailChained_reset : State.reset.trailChained := ⟨trivial, .inl ⟨rfl, rfl⟩⟩

/-! What the trail's writing only adds to. -/

/-- Between two trails records may have been added, and a hold may have begun. -/
structure Trail.GrowsTo (a b : Trail) : Prop where
  records : ∀ x ∈ a.records, x ∈ b.records
  seq : a.nextSeq ≤ b.nextSeq
  hold : a.hold = true → b.hold = true

theorem Trail.GrowsTo.refl (a : Trail) : a.GrowsTo a := ⟨fun _ h => h, le_rfl, fun h => h⟩

theorem Trail.GrowsTo.trans {a b c : Trail} (h : a.GrowsTo b) (g : b.GrowsTo c) : a.GrowsTo c :=
  ⟨fun x hx => g.records x (h.records x hx), h.seq.trans g.seq, fun held => g.hold (h.hold held)⟩

theorem Trail.GrowsTo.append {s t : State} {d : TrailDraft} (h : s.trailAppend d = some t) : s.trail.GrowsTo t.trail := by
  obtain ⟨records, seq, -, hold⟩ := State.trailAppend_trail h
  refine ⟨fun x hx => ?_, by omega, fun held => hold.trans held⟩
  rw [records]
  exact List.mem_cons_of_mem _ hx

theorem Trail.GrowsTo.holdDrafts (s : State) (ds : List TrailDraft) (b : Bool) : s.trail.GrowsTo (s.holdDrafts ds b).trail := by
  obtain ⟨records, seq, -, hold⟩ := s.holdDrafts_trail ds b
  exact ⟨fun x hx => records.symm ▸ hx, seq.ge, fun _ => hold⟩

theorem State.trailPump_grows (fuel : Nat) (s : State) (ds : List TrailDraft) :
    s.trail.GrowsTo (State.trailPump fuel s ds).trail :=
  State.trailPump_keeps (P := fun t => s.trail.GrowsTo t.trail) (fun _ _ h => ⟨h.records, h.seq, h.hold⟩)
    (fun t ds b h => h.trans (.holdDrafts t ds b)) (fun _ _ _ ht _ h => h.trans (.append ht)) fuel s ds (.refl _)

theorem State.trailWrite_grows (s : State) (d : TrailDraft) : s.trail.GrowsTo (s.trailWrite d).trail :=
  State.trailWrite_keeps (P := fun t => s.trail.GrowsTo t.trail) (fun _ _ _ h => ⟨h.records, h.seq, h.hold⟩)
    (fun _ _ h => ⟨h.records, h.seq, h.hold⟩) (fun t ds b h => h.trans (.holdDrafts t ds b))
    (fun _ _ _ ht _ h => h.trans (.append ht)) s d (.refl _)

theorem State.record_grows (s : State) (k o c n : Nat) (b : Bytes) : s.trail.GrowsTo (s.record k o c n b).trail :=
  s.trailWrite_grows _

/-! The record that a write adds. -/

/-- Where no SEAL is due, a draft that fits is the next record. -/
theorem State.trailPump_room {s : State} {d : TrailDraft} (fuel : Nat) (kind : d.kind ≠ kSeal) (due : s.sealDue = false)
    (room : recSize d + 8 ≤ s.trailFree) : s.nextRec d ∈ (State.trailPump (fuel + 1) s [d]).trail.records := by
  obtain ⟨t, ht⟩ := State.trailAppend_isSome (s := s) (d := d) (by rwa [State.finishDraft_of_ne kind])
  have goes : State.trailPump (fuel + 1) s [d] = State.trailPump fuel t [] := by
    simp [State.trailPump, due, kind, ht]
  rw [goes]
  refine (t.trailPump_grows fuel []).records _ ?_
  rw [(State.trailAppend_trail ht).1]
  exact List.mem_cons_self

/-- Where no SEAL is due, a draft is the next record, or the trail holds. -/
theorem State.trailPump_writes {s : State} {d : TrailDraft} (fuel : Nat) (kind : d.kind ≠ kSeal) (due : s.sealDue = false) :
    (State.trailPump (fuel + 1) s [d]).trail.hold = true ∨ s.nextRec d ∈ (State.trailPump (fuel + 1) s [d]).trail.records := by
  by_cases room : recSize d + 8 ≤ s.trailFree
  · exact .inr (State.trailPump_room fuel kind due room)
  · left
    have full : s.trailAppend d = none := by
      unfold State.trailAppend
      dsimp only
      rw [State.finishDraft_of_ne kind, if_neg room]
    have goes : State.trailPump (fuel + 1) s [d] = s.holdDrafts [d] false := by
      simp [State.trailPump, due, kind, full]
    rw [goes]
    exact (s.holdDrafts_trail [d] false).2.2.2

/-- A SEAL that falls due is written before the draft, which then meets none due. -/
theorem State.trailPump_due {s : State} {d : TrailDraft} (fuel : Nat) (kind : d.kind ≠ kSeal) (due : s.sealDue = true) :
    (State.trailPump (fuel + 1) s [d]).trail.hold = true ∨
      ∃ t, s.trailAppend sealDraft = some t ∧ State.trailPump (fuel + 1) s [d] = State.trailPump fuel t [d] := by
  by_cases quarantined : s.sec.quarantined = true
  · left
    have goes : State.trailPump (fuel + 1) s [d] = s.holdDrafts [d] true := by
      simp [State.trailPump, due, kind, quarantined]
    rw [goes]
    exact (s.holdDrafts_trail [d] true).2.2.2
  · cases h : s.trailAppend sealDraft with
    | none =>
      left
      have goes : State.trailPump (fuel + 1) s [d] = s.holdDrafts [d] false := by
        simp [State.trailPump, due, kind, quarantined, h]
      rw [goes]
      exact (s.holdDrafts_trail [d] false).2.2.2
    | some t => exact .inr ⟨t, rfl, by simp [State.trailPump, due, kind, quarantined, h]⟩

/-- In a run that nothing holds, a record written stands in the trail under a new number, or the trail holds from then on. -/
theorem State.trailWrite_writes {s : State} {d : TrailDraft} (run : s.inRun = true) (free : s.trail.hold = false)
    (kind : d.kind ≠ kSeal) :
    (s.trailWrite d).trail.hold = true ∨
      ∃ x ∈ (s.trailWrite d).trail.records, s.trail.nextSeq ≤ x.seq ∧ x.draft = d := by
  have pumps : s.trailWrite d = State.trailPump 4 s [d] := by simp [State.trailWrite, run, free]
  have drafted (t : State) : (t.nextRec d).draft = d := t.finishDraft_of_ne kind
  rw [pumps]
  cases due : s.sealDue with
  | false => exact (State.trailPump_writes 3 kind due).imp_right fun h => ⟨_, h, le_rfl, drafted s⟩
  | true =>
    rcases State.trailPump_due 3 kind due with held | ⟨t, ht, goes⟩
    · exact .inl held
    · have seq := (State.trailAppend_trail ht).2.1
      have full : s.trail.nextSeq % 1024 = 1023 := beq_iff_eq.mp due
      have next : t.sealDue = false := beq_eq_false_iff_ne.mpr (by omega)
      rw [goes]
      exact (State.trailPump_writes 2 kind next).imp_right fun h => ⟨_, h, seq.ge.trans' (Nat.le_succ _), drafted t⟩

end Sys2Proof.Machine

open Sys2Proof Sys2Proof.Machine

/-- Settles O35: every record appended continues the chain, and nothing else that a write does touches it. -/
theorem theTrailStaysChained : Obligations.TheTrailStaysChained :=
  ⟨State.trailChained_reset, fun _ d h => State.trailChained_trailWrite d h⟩

end

section
/-! SUPPORT. The admission close of a longer cadence, and the statement about it (R52, R90). -/

namespace Sys2Proof.Machine

/-! The occurrence that begins at the close of any cadence. -/

/-- The step in which the close of occurrence `n` of cadence `k` falls: its own for `CADENCE_0`, else the present one (R90). -/
def State.closeStep (s : State) (k n : Nat) : Nat := if k = 0 then n else s.stepNow

/-- No occurrence begins where the step of the close is lost. -/
theorem State.startOcc_stepLost {s : State} {k n : Nat} {is : List Input} {q : List Quality}
    (lost : s.stepLost (s.closeStep k n) = true) :
    s.startOcc k n is q = { s with trail := { s.trail with gapOutputs := s.trail.gapOutputs + s.declaredOutputs k } } := by
  unfold State.closeStep at lost
  simp [State.startOcc, lost]

/-- The occurrence joins the running ones where none of the cadence runs. -/
theorem State.startOcc_joins {s : State} {k n : Nat} {is : List Input} {q : List Quality}
    (kept : s.stepLost (s.closeStep k n) = false) (none : s.steps.occs.find? (fun x => x.cadence == k) = none) :
    s.startOcc k n is q = (s.addOcc (s.newOcc k n is q)).beginNext k := by
  unfold State.closeStep at kept
  simp [State.startOcc, kept, none]

/-- Behind an occurrence of its cadence it is skipped, or waits. -/
theorem State.startOcc_queues {s : State} {k n : Nat} {is : List Input} {q : List Quality} {p : Occurrence}
    (kept : s.stepLost (s.closeStep k n) = false) (found : s.steps.occs.find? (fun x => x.cadence == k) = some p) :
    s.startOcc k n is q = s.addOcc (s.newOcc k n is q) ∨
      s.startOcc k n is q = s.noteSkip k n ((s.now - p.compiledEnd) / nsUnits) ∨
      s.startOcc k n is q = (s.noteSkip k n ((s.now - p.compiledEnd) / nsUnits)).emitSummary (s.newOcc k n is q) := by
  unfold State.closeStep at kept
  simp only [State.startOcc, kept, found, Bool.false_eq_true, if_false]
  split
  · split
    · exact .inr (.inr rfl)
    · exact .inr (.inl rfl)
  · exact .inl rfl

/-- Where the step of the close is kept and none of the cadence runs, the view has an occurrence more. -/
theorem State.edgeView_startOcc_joins (s : State) (k n : Nat) (is : List Input) (q : List Quality)
    (kept : s.stepLost (s.closeStep k n) = false) (free : ∀ o ∈ s.steps.occs, o.cadence ≠ k) :
    (s.startOcc k n is q).edgeView = { s.edgeView with occs := s.edgeView.occs ++ [s.edgeView.newKey k n] } := by
  have none : s.steps.occs.find? (fun x => x.cadence == k) = none :=
    List.find?_eq_none.mpr fun o ho => by simpa using free o ho
  rw [State.startOcc_joins kept none, State.edgeView_beginNext, State.edgeView_addOcc, State.key_newOcc]

/-- The run is part of the view. -/
theorem State.run_of_edgeView {s t : State} (h : t.edgeView = s.edgeView) : t.steps.run = s.steps.run := congrArg EdgeView.run h

theorem State.run_addOcc (s : State) (o : Occurrence) : (s.addOcc o).steps.run = s.steps.run := rfl

theorem State.run_noteSkip (s : State) (k n lag : Nat) : (s.noteSkip k n lag).steps.run = s.steps.run :=
  State.run_of_edgeView (s.edgeView_noteSkip k n lag)

/-- Whatever becomes of an occurrence at its close, the run is as before. -/
theorem State.run_startOcc (s : State) (k n : Nat) (is : List Input) (q : List Quality) :
    (s.startOcc k n is q).steps.run = s.steps.run := by
  cases lost : s.stepLost (s.closeStep k n) with
  | true => rw [State.startOcc_stepLost lost]
  | false =>
    cases found : s.steps.occs.find? (fun x => x.cadence == k) with
    | none => 
      rw [State.startOcc_joins lost found, State.run_of_edgeView (State.edgeView_beginNext _ k),
        State.run_addOcc]
    | some p =>
      rcases State.startOcc_queues (is := is) (q := q) lost found with joins | skips | skips
      · rw [joins, State.run_addOcc]
      · rw [skips, State.run_noteSkip]
      · rw [skips, State.run_of_edgeView (State.edgeView_emitSummary _ _), State.run_noteSkip]

/-! ADMISSION_CLOSE. -/

/-- The close of cadence `k` at step `n`, without the occurrences that begin behind it. -/
theorem effAdmissionClose_due {k : Fin 16} {r : Run} {c : CadenceDecl} {s : State} (up : s.up = true) (longer : k.val ≠ 0)
    (run : s.steps.run = some r) (hc : s.cadences[k.val]? = some c) (after : r.nextClose.getD k.val 0 < r.edges)
    (due : r.close c (r.nextClose.getD k.val 0) ≤ s.now)
    (clear : s.ingressBefore (r.close c (r.nextClose.getD k.val 0)) = false) (commits : s.search.waitCommits = []) :
    effAdmissionClose k s =
      (((s.closeOcc k.val (r.nextClose.getD k.val 0)).1.startOcc k.val (r.nextClose.getD k.val 0)
        (s.closeOcc k.val (r.nextClose.getD k.val 0)).2 []).beginWaiting) := by
  have resumed : s.resumeCommits = s := by simp [State.resumeCommits, commits]
  have notYet : ¬(r.edges ≤ r.nextClose.getD k.val 0) := Nat.not_le.mpr after
  unfold effAdmissionClose
  simp only [run, hc]
  rw [if_neg (by simp [up, longer, notYet, Nat.not_lt.mpr due, clear, - List.getD_eq_getElem?_getD]), resumed]

theorem effAdmissionClose_early {k : Fin 16} {r : Run} {c : CadenceDecl} {s : State} (run : s.steps.run = some r)
    (hc : s.cadences[k.val]? = some c)
    (h : r.edges ≤ r.nextClose.getD k.val 0 ∨ s.now < r.close c (r.nextClose.getD k.val 0) ∨
      s.ingressBefore (r.close c (r.nextClose.getD k.val 0)) = true) : effAdmissionClose k s = s := by
  unfold effAdmissionClose
  simp only [run, hc]
  rw [if_pos]
  rcases h with h | h | h <;> simp [h, - List.getD_eq_getElem?_getD]

/-- After the close of any cadence the run closes it next one multiple later. -/
theorem EdgeView.closed_run_of {v : EdgeView} {r : Run} {c : CadenceDecl} {k : Nat} (n : Nat) (hr : v.run = some r)
    (hc : v.cadences[k]? = some c) :
    (v.closed k n).run = some { r with nextClose := r.nextClose.set k (n + max 1 c.multiple) } := by
  have declared : v.cadences.getD k default = c := by simp [hc]
  simp only [EdgeView.closed, declared, hr, Option.map_some]

/-- The occurrence that begins as a cadence closes has the close instant of its step. -/
theorem EdgeView.closed_newKey {v : EdgeView} {r : Run} {c : CadenceDecl} {k : Nat} (n : Nat) (hr : v.run = some r)
    (hc : v.cadences[k]? = some c) : (v.closed k n).newKey k n = (k, n, r.close c n) := by
  have declared : v.cadences.getD k default = c := by simp [hc]
  have same : (v.closed k n).cadences = v.cadences := rfl
  rw [EdgeView.newKey, EdgeView.closed_run_of n hr hc, same, declared, Option.map_some, Option.getD_some, Run.close_nextClose]

/-- A close leaves the present step and whether it is lost. -/
theorem State.closeOcc_stepLost {s : State} {k : Nat} {r : Run} {c : CadenceDecl} (n : Nat) (longer : k ≠ 0)
    (run : s.steps.run = some r) (hc : s.cadences[k]? = some c) :
    (s.closeOcc k n).1.stepLost ((s.closeOcc k n).1.closeStep k n) = s.stepLost s.stepNow := by
  have view := s.edgeView_closeOcc k n
  have closed := (show (s.closeOcc k n).1.steps.run = _ from congrArg EdgeView.run view).trans (EdgeView.closed_run_of n run hc)
  have lost : (s.closeOcc k n).1.trail.lostSteps = s.trail.lostSteps := congrArg EdgeView.lostSteps view
  have now : (s.closeOcc k n).1.stepNow = s.stepNow := by
    unfold State.stepNow
    rw [closed, run]
  rw [State.closeStep, if_neg longer, now, State.stepLost, State.stepLost, lost]

/-- The due close of a longer cadence: the run, and the occurrence that joins the running ones. -/
theorem closeOcc_startOcc_settles {k : Nat} {r : Run} {c : CadenceDecl} {s : State} (n : Nat) (longer : k ≠ 0)
    (run : s.steps.run = some r) (hc : s.cadences[k]? = some c) :
    let x := s.closeOcc k n
    let t := (x.1.startOcc k n x.2 []).beginWaiting
    t.steps.run = some { r with nextClose := r.nextClose.set k (n + max 1 c.multiple) } ∧
      (s.stepLost s.stepNow = false → (∀ o ∈ s.steps.occs, o.cadence ≠ k) →
        ∃ o ∈ t.steps.occs, o.cadence = k ∧ o.step = n ∧ o.close = r.close c n) := by
  intro x t
  have closed : x.1.edgeView = s.edgeView.closed k n := s.edgeView_closeOcc k n
  have view : t.edgeView = (x.1.startOcc k n x.2 []).edgeView := State.edgeView_beginWaiting _
  refine ⟨?_, fun kept free => ?_⟩
  · calc t.steps.run = (x.1.startOcc k n x.2 []).steps.run := State.run_of_edgeView view
      _ = x.1.steps.run := x.1.run_startOcc k n x.2 []
      _ = (s.edgeView.closed k n).run := congrArg EdgeView.run closed
      _ = _ := EdgeView.closed_run_of n run hc
  · have free' : ∀ o ∈ x.1.steps.occs, o.cadence ≠ k := by
      intro o ho
      have key : o.key ∈ s.edgeView.occs := by
        have : o.key ∈ x.1.edgeView.occs := List.mem_map_of_mem ho
        rwa [closed] at this
      obtain ⟨p, hp, cadence, -⟩ := State.mem_occs_of_key key
      exact cadence ▸ free p hp
    apply State.mem_occs_of_key
    rw [view, x.1.edgeView_startOcc_joins k n x.2 [] ((State.closeOcc_stepLost n longer run hc).trans kept) free', closed,
      EdgeView.closed_newKey n run hc]
    exact List.mem_append_right _ (List.mem_singleton_self _)

end Sys2Proof.Machine

open Sys2Proof Sys2Proof.Machine

/-- Settles O33: the close and the occurrence that it begins, on the view that a step edge keeps of the state. -/
theorem longerCadencesClose : Obligations.LongerCadencesClose := by
  intro k r c s up longer run hc n
  refine ⟨fun after due clear commits => ?_, fun early => congrArg Host.Outcome.next (effAdmissionClose_early run hc early)⟩
  exact ⟨_, congrArg Host.Outcome.next (effAdmissionClose_due up longer run hc after due clear commits),
    closeOcc_startOcc_settles n longer run hc⟩

end

section
/-! SUPPORT. A read pointer of the trail that lets an archived payload go on, and the statement about read pointers (R89, R479). -/

namespace Sys2Proof.Machine

/-- A device in a hold of its archive ring, which is one tile and by now wholly free: a payload waits for it (R479). -/
def archiveHeld : State :=
  ({ State.reset with
    power := { State.reset.power with resetHeld := false, ready := true }
    trail := { State.reset.trail with hold := true, archiveHold := true, archiveWaiting := [[1]] } }.setReg 0x60006C 1).setReg
    0x10028 1

/-- As the trail's read pointer moves the hold eases, and the payload is stored. -/
theorem archiveHeld_trailRead_mem : (effTrailReadWrite 0 archiveHeld).mem = [(0, 1)] := by decide +kernel

end Sys2Proof.Machine

open Sys2Proof Sys2Proof.Machine

/-- Refutes O36: a TRAIL_READ_WRITE with an aligned value takes up what the archive ring holds back as well, and the payload that
waited is written into memory, where the statement has memory unchanged. -/
theorem not_readPointersFreeTheRings : ¬ Obligations.ReadPointersFreeTheRings := by
  intro h
  obtain ⟨t, ran, -, -, -, mem⟩ := (h.1 0 archiveHeld (by decide)).1 (by decide) (by decide) rfl
  have result : effTrailReadWrite 0 archiveHeld = t := Host.Outcome.next.inj ran
  rw [← result, archiveHeld_trailRead_mem] at mem
  exact absurd mem (by decide)

end

section
/-! SUPPORT. Bytes stored and archived, what a run's start clears, and the statement about RUN_START (R48, R84, R88). -/

namespace Sys2Proof.Machine

/-! Folds, stores and the archive ring. -/

/-- A part of the state that each item's work leaves alone is left alone by the work on all of them. -/
theorem foldl_keeps {α β : Type} (part : State → β) (f : State → α → State) (l : List α)
    (keeps : ∀ x ∈ l, ∀ s, part (f s x) = part s) (s : State) : part (l.foldl f s) = part s := by
  induction l generalizing s with
  | nil => rfl
  | cons x l ih =>
    rw [List.foldl_cons, ih fun y hy => keeps y (List.mem_cons_of_mem _ hy), keeps x List.mem_cons_self]

/-- A tile marked written changes the tiers only. -/
theorem State.touchTile_eq (s : State) (t : Nat) : ∃ x, s.touchTile t = { s with tiers := x } := by
  unfold State.touchTile
  split
  · exact ⟨_, rfl⟩
  · exact ⟨_, rfl⟩

theorem State.touchRange_eq (s : State) (a n : Nat) : ∃ x, s.touchRange a n = { s with tiers := x } := by
  have all (t0 : Nat) (l : List Nat) (s : State) : ∃ x, l.foldl (fun s i => s.touchTile (t0 + i)) s = { s with tiers := x } := by
    induction l generalizing s with
    | nil => exact ⟨_, rfl⟩
    | cons i l ih =>
      obtain ⟨x, hx⟩ := s.touchTile_eq (t0 + i)
      obtain ⟨y, hy⟩ := ih { s with tiers := x }
      exact ⟨y, by rw [List.foldl_cons, hx, hy]⟩
  unfold State.touchRange
  split
  · exact ⟨_, rfl⟩
  · exact all _ _ s

/-- Bytes stored change memory and the tiles' marks only. -/
theorem State.store_eq (s : State) (a : Nat) (bs : Bytes) :
    ∃ x, s.store a bs = { s with mem := Memory.setBytes s.mem a bs, tiers := x } :=
  ({ s with mem := Memory.setBytes s.mem a bs } : State).touchRange_eq a bs.length

/-- Of a store, what the trail's work and the runs rest on. -/
@[simp] theorem State.store_frame (s : State) (a : Nat) (bs : Bytes) :
    (s.store a bs).steps = s.steps ∧ (s.store a bs).trail = s.trail ∧ (s.store a bs).time = s.time ∧
      (s.store a bs).power = s.power ∧ (s.store a bs).checkpoints = s.checkpoints ∧ (s.store a bs).regs = s.regs ∧
      (s.store a bs).search = s.search ∧ (s.store a bs).answers = s.answers ∧ (s.store a bs).faults = s.faults := by
  obtain ⟨x, hx⟩ := s.store_eq a bs
  rw [hx]
  exact ⟨rfl, rfl, rfl, rfl, rfl, rfl, rfl, rfl, rfl⟩

/-- A payload archived changes memory, its tiles and the ring's pointer (R479). -/
theorem State.archiveAppend_frame {s t : State} {bs : Bytes} (h : s.archiveAppend bs = some t) :
    t.steps = s.steps ∧ t.trail = s.trail ∧ t.time = s.time ∧ t.power = s.power := by
  unfold State.archiveAppend at h
  dsimp only at h
  split at h
  · cases h
    split <;> simp
  · cases h

theorem State.setHold_trail (s : State) : s.setHold.trail = { s.trail with hold := true } := by
  unfold State.setHold
  split
  · next held => rw [← held]
  · simp

/-- A payload that waits for its ring begins a hold (R479). -/
def State.archiveWaits (s : State) (bs : Bytes) : State :=
  ({ s with trail := { s.trail with archiveWaiting := s.trail.archiveWaiting ++ [bs], archiveHold := true } }).setHold

/-- A payload is archived now, or waits. -/
theorem State.archive_cases (s : State) (bs : Bytes) :
    (∃ t, s.archiveAppend bs = some t ∧ (s.archive bs).1 = t) ∨ (s.archive bs).1 = s.archiveWaits bs := by
  unfold State.archive
  dsimp only
  split
  · split
    · next t ht => exact .inl ⟨t, ht, rfl⟩
    · exact .inr rfl
  · exact .inr rfl

theorem State.archive_frame (s : State) (bs : Bytes) :
    (s.archive bs).1.steps = s.steps ∧ (s.archive bs).1.time = s.time ∧ (s.archive bs).1.power = s.power ∧
      s.trail.GrowsTo (s.archive bs).1.trail := by
  rcases s.archive_cases bs with ⟨t, ht, now⟩ | waits
  · obtain ⟨steps, trail, time, power⟩ := State.archiveAppend_frame ht
    rw [now]
    exact ⟨steps, time, power, trail ▸ .refl _⟩
  · rw [waits]
    refine ⟨by simp [State.archiveWaits], by simp [State.archiveWaits], by simp [State.archiveWaits], ?_⟩
    rw [State.archiveWaits, State.setHold_trail]
    exact ⟨fun _ h => h, le_rfl, fun _ => rfl⟩

/-! What a run's start clears, and what it keeps. -/

/-- The size of the trail ring is no count of a run. -/
theorem ringSize_not_cleared : (∀ o ∈ runPairs, 0x10028 ≠ o ∧ 0x10028 ≠ o + 4) ∧ ∀ o ∈ runSingles, 0x10028 ≠ o := by decide

theorem State.reg_setReg64_ne (s : State) (a v : Nat) {b : Nat} (lo : b ≠ a) (hi : b ≠ a + 4) :
    (s.setReg64 a v).reg b = s.reg b := by
  rw [State.setReg64, State.reg_setReg_ne _ _ _ _ hi, State.reg_setReg_ne _ _ _ _ lo]

/-- The state with the counts of a run and the track tables cleared. -/
def State.countsCleared (s : State) (img : Image) : State :=
  (runSingles.foldl (fun s o => s.setReg o 0) (runPairs.foldl (fun s o => s.setReg64 o 0) s)).clearTables img.track

theorem State.countsCleared_keeps {β : Type} (part : State → β) (s : State) (img : Image)
    (pairs : ∀ o ∈ runPairs, ∀ s : State, part (s.setReg64 o 0) = part s)
    (singles : ∀ o ∈ runSingles, ∀ s : State, part (s.setReg o 0) = part s)
    (mem : ∀ (s : State) (m : Memory), part { s with mem := m } = part s) : part (s.countsCleared img) = part s := by
  unfold State.countsCleared State.clearTables
  rw [foldl_keeps part _ _ fun b _ s => mem s _, foldl_keeps part _ _ singles, foldl_keeps part _ _ pairs]

theorem State.countsCleared_frame (s : State) (img : Image) :
    (s.countsCleared img).steps = s.steps ∧ (s.countsCleared img).trail = s.trail ∧ (s.countsCleared img).time = s.time ∧
      (s.countsCleared img).power = s.power ∧ (s.countsCleared img).ringBytes = s.ringBytes := by
  refine ⟨?_, ?_, ?_, ?_, ?_⟩
  · exact s.countsCleared_keeps State.steps img (fun _ _ s => by simp) (fun _ _ s => by simp) fun _ _ => rfl
  · exact s.countsCleared_keeps State.trail img (fun _ _ s => by simp) (fun _ _ s => by simp) fun _ _ => rfl
  · exact s.countsCleared_keeps State.time img (fun _ _ s => by simp) (fun _ _ s => by simp) fun _ _ => rfl
  · exact s.countsCleared_keeps State.power img (fun _ _ s => by simp) (fun _ _ s => by simp) fun _ _ => rfl
  · refine s.countsCleared_keeps State.ringBytes img (fun o ho s => ?_) (fun o ho s => ?_) fun _ _ => rfl
    · obtain ⟨lo, hi⟩ := ringSize_not_cleared.1 o ho
      rw [State.ringBytes, State.fld_of_reg (s.reg_setReg64_ne o 0 lo hi)]
      rfl
    · rw [State.ringBytes, State.fld_of_reg (s.reg_setReg_ne o _ 0 (ringSize_not_cleared.2 o ho))]
      rfl

/-- The state in which a run has begun at a start instant, before its first record (R48). -/
def State.openRun (s : State) (img : Image) (start : Nat) : State :=
  let base := img.baseUs * usUnits
  let t := s.draw.2.clearRun img
  ({ t with steps := { t.steps with
      runDue := none
      run := some ⟨leBytes 16 (Config.freeNat s.free), runOrigin start base, base, 0, img.cadences.map CadenceDecl.phase⟩ } } :
    State).standFloors

theorem State.openRun_steps (s : State) (img : Image) (start : Nat) :
    (s.openRun img start).steps.run = some ⟨leBytes 16 (Config.freeNat s.free), runOrigin start (img.baseUs * usUnits),
      img.baseUs * usUnits, 0, img.cadences.map CadenceDecl.phase⟩ ∧
      (s.openRun img start).steps.runDue = none ∧ (s.openRun img start).steps.occs = [] := ⟨rfl, rfl, rfl⟩

theorem State.openRun_frame (s : State) (img : Image) (start : Nat) :
    (s.openRun img start).time = s.time ∧ (s.openRun img start).power = s.power ∧
      (s.openRun img start).trail.hold = s.trail.hold ∧ (s.openRun img start).trailFree = s.trailFree := by
  obtain ⟨-, trail, time, power, ring⟩ := s.draw.2.countsCleared_frame img
  refine ⟨time, power, (congrArg Trail.hold trail : (s.draw.2.countsCleared img).trail.hold = _), ?_⟩
  calc (s.openRun img start).trailFree = (s.draw.2.countsCleared img).trailFree := rfl
    _ = s.draw.2.trailFree := by rw [State.trailFree, ring, trail]; rfl

/-- The trail of a run that begins has no record of it yet: the next one is number 0, and continues none (R81, R84). -/
theorem State.openRun_trail (s : State) (img : Image) (start : Nat) :
    (s.openRun img start).trail.nextSeq = 0 ∧ (s.openRun img start).trail.digest = List.replicate 48 0 := ⟨rfl, rfl⟩

/-- A report changes no more than the count of free values. -/
theorem State.report_eq (s : State) (role : Nat) (nonce : Bytes) : ∃ n, (s.report role nonce).2 = { s with free := n } := by
  have signed (d : Bytes) : ∃ n, (s.identitySign d).2 = { s with free := n } := by
    unfold State.identitySign
    split
    · exact ⟨_, rfl⟩
    · exact ⟨_, rfl⟩
  exact signed _

/-- The records held before the run are written; where the trail holds them they keep their times (R614). -/
def State.preRunWritten (s : State) : State :=
  let ds := s.trail.preRun
  let s := ds.foldl State.trailWrite { s with trail := { s.trail with preRun := [], preRunLost := 0 } }
  if s.held then { s with trail := { s.trail with preWaiting := ds } } else s

theorem State.preRunWritten_frame (s : State) :
    s.preRunWritten.steps = s.steps ∧ s.preRunWritten.time = s.time ∧ s.preRunWritten.power = s.power ∧
      s.trail.GrowsTo s.preRunWritten.trail := by
  have all (l : List TrailDraft) (s : State) :
      (l.foldl State.trailWrite s).steps = s.steps ∧ (l.foldl State.trailWrite s).time = s.time ∧
        (l.foldl State.trailWrite s).power = s.power ∧ s.trail.GrowsTo (l.foldl State.trailWrite s).trail := by
    induction l generalizing s with
    | nil => exact ⟨rfl, rfl, rfl, .refl _⟩
    | cons d l ih =>
      obtain ⟨steps, time, power, trail⟩ := ih (s.trailWrite d)
      exact ⟨steps.trans (by simp), time.trans (by simp), power.trans (by simp), (s.trailWrite_grows d).trans trail⟩
  obtain ⟨steps, time, power, trail⟩ := all s.trail.preRun { s with trail := { s.trail with preRun := [], preRunLost := 0 } }
  unfold State.preRunWritten
  dsimp only
  split
  · exact ⟨steps, time, power, trail.records, trail.seq, trail.hold⟩
  · exact ⟨steps, time, power, trail.records, trail.seq, trail.hold⟩

theorem State.flushPreRun_frame (s : State) :
    s.flushPreRun.steps = s.steps ∧ s.flushPreRun.time = s.time ∧ s.flushPreRun.power = s.power ∧
      s.trail.GrowsTo s.flushPreRun.trail := by
  have split : s.flushPreRun = if s.trail.preRunLost = 0 then s.preRunWritten
      else (s.preRunWritten.newError (dieRegion 0) 4).2.record kFault 0 0x87 0
        ((s.preRunWritten.newError (dieRegion 0) 4).2.errorBytes (s.preRunWritten.newError (dieRegion 0) 4).1 0 0x87 0 [] noSeq
          (min s.trail.preRunLost (2 ^ 32 - 1)) 0 []) := rfl
  obtain ⟨steps, time, power, trail⟩ := s.preRunWritten_frame
  rw [split]
  split_ifs
  · exact ⟨steps, time, power, trail⟩
  · have numbered : (s.preRunWritten.newError (dieRegion 0) 4).2.steps = s.preRunWritten.steps ∧
        (s.preRunWritten.newError (dieRegion 0) 4).2.time = s.preRunWritten.time ∧
        (s.preRunWritten.newError (dieRegion 0) 4).2.power = s.preRunWritten.power ∧
        (s.preRunWritten.newError (dieRegion 0) 4).2.trail = s.preRunWritten.trail := by simp [State.newError]
    obtain ⟨steps', time', power', trail'⟩ := numbered
    generalize (s.preRunWritten.newError (dieRegion 0) 4).2 = t at *
    exact ⟨by simp [steps', steps], by simp [time', time], by simp [power', power],
      trail.trans (trail' ▸ t.record_grows _ _ _ _ _)⟩

/-! RUN_START. -/

/-- The state as RUN_START is written, with the report it is bound to (R88). -/
def State.runRecorded (s : State) (img : Image) (start : Nat) : State :=
  let rid := leBytes 16 (Config.freeNat s.free)
  let r := (s.openRun img start).report 0 (fitBytes 32 rid)
  r.2.record kRunStart 0 0 0
    (runStartBody rid (runOrigin start (img.baseUs * usUnits)) img.baseUs img.id (r.2.imageDigest img.id) img.seed r.1)

theorem effRunStart_due {start : Nat} {img : Image} {s : State} (up : s.up = true) (idle : s.inRun = false)
    (free : s.trail.hold = false) (entropy : s.sec.entropyOk = true) (due : s.steps.runDue = some start)
    (image : s.steps.image = some img) :
    ∃ report, effRunStart s = ((s.runRecorded img start).archive report).1.flushPreRun := by
  refine ⟨((s.openRun img start).report 0 (fitBytes 32 (leBytes 16 (Config.freeNat s.free)))).1, ?_⟩
  unfold effRunStart
  simp only [due, image]
  rw [if_neg (by simp [up, idle, entropy, State.held, free])]
  rfl

theorem length_runStartBody (rid : Bytes) (t0 baseUs id : Nat) (image seed report : Bytes) :
    (runStartBody rid t0 baseUs id image seed report).length = 176 := by
  simp [runStartBody, length_fitBytes, sha384_length]

/-- The first record of a run that nothing holds is written when it fits. -/
theorem State.record_first {s : State} {kind : Nat} {body : Bytes} (run : s.inRun = true) (free : s.trail.hold = false)
    (first : s.trail.nextSeq = 0) (plain : kind ≠ kSeal) (room : recSize ⟨kind, 0, 0, 0, s.now, body⟩ + 8 ≤ s.trailFree) :
    ∃ x ∈ (s.record kind 0 0 0 body).trail.records, x.seq = 0 ∧ x.draft.kind = kind ∧ x.prev = s.trail.digest := by
  have writes : s.record kind 0 0 0 body = State.trailPump (3 + 1) s [⟨kind, 0, 0, 0, s.now, body⟩] := by
    simp [State.record, State.trailWrite, run, free]
  have due : s.sealDue = false := by simp [State.sealDue, first]
  rw [writes]
  exact ⟨_, State.trailPump_room 3 plain due room, first, s.finishDraft_kind _, rfl⟩

/-- RUN_START opens the run and is its first record. -/
theorem State.runRecorded_spec (s : State) (img : Image) (start : Nat) (free : s.trail.hold = false) :
    (s.runRecorded img start).steps = (s.openRun img start).steps ∧ (s.runRecorded img start).time = s.time ∧
      (s.runRecorded img start).power = s.power ∧
      (272 ≤ s.trailFree → ∃ x ∈ (s.runRecorded img start).trail.records,
        x.seq = 0 ∧ x.draft.kind = kRunStart ∧ x.prev = List.replicate 48 0) := by
  obtain ⟨time, power, hold, room⟩ := s.openRun_frame img start
  obtain ⟨seq, digest⟩ := s.openRun_trail img start
  have run : (s.openRun img start).inRun = true := rfl
  unfold State.runRecorded
  dsimp only
  obtain ⟨n, hn⟩ := (s.openRun img start).report_eq 0 (fitBytes 32 (leBytes 16 (Config.freeNat s.free)))
  generalize (s.openRun img start).report 0 (fitBytes 32 (leBytes 16 (Config.freeNat s.free))) = r at hn ⊢
  generalize s.openRun img start = t at *
  rw [hn]
  refine ⟨by simp, by simp [time], by simp [power], fun large => ?_⟩
  rw [← digest]
  refine State.record_first (s := { t with free := n }) run (hold.trans free) seq (by decide) ?_
  rw [recSize, length_runStartBody]
  exact room.symm ▸ large

/-! The origin of a run (R48). -/

/-- The first multiple of the base at least 200 ms after the start. -/
theorem runOrigin_spec (start : Nat) {base : Nat} (h : 0 < base) :
    runOrigin start base % base = 0 ∧ start + 200 * msUnits ≤ runOrigin start base ∧
      runOrigin start base < start + 200 * msUnits + base := by
  unfold runOrigin ceilDiv
  generalize start + 200 * msUnits = x
  have quotient := Nat.div_add_mod (x + base - 1) base
  have remainder := Nat.mod_lt (x + base - 1) h
  rw [Nat.mul_comm] at quotient
  refine ⟨Nat.mul_mod_left _ _, ?_, ?_⟩ <;> omega

end Sys2Proof.Machine

open Sys2Proof Sys2Proof.Machine

/-- Settles O31: the run opens on the cleared counts, and what follows RUN_START only adds to the trail. -/
theorem runsStartAtTheirOrigin : Obligations.RunsStartAtTheirOrigin := by
  intro start img s up idle free entropy due image positive
  obtain ⟨report, starts⟩ := effRunStart_due up idle free entropy due image
  obtain ⟨steps, time, power, first⟩ := s.runRecorded_spec img start free
  obtain ⟨steps₁, time₁, power₁, trail₁⟩ := (s.runRecorded img start).archive_frame report
  obtain ⟨steps₂, time₂, power₂, trail₂⟩ := ((s.runRecorded img start).archive report).1.flushPreRun_frame
  obtain ⟨run, runDue, occs⟩ := s.openRun_steps img start
  have last : (effRunStart s).steps = (s.openRun img start).steps := by rw [starts, steps₂, steps₁, steps]
  obtain ⟨multiple, late, early⟩ := runOrigin_spec start (base := img.baseUs * usUnits) (Nat.mul_pos positive (by decide))
  refine ⟨effRunStart s, _, rfl, last ▸ run, last ▸ runDue, last ▸ occs, rfl, rfl, rfl, multiple, late, early, rfl, ?_, ?_,
    fun large => ?_⟩
  · rw [starts, time₂, time₁, time]
  · rw [starts, power₂, power₁, power]
  · obtain ⟨x, hx, spec⟩ := first large
    rw [starts]
    exact ⟨x, trail₂.records x (trail₁.records x hx), spec⟩

end

section
/-! SUPPORT. Errors: what their detection reports, what a re-execution restores and counts, and the statement about the error queue
(R79, R555-R557, R566). -/

namespace Sys2Proof.Machine

/-! Register pairs that other writes leave alone. -/

theorem State.reg64_of_reg {s t : State} {a : Nat} (lo : t.reg a = s.reg a) (hi : t.reg (a + 4) = s.reg (a + 4)) :
    t.reg64 a = s.reg64 a := by
  rw [State.reg64, State.reg64, lo, hi]

theorem State.reg_addReg64_ne (s : State) (a n : Nat) {b : Nat} (lo : b ≠ a) (hi : b ≠ a + 4) :
    (s.addReg64 a n).reg b = s.reg b := s.reg_setReg64_ne a _ lo hi

theorem State.reg_memEvent_ne (s : State) (bit : Nat) {b : Nat} (h : b ≠ 0x60000C) : (s.memEvent bit).reg b = s.reg b :=
  State.reg_event_ne _ _ _ _ _ h

theorem bitAt_eq_testBit (v n : Nat) : bitAt v n = v.testBit n := by
  rw [Nat.testBit_eq_decide_div_mod_eq, bitAt, Nat.shiftRight_eq_div_pow]
  rfl

/-- An event sets its bit. -/
theorem State.bitAt_event (s : State) (off bit : Nat) (en : Bool) (vec : Nat) (small : bit < 32) :
    bitAt ((s.event off bit en vec).reg off) bit = true := by
  have set : bitAt ((s.setReg off (s.reg off ||| 2 ^ bit)).reg off) bit = true := by
    rw [State.reg_setReg_self, bitAt_eq_testBit, Nat.testBit_mod_two_pow, Nat.testBit_or, Nat.testBit_two_pow_self]
    simp [small]
  unfold State.event
  split
  · rwa [State.reg_congr _ _ (State.msix_frame _ _).2.2.1]
  · exact set

/-! Detection. -/

/-- What reports an error changes neither memory, the run, the trail, security, time nor the error queue. -/
theorem State.blockError_frame (s : State) (e : ErrorInfo) :
    (s.blockError e).mem = s.mem ∧ (s.blockError e).steps = s.steps ∧ (s.blockError e).trail = s.trail ∧
      (s.blockError e).sec = s.sec ∧ (s.blockError e).time = s.time ∧ (s.blockError e).faults = s.faults := by
  unfold State.blockError
  dsimp only
  split
  case h_5 => simp
  all_goals split_ifs <;> simp [State.flag, State.memEvent]

/-- An error's own block reports it outside the fault block's registers. -/
theorem State.reg_blockError (s : State) (e : ErrorInfo) {a : Nat} (fault : 0xE00000 ≤ a) :
    (s.blockError e).reg a = s.reg a := by
  have flag (s : State) (off bit : Nat) (h : off < 0xE00000) : (s.flag off bit).reg a = s.reg a :=
    State.reg_event_ne _ _ _ _ _ (by omega)
  unfold State.blockError
  dsimp only
  split
  case h_1 => split <;> [exact flag _ _ _ (by omega); rfl]
  case h_2 => 
    have low : blockVision (regionInst e.region / 4 % 2) + 0xC < 0xE00000 := by unfold blockVision; omega
    split_ifs <;> [exact flag _ _ _ low; exact flag _ _ _ low; rfl]
  case h_3 =>
    have low : 0x70000C + regionInst e.region / 1024 % 3 * 0x10000 + 8 < 0xE00000 := by omega
    split_ifs
    · rw [flag _ _ _ (by omega), State.reg_addReg64_ne _ _ _ (by omega) (by omega)]
    · exact flag _ _ _ (by omega)
    · exact flag _ _ _ (by omega)
    · rfl
  case h_4 =>
    split_ifs
    · rw [State.reg_memEvent_ne _ _ (by omega), State.reg_addReg64_ne _ _ _ (by omega) (by omega)]
    · rw [State.reg_memEvent_ne _ _ (by omega), State.reg_satReg_ne _ _ _ _ (by omega)]
    · rfl
  case h_5 => rfl

theorem State.reg_withFaults (s : State) (x : Faults) (a : Nat) : ({ s with faults := x } : State).reg a = s.reg a :=
  State.reg_congr _ _ rfl a

/-- A corrected error counted, where `n` of second `sec` have been (R579). -/
def State.ceCounted (s : State) (sec n : Nat) : State :=
  let s := s.addReg64 0xE0002C 1
  let s := { s with faults := { s.faults with ceSecond := sec, ceCount := n } }
  if s.fld ⟨0xE00004, 8, 16⟩ ≤ n then s.faultEvent 0 else s

theorem State.countCe_eq (s : State) : ∃ sec n, s.countCe = s.ceCounted sec n := ⟨_, _, rfl⟩

theorem State.countCe_frame (s : State) :
    s.countCe.mem = s.mem ∧ s.countCe.steps = s.steps ∧ s.countCe.trail = s.trail ∧ s.countCe.sec = s.sec ∧
      s.countCe.time = s.time ∧ s.countCe.faults.queue = s.faults.queue ∧ s.countCe.faults.nextSeq = s.faults.nextSeq := by
  obtain ⟨sec, n, eq⟩ := s.countCe_eq
  rw [eq, State.ceCounted]
  dsimp only
  split <;> simp [State.faultEvent]

theorem State.reg_countCe (s : State) {a : Nat} (h : a ≠ faultEvents) : s.countCe.reg a = (s.addReg64 0xE0002C 1).reg a := by
  obtain ⟨sec, n, eq⟩ := s.countCe_eq
  rw [eq, State.ceCounted]
  dsimp only
  split
  · exact (State.reg_faultEvent_ne _ _ h).trans (State.reg_withFaults _ _ a)
  · exact State.reg_withFaults _ _ a

theorem State.reg64_countCe (s : State) : s.countCe.reg64 0xE0002C = (s.reg64 0xE0002C + 1) % 2 ^ 64 :=
  (State.reg64_of_reg (s.reg_countCe (by decide)) (s.reg_countCe (by decide))).trans (s.reg64_addReg64 0xE0002C 1)

/-- A corrected error as a counter event (R588). -/
theorem State.countCorrected_eq (s : State) (r : Nat) : ∃ x, s.countCorrected r = { s with counters := x } := by
  have one (s : State) (d ev i n : Nat) : ∃ x, s.count d ev i n = { s with counters := x } := by
    unfold State.count
    dsimp only
    split <;> exact ⟨_, rfl⟩
  have all (l : List Nat) (g : Nat) (s : State) :
      ∃ x, l.foldl (fun s d => s.count d 0x58 g 1) s = { s with counters := x } := by
    induction l generalizing s with
    | nil => exact ⟨_, rfl⟩
    | cons d l ih =>
      obtain ⟨x, hx⟩ := one s d 0x58 g 1
      obtain ⟨y, hy⟩ := ih { s with counters := x }
      exact ⟨y, by rw [List.foldl_cons, hx, hy]⟩
  unfold State.countCorrected
  dsimp only
  split
  · exact one ..
  · exact one ..
  · exact one ..
  · exact all ..
  · exact ⟨_, rfl⟩

theorem State.queueDepth_frame (s : State) :
    s.queueDepth.mem = s.mem ∧ s.queueDepth.steps = s.steps ∧ s.queueDepth.trail = s.trail ∧ s.queueDepth.sec = s.sec ∧
      s.queueDepth.time = s.time ∧ s.queueDepth.faults = s.faults ∧ s.queueDepth.tiers = s.tiers ∧
      s.queueDepth.checkpoints = s.checkpoints := by
  simp [State.queueDepth]

theorem State.reg_queueDepth_ne (s : State) {a : Nat} (h : a ≠ 0xE0000C) : s.queueDepth.reg a = s.reg a := by
  rw [State.queueDepth, State.reg_setFld_ne _ _ _ _ h, State.reg_setFld_ne _ _ _ _ h]

/-- The queue's depth as its register shows it (R579). -/
theorem State.fld_queueDepth (s : State) (h : s.faults.queue.length < 512) :
    s.queueDepth.fld ⟨0xE0000C, 0, 9⟩ = s.faults.queue.length := by
  rw [State.queueDepth, State.fld_setFld_ne _ _ _ _ (by decide) (by decide), State.fld_setFld _ _ _ (by decide)]
  exact Nat.mod_eq_of_lt h

/-- The report of an error that is not corrected (R579). -/
def State.noteUncorrected (s : State) (kind : Nat) : State :=
  if kind = 1 ∨ kind = 2 ∨ kind = 3 then (s.satReg 0xE00034 1).faultEvent 1 else s

theorem State.noteUncorrected_frame (s : State) (kind : Nat) :
    (s.noteUncorrected kind).mem = s.mem ∧ (s.noteUncorrected kind).steps = s.steps ∧
      (s.noteUncorrected kind).trail = s.trail ∧ (s.noteUncorrected kind).sec = s.sec ∧
      (s.noteUncorrected kind).time = s.time ∧ (s.noteUncorrected kind).faults = s.faults := by
  unfold State.noteUncorrected
  split <;> simp [State.faultEvent]

/-- With room in the queue an error's record takes its end, and the registers report it (R555, R556, R566). -/
def State.enqueued (s : State) (e : ErrRec) : State :=
  ({ s with faults := { s.faults with queue := s.faults.queue ++ [e] } }).queueDepth

/-- The number of a detected error taken, and a corrected one counted. -/
theorem State.newError_counted (s : State) (region kind : Nat) :
    ∃ x, (if kind = 0 then (s.newError region kind).2.countCorrected region else (s.newError region kind).2) =
      { (s.newError region kind).2 with counters := x } := by
  split
  · exact State.countCorrected_eq _ _
  · exact ⟨_, rfl⟩

theorem State.detect_room (s : State) (region kind cause address : Nat) (detail : Bytes) (occs : List (Nat × Nat))
    (lost : List Nat) (count : Nat) (room : s.faults.queue.length < 256) :
    ∃ x, s.detect region kind cause address detail occs lost count =
      (({ (s.newError region kind).2 with counters := x } : State).noteUncorrected kind).enqueued
        ⟨s.faults.nextSeq, s.now, region, kind, cause, address, count, detail, occs, lost⟩ := by
  obtain ⟨x, hx⟩ := s.newError_counted region kind
  refine ⟨x, ?_⟩
  unfold State.detect
  dsimp only
  rw [hx, ← State.noteUncorrected]
  obtain ⟨-, -, -, -, -, faults⟩ := State.noteUncorrected_frame { (s.newError region kind).2 with counters := x } kind
  exact if_pos (by rwa [faults])

theorem State.enqueued_frame (s : State) (e : ErrRec) :
    (s.enqueued e).mem = s.mem ∧ (s.enqueued e).steps = s.steps ∧ (s.enqueued e).trail = s.trail ∧
      (s.enqueued e).sec = s.sec ∧ (s.enqueued e).time = s.time ∧
      (s.enqueued e).faults = { s.faults with queue := s.faults.queue ++ [e] } :=
  let ⟨mem, steps, trail, sec, time, faults, _⟩ :=
    ({ s with faults := { s.faults with queue := s.faults.queue ++ [e] } } : State).queueDepth_frame
  ⟨mem, steps, trail, sec, time, faults⟩

/-- What a detection with room in the queue settles (R555, R566). -/
theorem State.detect_spec (s : State) (region kind cause address : Nat) (detail : Bytes) (occs : List (Nat × Nat))
    (lost : List Nat) (count : Nat) (room : s.faults.queue.length < 256) :
    let t := s.detect region kind cause address detail occs lost count
    t.mem = s.mem ∧ t.steps = s.steps ∧ t.trail = s.trail ∧ t.sec = s.sec ∧ t.time = s.time ∧
      t.faults = { s.faults with
        queue := s.faults.queue ++ [⟨s.faults.nextSeq, s.now, region, kind, cause, address, count, detail, occs, lost⟩]
        nextSeq := (s.faults.nextSeq + 1) % 2 ^ 64 } ∧
      t.fld ⟨0xE0000C, 0, 9⟩ = s.faults.queue.length + 1 ∧
      (kind = 1 ∨ kind = 2 ∨ kind = 3 →
        t.reg 0xE00034 = min (s.reg 0xE00034 + 1) (2 ^ 32 - 1) ∧ bitAt (t.reg 0xE00008) 1 = true) ∧
      (kind = 0 → ∀ a, a ≠ 0xE0000C → a ≠ 0xE00040 → a ≠ 0xE00044 → t.reg a = s.reg a) := by
  obtain ⟨x, eq⟩ := s.detect_room region kind cause address detail occs lost count room
  dsimp only
  rw [eq]
  generalize he : (⟨s.faults.nextSeq, s.now, region, kind, cause, address, count, detail, occs, lost⟩ : ErrRec) = e
  generalize hu : ({ (s.newError region kind).2 with counters := x } : State) = u
  obtain ⟨mem₀, steps₀, trail₀, sec₀, time₀, faults₀⟩ : u.mem = s.mem ∧ u.steps = s.steps ∧ u.trail = s.trail ∧
      u.sec = s.sec ∧ u.time = s.time ∧ u.faults = { s.faults with nextSeq := (s.faults.nextSeq + 1) % 2 ^ 64 } := by
    subst hu
    simp [State.newError]
  have reg₀ (a : Nat) (lo : a ≠ 0xE00040) (hi : a ≠ 0xE00044) : u.reg a = s.reg a := by
    subst hu
    exact (State.reg_congr _ _ rfl a).trans (State.reg_newError_ne s region kind lo hi)
  obtain ⟨mem₁, steps₁, trail₁, sec₁, time₁, faults₁⟩ := u.noteUncorrected_frame kind
  obtain ⟨mem₂, steps₂, trail₂, sec₂, time₂, faults₂⟩ := (u.noteUncorrected kind).enqueued_frame e
  have depth (v : State) (a : Nat) (h : a ≠ 0xE0000C) : (v.enqueued e).reg a = v.reg a :=
    (State.reg_queueDepth_ne _ h).trans (State.reg_congr _ _ rfl a)
  refine ⟨mem₂.trans (mem₁.trans mem₀), steps₂.trans (steps₁.trans steps₀), trail₂.trans (trail₁.trans trail₀),
    sec₂.trans (sec₁.trans sec₀), time₂.trans (time₁.trans time₀), by rw [faults₂, faults₁, faults₀], ?_, fun bad => ?_,
    fun zero a d lo hi => ?_⟩
  · have len : ((u.noteUncorrected kind).faults.queue ++ [e]).length = s.faults.queue.length + 1 := by
      rw [faults₁, faults₀, List.length_append]
      rfl
    refine (State.fld_queueDepth _ ?_).trans len
    exact lt_of_eq_of_lt len (by omega)
  · rw [depth _ _ (by decide), depth _ _ (by decide), State.noteUncorrected, if_pos bad]
    refine ⟨?_, State.bitAt_event _ _ _ _ _ (by decide)⟩
    rw [State.reg_faultEvent_ne _ _ (by decide), State.reg_satReg, reg₀ _ (by decide) (by decide)]
  · rw [depth _ _ d, State.noteUncorrected, if_neg (by omega), reg₀ _ lo hi]

/-- The state in which a detected error's record is made: its row counted, its block's report and the corrected count done. -/
def State.reported (s : State) (e : ErrorInfo) : State :=
  let s := if regionClass e.region = 3 ∧ e.kind = 0 then
      { s with tiers := { s.tiers with rowCounts := putKey e.address (s.rowCount e) s.tiers.rowCounts } }
    else s
  if e.kind = 0 then (s.blockError e).countCe else s.blockError e

theorem effErrorDetect_alive {s : State} (held : s.power.resetHeld = false) (safe : s.power.safe = false) (e : ErrorInfo) :
    effErrorDetect e s =
      (s.reported e).detect e.region e.kind e.cause e.address e.detail e.occs e.lost (s.rowCount e) := by
  have alive : ¬(!s.alive) = true := by simp [State.alive, held, safe]
  rw [effErrorDetect, if_neg alive, State.reported]

theorem State.reported_spec (s : State) (e : ErrorInfo) :
    (s.reported e).mem = s.mem ∧ (s.reported e).steps = s.steps ∧ (s.reported e).trail = s.trail ∧
      (s.reported e).sec = s.sec ∧ (s.reported e).time = s.time ∧
      (s.reported e).faults.queue = s.faults.queue ∧ (s.reported e).faults.nextSeq = s.faults.nextSeq ∧
      (e.kind ≠ 0 → (s.reported e).reg 0xE00034 = s.reg 0xE00034) ∧
      (e.kind = 0 → (s.reported e).reg64 0xE0002C = (s.reg64 0xE0002C + 1) % 2 ^ 64) := by
  obtain ⟨x, hx⟩ : ∃ x, (if regionClass e.region = 3 ∧ e.kind = 0 then
      { s with tiers := { s.tiers with rowCounts := putKey e.address (s.rowCount e) s.tiers.rowCounts } }
    else s) = { s with tiers := x } := by
    split <;> exact ⟨_, rfl⟩
  rw [State.reported, hx]
  obtain ⟨mem₀, steps₀, trail₀, sec₀, time₀, faults₀⟩ := ({ s with tiers := x } : State).blockError_frame e
  have reg₀ {a : Nat} (fault : 0xE00000 ≤ a) : (({ s with tiers := x } : State).blockError e).reg a = s.reg a :=
    (State.reg_blockError _ e fault).trans (State.reg_congr _ _ rfl a)
  generalize ({ s with tiers := x } : State).blockError e = u at *
  dsimp only at *
  split
  · next zero =>
    obtain ⟨mem₁, steps₁, trail₁, sec₁, time₁, queue₁, seq₁⟩ := u.countCe_frame
    refine ⟨mem₁.trans mem₀, steps₁.trans steps₀, trail₁.trans trail₀, sec₁.trans sec₀, time₁.trans time₀,
      queue₁.trans (congrArg _ faults₀), seq₁.trans (congrArg _ faults₀), fun h => absurd zero h, fun _ => ?_⟩
    rw [u.reg64_countCe, State.reg64_of_reg (reg₀ (by decide)) (reg₀ (by decide))]
  · next nonzero =>
    exact ⟨mem₀, steps₀, trail₀, sec₀, time₀, congrArg _ faults₀, congrArg _ faults₀, fun _ => reg₀ (by decide),
      fun h => absurd h nonzero⟩

/-- ERROR_DETECT with room in the queue (R555, R566). -/
theorem effErrorDetect_queues {s : State} (held : s.power.resetHeld = false) (safe : s.power.safe = false) (e : ErrorInfo)
    (room : s.faults.queue.length < 256) :
    let t := effErrorDetect e s
    t.faults.queue = s.faults.queue ++ [⟨s.faults.nextSeq, s.now, e.region, e.kind, e.cause, e.address, s.rowCount e,
        e.detail, e.occs, e.lost⟩] ∧
      t.faults.nextSeq = (s.faults.nextSeq + 1) % 2 ^ 64 ∧
      t.fld ⟨0xE0000C, 0, 9⟩ = s.faults.queue.length + 1 ∧
      (e.kind = 1 ∨ e.kind = 2 ∨ e.kind = 3 →
        t.reg 0xE00034 = min (s.reg 0xE00034 + 1) (2 ^ 32 - 1) ∧ bitAt (t.reg 0xE00008) 1 = true) ∧
      (e.kind = 0 → t.reg64 0xE0002C = (s.reg64 0xE0002C + 1) % 2 ^ 64) ∧
      t.mem = s.mem ∧ t.steps = s.steps ∧ t.trail = s.trail ∧ t.sec = s.sec ∧ t.time = s.time := by
  obtain ⟨mem₀, steps₀, trail₀, sec₀, time₀, queue₀, seq₀, bad₀, corrected₀⟩ := s.reported_spec e
  have now₀ : (s.reported e).now = s.now := congrArg (fun t : TimeUnit => full t.dev) time₀
  obtain ⟨mem₁, steps₁, trail₁, sec₁, time₁, faults₁, depth₁, bad₁, corrected₁⟩ :=
    (s.reported e).detect_spec e.region e.kind e.cause e.address e.detail e.occs e.lost (s.rowCount e) (queue₀ ▸ room)
  dsimp only
  rw [effErrorDetect_alive held safe]
  refine ⟨by rw [faults₁, queue₀, seq₀, now₀], by rw [faults₁, seq₀], by rw [depth₁, queue₀], fun bad => ?_, fun zero => ?_,
    mem₁.trans mem₀, steps₁.trans steps₀, trail₁.trans trail₀, sec₁.trans sec₀, time₁.trans time₀⟩
  · rw [← bad₀ (by omega)]
    exact bad₁ bad
  · rw [← corrected₀ zero]
    exact State.reg64_of_reg (corrected₁ zero _ (by decide) (by decide) (by decide))
      (corrected₁ zero _ (by decide) (by decide) (by decide))

/-! The head of the queue. -/

/-- The state with the head of its error queue taken (R566). -/
def State.dequeued (s : State) (rest : List ErrRec) : State := ({ s with faults := { s.faults with queue := rest } }).queueDepth

theorem State.dequeued_frame (s : State) (rest : List ErrRec) :
    (s.dequeued rest).mem = s.mem ∧ (s.dequeued rest).steps = s.steps ∧ (s.dequeued rest).trail = s.trail ∧
      (s.dequeued rest).faults = { s.faults with queue := rest } ∧ (s.dequeued rest).tiers = s.tiers ∧
      (s.dequeued rest).checkpoints = s.checkpoints :=
  let ⟨mem, steps, trail, _, _, faults, tiers, points⟩ :=
    ({ s with faults := { s.faults with queue := rest } } : State).queueDepth_frame
  ⟨mem, steps, trail, faults, tiers, points⟩

theorem State.reg_dequeued (s : State) (rest : List ErrRec) {a : Nat} (h : a ≠ 0xE0000C) : (s.dequeued rest).reg a = s.reg a :=
  (State.reg_queueDepth_ne _ h).trans (State.reg_withFaults _ _ a)

theorem effErrorHandle_head {s : State} {e : ErrRec} {rest : List ErrRec} (up : s.up = true)
    (queue : s.faults.queue = e :: rest) (none : s.faults.lostCount = 0) : effErrorHandle s = (s.dequeued rest).handle e := by
  have lost : (s.dequeued rest).faults.lostCount = 0 := by
    obtain ⟨-, -, -, faults, -⟩ := s.dequeued_frame rest
    rw [faults]
    exact none
  rw [effErrorHandle, if_pos up, State.handleHead, queue]
  exact congrArg (State.handle · e) (if_pos lost)

/-- Without a run a record waits for the next (R614). -/
theorem State.record_noRun {s : State} (run : s.inRun = false) (room : s.trail.preRun.length < 4096) (k o c n : Nat) (b : Bytes) :
    (s.record k o c n b).trail.preRun = s.trail.preRun ++ [⟨k, o, c, 0, s.now, b⟩] := by
  simp [State.record, State.trailWrite, run, room]

/-! Re-execution (R79, R557). -/

theorem State.issueWait_eq (s : State) (k u i : Nat) : ∃ x, s.issueWait k u i = { s with sheets := x } := by
  unfold State.issueWait
  split <;> exact ⟨_, rfl⟩

theorem State.waitAgain_eq (s : State) (k : Nat) : ∃ x, s.waitAgain k = { s with sheets := x } := by
  have all (u : Nat) (l : List Nat) (s : State) :
      ∃ x, l.foldl (fun s i => if s.waitGranted u i then s else s.issueWait 0 u i) s = { s with sheets := x } := by
    induction l generalizing s with
    | nil => exact ⟨_, rfl⟩
    | cons i l ih =>
      rw [List.foldl_cons]
      split
      · exact ih s
      · obtain ⟨x, hx⟩ := s.issueWait_eq 0 u i
        obtain ⟨y, hy⟩ := ih { s with sheets := x }
        exact ⟨y, by rw [hx, hy]⟩
  unfold State.waitAgain
  dsimp only
  split
  · exact all _ _ s
  · exact ⟨_, rfl⟩

/-- A restore leaves the run, its occurrences, the registers, the error unit and the trail. -/
theorem State.restore_frame (s : State) (k n : Nat) :
    (s.restore k n).steps.run = s.steps.run ∧ (s.restore k n).steps.occs = s.steps.occs ∧
      (s.restore k n).regs = s.regs ∧ (s.restore k n).faults = s.faults ∧ (s.restore k n).trail = s.trail ∧ (s.restore k n).answers = s.answers ∧
      (s.restore k n).time = s.time ∧ (s.restore k n).search.waitCommits = s.search.waitCommits := by
  have undone (l : List (Nat × Bytes)) (s : State) :
      ∃ m, l.foldl (fun s u => ({ s with mem := Memory.setBytes s.mem u.1 u.2 } : State)) s = { s with mem := m } := by
    induction l generalizing s with
    | nil => exact ⟨_, rfl⟩
    | cons u l ih =>
      obtain ⟨m, hm⟩ := ih { s with mem := Memory.setBytes s.mem u.1 u.2 }
      exact ⟨m, hm⟩
  unfold State.restore
  split
  · simp
  next c hc =>
    dsimp only
    obtain ⟨m, hm⟩ := undone c.undo s
    rw [hm]
    obtain ⟨x, hx⟩ := State.waitAgain_eq _ k
    rw [hx]
    exact ⟨rfl, rfl, rfl, rfl, rfl, rfl, rfl, rfl⟩

theorem State.setFloor_frame (s : State) (f v : Nat) :
    (s.setFloor f v).steps = s.steps ∧ (s.setFloor f v).regs = s.regs ∧ (s.setFloor f v).faults = s.faults ∧
      (s.setFloor f v).checkpoints = s.checkpoints := by
  unfold State.setFloor
  dsimp only
  split <;> simp

theorem State.refreshFloors_frame (s : State) :
    s.refreshFloors.steps = s.steps ∧ s.refreshFloors.regs = s.regs ∧ s.refreshFloors.faults = s.faults ∧
      s.refreshFloors.checkpoints = s.checkpoints := by
  unfold State.refreshFloors
  exact ⟨foldl_keeps State.steps _ _ (fun _ _ s => (s.setFloor_frame _ _).1) s,
    foldl_keeps State.regs _ _ (fun _ _ s => (s.setFloor_frame _ _).2.1) s,
    foldl_keeps State.faults _ _ (fun _ _ s => (s.setFloor_frame _ _).2.2.1) s,
    foldl_keeps State.checkpoints _ _ (fun _ _ s => (s.setFloor_frame _ _).2.2.2) s⟩

/-- A recovery window of an error opens (R557). -/
theorem State.openWindow_frame (s : State) (e : ErrRec) (occs : List (Nat × Nat)) :
    (s.openWindow e occs).steps = s.steps ∧ (s.openWindow e occs).regs = s.regs ∧
      (s.openWindow e occs).checkpoints = s.checkpoints ∧ (s.openWindow e occs).faults.queue = s.faults.queue ∧
      (occs ≠ [] → ∃ w ∈ (s.openWindow e occs).faults.windows, w.seq = e.seq ∧ w.region = e.region ∧ w.occs = occs) := by
  unfold State.openWindow
  extract_lets touch nested fns old u
  obtain ⟨steps, regs, faults, points⟩ := u.refreshFloors_frame
  refine ⟨steps, regs, points, by rw [faults], fun some => ⟨⟨e.seq, e.region, occs, touch⟩, ?_, rfl, rfl, rfl⟩⟩
  rw [faults]
  show _ ∈ (if occs = [] then _ else _ ++ [_])
  rw [if_neg some]
  exact List.mem_append_right _ List.mem_cons_self

/-- A stall is counted in the registers of its cause, and recorded (R68, R93). -/
theorem State.countStall_frame (s : State) (st : Stall) :
    (s.countStall st).steps = s.steps ∧ (s.countStall st).faults = s.faults ∧
      (s.countStall st).checkpoints = s.checkpoints := by
  unfold State.countStall
  dsimp only
  simp only [State.record_frame]
  rw [foldl_keeps State.steps _ _ fun _ _ s => by simp, foldl_keeps State.faults _ _ fun _ _ s => by simp,
    foldl_keeps State.checkpoints _ _ fun _ _ s => by simp]
  simp

theorem State.reg_countStall (s : State) (st : Stall) {a : Nat}
    (h : a < 0x10210 + 16 * (st.cause - 1) ∨ 0x10210 + 16 * (st.cause - 1) + 16 ≤ a) : (s.countStall st).reg a = s.reg a := by
  unfold State.countStall
  dsimp only
  rw [State.reg_congr _ _ (State.record_frame _ _ _ _ _ _).2.1,
    foldl_keeps (fun s : State => s.reg a) _ _ fun _ _ s => State.reg_congr _ _ (by simp) a,
    State.reg_addReg64_ne _ _ _ (by omega) (by omega), State.reg_addReg64_ne _ _ _ (by omega) (by omega)]

theorem State.recoveryStall_frame (s : State) (o : Occurrence) :
    (s.recoveryStall o).steps = s.steps ∧ (s.recoveryStall o).faults = s.faults ∧
      ∀ a, a < 0x10260 ∨ 0x10270 ≤ a → (s.recoveryStall o).reg a = s.reg a :=
  let st : Stall := { cause := 6, dies := [1, 2, 3], cadence := o.cadence, step := o.step, tenant := 0, ns := (s.now - o.close) / nsUnits }
  ⟨(s.countStall_frame st).1, (s.countStall_frame st).2.1, fun _ h => (State.reg_congr _ _ rfl _).trans (s.reg_countStall st h)⟩

/-- A re-execution counts one attempt more of its occurrence (R79). -/
theorem State.reexecute_live {s : State} {p : Nat × Nat} {o : Occurrence} (live : s.liveOcc p = some o) (seq : Nat) :
    let again (x : Occurrence) : Occurrence :=
      if x.cadence = p.1 ∧ x.step = p.2 then { x with attempts := x.attempts + 1 } else x
    (s.reexecute seq p).steps.occs = s.steps.occs.map again ∧ (s.reexecute seq p).faults = s.faults ∧
      (s.reexecute seq p).reg64 0x10298 = (s.reg64 0x10298 + 1) % 2 ^ 64 := by
  unfold State.reexecute
  rw [live]
  dsimp only
  obtain ⟨-, occs₀, regs₀, faults₀, -⟩ := s.restore_frame p.1 p.2
  generalize s.restore p.1 p.2 = u at *
  have reg₁ (a : Nat) : (u.updOcc p.1 p.2 fun o => { o with attempts := o.attempts + 1 }).reg a = s.reg a :=
    State.reg_congr _ _ regs₀ a
  have occs₁ : (u.updOcc p.1 p.2 fun o => { o with attempts := o.attempts + 1 }).steps.occs = s.steps.occs.map fun x =>
      if x.cadence = p.1 ∧ x.step = p.2 then { x with attempts := x.attempts + 1 } else x := by
    rw [← occs₀]
    rfl
  have faults₁ : (u.updOcc p.1 p.2 fun o => { o with attempts := o.attempts + 1 }).faults = s.faults := faults₀
  generalize (u.updOcc p.1 p.2 fun o => { o with attempts := o.attempts + 1 }) = v at *
  have reg₂ (a : Nat) : ((v.addReg64 0x10298 1).record kRecovery 0 0 p.2 (recoveryBody p.1 (o.attempts + 1) seq)).reg a =
      (v.addReg64 0x10298 1).reg a := State.reg_congr _ _ (by simp) a
  obtain ⟨steps₃, faults₃, reg₃⟩ :=
    ((v.addReg64 0x10298 1).record kRecovery 0 0 p.2 (recoveryBody p.1 (o.attempts + 1) seq)).recoveryStall_frame o
  refine ⟨?_, ?_, ?_⟩
  · rw [steps₃]
    simpa using occs₁
  · rw [faults₃]
    simpa using faults₁
  · rw [← State.reg64_of_reg (reg₁ _) (reg₁ _), ← v.reg64_addReg64]
    exact State.reg64_of_reg ((reg₃ _ (by decide)).trans (reg₂ _)) ((reg₃ _ (by decide)).trans (reg₂ _))

theorem State.moveFrame_frame (s : State) (t : Tile) :
    (s.moveFrame t).steps = s.steps ∧ (s.moveFrame t).faults = s.faults ∧ (s.moveFrame t).regs = s.regs := by
  unfold State.moveFrame
  split <;> exact ⟨rfl, rfl, rfl⟩

/-- A row's repair changes neither the steps nor the error unit (R485). -/
theorem State.repairRow_frame (s : State) (region row : Nat) :
    (s.repairRow region row).steps = s.steps ∧ (s.repairRow region row).faults = s.faults ∧
      ∀ a, a ≠ 0x600040 → a ≠ 0x60000C → (s.repairRow region row).reg a = s.reg a := by
  unfold State.repairRow
  extract_lets g fs old u v
  split
  · exact ⟨rfl, rfl, fun _ _ _ => rfl⟩
  split
  · have moved {β : Type} (part : State → β) (h : ∀ s t, part (State.moveFrame s t) = part s) (s : State) (t : Tile) :
        part (match t.loc with
          | .t3 f => if fs.contains f then s.moveFrame t else s
          | _ => s) = part s := by
      split
      · split
        · exact h s t
        · rfl
      · rfl
    have reg (a : Nat) (retired : a ≠ 0x600040) (event : a ≠ 0x60000C) : v.reg a = s.reg a := by
      have h : v.reg a = (u.satReg 0x600040 fs.length).reg a := State.reg_memEvent_ne _ _ event
      rw [h, State.reg_satReg_ne _ _ _ _ retired]
      exact State.reg_congr _ _ rfl a
    refine ⟨(foldl_keeps State.steps _ _ (fun t _ s => moved _ (fun s t => (s.moveFrame_frame t).1) s t) v).trans ?_,
      (foldl_keeps State.faults _ _ (fun t _ s => moved _ (fun s t => (s.moveFrame_frame t).2.1) s t) v).trans ?_,
      fun a retired event => (State.reg_congr _ _ (foldl_keeps State.regs _ _
        (fun t _ s => moved _ (fun s t => (s.moveFrame_frame t).2.2) s t) v) a).trans (reg a retired event)⟩
    · simp [v, u, State.memEvent]
    · simp [v, u, State.memEvent]
  · exact ⟨rfl, rfl, fun a _ _ => State.reg_congr _ _ rfl a⟩

theorem State.affected_congr {s t : State} (steps : t.steps = s.steps) (points : t.checkpoints = s.checkpoints) (e : ErrRec) :
    t.affected e = s.affected e := by
  simp only [State.affected, State.writersOf, State.liveOf, State.liveOcc, steps, points]

/-- A corrected error away from the HBM3 rows is logged, and no more (R555). -/
theorem State.handle_corrected {s : State} {e : ErrRec} (kind : e.kind = 0) (row : regionClass e.region ≠ 3) :
    s.handle e = s.faultRecord e 0 0 0 [] noSeq s.stepNow := by
  have tested : ¬(e.kind != 0 && s.underTest e.region) = true := by simp [kind]
  rw [State.handle, if_neg tested, kind]
  exact if_neg row

/-- An uncorrected error that affects one occurrence with an attempt left, in a region without a window, re-executes that
occurrence (R79, R557). -/
theorem State.handle_rerun {s : State} {e : ErrRec} {p : Nat × Nat} {o : Occurrence} (kind : e.kind = 1 ∨ e.kind = 2 ∨ e.kind = 3)
    (tile : e.cause ≠ 0x0F) (pair : regionClass e.region ≠ 6) (security : regionClass e.region ≠ 8)
    (tested : s.underTest e.region = false) (lost : e.lost = []) (windows : ∀ w ∈ s.faults.windows, w.region ≠ e.region)
    (affects : s.affected e = [p]) (live : s.liveOcc p = some o) (left : o.attempts < 2) :
    ∃ rel, s.handle e = (s.rerun e [p] rel).repairAfter e := by
  have whole : s.loseTiles e = (s, false) := by rw [State.loseTiles, lost]; rfl
  have fresh : s.faults.windows.find? (fun w => w.region == e.region) = none :=
    List.find?_eq_none.mpr fun w hw => by simpa using windows w hw
  have all : ¬(s.withAttempts [p]).length < [p].length := by simpa [State.withAttempts, live] using Nat.le_of_lt_succ left
  have handled : s.handle e = (s.handleWork e).repairAfter e := by
    have free : ¬(e.kind != 0 && s.underTest e.region) = true := by simp [tested]
    have noClock : ¬(regionClass e.region = 8 ∨ e.kind = 4) := by omega
    rw [State.handle, if_neg free, if_neg pair, if_neg noClock, if_neg tile]
    rcases kind with kind | kind | kind <;> rw [kind] <;> rfl
  rw [handled, State.handleWork, whole]
  dsimp only
  rw [fresh, affects]
  dsimp only
  rw [if_neg Bool.false_ne_true, if_neg (List.cons_ne_nil _ _), if_neg all]
  exact ⟨_, rfl⟩

/-- What a re-execution of one occurrence settles (R79, R557). -/
theorem State.rerun_spec {s : State} {e : ErrRec} {p : Nat × Nat} {o : Occurrence} (live : s.liveOcc p = some o) (rel : Nat) :
    let t := (s.rerun e [p] rel).repairAfter e
    t.faults.queue = s.faults.queue ∧
      (∃ x ∈ t.steps.occs, x.cadence = p.1 ∧ x.step = p.2 ∧ x.attempts = o.attempts + 1) ∧
      (∃ w ∈ t.faults.windows, w.seq = e.seq ∧ w.region = e.region ∧ w.occs = [p]) ∧
      t.reg64 0x10298 = (s.reg64 0x10298 + 1) % 2 ^ 64 := by
  dsimp only
  have repair (u : State) : (u.repairAfter e).steps = u.steps ∧ (u.repairAfter e).faults = u.faults ∧
      ∀ a, a ≠ 0x600040 → a ≠ 0x60000C → (u.repairAfter e).reg a = u.reg a := by
    unfold State.repairAfter
    split
    · exact u.repairRow_frame _ _
    · exact ⟨rfl, rfl, fun _ _ _ => rfl⟩
  obtain ⟨steps₃, faults₃, reg₃⟩ := repair (s.rerun e [p] rel)
  rw [steps₃, faults₃, State.reg64_of_reg (reg₃ _ (by decide) (by decide)) (reg₃ _ (by decide) (by decide)), State.rerun]
  dsimp only [List.foldl_cons, List.foldl_nil]
  generalize (1 + ([p].filterMap fun p => (s.occOf p.1).map (·.attempts)).foldl max 0) = att
  generalize s.nextTrailSeq = seq
  obtain ⟨-, faults₀, steps₀, -, -, regs₀⟩ := s.faultRecord_frame e 1 e.cause att [p] rel s.stepNow
  generalize s.faultRecord e 1 e.cause att [p] rel s.stepNow = u at *
  obtain ⟨steps₁, regs₁, -, queue₁, window₁⟩ := u.openWindow_frame e [p]
  generalize u.openWindow e [p] = v at *
  have steps : v.steps = s.steps := steps₁.trans steps₀
  have live₁ : v.liveOcc p = some o := by rw [State.liveOcc, steps]; exact live
  obtain ⟨occs₂, faults₂, count₂⟩ := State.reexecute_live live₁ seq
  have reg (a : Nat) : v.reg a = s.reg a := State.reg_congr _ _ (regs₁.trans regs₀) a
  rw [occs₂, faults₂, count₂, steps, State.reg64_of_reg (reg _) (reg _)]
  refine ⟨queue₁.trans (congrArg _ faults₀), ?_, window₁ (List.cons_ne_nil _ _), rfl⟩
  have found := List.find?_some live
  simp only [Bool.and_eq_true, beq_iff_eq] at found
  refine ⟨_, List.mem_map_of_mem (List.mem_of_find?_eq_some live), ?_⟩
  rw [if_pos found.1]
  exact ⟨found.1.1, found.1.2, rfl⟩

end Sys2Proof.Machine

open Sys2Proof Sys2Proof.Machine

/-- Settles O42: a detection by what the registers and the queue then hold, and the head of the queue by the branch of R566 that its
kind, cause and region take. -/
theorem errorsAreQueuedAndHandled : Obligations.ErrorsAreQueuedAndHandled := by
  refine ⟨fun e s held safe room => ⟨_, rfl, effErrorDetect_queues held safe e room⟩, fun e s dead => ?_,
    fun e rest s up queue none kind row => ?_,
    fun e rest p o s up queue none kind tile pair security tested lost windows affects live left => ?_⟩
  · have notAlive : (!s.alive) = true := by rcases dead with held | safe <;> simp [State.alive, *]
    exact congrArg Host.Outcome.next (if_pos notAlive)
  · obtain ⟨mem, steps, trail, faults, tiers, -⟩ := s.dequeued_frame rest
    refine ⟨_, congrArg Host.Outcome.next
      ((effErrorHandle_head up queue none).trans (State.handle_corrected kind row)), ?_⟩
    refine ⟨by simp [faults], by simp [State.faultRecord, mem], by simp [steps], by simp [State.faultRecord, tiers],
      fun run room => ⟨_, (State.record_noRun ?_ ?_ _ _ _ _ _).trans (by rw [trail]), rfl⟩⟩
    · rwa [State.inRun, steps]
    · rwa [trail]
  · obtain ⟨-, steps, -, faults, -, points⟩ := s.dequeued_frame rest
    have tested' : (s.dequeued rest).underTest e.region = false := by
      rw [State.underTest, faults]
      exact tested
    have live' : (s.dequeued rest).liveOcc p = some o := by
      rw [State.liveOcc, steps]
      exact live
    obtain ⟨rel, handled⟩ := State.handle_rerun kind tile pair security tested' lost (by rwa [faults])
      ((State.affected_congr steps points e).trans affects) live' left
    obtain ⟨kept, again, window, count⟩ := State.rerun_spec (e := e) live' rel
    refine ⟨_, congrArg Host.Outcome.next ((effErrorHandle_head up queue none).trans handled), kept.trans (by rw [faults]), again,
      window, count.trans ?_⟩
    rw [State.reg64_of_reg (s.reg_dequeued rest (by decide)) (s.reg_dequeued rest (by decide))]

end

section
/-! SUPPORT. What the work of a commit keeps on its way: the run, the running occurrences and what stands in the trail (R77). -/

namespace Sys2Proof.Machine

/-! Work that goes on within a run. -/

/-- An occurrence's cadence and step. -/
def Occurrence.place (o : Occurrence) : Nat × Nat := (o.cadence, o.step)

/-- The run and the occurrences that run are as before, and the trail has only grown. -/
structure State.Proceeds (s t : State) : Prop where
  run : t.steps.run = s.steps.run
  occs : t.steps.occs.map Occurrence.place = s.steps.occs.map Occurrence.place
  trail : s.trail.GrowsTo t.trail

namespace State.Proceeds

theorem refl (s : State) : s.Proceeds s := ⟨rfl, rfl, .refl _⟩

theorem trans {s t u : State} (h : s.Proceeds t) (g : t.Proceeds u) : s.Proceeds u :=
  ⟨g.run.trans h.run, g.occs.trans h.occs, h.trail.trans g.trail⟩

/-- The same, from the last of the work back. -/
theorem after {s t u : State} (g : t.Proceeds u) (h : s.Proceeds t) : s.Proceeds u := h.trans g

/-- A step of the work that is done only where it is due. -/
theorem optional {c : Prop} [Decidable c] {s t u : State} (h : s.Proceeds t) (g : t.Proceeds u) : s.Proceeds (if c then u else t) := by
  split
  · exact h.trans g
  · exact h

theorem of_grows {s t : State} (steps : t.steps = s.steps) (trail : s.trail.GrowsTo t.trail) : s.Proceeds t :=
  ⟨by rw [steps], by rw [steps], trail⟩

theorem of_eq {s t : State} (steps : t.steps = s.steps) (trail : t.trail = s.trail) : s.Proceeds t :=
  of_grows steps (trail ▸ .refl _)

theorem of_view {s t : State} (view : t.edgeView = s.edgeView) (trail : s.trail.GrowsTo t.trail) : s.Proceeds t := by
  have occs : t.steps.occs.map Occurrence.key = s.steps.occs.map Occurrence.key := congrArg EdgeView.occs view
  have places := congrArg (List.map fun x : Nat × Nat × Nat => (x.1, x.2.1)) occs
  rw [List.map_map, List.map_map] at places
  exact ⟨State.run_of_edgeView view, places, trail⟩

/-- Work that proceeds item by item proceeds. -/
theorem foldl {α : Type} {f : State → α → State} (one : ∀ (s : State) (x : α), s.Proceeds (f s x)) (l : List α) (s : State) :
    s.Proceeds (l.foldl f s) := by
  induction l generalizing s with
  | nil => exact refl s
  | cons x l ih => exact (one s x).trans (ih (f s x))

theorem addReg64 (s : State) (a n : Nat) : s.Proceeds (s.addReg64 a n) := of_eq (by simp) (by simp)
theorem satReg (s : State) (a n : Nat) : s.Proceeds (s.satReg a n) := of_eq (by simp) (by simp)
theorem setFld (s : State) (f : Fld) (n : Nat) : s.Proceeds (s.setFld f n) := of_eq (by simp) (by simp)
theorem setReg (s : State) (a n : Nat) : s.Proceeds (s.setReg a n) := of_eq rfl rfl
theorem setReg64 (s : State) (a n : Nat) : s.Proceeds (s.setReg64 a n) := of_eq (by simp) (by simp)
theorem answer (s : State) (b o c : Nat) : s.Proceeds (s.answer b o c) := of_eq (by simp) (by simp)
theorem event (s : State) (off bit : Nat) (en : Bool) (vec : Nat) : s.Proceeds (s.event off bit en vec) :=
  of_eq (by simp) (by simp)
theorem faultEvent (s : State) (bit : Nat) : s.Proceeds (s.faultEvent bit) := event s _ _ _ _
theorem hostWrite (s : State) (a : Nat) (bs : Bytes) : s.Proceeds (s.hostWrite a bs) := of_eq (by simp) (by simp)
theorem completeIn (s : State) (e : Nat) (h : CmdHdr) (op o c d : Nat) (r : Bytes) :
    s.Proceeds (s.completeIn e h op o c d r) := of_eq (by simp) (by simp)
theorem setColl (s : State) (i : Nat) (c : Collection) : s.Proceeds (s.setColl i c) := of_eq rfl rfl
theorem store (s : State) (a : Nat) (bs : Bytes) : s.Proceeds (s.store a bs) := of_eq (by simp) (by simp)

theorem trailWrite (s : State) (d : TrailDraft) : s.Proceeds (s.trailWrite d) := of_grows (by simp) (s.trailWrite_grows d)

theorem record (s : State) (k o c n : Nat) (b : Bytes) : s.Proceeds (s.record k o c n b) := trailWrite s _

/-! Errors met on the way (R155, R554-R567). -/

theorem setFloor (s : State) (f v : Nat) : s.Proceeds (s.setFloor f v) := by
  unfold State.setFloor
  dsimp only
  split
  · exact refl s
  · exact after (record _ _ _ _ _ _) (of_eq rfl rfl)

theorem refreshFloors (s : State) : s.Proceeds s.refreshFloors := foldl (fun _ _ => setFloor _ _ _) _ s

theorem openWindow (s : State) (e : ErrRec) (occs : List (Nat × Nat)) : s.Proceeds (s.openWindow e occs) := by
  unfold State.openWindow
  extract_lets touch nested fns old u
  exact after (refreshFloors u) (of_eq rfl rfl)

theorem countStall (s : State) (st : Stall) : s.Proceeds (s.countStall st) := by
  unfold State.countStall
  dsimp only
  refine after (record _ _ _ _ _ _) (after (foldl (fun s d => ?_) _ _) ?_)
  · exact of_eq (by simp) (by simp)
  · exact of_eq (by simp) (by simp)

theorem recoveryStall (s : State) (o : Occurrence) : s.Proceeds (s.recoveryStall o) :=
  after (t := s.countStall _) (of_eq rfl rfl) (countStall s _)

theorem restore (s : State) (k n : Nat) : s.Proceeds (s.restore k n) := by
  obtain ⟨run, occs, -, -, trail, -⟩ := s.restore_frame k n
  exact ⟨run, by rw [occs], trail ▸ .refl _⟩

/-- A change of occurrences that leaves each its cadence and step. -/
theorem updOcc (s : State) (k n : Nat) (f : Occurrence → Occurrence) (same : ∀ o, (f o).place = o.place) :
    s.Proceeds (s.updOcc k n f) := by
  refine ⟨rfl, ?_, .refl _⟩
  show (s.steps.occs.map _).map Occurrence.place = _
  rw [List.map_map]
  refine List.map_congr_left fun o _ => ?_
  show (if o.cadence = k ∧ o.step = n then f o else o).place = o.place
  split
  · exact same o
  · rfl

theorem reexecute (s : State) (seq : Nat) (p : Nat × Nat) : s.Proceeds (s.reexecute seq p) := by
  unfold State.reexecute
  split
  · exact refl s
  · dsimp only
    refine after (recoveryStall _ _) (after (record _ _ _ _ _ _) (after (addReg64 _ _ _) ?_))
    exact after (updOcc _ _ _ _ fun _ => rfl) (restore s _ _)

theorem rerunAfter (s : State) (seq : Nat) (occs : List (Nat × Nat)) : s.Proceeds (s.rerunAfter seq occs) := by
  refine foldl (fun s p => ?_) _ s
  split
  · split
    · exact reexecute s seq p
    · exact after (recoveryStall _ _) (restore s _ _)
  · exact refl s

/-- A unit without lendable memory leaves service (R159). -/
theorem markOut (s : State) {r : Nat} (none : lentMemoryOf r = none) : s.Proceeds (s.markOut r) := by
  unfold State.markOut State.takeOut
  split
  · exact refl s
  · rw [State.closeWindowsOf, none]
    dsimp only
    unfold State.refreshStage
    split
    · split <;> exact of_eq rfl rfl
    · exact of_eq rfl rfl

theorem serviceEnd (s : State) (e : ErrRec) (cause code : Nat) : s.Proceeds (s.serviceEnd e cause code) := by
  have h := record s kFault 0 cause s.stepNow (s.errorBytes e 6 cause 0 [] noSeq 1 s.stepNow e.detail)
  exact ⟨h.run, h.occs, h.trail⟩

/-- The quarantine of the search engine, or of the hub die, both without lendable memory, as a full error queue brings it about
(R567). -/
theorem quarantine (s : State) (e : ErrRec) (cause related : Nat)
    (region : e.region = engineRegion 4 ∨ e.region = dieRegion 0) : s.Proceeds (s.quarantine e cause related false) := by
  have noted : s.Proceeds ((s.satReg 0xE00038 1).faultEvent 2) := after (faultEvent _ _) (satReg s _ _)
  rcases region with region | region
  · have none : lentMemoryOf (engineRegion 4) = none := by decide
    simp only [State.quarantine, region, show regionClass (engineRegion 4) = 9 by decide, show regionInst (engineRegion 4) = 4 by decide]
    refine after (t := State.rerunAfter _ _ _) (of_eq rfl rfl) (after (rerunAfter _ _ _) (after (openWindow _ _ _) ?_))
    exact after (markOut _ none) noted
  · have none : lentMemoryOf (dieRegion 0) = none := by decide
    simp only [State.quarantine, region, show regionClass (dieRegion 0) = 0xA by decide,
      show regionInst (dieRegion 0) = 0 by decide, State.loseDie, if_true]
    exact after (serviceEnd _ _ _ _) (after (faultEvent _ _) (after (markOut _ none) noted))

/-- An error of the search engine or of the hub die enters the queue, or takes its unit out of service. -/
theorem detect (s : State) {region : Nat} (unit : region = engineRegion 4 ∨ region = dieRegion 0) (kind cause address : Nat)
    (detail : Bytes) (occs : List (Nat × Nat)) (lost : List Nat) (count : Nat) :
    s.Proceeds (s.detect region kind cause address detail occs lost count) := by
  obtain ⟨x, hx⟩ := s.newError_counted region kind
  unfold State.detect
  dsimp only
  rw [hx, ← State.noteUncorrected]
  have fresh : s.Proceeds { (s.newError region kind).2 with counters := x } := of_eq (by simp) (by simp [State.newError])
  generalize ({ (s.newError region kind).2 with counters := x } : State) = u at *
  obtain ⟨-, steps, trail, -⟩ := u.noteUncorrected_frame kind
  have noted := fresh.trans (of_eq steps trail)
  generalize u.noteUncorrected kind = v at *
  split
  · exact noted.trans (of_eq (v.enqueued_frame _).2.1 (v.enqueued_frame _).2.2.1)
  · have full : s.Proceeds ((v.satReg 0xE00010 1).setFld ⟨0xE0000C, 31, 1⟩ 1) :=
      after (setFld _ _ _) (after (satReg _ _ _) noted)
    refine after (quarantine _ _ _ _ unit) ?_
    exact ⟨full.run, full.occs, full.trail⟩

/-- A unit of the engines or the hub die that breaks the order of R153 (R155). -/
theorem orderError (s : State) {region : Nat} (unit : region = engineRegion 4 ∨ region = dieRegion 0) (i : Nat) (c : DescCtx) :
    s.Proceeds (s.orderError region i c) :=
  after (detect _ unit _ _ _ _ _ _ _) (event s _ _ _ _)

end State.Proceeds

/-! Lanterns and tiles: work that writes no record. -/

def Checkpoint.place (c : Checkpoint) : Nat × Nat := (c.cadence, c.step)

/-- What lanterns, tiles and stores leave alone: the trail, the commits that wait, the checkpoints that stand and the registers. -/
structure WorkView where
  trail : Trail
  commits : List (Instr × Option Nat)
  points : List (Nat × Nat)
  regs : List (Nat × Word)

@[reducible] def State.workView (s : State) : WorkView where
  trail := s.trail
  commits := s.search.waitCommits
  points := s.checkpoints.map Checkpoint.place
  regs := s.regs

theorem workView_foldl {α : Type} {f : State → α → State} (hf : ∀ s x, (f s x).workView = s.workView) (l : List α) (s : State) :
    (l.foldl f s).workView = s.workView := foldl_keeps State.workView f l (fun x _ s => hf s x) s

/-- Checkpoints changed one by one, each still of its occurrence. -/
theorem State.workView_points (s : State) (f : Checkpoint → Checkpoint) (same : ∀ c, (f c).place = c.place) :
    ({ s with checkpoints := s.checkpoints.map f } : State).workView = s.workView := by
  have points : (s.checkpoints.map f).map Checkpoint.place = s.checkpoints.map Checkpoint.place := by
    rw [List.map_map]
    exact List.map_congr_left fun c _ => same c
  show WorkView.mk _ _ ((s.checkpoints.map f).map Checkpoint.place) _ = _
  rw [points]

@[simp] theorem State.workView_touchLantern (s : State) (k i : Nat) : (s.touchLantern k i).workView = s.workView :=
  s.workView_points _ fun c => by split <;> rfl

@[simp] theorem State.workView_logUndo (s : State) (k a n : Nat) : (s.logUndo k a n).workView = s.workView :=
  s.workView_points _ fun c => by split <;> rfl

@[simp] theorem State.workView_setLantern (s : State) (l : LanternState) : (s.setLantern l).workView = s.workView := rfl
@[simp] theorem State.workView_dropWait (s : State) (u i : Nat) : (s.dropWait u i).workView = s.workView := rfl
@[simp] theorem State.workView_forgetTensors (s : State) (a n : Nat) : (s.forgetTensors a n).workView = s.workView := rfl

@[simp] theorem State.workView_issueWait (s : State) (k u i : Nat) : (s.issueWait k u i).workView = s.workView := by
  obtain ⟨x, hx⟩ := s.issueWait_eq k u i
  rw [hx]

@[simp] theorem State.workView_count (s : State) (die ev inst n : Nat) : (s.count die ev inst n).workView = s.workView := by
  simp [State.workView]

@[simp] theorem State.workView_store (s : State) (a : Nat) (bs : Bytes) : (s.store a bs).workView = s.workView := by
  simp [State.workView]

@[simp] theorem State.workView_fillLantern (s : State) (u i : Nat) : (s.fillLantern u i).workView = s.workView := by
  unfold State.fillLantern
  dsimp only
  split
  · split
    · rw [State.workView_touchLantern, State.workView_setLantern]
    · rfl
  · rfl

@[simp] theorem State.workView_raiseLantern (s : State) (u i t n : Nat) : (s.raiseLantern u i t n).workView = s.workView := by
  unfold State.raiseLantern
  dsimp only
  split
  · split
    · rw [State.workView_count, State.workView_touchLantern, State.workView_setLantern]
    · rfl
  · rfl

@[simp] theorem State.workView_dirtyTiles (s : State) (a n : Nat) : (s.dirtyTiles a n).workView = s.workView := by
  unfold State.dirtyTiles
  split
  · rfl
  · exact workView_foldl (fun s i => State.workView_setLantern _ _) _ s

@[simp] theorem State.workView_writeBeats (s : State) (a n : Nat) : (s.writeBeats a n).workView = s.workView := by
  unfold State.writeBeats
  split
  · rfl
  · exact workView_foldl (fun s i => State.workView_count _ _ _ _ _) _ s

@[simp] theorem State.workView_tagRange (s : State) (a n t m u : Nat) : (s.tagRange a n t m u).workView = s.workView := by
  unfold State.tagRange
  split <;> rfl

@[simp] theorem State.workView_cstore (s : State) (k u a : Nat) (bs : Bytes) : (s.cstore k u a bs).workView = s.workView := by
  unfold State.cstore
  dsimp only
  rw [State.workView_forgetTensors, State.workView_tagRange, State.workView_writeBeats, State.workView_dirtyTiles,
    State.workView_store, State.workView_logUndo]

namespace State.Proceeds

theorem of_views {s t : State} (edge : t.edgeView = s.edgeView) (work : t.workView = s.workView) : s.Proceeds t := by
  have trail : t.trail = s.trail := congrArg WorkView.trail work
  exact of_view edge (trail ▸ .refl _)

theorem raiseLantern (s : State) (u i t n : Nat) : s.Proceeds (s.raiseLantern u i t n) := of_views (by simp) (by simp)

theorem storeTile (s : State) {region : Nat} (unit : region = engineRegion 4 ∨ region = dieRegion 0) (k u i : Nat) (bs : Bytes) :
    s.Proceeds (s.storeTile region k u i bs) := by
  unfold State.storeTile
  split
  · exact of_views (by simp) (by simp)
  · exact orderError s unit _ _

/-! The engines' part of a commit (R276, R291, R340, R344). -/

theorem refusalEvents (s : State) (causes : List Nat) : s.Proceeds (s.refusalEvents causes) := by
  unfold State.refusalEvents
  extract_lets u
  have first : s.Proceeds u := by
    unfold u
    split
    · exact event s _ _ _ _
    · exact refl s
  split
  · exact after (event u _ _ _ _) first
  · exact first

theorem enterOps (s : State) (k time step : Nat) (o : SearchOps) : s.Proceeds (s.enterOps k time step o) := by
  unfold State.enterOps
  extract_lets d c r a u
  have entered : s.Proceeds u := after (answer _ _ _ _) (after (refusalEvents _ _) (setColl s _ _))
  split
  · exact entered
  · exact after (raiseLantern _ _ _ _ _) (after (storeTile _ (.inl rfl) _ _ _ _) entered)

theorem answerHost (s : State) (a : Nat × Nat) : s.Proceeds (s.answerHost a) := by
  unfold State.answerHost
  refine after (answer _ _ _ _) ?_
  split
  · exact satReg s _ _
  · exact refl s

theorem enterHost (s : State) (i : Nat) (o : HostOp) : s.Proceeds (s.enterHost i o) := by
  have entered (c : Collection) (l : List Nat) (a : Nat × Nat) : s.Proceeds (((s.setColl i c).refusalEvents l).answerHost a) :=
    after (answerHost _ _) (after (refusalEvents _ _) (setColl s _ _))
  unfold State.enterHost
  dsimp only
  split
  · exact after (completeIn _ _ _ _ _ _ _ _) (after (hostWrite _ _ _) (entered _ _ _))
  · exact after (completeIn _ _ _ _ _ _ _ _) (after (hostWrite _ _ _) (entered _ _ _))
  · exact after (completeIn _ _ _ _ _ _ _ _) (entered _ _ _)

theorem commitColl (s : State) (i k time step : Nat) (ops : List SearchOps) : s.Proceeds (s.commitColl i k time step ops) := by
  unfold State.commitColl
  extract_lets u host v c w x
  have entered : s.Proceeds v := after (foldl (fun s o => enterHost s i o) _ _) (foldl (fun s o => enterOps s k time step o) _ s)
  have ranked : s.Proceeds x := after (setColl _ _ _) (after (setColl _ _ _) entered)
  split
  · exact after (setColl _ _ _) ranked
  · exact ranked

theorem settleMap (s : State) : s.Proceeds s.settleMap := by
  have ill : s.Proceeds (if s.map.work.closures.any (fun c => c.result == 0) then
      (({ s with map := s.map.withdraw }).mapEvent 3).answer blockMap shed 0x44 else s) := by
    split
    · exact after (answer _ _ _ _) (after (event _ _ _ _ _) (of_eq rfl rfl))
    · exact refl s
  unfold State.settleMap
  dsimp only
  split
  · exact ill
  · split
    · exact of_eq rfl rfl
    · exact ill

theorem insertVectors (s : State) : s.Proceeds s.insertVectors := by
  refine foldl (fun s p => ?_) _ s
  extract_lets d c sensor r set u v
  have entered : s.Proceeds u := after (refusalEvents _ _) (setColl s _ _)
  have answered : s.Proceeds v := by
    unfold v
    split
    · exact after (answer u _ _ _) entered
    · exact after (answer u _ _ _) entered
  exact answered.trans (of_eq rfl rfl)

theorem commitEngines (s : State) (o : Occurrence) (isMap mapMerge : Bool) (ops : List SearchOps) :
    s.Proceeds (s.commitEngines o isMap mapMerge ops) := by
  unfold State.commitEngines
  extract_lets u v w
  have settled : s.Proceeds u := by
    unfold u
    split
    · exact after (insertVectors _) (settleMap s)
    · exact refl s
  refine after (foldl (fun s i => setColl s _ _) _ _) ?_
  exact after (foldl (fun s x => enterOps s _ _ _ x) _ _) (after (foldl (fun s i => commitColl s _ _ _ _ _) _ _) settled)

/-! The records of a commit and what it shows (R91, R210, R386). -/

theorem emitOutput (s : State) (o : OutRec) : s.Proceeds (s.emitOutput o) := by
  refine of_view (by simp) ?_
  unfold State.emitOutput
  extract_lets seq p src u v
  have written : s.trail.GrowsTo v.trail := u.trailWrite_grows _
  split
  · exact written
  · simpa using written

theorem emitFor (s : State) (o : Occurrence) (v : StepVerdict) (rtype f tenant stream conf : Nat) (payload : Bytes) :
    s.Proceeds (s.emitFor o v rtype f tenant stream conf payload) := by
  unfold State.emitFor
  split
  · exact refl s
  · exact emitOutput s _

theorem emitModels (s : State) (o : Occurrence) (v : StepVerdict) (outs : List ModelOutput) : s.Proceeds (s.emitModels o v outs) := by
  refine foldl (fun s x => ?_) outs s
  split
  · exact emitFor s _ _ _ _ _ _ _ _
  · exact refl s

theorem emitTracks (s : State) (o : Occurrence) (v : StepVerdict) : s.Proceeds (s.emitTracks o v) :=
  foldl (fun s _ => foldl (fun s _ => emitFor s _ _ _ _ _ _ _ _) _ s) _ s

theorem emitMaps (s : State) (o : Occurrence) (v : StepVerdict) : s.Proceeds (s.emitMaps o v) :=
  foldl (fun s _ => foldl (fun s _ => emitFor s _ _ _ _ _ _ _ _) _ s) _ s

theorem emitMatches (s : State) (o : Occurrence) (v : StepVerdict) : s.Proceeds (s.emitMatches o v) := by
  unfold State.emitMatches
  extract_lets mine u
  have emitted : s.Proceeds u := foldl (fun s _ => foldl (fun s _ => emitFor s _ _ _ _ _ _ _ _) _ s) _ s
  exact emitted.trans (of_eq rfl rfl)

theorem withSums (s : State) (x : List StepStats) (y : List Nat) :
    s.Proceeds { s with steps := { s.steps with stats := x, openSums := y } } := ⟨rfl, rfl, .refl _⟩

theorem updStats (s : State) (n : Nat) (f : StepStats → StepStats) : s.Proceeds (s.updStats n f) := ⟨rfl, rfl, .refl _⟩

theorem emitSummary (s : State) (o : Occurrence) : s.Proceeds (s.emitSummary o) := by
  unfold State.emitSummary
  exact after (withSums _ _ _) (emitFor s _ _ _ _ _ _ _ _)

theorem takeGlints (s : State) (n : Nat) : s.Proceeds (s.takeGlints n).1 := by
  unfold State.takeGlints
  extract_lets evs src u kept dropped v payload lanterns w
  have taken : s.Proceeds u := of_eq rfl rfl
  split
  · exact taken
  · have shown : s.Proceeds v := by
      unfold v
      split
      · exact taken
      · exact after (event u _ _ _ _) taken
    exact after (foldl (fun s q => after (raiseLantern _ _ _ _ _) (storeTile s (.inr rfl) _ _ _ _)) _ _) shown

theorem emitGlints (s : State) (o : Occurrence) : s.Proceeds (s.emitGlints o) := by
  unfold State.emitGlints
  dsimp only
  split
  · exact after (emitFor _ _ _ _ _ _ _ _ _) (takeGlints s _)
  · exact takeGlints s _

theorem commitTracks (s : State) : s.Proceeds s.commitTracks := by
  unfold State.commitTracks
  split
  · exact refl s
  · extract_lets sum sat freed u src v w x y
    have cleared : s.Proceeds u := by
      unfold u
      split
      · exact foldl (fun s t => store s _ _) _ s
      · exact refl s
    refine after (setReg _ _ _) (after (setReg _ _ _) (after (setReg _ _ _) (after (addReg64 _ _ _) ?_)))
    exact cleared.trans (of_eq rfl rfl)

theorem commitSolve (s : State) : s.Proceeds s.commitSolve := by
  unfold State.commitSolve
  split
  · exact refl s
  · extract_lets u v w x y
    have counted : s.Proceeds w := after (addReg64 _ _ _) (after (setReg64 _ _ _) (after (setReg _ _ _) (setReg s _ _)))
    have noted : s.Proceeds x := optional counted (satReg _ _ _)
    have last : s.Proceeds y := after (setReg _ _ _) noted
    exact last.trans (of_eq rfl rfl)

theorem advanceMap (s : State) (step : Nat) : s.Proceeds (s.advanceMap step) := by
  unfold State.advanceMap
  extract_lets m acc wd u v ill table x
  have counted : s.Proceeds u := after (setFld _ _ _) (setFld s _ _)
  have noted : s.Proceeds v := optional counted (event _ _ _ _ _)
  exact after (commitSolve _) (noted.trans (of_eq rfl rfl))

theorem commitArrays (s : State) (k : Nat) : s.Proceeds (s.commitArrays k) := by
  unfold State.commitArrays
  split
  · exact of_eq rfl rfl
  · refine foldl (fun s a => ?_) _ s
    extract_lets c u v w x
    have shown : s.Proceeds v := after (setReg64 _ _ _) (after (setReg64 _ _ _) (setReg64 s _ _))
    have saturated : s.Proceeds w := optional shown (event _ _ _ _ _)
    have noted : s.Proceeds x := optional saturated (event _ _ _ _ _)
    exact noted.trans (of_eq rfl rfl)

theorem updVision (s : State) (v : Nat) (f : VisionUnit → VisionUnit) : s.Proceeds (s.updVision v f) := of_eq rfl rfl

theorem commitVision (s : State) (k : Nat) : s.Proceeds (s.commitVision k) := by
  unfold State.commitVision
  split
  · exact of_eq rfl rfl
  · refine foldl (fun s v => ?_) _ s
    extract_lets c u w
    have shown : s.Proceeds w := after (foldl (fun s i => setReg s _ _) _ _) (foldl (fun s e => setReg s _ _) _ s)
    exact after (updVision _ _ _) shown

theorem commitChannels (s : State) (n : Nat) : s.Proceeds (s.commitChannels n) := of_eq rfl rfl
theorem commitTiers (s : State) : s.Proceeds s.commitTiers := of_eq rfl rfl
theorem commitPorts (s : State) : s.Proceeds s.commitPorts := of_eq rfl rfl

theorem commitLanterns (s : State) (k n : Nat) : s.Proceeds (s.commitLanterns k n) := by
  refine foldl (fun s l => ?_) _ s
  split
  · split
    · exact of_eq rfl rfl
    · exact refl s
  · exact refl s

/-! Requests of the host that waited for the engines. -/

theorem trackAnswer (s : State) (ep : Nat) (h : CmdHdr) (op o c : Nat) (r : Bytes) : s.Proceeds (s.trackAnswer ep h op o c r) :=
  after (completeIn _ _ _ _ _ _ _ _) (answer s _ _ _)

theorem mapAnswer (s : State) (ep : Nat) (h : CmdHdr) (o c : Nat) (r : Bytes) : s.Proceeds (s.mapAnswer ep h o c r) :=
  after (completeIn _ _ _ _ _ _ _ _) (answer s _ _ _)

theorem searchRefuse (s : State) (ep : Nat) (h : CmdHdr) (op c : Nat) : s.Proceeds (s.searchRefuse ep h op c) :=
  after (completeIn _ _ _ _ _ _ _ _) (after (satReg _ _ _) (answer s _ _ _))

theorem runTrackHead (s : State) (q : HostReq) : s.Proceeds (s.runTrackHead q) := by
  unfold State.runTrackHead
  split
  · unfold State.runTrackRead
    dsimp only
    split
    · exact after (trackAnswer _ _ _ _ _ _ _) (hostWrite s _ _)
    · exact trackAnswer s _ _ _ _ _ _
  · unfold State.runTrackPredict
    split
    · exact trackAnswer s _ _ _ _ _ _
    split
    · exact trackAnswer s _ _ _ _ _ _
    split
    · exact trackAnswer s _ _ _ _ _ _
    · exact after (trackAnswer _ _ _ _ _ _ _) (hostWrite s _ _)
  · exact refl s

theorem drainTrack (s : State) : s.Proceeds s.drainTrack := after (foldl runTrackHead _ _) (of_eq rfl rfl)

theorem runMapHead (s : State) (q : HostReq) : s.Proceeds (s.runMapHead q) := by
  unfold State.runMapHead
  split
  · unfold State.runMapRead
    extract_lets big e xs out next
    split
    · exact mapAnswer s _ _ _ _ _
    split
    · exact mapAnswer s _ _ _ _ _
    split
    · exact mapAnswer s _ _ _ _ _
    split
    · exact mapAnswer s _ _ _ _ _
    · exact after (mapAnswer _ _ _ _ _ _) (hostWrite s _ _)
  · exact refl s

theorem drainMap (s : State) : s.Proceeds s.drainMap := after (foldl runMapHead _ _) (of_eq rfl rfl)

theorem countBatch (s : State) (r : QueryReq) (b : BatchAns) : s.Proceeds (s.countBatch r b) := by
  unfold State.countBatch
  split
  · exact refl s
  · extract_lets d c lists bytes nf t u v w x y note
    have counted : s.Proceeds w := after (satReg _ _ _) (after (addReg64 _ _ _) (after (addReg64 _ _ _) (addReg64 s _ _)))
    have nonfinite : s.Proceeds x := optional counted (event _ _ _ _ _)
    have short : s.Proceeds y := optional nonfinite (event _ _ _ _ _)
    exact after (setColl _ _ _) short

theorem runHostQuery (s : State) (ep arrival : Nat) (h : CmdHdr) (req : Bytes) (ns : Nat) :
    s.Proceeds (s.runHostQuery ep arrival h req ns) := by
  unfold State.runHostQuery
  extract_lets r limit b u v fin
  split
  · exact after (searchRefuse _ _ _ _ _) (event s _ _ _ _)
  · have counted : s.Proceeds u := countBatch s r b
    have stored : s.Proceeds v := optional counted (store _ _ _)
    split
    · exact after (searchRefuse _ _ _ _ _) stored
    · have answered (o c d : Nat) (bs : Bytes) : s.Proceeds ((v.answer blockSearch o c).completeIn ep h 0x40 o c d bs) :=
        after (completeIn _ _ _ _ _ _ _ _) (after (answer _ _ _ _) stored)
      split
      · exact answered _ _ _ _
      · exact answered _ _ _ _

theorem runHead (s : State) (q : HostQuery) : s.Proceeds (s.runHead q) := by
  have served (a : Nat) (bs result : Bytes) (ep op : Nat) (h : CmdHdr) :
      s.Proceeds (((s.hostWrite a bs).answer blockSearch Machine.served 0).completeIn ep h op Machine.served 0 0 result) :=
    after (completeIn _ _ _ _ _ _ _ _) (after (answer _ _ _ _) (hostWrite s _ _))
  unfold State.runHead
  split
  · exact runHostQuery s _ _ _ _ _
  · unfold State.runGet
    split
    · exact searchRefuse s _ _ _ _
    split
    · exact searchRefuse s _ _ _ _
    dsimp only
    split
    · exact searchRefuse s _ _ _ _
    · exact served _ _ _ _ _ _
  · unfold State.runExport
    split
    · exact searchRefuse s _ _ _ _
    split
    · exact searchRefuse s _ _ _ _
    · exact served _ _ _ _ _ _
  · exact refl s

theorem drainSearch (s : State) : s.Proceeds s.drainSearch := after (foldl runHead _ _) (of_eq rfl rfl)

end State.Proceeds
end Sys2Proof.Machine
end

section
/-! SUPPORT. An occurrence leaves the running ones: by its commit or after a stall, and the statement about both (R76, R77, R91,
R482). -/

namespace Sys2Proof.Machine

/-- A trail that does not hold did not hold before. -/
theorem Trail.GrowsTo.free {a b : Trail} (h : a.GrowsTo b) (free : b.hold = false) : a.hold = false :=
  Bool.eq_false_iff.mpr fun held => absurd (h.hold held) (by simp [free])

/-! The next occurrence of a cadence begins. -/

/-- Fusion work that begins: the trail, the commits that wait and the checkpoints are as before, and of the registers only the
event flags of fusion change. -/
structure State.Prepares (s t : State) : Prop where
  trail : t.trail = s.trail
  commits : t.search.waitCommits = s.search.waitCommits
  points : t.checkpoints.map Checkpoint.place = s.checkpoints.map Checkpoint.place
  reg : ∀ a, a ≠ clsFusionEvents → t.reg a = s.reg a

namespace State.Prepares

theorem of_view {s t : State} (view : t.workView = s.workView) : s.Prepares t :=
  ⟨congrArg WorkView.trail view, congrArg WorkView.commits view, congrArg WorkView.points view,
    fun a _ => State.reg_congr _ _ (congrArg WorkView.regs view) a⟩

theorem refl (s : State) : s.Prepares s := of_view rfl

theorem trans {s t u : State} (h : s.Prepares t) (g : t.Prepares u) : s.Prepares u :=
  ⟨g.trail.trans h.trail, g.commits.trans h.commits, g.points.trans h.points, fun a ne => (g.reg a ne).trans (h.reg a ne)⟩

theorem after {s t u : State} (g : t.Prepares u) (h : s.Prepares t) : s.Prepares u := h.trans g

theorem fusionEvent (s : State) (bit : Nat) : s.Prepares (s.fusionEvent bit) :=
  ⟨by simp [State.fusionEvent], by simp [State.fusionEvent], by simp [State.fusionEvent], fun _ ne => State.reg_event_ne _ _ _ _ _ ne⟩

theorem keepVerdict (s : State) : s.Prepares s.keepVerdict := by
  refine of_view ?_
  unfold State.keepVerdict
  split <;> rfl

theorem feedDue (s : State) (n : Nat) : s.Prepares (s.feedDue n) := by
  unfold State.feedDue
  exact of_view (workView_foldl (f := fun s (x : FeedSample) => s.addSample x.index x.stamp x.value) (fun _ _ => rfl) _ _)

theorem fusionStep (s : State) (ts : Nat) (q : List Quality) (al : List AlignState) : s.Prepares (s.fusionStep ts q al) := by
  unfold State.fusionStep
  extract_lets ver old decls value stepOne ids new src u v
  have judged : s.Prepares v := by
    unfold v
    split
    · exact after (fusionEvent _ _) (of_view rfl)
    · exact of_view rfl
  split
  · exact after (fusionEvent _ _) judged
  · exact judged

theorem fusionWrite (s : State) (w : FusionWrite) : s.Prepares (s.fusionWrite w) := by
  refine of_view ?_
  unfold State.fusionWrite
  extract_lets u slots
  split
  · rw [workView_foldl (fun s i => State.workView_raiseLantern _ _ _ _ _), State.workView_cstore,
      workView_foldl fun s i => by rw [State.workView_fillLantern, State.workView_dropWait]]
  · refine Eq.trans (b := State.workView (slots.foldl _ s)) rfl (workView_foldl (fun s i => ?_) _ s)
    split
    · rfl
    · exact State.workView_issueWait _ _ _ _

theorem writeStreamState (s : State) (o : Occurrence) : s.Prepares (s.writeStreamState o) := by
  have all (l : List Nat) (w : Nat → FusionWrite) (s : State) : s.Prepares (l.foldl (fun s a => s.fusionWrite (w a)) s) := by
    induction l generalizing s with
    | nil => exact refl s
    | cons a l ih => exact (fusionWrite s (w a)).trans (ih _)
  unfold State.writeStreamState
  split
  · exact refl s
  · extract_lets ts pairs idx recs vec u
    have vectors : s.Prepares u := all _ (fun a => ⟨a, vec, o.step⟩) s
    split
    · exact vectors
    · exact vectors.trans (all _ (fun a => ⟨a, recs, o.step⟩) u)

theorem beginFusion (s : State) (o : Occurrence) : s.Prepares (s.beginFusion o) := by
  unfold State.beginFusion
  extract_lets ts u steps v
  have begun : s.Prepares v := after (t := u) (of_view rfl) (after (fusionStep _ _ _ _) (after (feedDue _ _) (keepVerdict s)))
  split
  · exact after (writeStreamState _ _) begun
  · exact begun

end State.Prepares

/-- The next occurrence of a cadence begins, where one waits: its checkpoint joins those that stand. -/
theorem State.beginNext_spec (s : State) (k : Nat) :
    (s.beginNext k).trail = s.trail ∧ (s.beginNext k).search.waitCommits = s.search.waitCommits ∧
      (∀ a, a ≠ clsFusionEvents → (s.beginNext k).reg a = s.reg a) ∧
      (∀ c ∈ (s.beginNext k).checkpoints, c.place ∈ s.checkpoints.map Checkpoint.place ∨
        ∃ o ∈ s.steps.occs, o.cadence = k ∧ o.place = c.place) ∧
      ((∀ o ∈ s.steps.occs, o.cadence ≠ k) → (s.beginNext k).mem = s.mem) := by
  have stays : ∀ c ∈ s.checkpoints, c.place ∈ s.checkpoints.map Checkpoint.place ∨ ∃ o ∈ s.steps.occs, o.cadence = k ∧ o.place = c.place :=
    fun c hc => .inl (List.mem_map_of_mem hc)
  unfold State.beginNext
  split
  · next o found =>
    have mem := List.mem_of_find?_eq_some found
    have cadence : o.cadence = k := by simpa using List.find?_some found
    split
    · exact ⟨rfl, rfl, fun _ _ => rfl, stays, fun _ => rfl⟩
    · unfold State.beginWork
      split
      · exact ⟨rfl, rfl, fun _ _ => rfl, stays, fun _ => rfl⟩
      · next x _ =>
        extract_lets u
        have on : s.Prepares u := .of_view rfl
        have begun : s.Prepares (if k = 0 then u.beginFusion x else u) := by
          split
          · exact .after (.beginFusion _ _) on
          · exact on
        refine ⟨begun.trail, begun.commits, begun.reg, fun c hc => ?_, fun none => absurd cadence (none o mem)⟩
        rcases List.mem_cons.mp hc with rfl | old
        · exact .inr ⟨o, mem, cadence, by rw [Occurrence.place, cadence]; rfl⟩
        · exact .inl (begun.points ▸ List.mem_map_of_mem (List.mem_of_mem_filter old))
  · exact ⟨rfl, rfl, fun _ _ => rfl, stays, fun _ => rfl⟩

/-! An occurrence leaves. -/

/-- The state without the occurrence, its checkpoint and its recovery windows. -/
def State.withoutOcc (s : State) (k n : Nat) : State :=
  let s := (s.dropCheckpoint k n).closeRecovery k n
  { s with steps := { s.steps with
      occs := s.steps.occs.filter (fun o => !(o.cadence == k && o.step == n))
      draws := s.steps.draws.filter (fun d => !(d.cadence == k && d.step == n))
      late := s.steps.late.filter (fun x => !(x.1 == k && x.2.1 ≤ n)) } }

theorem State.mem_withoutOcc {s : State} {k n : Nat} {o : Occurrence} (h : o ∈ (s.withoutOcc k n).steps.occs) :
    o ∈ s.steps.occs ∧ ¬(o.cadence = k ∧ o.step = n) := by
  obtain ⟨stood, apart⟩ := List.mem_filter.mp (show o ∈ s.steps.occs.filter _ from h)
  exact ⟨stood, fun here => by simp [here] at apart⟩

theorem State.leaveOcc_spec (s : State) (k n : Nat) :
    (s.leaveOcc k n).trail = s.trail ∧ (s.leaveOcc k n).search.waitCommits = s.search.waitCommits ∧
      (∀ a, a ≠ clsFusionEvents → (s.leaveOcc k n).reg a = s.reg a) ∧
      (s.leaveOcc k n).steps.occs.map Occurrence.place = (s.steps.occs.map Occurrence.place).filter (fun x => x != (k, n)) ∧
      (∀ c ∈ (s.leaveOcc k n).checkpoints, ¬(c.cadence = k ∧ c.step = n)) ∧
      ((∀ o ∈ s.steps.occs, o.cadence = k → o.step = n) → (s.leaveOcc k n).mem = s.mem) := by
  obtain ⟨trail, commits, reg, points, mem⟩ := (s.withoutOcc k n).beginNext_spec k
  have leaves : s.leaveOcc k n = (s.withoutOcc k n).beginNext k := rfl
  rw [leaves]
  refine ⟨trail, commits, fun a ne => (reg a ne).trans (State.reg_congr _ _ rfl a), ?_, fun c hc here => ?_, fun only => ?_⟩
  · rw [(State.Proceeds.of_view (State.edgeView_beginNext _ k) (trail ▸ .refl _)).occs]
    show (s.steps.occs.filter _).map Occurrence.place = _
    rw [List.filter_map]
    rfl
  · rcases points c hc with old | ⟨o, ho, -, place⟩
    · obtain ⟨x, hx, place⟩ := List.mem_map.mp old
      have gone : c.cadence ≠ k ∨ c.step ≠ n := by
        have kept := (List.mem_filter.mp hx).2
        rw [← show x.cadence = c.cadence from congrArg Prod.fst place, ← show x.step = c.step from congrArg Prod.snd place]
        simpa [imp_iff_not_or] using kept
      exact gone.elim (absurd here.1) (absurd here.2)
    · obtain ⟨-, apart⟩ := State.mem_withoutOcc ho
      exact apart ⟨(congrArg Prod.fst place).trans here.1, (congrArg Prod.snd place).trans here.2⟩
  · refine mem fun o ho same => ?_
    obtain ⟨stood, apart⟩ := State.mem_withoutOcc ho
    exact apart ⟨same, only o stood same⟩

/-! The records of a commit (R77, R91). -/

theorem State.verdictOf_step (s : State) (n : Nat) : (s.verdictOf n).step = n := by
  unfold State.verdictOf
  split
  · rfl
  · cases h : s.steps.verdicts.find? (fun v => v.step == n) with
    | none => rfl
    | some v => simpa using List.find?_some h

/-- In a run that nothing holds, an output's record stands in the trail, or the trail holds from then on. -/
theorem State.emitOutput_writes {s : State} (o : OutRec) (run : s.inRun = true) (free : s.trail.hold = false) :
    (s.emitOutput o).trail.hold = true ∨
      ∃ x ∈ (s.emitOutput o).trail.records, s.trail.nextSeq ≤ x.seq ∧ x.draft.kind = kOutput ∧ x.draft.step = o.step := by
  unfold State.emitOutput
  extract_lets seq p src u w
  have written : w.trail.hold = true ∨
      ∃ x ∈ w.trail.records, s.trail.nextSeq ≤ x.seq ∧ x.draft.kind = kOutput ∧ x.draft.step = o.step := by
    refine (State.trailWrite_writes (s := u) run free (show kOutput ≠ kSeal by decide)).imp_right ?_
    rintro ⟨x, hx, seq, draft⟩
    exact ⟨x, hx, seq, by rw [draft], by rw [draft]⟩
  split
  · exact written
  · simpa only [State.event_frame, State.addReg64_frame] using written

/-- A record of no function is written whatever the application stops. -/
theorem State.emitFor_whole (s : State) (o : Occurrence) (v : StepVerdict) (rtype tenant stream conf : Nat) (payload : Bytes) :
    ∃ p : OutRec, p.step = v.step ∧ s.emitFor o v rtype 0xFF tenant stream conf payload = s.emitOutput p := by
  unfold State.emitFor
  rw [if_neg (by simp)]
  refine ⟨_, ?_, rfl⟩
  rfl

/-- The state once the counts of a summary's step are done with (R91). -/
def State.summaryDone (s : State) (o : Occurrence) : State :=
  { s with steps := { s.steps with
      stats := s.steps.stats.filter (fun y => y.step != o.step), openSums := s.steps.openSums.erase o.step } }

/-- A step summary is one such record, and the step's counts are done with. -/
theorem State.emitSummary_eq (s : State) (o : Occurrence) :
    ∃ p : OutRec, p.step = o.step ∧ s.emitSummary o = (s.emitOutput p).summaryDone o := by
  obtain ⟨p, step, eq⟩ := s.emitFor_whole o (s.verdictOf o.step) 8 0 ((s.steps.image.map (·.summaryStream)).getD 0) 0x8000
    (stepSummary (s.statsOf o.step) (s.verdictOf o.step).levels)
  refine ⟨p, step.trans (s.verdictOf_step o.step), ?_⟩
  rw [← eq]
  rfl

theorem State.emitSummary_writes {s : State} (o : Occurrence) (run : s.inRun = true) (free : s.trail.hold = false) :
    (s.emitSummary o).trail.hold = true ∨
      ∃ x ∈ (s.emitSummary o).trail.records, s.trail.nextSeq ≤ x.seq ∧ x.draft.kind = kOutput ∧ x.draft.step = o.step := by
  obtain ⟨p, step, eq⟩ := s.emitSummary_eq o
  have written := State.emitOutput_writes p run free
  rw [eq, ← step]
  generalize s.emitOutput p = u at *
  exact written

/-- What a commit has done before its occurrence leaves: its work has proceeded, and a `CADENCE_0` summary has been written where
the trail does not hold. -/
theorem State.commitOcc_spec (s : State) (o : Occurrence) (outs : List ModelOutput) (ops : List SearchOps) :
    ∃ u : State, s.Proceeds u ∧ s.commitOcc o outs ops = (u.leaveOcc o.cadence o.step).deliver ∧
      (o.cadence = 0 → s.inRun = true → u.trail.hold = false →
        ∃ x ∈ u.trail.records, s.trail.nextSeq ≤ x.seq ∧ x.draft.kind = kOutput ∧ x.draft.step = o.step) := by
  unfold State.commitOcc
  extract_lets k isMap isTrack mapMerge v s₁ s₂ s₃ s₄ s₅ s₆ s₇ s₈ s₉
  have shown : s.Proceeds s₅ := by
    have models : s.Proceeds s₂ := .after (.emitModels _ _ _ _) (.commitEngines s _ _ _ _)
    have tracks : s.Proceeds s₃ := .optional models (.after (.commitTracks _) (.emitTracks _ _ _))
    have maps : s.Proceeds s₄ := .optional tracks (.after (.advanceMap _ _) (.emitMaps _ _ _))
    exact .after (.commitVision _ _) (.after (.commitArrays _ _) (.after (.emitMatches _ _ _) maps))
  have drained : s₆.Proceeds s₉.drainSearch := by
    have tracks : s₆.Proceeds s₈ := .optional (.commitLanterns _ _ _) (.drainTrack _)
    exact .after (.drainSearch _) (.optional tracks (.drainMap _))
  have outputs : s₅.Proceeds (((s₅.emitGlints o).commitChannels o.step).commitTiers.commitPorts) :=
    .after (.commitPorts _) (.after (.commitTiers _) (.after (.commitChannels _ _) (.emitGlints _ _)))
  refine ⟨s₉.drainSearch, drained.after (.optional shown (.after (.emitSummary _ _) outputs)), rfl, fun zero run free => ?_⟩
  have summary : s₆ = (((s₅.emitGlints o).commitChannels o.step).commitTiers.commitPorts).emitSummary o := if_pos zero
  rw [summary] at drained
  have before := shown.trans outputs
  generalize ((s₅.emitGlints o).commitChannels o.step).commitTiers.commitPorts = u at *
  have afterFree := drained.trail.free free
  rcases State.emitSummary_writes o (State.inRun_of_run before.run |>.trans run)
    ((State.Proceeds.emitSummary u o).trail.free afterFree) with held | ⟨x, hx, seq, spec⟩
  · exact absurd held (by simp [afterFree])
  · exact ⟨x, drained.trail.records x hx, before.trail.seq.trans seq, spec⟩

/-! The commit and the abort (R77, R482). -/

theorem effOccurrenceCommit_commits {s : State} {k : Fin 16} {outs : List ModelOutput} {ops : List SearchOps} {o : Occurrence}
    (up : s.up = true) (run : s.inRun = true) (occ : s.occOf k.val = some o)
    (first : s.search.waitCommits.any (waitsFor k.val) = false) (free : s.mergeBlocks k.val = false)
    (held : s.trail.hold = false) (taken : (s.commitOcc o outs ops).trail.hold = false) :
    effOccurrenceCommit k outs ops s = s.commitOcc o outs ops := by
  simp [effOccurrenceCommit, occ, up, run, first, free, State.tryCommit, State.held, held, taken]

theorem effOccurrenceCommit_waits {s : State} {k : Fin 16} {outs : List ModelOutput} {ops : List SearchOps} {o : Occurrence}
    (up : s.up = true) (run : s.inRun = true) (occ : s.occOf k.val = some o)
    (first : s.search.waitCommits.any (waitsFor k.val) = false) (blocked : s.mergeBlocks k.val = true) :
    effOccurrenceCommit k outs ops s = { s with search := { s.search with
      waitCommits := s.search.waitCommits ++ [(.occurrenceCommit k outs ops, some s.now)] } } := by
  simp [effOccurrenceCommit, occ, up, run, first, blocked]

/-- The commit of a cadence's occurrence waits no longer. -/
def State.dropCommits (s : State) (k : Nat) : State :=
  { s with search := { s.search with waitCommits := s.search.waitCommits.filter (fun w => !waitsFor k w) } }

theorem State.dropCommits_frame (s : State) (k : Nat) :
    s.Proceeds (s.dropCommits k) ∧ (s.dropCommits k).answers = s.answers ∧ (s.dropCommits k).time = s.time ∧
      (s.dropCommits k).mem = s.mem ∧ ∀ a, (s.dropCommits k).reg a = s.reg a :=
  ⟨.of_eq rfl rfl, rfl, rfl, rfl, fun a => State.reg_congr _ _ rfl a⟩

/-- The state of an abandoned attempt whose skip is counted and whose commit no longer waits, before the block's answer. -/
def State.abandoned (s : State) (k n lag : Nat) : State := ((s.restore k n).noteSkip k n lag).dropCommits k

theorem effStallAbort_due {s : State} {k : Fin 16} {o : Occurrence} (up : s.up = true) (occ : s.occOf k.val = some o)
    (due : o.close + s.stallLimit ≤ s.now) :
    effStallAbort k s =
      let u := ((s.abandoned k.val o.step ((s.now - o.compiledEnd) / nsUnits)).answer blockMemory shed 0x0E).memEvent 8
      ((if k.val = 0 then u.emitSummary o else u).leaveOcc k.val o.step).deliver := by
  have late : ¬(!s.up || decide (s.now < o.close + s.stallLimit)) = true := by simp [up, Nat.not_lt.mpr due]
  rw [effStallAbort, occ]
  dsimp only
  rw [if_neg late]
  rfl

/-- A skip is recorded and counted (R70). -/
theorem State.noteSkip_spec (s : State) (k n lag : Nat) :
    s.Proceeds (s.noteSkip k n lag) ∧ (s.noteSkip k n lag).answers = s.answers ∧ (s.noteSkip k n lag).time = s.time ∧
      (s.noteSkip k n lag).mem = s.mem ∧
      (s.noteSkip k n lag).reg64 0x10290 = (s.reg64 0x10290 + 1) % 2 ^ 64 ∧
      ∀ a, a ≠ 0x10290 → a ≠ 0x10294 → (s.noteSkip k n lag).reg a = s.reg a := by
  unfold State.noteSkip
  extract_lets u v
  have recorded : s.Proceeds u := .record s _ _ _ _ _
  have ureg (a : Nat) : u.reg a = s.reg a := State.reg_congr _ _ (by simp [u]) a
  refine ⟨.after (.updStats _ _ _) (.after (.addReg64 _ _ _) recorded), by simp [u, v], by simp [u, v], by simp [u, v], ?_,
    fun a lo hi => ?_⟩
  · rw [← State.reg64_of_reg (ureg _) (ureg _), ← u.reg64_addReg64]
    exact State.reg64_of_reg (State.reg_updStats _ _ _ _) (State.reg_updStats _ _ _ _)
  · rw [State.reg_updStats, State.reg_addReg64_ne _ _ _ lo hi, ureg]

/-- What an abandoned attempt has settled before the block's answer (R70, R482). -/
theorem State.abandoned_spec (s : State) (k n lag : Nat) :
    s.Proceeds (s.abandoned k n lag) ∧ (s.abandoned k n lag).answersAlike s blockMemory ∧
      (s.abandoned k n lag).reg64 0x10290 = (s.reg64 0x10290 + 1) % 2 ^ 64 ∧
      (∀ w ∈ (s.abandoned k n lag).search.waitCommits, waitsFor k w = false) ∧
      (s.abandoned k n lag).mem = (s.restore k n).mem := by
  obtain ⟨-, -, regs, -, -, answers, time, -⟩ := s.restore_frame k n
  have restored := State.Proceeds.restore s k n
  unfold State.abandoned
  generalize s.restore k n = u at *
  obtain ⟨noted, answers₁, time₁, mem₁, count, reg⟩ := u.noteSkip_spec k n lag
  generalize u.noteSkip k n lag = v at *
  obtain ⟨dropped, answers₂, time₂, mem₂, reg₂⟩ := v.dropCommits_frame k
  have ureg (a : Nat) : u.reg a = s.reg a := State.reg_congr _ _ regs a
  have kept (a : Nat) (lo : a ≠ 0x10290) (hi : a ≠ 0x10294) : (v.dropCommits k).reg a = s.reg a :=
    (reg₂ a).trans ((reg a lo hi).trans (ureg a))
  refine ⟨(restored.trans noted).trans dropped, ⟨kept _ (by decide) (by decide), answers₂.trans (answers₁.trans answers),
    time₂.trans (time₁.trans time)⟩, ?_, fun w hw => ?_, mem₂.trans mem₁⟩
  · rw [State.reg64_of_reg (reg₂ _) (reg₂ _), count, State.reg64_of_reg (ureg _) (ureg _)]
  · simpa using (List.mem_filter.mp hw).2

/-- Outputs touch no registers but those of their ring. -/
theorem State.emitOutput_frame (s : State) (o : OutRec) :
    (s.emitOutput o).search = s.search ∧ (s.emitOutput o).mem = s.mem ∧
      ∀ a, a ≠ 0x100024 → a ≠ 0x100028 → a ≠ 0x100008 → (s.emitOutput o).reg a = s.reg a := by
  unfold State.emitOutput
  extract_lets seq p src u w
  have wreg (a : Nat) : w.reg a = s.reg a := State.reg_congr _ _ (by simp [w, u]) a
  split
  · exact ⟨by simp [w, u], by simp [w, u], fun a _ _ _ => (State.reg_congr _ _ rfl a).trans (wreg a)⟩
  · refine ⟨by simp [w, u], by simp [w, u], fun a lo hi ev => ?_⟩
    rw [State.reg_event_ne _ _ _ _ _ ev, State.reg_addReg64_ne _ _ _ lo hi, wreg]

theorem State.emitSummary_frame (s : State) (o : Occurrence) :
    (s.emitSummary o).search = s.search ∧ (s.emitSummary o).mem = s.mem ∧
      ∀ a, a ≠ 0x100024 → a ≠ 0x100028 → a ≠ 0x100008 → (s.emitSummary o).reg a = s.reg a := by
  obtain ⟨p, -, eq⟩ := s.emitSummary_eq o
  obtain ⟨search, mem, reg⟩ := s.emitOutput_frame p
  rw [eq]
  generalize s.emitOutput p = u at *
  exact ⟨search, mem, fun a lo hi ev => (State.reg_congr _ _ rfl a).trans (reg a lo hi ev)⟩

theorem State.reg_withOut (s : State) (x : Outputs) (a : Nat) : ({ s with out := x } : State).reg a = s.reg a :=
  State.reg_congr _ _ rfl a

theorem State.reg_deliverFrom (fuel : Nat) (s : State) {a : Nat} (ne : a ≠ 0x10001C) :
    (State.deliverFrom fuel s).1.reg a = s.reg a := by
  induction fuel generalizing s with
  | zero => rfl
  | succ n ih =>
    unfold State.deliverFrom
    split
    · rfl
    · extract_lets w r u src v x
      have written : u.reg a = s.reg a := by
        refine State.reg_congr _ _ ?_ a
        unfold u State.ringWrite
        dsimp only
        split <;> simp
      split
      · exact (ih x).trans ((State.reg_setReg_ne _ _ _ _ ne).trans ((State.reg_withOut _ _ a).trans written))
      · rfl

theorem State.reg_deliver (s : State) {a : Nat} (ne : a ≠ 0x10001C) : s.deliver.reg a = s.reg a := by
  unfold State.deliver
  extract_lets r
  have drained : r.1.reg a = s.reg a := s.reg_deliverFrom _ ne
  split
  · exact (State.reg_congr _ _ (by simp) a).trans drained
  · exact drained

theorem State.deliver_keeps (s : State) : s.deliver.steps = s.steps ∧ s.deliver.trail = s.trail := by simp

/-- What an abort settles (R482). -/
theorem effStallAbort_spec {s : State} {k : Fin 16} {o : Occurrence} (up : s.up = true) (occ : s.occOf k.val = some o)
    (due : o.close + s.stallLimit ≤ s.now) :
    let t := effStallAbort k s
    t.steps.occs.map Occurrence.place = (s.steps.occs.map Occurrence.place).filter (fun x => x != (k.val, o.step)) ∧
      (∀ x ∈ t.checkpoints, ¬(x.cadence = k.val ∧ x.step = o.step)) ∧ t.reports s blockMemory shed 0x0E ∧
      (∀ w ∈ t.search.waitCommits, waitsFor k.val w = false) ∧ t.reg64 0x10290 = (s.reg64 0x10290 + 1) % 2 ^ 64 ∧
      ((∀ x ∈ s.steps.occs, x.cadence = k.val → x.step = o.step) → t.mem = (s.restore k.val o.step).mem) := by
  dsimp only
  rw [effStallAbort_due up occ due]
  generalize (s.now - o.compiledEnd) / nsUnits = lag
  obtain ⟨proceeds, alike, count, commits, mem⟩ := s.abandoned_spec k.val o.step lag
  generalize s.abandoned k.val o.step lag = u at *
  dsimp only
  have answered : u.Proceeds ((u.answer blockMemory shed 0x0E).memEvent 8) := .after (.event _ _ _ _ _) (.answer u _ _ _)
  obtain ⟨search₁, mem₁⟩ : ((u.answer blockMemory shed 0x0E).memEvent 8).search = u.search ∧
      ((u.answer blockMemory shed 0x0E).memEvent 8).mem = u.mem := by simp [State.memEvent]
  have reg₁ (a : Nat) (ne : a ≠ 0x60000C) : ((u.answer blockMemory shed 0x0E).memEvent 8).reg a =
      (u.answer blockMemory shed 0x0E).reg a := State.reg_memEvent_ne _ _ ne
  generalize (u.answer blockMemory shed 0x0E).memEvent 8 = v at *
  obtain ⟨summary, search₂, mem₂, reg₂⟩ : v.Proceeds (if k.val = 0 then v.emitSummary o else v) ∧
      (if k.val = 0 then v.emitSummary o else v).search = v.search ∧
      (if k.val = 0 then v.emitSummary o else v).mem = v.mem ∧
      ∀ a, a ≠ 0x100024 → a ≠ 0x100028 → a ≠ 0x100008 → (if k.val = 0 then v.emitSummary o else v).reg a = v.reg a := by
    split
    · exact ⟨.emitSummary v o, v.emitSummary_frame o⟩
    · exact ⟨.refl v, rfl, rfl, fun _ _ _ _ => rfl⟩
  generalize (if k.val = 0 then v.emitSummary o else v) = w at *
  obtain ⟨-, commits₃, reg₃, occs₃, points₃, mem₃⟩ := w.leaveOcc_spec k.val o.step
  have occs := (proceeds.trans (answered.trans summary)).occs
  generalize w.leaveOcc k.val o.step = x at *
  have kept (a : Nat) (apart : ∀ b ∈ [0x10001C, clsFusionEvents, 0x100024, 0x100028, 0x100008, 0x60000C], a ≠ b) :
      x.deliver.reg a = (u.answer blockMemory shed 0x0E).reg a := by
    simp only [List.forall_mem_cons] at apart
    obtain ⟨ring, fusion, lost, lostHi, events, memory, -⟩ := apart
    exact (x.reg_deliver ring).trans ((reg₃ a fusion).trans ((reg₂ a lost lostHi events).trans (reg₁ a memory)))
  refine ⟨?_, ?_, ?_, ?_, ?_, fun only => ?_⟩
  · rw [x.deliver_keeps.1, occs₃, occs]
  · simpa using points₃
  · have fld (f : Fld) (off : f.off = blockMemory) : x.deliver.fld f = (u.answer blockMemory shed 0x0E).fld f :=
      State.fld_of_reg (kept _ (by rw [off]; decide))
    rw [State.reports, fld _ rfl, fld _ rfl, u.answer_fields, alike.keptAnswer]
  · have same : x.deliver.search.waitCommits = u.search.waitCommits := by simp [commits₃, search₂, search₁]
    rwa [same]
  · have other (a : Nat) (ne : a ≠ blockMemory) : (u.answer blockMemory shed 0x0E).reg a = u.reg a :=
      u.reg_answerAt_ne _ _ _ _ _ ne
    rw [← count]
    exact State.reg64_of_reg ((kept _ (by decide)).trans (other _ (by decide))) ((kept _ (by decide)).trans (other _ (by decide)))
  · rw [← mem, ← mem₁, ← mem₂, ← mem₃ fun y hy cadence => ?_]
    · simp
    · obtain ⟨z, hz, place⟩ := List.mem_map.mp (occs ▸ List.mem_map_of_mem (f := Occurrence.place) hy)
      have step := only z hz ((congrArg Prod.fst place).trans cadence)
      exact (congrArg Prod.snd place).symm.trans step

end Sys2Proof.Machine

open Sys2Proof Sys2Proof.Machine

/-- Settles O34: a commit and an abort proceed until their occurrence leaves, which alone changes the occurrences that run. -/
theorem occurrencesCommitOrAbort : Obligations.OccurrencesCommitOrAbort := by
  refine ⟨fun k outs ops o s up run occ first => ⟨fun free held taken => ?_, fun blocked =>
    ⟨_, rfl, effOccurrenceCommit_waits up run occ first blocked⟩⟩, fun k o s up occ due => ⟨_, rfl, effStallAbort_spec up occ due⟩,
    fun k o s occ early => ?_⟩
  · have cadence : o.cadence = k.val := by
      have found := List.find?_some occ
      simp only [Bool.and_eq_true, beq_iff_eq] at found
      exact found.1
    obtain ⟨u, proceeds, eq, summary⟩ := s.commitOcc_spec o outs ops
    obtain ⟨trail, -, -, occs, points, -⟩ := u.leaveOcc_spec o.cadence o.step
    have same : (s.commitOcc o outs ops).trail = u.trail := by rw [eq, (State.deliver_keeps _).2, trail]
    refine ⟨_, congrArg Host.Outcome.next (effOccurrenceCommit_commits up run occ first free held taken), ?_, ?_, fun zero _ => ?_⟩
    · rw [eq, (State.deliver_keeps _).1, ← cadence]
      exact occs.trans (by rw [proceeds.occs]; rfl)
    · rw [eq, ← cadence]
      simpa using points
    · rw [same]
      exact summary (cadence.trans zero) run (same ▸ taken)
  · have waits : (!s.up || decide (s.now < o.close + s.stallLimit)) = true := by simp [early]
    refine congrArg Host.Outcome.next ?_
    rw [effStallAbort, occ]
    exact if_pos waits

end

section
/-! SUPPORT. The arrays' commands that store: how a ready descriptor runs, what a store leaves, and the elements that stand in the
bytes stored (R99, R131, R150). -/

namespace Sys2Proof.Machine

/-! Work that stores. -/

/-- Tiles, checkpoints, registers, answers, counters, lanterns and notes of tensors may differ; nothing else does. -/
def State.Marks (s t : State) : Prop :=
  ∃ tiers points regs answers counters sheets anchors tensors,
    t = { s with
      tiers := tiers, checkpoints := points, regs := regs, answers := answers, counters := counters
      sheets := sheets, anchors := anchors, tensors := tensors }

namespace State.Marks

theorem refl (s : State) : s.Marks s := ⟨_, _, _, _, _, _, _, _, rfl⟩

theorem trans {s t u : State} (h : s.Marks t) (g : t.Marks u) : s.Marks u := by
  obtain ⟨_, _, _, _, _, _, _, _, rfl⟩ := h
  obtain ⟨_, _, _, _, _, _, _, _, rfl⟩ := g
  exact ⟨_, _, _, _, _, _, _, _, rfl⟩

theorem after {s t u : State} (g : t.Marks u) (h : s.Marks t) : s.Marks u := h.trans g

theorem foldl {α : Type} {f : State → α → State} (one : ∀ (s : State) (x : α), s.Marks (f s x)) (l : List α) (s : State) :
    s.Marks (l.foldl f s) := by
  induction l generalizing s with
  | nil => exact refl s
  | cons x l ih => exact (one s x).trans (ih (f s x))

/-- Marks beside a change of memory. -/
theorem withMem {s t : State} (h : s.Marks t) (m : Memory) : ({ s with mem := m } : State).Marks { t with mem := m } := by
  obtain ⟨_, _, _, _, _, _, _, _, rfl⟩ := h
  exact ⟨_, _, _, _, _, _, _, _, rfl⟩

/-- Marks beside a change of the arrays. -/
theorem withArrays {s t : State} (h : s.Marks t) (x : List ArrayUnit) :
    ({ s with arrays := x } : State).Marks { t with arrays := x } := by
  obtain ⟨_, _, _, _, _, _, _, _, rfl⟩ := h
  exact ⟨_, _, _, _, _, _, _, _, rfl⟩

theorem keeps {s t : State} (h : s.Marks t) : t.mem = s.mem ∧ t.arrays = s.arrays ∧ t.steps = s.steps := by
  obtain ⟨_, _, _, _, _, _, _, _, rfl⟩ := h
  exact ⟨rfl, rfl, rfl⟩

/-! Registers, counters and notes. -/

theorem setReg (s : State) (a v : Nat) : s.Marks (s.setReg a v) := ⟨_, _, _, _, _, _, _, _, rfl⟩
theorem setReg64 (s : State) (a v : Nat) : s.Marks (s.setReg64 a v) := ⟨_, _, _, _, _, _, _, _, rfl⟩
theorem satReg (s : State) (a n : Nat) : s.Marks (s.satReg a n) := ⟨_, _, _, _, _, _, _, _, rfl⟩
theorem answer (s : State) (b o c : Nat) : s.Marks (s.answer b o c) := ⟨_, _, _, _, _, _, _, _, rfl⟩

theorem count (s : State) (die ev inst n : Nat) : s.Marks (s.count die ev inst n) := by
  unfold State.count
  dsimp only
  split
  · exact refl s
  · exact ⟨_, _, _, _, _, _, _, _, rfl⟩

theorem noteTensor (s : State) (t : TensorNote) : s.Marks (s.noteTensor t) := ⟨_, _, _, _, _, _, _, _, rfl⟩

theorem carryNotes (s : State) (src n dst : Nat) : s.Marks (s.carryNotes src n dst) := ⟨_, _, _, _, _, _, _, _, rfl⟩

theorem recordAnchors (s : State) (f addr bytes stride : Nat) (rows : List (List Nat)) :
    s.Marks (s.recordAnchors f addr bytes stride rows) := by
  unfold State.recordAnchors
  split <;> exact ⟨_, _, _, _, _, _, _, _, rfl⟩

/-! Lanterns. -/

theorem setLantern (s : State) (l : LanternState) : s.Marks (s.setLantern l) := ⟨_, _, _, _, _, _, _, _, rfl⟩
theorem touchLantern (s : State) (k i : Nat) : s.Marks (s.touchLantern k i) := ⟨_, _, _, _, _, _, _, _, rfl⟩
theorem dropWait (s : State) (u i : Nat) : s.Marks (s.dropWait u i) := ⟨_, _, _, _, _, _, _, _, rfl⟩
theorem advanceLantern (s : State) (i : Nat) : s.Marks (s.advanceLantern i) := setLantern s _

theorem fillLantern (s : State) (u i : Nat) : s.Marks (s.fillLantern u i) := by
  unfold State.fillLantern
  dsimp only
  split
  · split
    · exact after (touchLantern _ _ _) (setLantern s _)
    · exact refl s
  · exact refl s

theorem raiseLantern (s : State) (u i t n : Nat) : s.Marks (s.raiseLantern u i t n) := by
  unfold State.raiseLantern
  dsimp only
  split
  · split
    · exact after (count _ _ _ _ _) (after (touchLantern _ _ _) (setLantern s _))
    · exact refl s
  · exact refl s

theorem releaseLantern (s : State) (k u i : Nat) : s.Marks (s.releaseLantern k u i) := by
  unfold State.releaseLantern
  dsimp only
  split
  · split
    · have released (l : LanternState) : s.Marks ((s.setLantern l).touchLantern k i) := after (touchLantern _ _ _) (setLantern s _)
      split
      · exact after (advanceLantern _ _) (released _)
      · exact released _
    · exact refl s
  · exact refl s

/-! Stores (R76, R147, R150). -/

theorem logUndo (s : State) (k a n : Nat) : s.Marks (s.logUndo k a n) := ⟨_, _, _, _, _, _, _, _, rfl⟩
theorem forgetTensors (s : State) (a n : Nat) : s.Marks (s.forgetTensors a n) := ⟨_, _, _, _, _, _, _, _, rfl⟩

theorem dirtyTiles (s : State) (a n : Nat) : s.Marks (s.dirtyTiles a n) := by
  unfold State.dirtyTiles
  split
  · exact refl s
  · exact foldl (fun s i => setLantern s _) _ s

theorem writeBeats (s : State) (a n : Nat) : s.Marks (s.writeBeats a n) := by
  unfold State.writeBeats
  split
  · exact refl s
  · exact foldl (fun s i => count s _ _ _ _) _ s

theorem tagRange (s : State) (a n t m u : Nat) : s.Marks (s.tagRange a n t m u) := by
  unfold State.tagRange
  split
  · exact refl s
  · exact ⟨_, _, _, _, _, _, _, _, rfl⟩

/-- A store is its bytes in memory, and marks. -/
theorem cstore (s : State) (k u a : Nat) (bs : Bytes) :
    ({ s with mem := Memory.setBytes s.mem a bs } : State).Marks (s.cstore k u a bs) := by
  have stored (s : State) : ({ s with mem := Memory.setBytes s.mem a bs } : State).Marks (s.store a bs) := by
    obtain ⟨x, hx⟩ := s.store_eq a bs
    exact ⟨_, _, _, _, _, _, _, _, hx⟩
  exact after (forgetTensors _ _ _) (after (tagRange _ _ _ _ _ _) (after (writeBeats _ _ _) (after (dirtyTiles _ _ _)
    (after (stored _) ((logUndo s k a bs.length).withMem _)))))

theorem arrayStore (s : State) (d : ArrayDesc) (a : Nat) (bs : Bytes) :
    ({ s with mem := Memory.setBytes s.mem a bs } : State).Marks (s.arrayStore d a bs) := by
  have filled : s.Marks (s.fillRange d.unit.toNat a bs.length) := foldl (fun s _ => fillLantern s _ _) _ s
  have stored := cstore (s.fillRange d.unit.toNat a bs.length) d.ctx.cadence d.unit.toNat a bs
  rw [filled.keeps.1] at stored
  exact after stored (filled.withMem _)

theorem cleanTiles (s : State) (a n other : Nat) : s.Marks (s.cleanTiles a n other) := by
  unfold State.cleanTiles
  split
  · exact refl s
  · refine foldl (fun s i => ?_) _ s
    split
    · exact setLantern s _
    · exact refl s

theorem completeDesc (s : State) (k unit wait raise : Nat) : s.Marks (s.completeDesc k unit wait raise) := by
  unfold State.completeDesc
  extract_lets n u
  have raised : s.Marks u := by
    unfold u
    split
    · exact refl s
    · exact raiseLantern s _ _ _ _
  split
  · exact raised
  · exact after (releaseLantern _ _ _ _) raised

end State.Marks

/-- Memory is `m`; beside it and the arrays only marks differ. -/
def State.Wrote (s t : State) (m : Memory) : Prop := ∃ arrays, ({ s with mem := m, arrays := arrays } : State).Marks t

namespace State.Wrote

theorem of_marks {s t : State} {m : Memory} (h : ({ s with mem := m } : State).Marks t) : s.Wrote t m := ⟨s.arrays, h⟩

theorem trans {s t u : State} {m : Memory} (h : s.Wrote t m) (g : t.Marks u) : s.Wrote u m := h.imp fun _ h => h.trans g

theorem after {s t u : State} {m : Memory} (g : s.Marks t) (h : t.Wrote u m) : s.Wrote u m :=
  let ⟨x, h⟩ := h
  ⟨x, ((g.withMem m).withArrays x).trans h⟩

theorem keeps {s t : State} {m : Memory} (h : s.Wrote t m) : t.mem = m ∧ t.steps = s.steps :=
  let ⟨_, h⟩ := h
  ⟨h.keeps.1, h.keeps.2.2⟩

theorem sameButStores {s t : State} {m : Memory} (h : s.Wrote t m) : State.sameButStores { t with arrays := s.arrays } s := by
  obtain ⟨_, _, _, _, _, _, _, _, _, rfl⟩ := h
  rfl

theorem countArray {s t : State} {m : Memory} (h : ({ s with mem := m } : State).Marks t) (a k sat nf ops : Nat) :
    s.Wrote (t.countArray a k sat nf ops) m :=
  ⟨_, (h.withArrays _).trans (.count _ _ _ _ _)⟩

/-- A result tensor written is the bytes of its elements in memory (R110, R117). -/
theorem writeTensor (s : State) (a : Nat) (d : ArrayDesc) (out : List (List DOut)) :
    s.Wrote (s.writeTensor a d out)
      (Memory.setBytes s.mem d.dst.toNat (elemBytes d.fmtOut.toNat (out.map (fun r => r.map (·.v))).flatten)) :=
  countArray (.after (.noteTensor _ _) (.after (.recordAnchors _ _ _ _ _ _) (.arrayStore s d _ _))) _ _ _ _ _

end State.Wrote

/-! A ready descriptor runs (R99, R134). -/

/-- The state in which a ready descriptor works: its address shown, its wait over, its issue answered and counted. -/
def State.issued (s : State) (a : Nat) (j : ArrayJob) : State :=
  (((s.setReg64 (arrayReg a 0x20) j.desc.ctx.addr).await j.desc.ctx.cadence j.desc.unit.toNat j.desc.wait.toNat).1.answer
    (blockArray a) served 0).count (1 + a / 2) 0x11 (a % 2) 1

/-- What a ready descriptor has met (R99, R133, R134, R153, R162, R481). -/
theorem State.arrayReady_parts {s : State} {a : Fin 4} {j : ArrayJob} (h : s.arrayReady a j = true) :
    s.mayIssue j.desc.ctx.cadence = true ∧ s.inService (arrayRegion a) = true ∧ (s.array a).queue = [] ∧
      s.arrayOk a j.op j.desc = true ∧ s.memoryWaits (arrayRegion a) (arrayReads j ++ arrayWrites j) = false ∧
      s.waitOver j.desc.unit j.desc.wait = true ∧
      s.orderBroken j.desc.unit.toNat [j.desc.wait.toNat] (arrayReads j) (arrayWrites j) = none := by
  simpa [State.arrayReady, State.arrayTurn, State.arrayFit, and_assoc] using h

/-- A wait that is over, or none, is granted (R151). -/
theorem State.await_over {s : State} {unit wait : BitVec 16} (h : s.waitOver unit wait = true) (k : Nat) :
    (s.await k unit.toNat wait.toNat).2 = true ∧ s.Marks (s.await k unit.toNat wait.toNat).1 := by
  unfold State.await
  split
  · exact ⟨rfl, .refl s⟩
  · next named =>
    have granted : s.waitGranted unit.toNat wait.toNat = true := by simpa [State.waitOver, named] using h
    rw [if_pos granted]
    exact ⟨rfl, .dropWait s _ _⟩

/-- Showing an address changes nothing that an issue asks for. -/
theorem State.shown_parts {s : State} {a : Fin 4} {j : ArrayJob} (h : s.arrayReady a j = true) (r v : Nat) :
    (s.setReg64 r v).waitOver j.desc.unit j.desc.wait = true ∧
      (s.setReg64 r v).memoryWaits (arrayRegion a) (arrayReads j ++ arrayWrites j) = false ∧
      (s.setReg64 r v).orderBroken j.desc.unit.toNat [j.desc.wait.toNat] (arrayReads j) (arrayWrites j) = none := by
  obtain ⟨-, -, -, -, memory, waited, order⟩ := State.arrayReady_parts h
  obtain ⟨x, hx⟩ : ∃ x, s.setReg64 r v = { s with regs := x } := ⟨_, rfl⟩
  rw [hx]
  exact ⟨waited, memory, order⟩

theorem State.issued_marks {s : State} {a : Fin 4} {j : ArrayJob} (h : s.arrayReady a j = true) : s.Marks (s.issued a j) := by
  obtain ⟨waited, -, -⟩ := State.shown_parts h (arrayReg a 0x20) j.desc.ctx.addr
  exact .after (.count _ _ _ _ _) (.after (.answer _ _ _ _) (.after (State.await_over waited _).2 (.setReg64 s _ _)))

/-- A ready descriptor is issued, does its work and completes. -/
theorem State.arrayCommand_ready {s : State} {a : Fin 4} {j : ArrayJob} (h : s.arrayReady a j = true) :
    s.arrayCommand a j = (((s.issued a j).arrayWork a j).completeDesc j.desc.ctx.cadence j.desc.unit.toNat j.desc.wait.toNat
      j.desc.raise.toNat).satReg (arrayReg a 0x28) 1 := by
  obtain ⟨turn, service, queue, ok, -, -, -⟩ := State.arrayReady_parts h
  obtain ⟨waited, free, order⟩ := State.shown_parts h (arrayReg a 0x20) j.desc.ctx.addr
  have granted := (State.await_over waited j.desc.ctx.cadence).1
  have issue : s.arrayIssue a j = (((s.setReg64 (arrayReg a 0x20) j.desc.ctx.addr).await j.desc.ctx.cadence j.desc.unit.toNat
      j.desc.wait.toNat).1.finishArray a j, true) := by
    simp [State.arrayIssue, ok, service, free, granted, order]
  rw [State.arrayCommand, if_neg (by simp [turn]), if_neg (by simp [queue]), issue]
  dsimp only
  rw [if_pos rfl, State.finishArray, State.issued]

/-- A command whose work writes memory and marks does no more. -/
theorem State.arrayCommand_wrote {s : State} {a : Fin 4} {j : ArrayJob} {m : Memory} (h : s.arrayReady a j = true)
    (work : (s.issued a j).Wrote ((s.issued a j).arrayWork a j) m) : s.Wrote (s.arrayCommand a j) m := by
  rw [State.arrayCommand_ready h]
  exact .after (State.issued_marks h) ((work.trans (.completeDesc _ _ _ _ _)).trans (.satReg _ _ _))

end Sys2Proof.Machine
end

section
/-! SUPPORT. Elements as bytes (R131, R132): widths, lengths and places of elements packed row by row. -/

namespace Sys2Proof.Machine

/-! Widths and lengths. -/

theorem fmtBits_cases (f : Nat) : fmtBits f = 4 ∨ fmtBits f = 8 ∨ fmtBits f = 16 ∨ fmtBits f = 32 := by
  unfold fmtBits
  split <;> simp

theorem elemSpan_mono (f : Nat) {a b : Nat} (h : a ≤ b) : elemSpan f a ≤ elemSpan f b := by
  unfold elemSpan ceilDiv
  have := Nat.mul_le_mul_right (fmtBits f) h
  omega

/-- Elements of whole bytes are laid down one after the other. -/
theorem elemBytes_whole {f k : Nat} (width : fmtBits f = 8 * k) (xs : List Nat) : elemBytes f xs = xs.flatMap (leBytes k) := by
  induction xs with
  | nil => rfl
  | cons x xs ih =>
    rw [List.flatMap_cons, ← ih, elemBytes.eq_def f (x :: xs)]
    rcases fmtBits_cases f with h | h | h | h
    · omega
    · obtain rfl : k = 1 := by omega
      simp only [h]
    · obtain rfl : k = 2 := by omega
      simp only [h]
    · obtain rfl : k = 4 := by omega
      simp only [h]

theorem length_flatMap_of {α β : Type} {k : Nat} {f : α → List β} (width : ∀ x, (f x).length = k) (xs : List α) :
    (xs.flatMap f).length = k * xs.length := by
  induction xs with
  | nil => rfl
  | cons x xs ih => rw [List.flatMap_cons, List.length_append, width, ih, List.length_cons, Nat.mul_succ, Nat.add_comm]

theorem length_flatMap_leBytes (k : Nat) (xs : List Nat) : (xs.flatMap (leBytes k)).length = k * xs.length :=
  length_flatMap_of (leBytes_length k) xs

theorem length_elemBytes_nibbles {f : Nat} (width : fmtBits f = 4) : ∀ xs, (elemBytes f xs).length = (xs.length + 1) / 2
  | [] => rfl
  | [x] => by simp [elemBytes, width]
  | x :: y :: ys => by
    have ih := length_elemBytes_nibbles width ys
    simp only [elemBytes, width, List.length_cons, ih]
    omega

/-- The bytes of elements span what their number takes. -/
theorem length_elemBytes (f : Nat) (xs : List Nat) : (elemBytes f xs).length = elemSpan f xs.length := by
  have whole (k : Nat) (width : fmtBits f = 8 * k) (pos : 0 < k) : (elemBytes f xs).length = elemSpan f xs.length := by
    rw [elemBytes_whole width, length_flatMap_leBytes, elemSpan, ceilDiv, width]
    have : xs.length * (8 * k) = 8 * (k * xs.length) := by ring
    omega
  rcases fmtBits_cases f with h | h | h | h
  · rw [length_elemBytes_nibbles h, elemSpan, ceilDiv, h]
    omega
  · exact whole 1 h Nat.one_pos
  · exact whole 2 h Nat.two_pos
  · exact whole 4 h (by decide)

/-- Bytes hold as many elements as their number spans. -/
theorem length_elemsOf (f : Nat) : ∀ bs : Bytes, 8 * bs.length ≤ fmtBits f * (elemsOf f bs).length
  | [] => by simp
  | b :: bs => by
    rw [elemsOf.eq_def]
    rcases fmtBits_cases f with h | h | h | h
    · have ih := length_elemsOf f bs
      simp only [h, List.length_cons] at ih ⊢
      omega
    · have ih := length_elemsOf f bs
      simp only [h, List.length_cons] at ih ⊢
      omega
    · simp only [h]
      split
      · next c cs =>
        have ih := length_elemsOf f cs
        simp only [h, List.length_cons] at ih ⊢
        omega
      · simp
    · simp only [h]
      split
      · next c e g cs =>
        have ih := length_elemsOf f cs
        simp only [h, List.length_cons] at ih ⊢
        omega
      · next short =>
        have few : bs.length ≤ 2 := by
          rcases bs with _ | ⟨c, _ | ⟨e, _ | ⟨g, cs⟩⟩⟩
          · simp
          · simp
          · simp
          · exact absurd rfl (short c e g cs)
        simp only [List.length_cons, List.length_nil]
        omega

theorem le_length_elemsOf {f n : Nat} {bs : Bytes} (h : bs.length = elemSpan f n) : n ≤ (elemsOf f bs).length := by
  have long := length_elemsOf f bs
  rw [h, elemSpan, ceilDiv] at long
  rcases fmtBits_cases f with w | w | w | w <;> rw [w] at long <;> omega

/-- A byte-wide format reads each byte as an element. -/
theorem elemsOf_bytes {f : Nat} (width : fmtBits f = 8) (bs : Bytes) : elemsOf f bs = bs.map (·.toNat) := by
  induction bs with
  | nil => rfl
  | cons b bs ih => rw [elemsOf.eq_def, List.map_cons, ← ih]; simp only [width]

/-! Rows. -/

@[simp] theorem length_rowsOf (c r : Nat) (xs : List Nat) : (rowsOf c r xs).length = r := by
  induction r generalizing xs with
  | zero => rfl
  | succ r ih => rw [rowsOf, List.length_cons, ih]

theorem length_of_mem_rowsOf {c r : Nat} {xs row : List Nat} (enough : r * c ≤ xs.length) (h : row ∈ rowsOf c r xs) :
    row.length = c := by
  induction r generalizing xs with
  | zero => simp [rowsOf] at h
  | succ r ih =>
    rw [Nat.succ_mul] at enough
    rcases List.mem_cons.mp h with rfl | later
    · rw [List.length_take]
      omega
    · exact ih (by rw [List.length_drop]; omega) later

theorem State.length_load (s : State) (a n : Nat) : (s.load a n).length = n := by simp [State.load, Memory.getBytes]

theorem State.length_readMat (s : State) (a f r c : Nat) : (s.readMat a f r c).length = r := length_rowsOf _ _ _

theorem State.length_of_mem_readMat {s : State} {a f r c : Nat} {row : List Nat} (h : row ∈ s.readMat a f r c) : row.length = c :=
  length_of_mem_rowsOf (le_length_elemsOf (s.length_load _ _)) h

/-- Rows of one width laid end to end: element `j` of row `i` stands at `i * w + j`. -/
theorem flatten_getElem? {α : Type} {w : Nat} {rows : List (List α)} (width : ∀ r ∈ rows, r.length = w) {i j : Nat} (hj : j < w)
    (hi : i < rows.length) : rows.flatten[i * w + j]? = rows[i][j]? := by
  induction rows generalizing i with
  | nil => simp at hi
  | cons r rows ih =>
    have head : r.length = w := width r List.mem_cons_self
    rw [List.flatten_cons]
    cases i with
    | zero => rw [Nat.zero_mul, Nat.zero_add, List.getElem?_append_left (head.symm ▸ hj), List.getElem_cons_zero]
    | succ i =>
      have past : r.length ≤ (i + 1) * w + j := by rw [head, Nat.succ_mul]; omega
      have rest : (i + 1) * w + j - r.length = i * w + j := by rw [head, Nat.succ_mul]; omega
      rw [List.getElem?_append_right past, rest, List.getElem_cons_succ]
      exact ih (fun x hx => width x (List.mem_cons_of_mem _ hx)) (Nat.lt_of_succ_lt_succ hi)

theorem length_flatten_le {α : Type} {w : Nat} {rows : List (List α)} (width : ∀ r ∈ rows, r.length ≤ w) :
    rows.flatten.length ≤ rows.length * w := by
  rw [List.length_flatten, ← List.length_map (f := List.length), ← smul_eq_mul]
  exact List.sum_le_card_nsmul _ _ (by simpa using width)

/-! Bytes read back. -/

/-- A part of bytes written is read back. -/
theorem Memory.getBytes_setBytes_part (m : Memory) (a o n : Nat) (bs : Bytes) (h : o + n ≤ bs.length) :
    Memory.getBytes (Memory.setBytes m a bs) (a + o) n = (bs.drop o).take n := by
  refine List.ext_getElem (by simp [Memory.getBytes]; omega) fun i hi _ => ?_
  have small : i < n := by simpa [Memory.getBytes] using hi
  simp only [Memory.getBytes, List.getElem_map, List.getElem_range, List.getElem_take, List.getElem_drop]
  rw [Memory.get_setBytes, dif_pos (by omega)]
  congr 1
  omega

/-- An element of whole bytes stands in its place. -/
theorem flatMap_leBytes_part (k p : Nat) (xs : List Nat) (h : p < xs.length) :
    ((xs.flatMap (leBytes k)).drop (k * p)).take k = leBytes k xs[p] := by
  induction xs generalizing p with
  | nil => simp at h
  | cons x xs ih =>
    rw [List.flatMap_cons]
    cases p with
    | zero => simp
    | succ p =>
      have past : k * (p + 1) = (leBytes k x).length + k * p := by rw [leBytes_length, Nat.mul_succ, Nat.add_comm]
      rw [past, ← List.drop_drop, List.drop_left, List.getElem_cons_succ]
      exact ih p (Nat.lt_of_succ_lt_succ h)

/-- An element of whole bytes is read back. -/
theorem Memory.getBytes_element (m : Memory) (a k p : Nat) (xs : List Nat) (h : p < xs.length) :
    Memory.getBytes (Memory.setBytes m a (xs.flatMap (leBytes k))) (a + k * p) k = leBytes k xs[p] := by
  have fits : k * p + k ≤ (xs.flatMap (leBytes k)).length := by
    rw [length_flatMap_leBytes, ← Nat.mul_succ]
    exact Nat.mul_le_mul_left k h
  rw [Memory.getBytes_setBytes_part _ _ _ _ _ fits, flatMap_leBytes_part _ _ _ h]

end Sys2Proof.Machine
end

section
/-! SUPPORT. VEC, REDUCE, STAGE and GEN: what each stores and where, and the statement about them (R74, R118-R123). -/

namespace Sys2Proof.Machine

theorem State.Marks.load {s t : State} (h : s.Marks t) (a n : Nat) : t.load a n = s.load a n := by
  rw [State.load, State.load, h.keeps.1]

theorem State.Marks.readFp32 {s t : State} (h : s.Marks t) (d : ArrayDesc) (a : BitVec 64) : t.readFp32 d a = s.readFp32 d a := by
  rw [State.readFp32, State.readFp32, State.readMat, State.readMat, h.load]

theorem State.length_readFp32 (s : State) (d : ArrayDesc) (a : BitVec 64) : (s.readFp32 d a).length = d.m.toNat := by
  rw [State.readFp32, List.length_map, State.length_readMat]

theorem State.length_of_mem_readFp32 {s : State} {d : ArrayDesc} {a : BitVec 64} {r : List Nat} (h : r ∈ s.readFp32 d a) :
    r.length = d.n.toNat := by
  obtain ⟨row, mem, rfl⟩ := List.mem_map.mp h
  rw [List.length_map, State.length_of_mem_readMat mem]

/-! Bytes written, and the others. -/

theorem State.Wrote.outside {s t : State} {a : Nat} {bs : Bytes} (h : s.Wrote t (Memory.setBytes s.mem a bs)) {x : Nat}
    (out : x < a ∨ a + bs.length ≤ x) : t.byte x = s.byte x := by
  rw [State.byte, h.keeps.1, Memory.get_setBytes_outside _ _ _ _ out, State.byte]

theorem State.Wrote.inside {s t : State} {a : Nat} {bs : Bytes} (h : s.Wrote t (Memory.setBytes s.mem a bs)) {i : Nat}
    (within : i < bs.length) : t.byte (a + i) = bs[i] := by
  rw [State.byte, h.keeps.1, Memory.get_setBytes, dif_pos ⟨by omega, by omega⟩]
  congr 1
  omega

/-- A command's bytes written, from those that its work writes. -/
theorem State.arrayCommand_stores {s : State} {a : Fin 4} {j : ArrayJob} (h : s.arrayReady a j = true) {dst : Nat} {bs : Bytes}
    (work : (s.issued a j).Wrote ((s.issued a j).arrayWork a j) (Memory.setBytes (s.issued a j).mem dst bs)) :
    s.Wrote (s.arrayCommand a j) (Memory.setBytes s.mem dst bs) := by
  rw [(State.issued_marks h).keeps.1] at work
  exact State.arrayCommand_wrote h work

/-! Results in the output format. -/

/-- The elements that rows of results are stored as. -/
def resultVals (f : Nat) (rows : List (List DVal)) : List (List Nat) :=
  rows.map (fun r => r.map (fun x => (x.narrow ((floatFmt f).getD fp32)).v))

theorem State.storeResults_wrote (s : State) (a : Nat) (d : ArrayDesc) (rows : List (List DVal)) :
    s.Wrote (s.storeResults a d rows)
      (Memory.setBytes s.mem d.dst.toNat (elemBytes d.fmtOut.toNat (resultVals d.fmtOut.toNat rows).flatten)) := by
  have vals : resultVals d.fmtOut.toNat rows =
      (rows.map (fun r => r.map (DVal.narrow ((floatFmt d.fmtOut.toNat).getD fp32)))).map (fun r => r.map (·.v)) := by
    simp [resultVals]
  rw [vals]
  exact .writeTensor s a d _

/-- Results lie in the span of their rows and columns. -/
theorem length_results_le {f m w : Nat} {rows : List (List DVal)} (height : rows.length ≤ m) (width : ∀ r ∈ rows, r.length ≤ w) :
    (elemBytes f (resultVals f rows).flatten).length ≤ elemSpan f (m * w) := by
  rw [length_elemBytes]
  refine elemSpan_mono f (le_trans (length_flatten_le (w := w) ?_) ?_)
  · simpa [resultVals] using width
  · rw [resultVals, List.length_map]
    exact Nat.mul_le_mul_right w height

/-- Bytes outside the span of the results keep their values. -/
theorem State.Wrote.beside {s t : State} {dst f m w : Nat} {rows : List (List DVal)}
    (h : s.Wrote t (Memory.setBytes s.mem dst (elemBytes f (resultVals f rows).flatten))) (height : rows.length ≤ m)
    (width : ∀ r ∈ rows, r.length ≤ w) {x : Nat} (out : x < dst ∨ dst + elemSpan f (m * w) ≤ x) : t.byte x = s.byte x := by
  have within := length_results_le (f := f) height width
  exact h.outside (by omega)

/-- An FP32 result is read back in its place. -/
theorem State.Wrote.result {s t : State} {dst w : Nat} {rows : List (List DVal)}
    (h : s.Wrote t (Memory.setBytes s.mem dst (elemBytes 0xC (resultVals 0xC rows).flatten))) (width : ∀ r ∈ rows, r.length = w)
    {i j : Nat} (hi : i < rows.length) (hj : j < w) (z : DVal) :
    leVal (t.load (dst + 4 * (i * w + j)) 4) = (DVal.narrow fp32 ((rows.getD i []).getD j z)).v % 2 ^ 32 := by
  have here : j < rows[i].length := (width _ (List.getElem_mem hi)).symm ▸ hj
  have vals : (resultVals 0xC rows).flatten[i * w + j]? = some (DVal.narrow fp32 (rows[i][j])).v := by
    rw [flatten_getElem? (w := w) (by simpa [resultVals] using width) hj (by simpa [resultVals] using hi)]
    simp [resultVals, here, floatFmt]
  obtain ⟨within, val⟩ := List.getElem?_eq_some_iff.mp vals
  rw [State.load, h.keeps.1, elemBytes_whole (k := 4) rfl, Memory.getBytes_element _ _ _ _ _ within, leVal_leBytes, val]
  simp [hi, here]

/-! VEC (R118-R121). -/

/-- The results of VEC. -/
def State.vecResults (s : State) (d : ArrayDesc) : List (List DVal) :=
  let img := s.steps.image.getD default
  let xs := s.readFp32 d d.srcA
  let ys := s.readFp32 d d.srcW
  let fn := d.fn.toNat
  let op := Config.vectorOp d.pass.toNat
  let one (r t : List Nat) : List DVal :=
    (List.zip (List.range r.length) (List.zip r t)).map (fun q => vectorOp op (s.colParam d q.1) q.2.1 q.2.2)
  if fn = 0 then List.zipWith one xs ys
  else if fn < 0x20 then xs.map (fun r => r.map (drainFn img fn))
  else xs.map (s.rowFn img d)

theorem length_addCost (cost : List DVal) (ys : List DVal) : (addCost cost ys).length = ys.length := by
  cases ys <;> rfl

theorem length_normalise_le (img : Image) (mean : Bool) (eps : Nat) (xs gammas betas : List Nat) :
    (normalise img mean eps xs gammas betas).length ≤ xs.length := by
  unfold normalise
  dsimp only
  rw [length_addCost]
  simp only [List.length_map, List.length_zip]
  omega

/-- Groups of `g` of a row, one after the other, are no longer than the row. -/
theorem length_groups_le {α : Type} (f : Nat → List α) (g n : Nat) (group : ∀ i, (f i).length ≤ min g (n - i * g)) (q : Nat) :
    ((List.range q).flatMap f).length ≤ min (q * g) n := by
  induction q with
  | zero => simp
  | succ q ih =>
    have last := group q
    rw [List.range_succ, List.flatMap_append, List.length_append, Nat.succ_mul]
    simp only [List.flatMap_cons, List.flatMap_nil, List.append_nil]
    omega

theorem State.length_rowFn_le (s : State) (img : Image) (d : ArrayDesc) (xs : List Nat) : (s.rowFn img d xs).length ≤ xs.length := by
  unfold State.rowFn
  extract_lets n par gam bet g
  split
  · rw [softmax, length_addCost]
    simp
  · exact length_normalise_le _ _ _ _ _ _
  · refine le_trans (length_groups_le _ g n (fun i => le_trans (length_normalise_le _ _ _ _ _ _) ?_) _) (min_le_right _ _)
    simp [n]
  · exact length_normalise_le _ _ _ _ _ _

theorem State.length_vecResults_le (s : State) (d : ArrayDesc) :
    (s.vecResults d).length ≤ d.m.toNat ∧ ∀ r ∈ s.vecResults d, r.length ≤ d.n.toNat := by
  have rows := s.length_readFp32 d d.srcA
  have cols {r : List Nat} (h : r ∈ s.readFp32 d d.srcA) : r.length ≤ d.n.toNat := (State.length_of_mem_readFp32 h).le
  unfold State.vecResults
  extract_lets img xs ys fn op one
  split
  · refine ⟨by rw [List.length_zipWith]; exact (min_le_left _ _).trans rows.le, fun r hr => ?_⟩
    obtain ⟨i, hi, rfl⟩ := List.getElem_of_mem hr
    have row : i < xs.length := by rw [List.length_zipWith] at hi; omega
    rw [List.getElem_zipWith]
    exact le_trans (by simp [one]) (cols (List.getElem_mem row))
  split
  · refine ⟨by rw [List.length_map]; exact rows.le, fun r hr => ?_⟩
    obtain ⟨x, hx, rfl⟩ := List.mem_map.mp hr
    rw [List.length_map]
    exact cols hx
  · refine ⟨by rw [List.length_map]; exact rows.le, fun r hr => ?_⟩
    obtain ⟨x, hx, rfl⟩ := List.mem_map.mp hr
    exact (s.length_rowFn_le img d x).trans (cols hx)

/-- With a table function VEC's results are the function of each element (R119). -/
theorem State.vecResults_fn {s : State} {d : ArrayDesc} (lo : 1 ≤ d.fn.toNat) (hi : d.fn.toNat < 0x20) :
    s.vecResults d = (s.readFp32 d d.srcA).map (fun r => r.map (drainFn (s.steps.image.getD default) d.fn.toNat)) := by
  unfold State.vecResults
  dsimp only
  rw [if_neg (Nat.one_le_iff_ne_zero.mp lo), if_pos hi]

/-! REDUCE (R120, R123). -/

theorem length_insertSorted {α : Type} (le : α → α → Bool) (x : α) (l : List α) :
    (insertSorted le x l).length = l.length + 1 := by
  induction l with
  | nil => rfl
  | cons y ys ih =>
    rw [insertSorted]
    split
    · rw [List.length_cons, ih, List.length_cons]
    · simp

theorem length_sortedPlaces (xs : List Nat) : (sortedPlaces xs).length = xs.length := by
  have all {α : Type} (le : α → α → Bool) (l out : List α) :
      (l.foldl (fun out p => insertSorted le p out) out).length = out.length + l.length := by
    induction l generalizing out with
    | nil => rfl
    | cons x l ih =>
      rw [List.foldl_cons, ih, length_insertSorted, List.length_cons]
      omega
  rw [sortedPlaces, List.length_map, all]
  simp

/-- A reduced row has the elements that its reduction leaves. -/
theorem length_reduceRow (op k : Nat) (r : List Nat) : (reduceRow op k r).length = reduceWidth op r.length k := by
  unfold reduceRow reduceWidth
  split <;> simp_all [length_sortedPlaces, Nat.min_comm]

/-- The results of REDUCE. -/
def State.reduceResults (s : State) (d : ArrayDesc) : List (List DVal) :=
  (s.readFp32 d d.srcA).map (reduceRow (Config.reduceOp d.fn.toNat d.pass.toNat) d.k.toNat)

theorem State.length_reduceResults (s : State) (d : ArrayDesc) :
    (s.reduceResults d).length = d.m.toNat ∧
      ∀ r ∈ s.reduceResults d, r.length = reduceWidth (Config.reduceOp d.fn.toNat d.pass.toNat) d.n.toNat d.k.toNat := by
  refine ⟨by rw [State.reduceResults, List.length_map, s.length_readFp32], fun r hr => ?_⟩
  obtain ⟨x, hx, rfl⟩ := List.mem_map.mp hr
  rw [length_reduceRow, State.length_of_mem_readFp32 hx]

/-! STAGE (R98, R123). -/

/-- The bytes that STAGE stores. -/
def State.staged (s : State) (d : ArrayDesc) (gather : List (Option Nat)) : Bytes :=
  let f := d.fmtA.toNat
  if gather = [] then s.load d.srcA.toNat (elemSpan f (d.m.toNat * d.k.toNat))
  else
    let xs := elemsOf f (s.load d.srcA.toNat (elemSpan f ((gather.filterMap id).foldl max 0 + 1)))
    elemBytes f (gather.map (fun g => match g with | some i => xs.getD i 0 | none => 0))

theorem State.stageBytes_marks (s : State) (d : ArrayDesc) (gather : List (Option Nat)) :
    ({ s with mem := Memory.setBytes s.mem d.dst.toNat (s.staged d gather) } : State).Marks (s.stageBytes d gather) := by
  unfold State.stageBytes State.staged
  dsimp only
  split
  · have moved := State.Marks.after (.carryNotes _ d.srcA.toNat (elemSpan d.fmtA.toNat (d.m.toNat * d.k.toNat)) d.dst.toNat)
      (.after (.cleanTiles _ d.dst.toNat (elemSpan d.fmtA.toNat (d.m.toNat * d.k.toNat)) d.srcA.toNat)
        (.after (.cleanTiles _ d.srcA.toNat (elemSpan d.fmtA.toNat (d.m.toNat * d.k.toNat)) d.dst.toNat)
          (.arrayStore s d d.dst.toNat (s.load d.srcA.toNat (elemSpan d.fmtA.toNat (d.m.toNat * d.k.toNat))))))
    split
    · exact moved
    · exact .after (.recordAnchors _ _ _ _ _ _) moved
  · exact .after (.recordAnchors _ _ _ _ _ _) (.arrayStore s d _ _)

theorem State.length_staged (s : State) (d : ArrayDesc) (gather : List (Option Nat)) :
    (s.staged d gather).length = elemSpan d.fmtA.toNat (if gather = [] then d.m.toNat * d.k.toNat else gather.length) := by
  unfold State.staged
  dsimp only
  split
  · rw [s.length_load]
  · rw [length_elemBytes, List.length_map]

/-! GEN (R72-R75, R122). -/

/-- GEN takes its draws and fills 16 bytes for each of its blocks. -/
theorem State.genBlocks_wrote (s : State) (a : Nat) (d : ArrayDesc) {o : Occurrence} (occ : s.occOf d.ctx.cadence = some o) :
    ∃ bs : Bytes, bs.length = 16 * d.m.toNat ∧
      (s.takeDraws d.ctx.cadence o.step d.unit.toNat (d.k.toNat % 65536) d.m.toNat).2.Wrote (s.genBlocks a d)
        (Memory.setBytes s.mem d.dst.toNat bs) := by
  unfold State.genBlocks
  rw [occ, Option.getD_some]
  extract_lets occ' img m r draws t ws raw par put weights
  have words : ws.length = 4 * m := by simp [ws]
  have stores (bs : Bytes) : t.Wrote (t.arrayStore d d.dst.toNat bs) (Memory.setBytes s.mem d.dst.toNat bs) :=
    .of_marks (.arrayStore t d _ bs)
  have puts (vs : List DVal) (full : vs.length = 4 * m) : ∃ bs : Bytes, bs.length = 16 * m ∧
      t.Wrote (put vs) (Memory.setBytes s.mem d.dst.toNat bs) := by
    refine ⟨_, ?_, .countArray (.arrayStore t d _ _) _ _ _ _ _⟩
    rw [length_flatMap_of (fun v : DVal => leBytes_length 4 v.v), full]
    ring
  split
  · refine ⟨raw, ?_, stores raw⟩
    rw [length_flatMap_of (k := 4) (fun w => by simp [beBytes]), words]
    ring
  · exact puts _ (by simp [words])
  · refine ⟨_, ?_, stores _⟩
    rw [length_flatMap_of (k := 8) (fun i => leBytes_length 8 _), List.length_range]
    ring
  · exact puts _ (by simp [words])
  · exact puts _ (by simp [words])
  · exact puts _ (by simp [words])
  · exact puts _ (by simp [words])
  · exact puts _ (by simp [words])
  · exact puts _ (by simp [words])

/-! The four commands. -/

theorem State.Marks.vecResults {s t : State} (h : s.Marks t) (d : ArrayDesc) : t.vecResults d = s.vecResults d := by
  obtain ⟨_, _, _, _, _, _, _, _, rfl⟩ := h
  rfl

theorem State.Marks.reduceResults {s t : State} (h : s.Marks t) (d : ArrayDesc) : t.reduceResults d = s.reduceResults d := by
  rw [State.reduceResults, State.reduceResults, h.readFp32]

theorem State.Marks.staged {s t : State} (h : s.Marks t) (d : ArrayDesc) (g : List (Option Nat)) : t.staged d g = s.staged d g := by
  simp only [State.staged, h.load]

/-- VEC stores its results. -/
theorem State.vec_wrote {s : State} {a : Fin 4} {d : ArrayDesc} (h : s.arrayReady a ⟨opVec, d, []⟩ = true) :
    s.Wrote (effVec a d s)
      (Memory.setBytes s.mem d.dst.toNat (elemBytes d.fmtOut.toNat (resultVals d.fmtOut.toNat (s.vecResults d)).flatten)) := by
  rw [← (State.issued_marks h).vecResults d]
  exact State.arrayCommand_stores h (State.storeResults_wrote _ a d _)

/-- REDUCE stores its results. -/
theorem State.reduce_wrote {s : State} {a : Fin 4} {d : ArrayDesc} (h : s.arrayReady a ⟨opReduce, d, []⟩ = true) :
    s.Wrote (effReduce a d s)
      (Memory.setBytes s.mem d.dst.toNat (elemBytes d.fmtOut.toNat (resultVals d.fmtOut.toNat (s.reduceResults d)).flatten)) := by
  rw [← (State.issued_marks h).reduceResults d]
  exact State.arrayCommand_stores h (State.storeResults_wrote _ a d _)

/-- STAGE stores its bytes and leaves only marks beside them. -/
theorem State.stage_marks {s : State} {a : Fin 4} {d : ArrayDesc} {g : List (Option Nat)}
    (h : s.arrayReady a ⟨opStage, d, g⟩ = true) :
    ({ s with mem := Memory.setBytes s.mem d.dst.toNat (s.staged d g) } : State).Marks (effStage a d g s) := by
  have marks := State.issued_marks h
  have work := (s.issued a ⟨opStage, d, g⟩).stageBytes_marks d g
  rw [marks.staged, marks.keeps.1] at work
  rw [effStage, State.arrayCommand_ready h]
  exact .after (.satReg _ _ _) (.after (.completeDesc _ _ _ _ _) (.after work (marks.withMem _)))

/-- Without a gather STAGE copies (R98). -/
theorem State.staged_getElem {s : State} {d : ArrayDesc} {i : Nat} (h : i < (s.staged d []).length) :
    (s.staged d [])[i] = s.byte (d.srcA.toNat + i) := by
  simp [State.staged, State.load, State.byte, Memory.getBytes]

/-- A gather takes byte-wide elements from where it says, or 0 (R123). -/
theorem State.staged_gather {s : State} {d : ArrayDesc} {g : List (Option Nat)} (width : fmtBits d.fmtA.toNat = 8) {i : Nat}
    (hi : i < g.length) (h : i < (s.staged d g).length) :
    (s.staged d g)[i] = (g[i].map (fun p => s.byte (d.srcA.toNat + p))).getD 0 := by
  have full : g ≠ [] := List.ne_nil_of_length_pos (Nat.zero_lt_of_lt hi)
  have bytes (xs : List Nat) : elemBytes d.fmtA.toNat xs = xs.map (BitVec.ofNat 8) := by
    rw [elemBytes_whole (k := 1) width]
    exact List.flatMap_pure_eq_map (BitVec.ofNat 8) xs
  simp only [State.staged, full, if_false, bytes, elemsOf_bytes width, List.getElem_map]
  cases source : g[i] with
  | none => rfl
  | some p =>
    have named : p ∈ g.filterMap id := List.mem_filterMap.mpr ⟨_, source ▸ List.getElem_mem hi, rfl⟩
    have least : p ≤ (g.filterMap id).foldl max 0 :=
      (List.max?_eq_some_iff.mp (List.max?_cons' (x := 0))).2 p (List.mem_cons_of_mem _ named)
    have span : p < elemSpan d.fmtA.toNat ((g.filterMap id).foldl max 0 + 1) := by
      rw [elemSpan, ceilDiv, width]
      omega
    have loaded := s.length_load d.srcA.toNat (elemSpan d.fmtA.toNat ((g.filterMap id).foldl max 0 + 1))
    rw [Option.map_some, Option.getD_some]
    dsimp only
    rw [List.getD_eq_getElem _ _ (by rw [List.length_map, loaded]; exact span)]
    simp [State.load, Memory.getBytes, State.byte]

theorem State.Marks.takeDraws {s t : State} (h : s.Marks t) (k step unit stream n : Nat) :
    (s.takeDraws k step unit stream n).2.Marks (t.takeDraws k step unit stream n).2 := by
  obtain ⟨_, _, _, _, _, _, _, _, rfl⟩ := h
  exact ⟨_, _, _, _, _, _, _, _, rfl⟩

/-- GEN takes its draws and fills 16 bytes for each of its blocks (R74). -/
theorem State.gen_wrote {s : State} {a : Fin 4} {d : ArrayDesc} {o : Occurrence} (h : s.arrayReady a ⟨opGen, d, []⟩ = true)
    (occ : s.occOf d.ctx.cadence = some o) :
    ∃ bs : Bytes, bs.length = 16 * d.m.toNat ∧
      (s.takeDraws d.ctx.cadence o.step d.unit.toNat (d.k.toNat % 65536) d.m.toNat).2.Wrote (effGen a d s)
        (Memory.setBytes s.mem d.dst.toNat bs) := by
  have marks := State.issued_marks h
  obtain ⟨mem, -, steps⟩ := marks.keeps
  obtain ⟨bs, len, work⟩ := (s.issued a ⟨opGen, d, []⟩).genBlocks_wrote a d (o := o) (by rw [State.occOf, steps]; exact occ)
  rw [mem] at work
  rw [effGen, State.arrayCommand_ready h]
  exact ⟨bs, len, .after (marks.takeDraws _ _ _ _ _) ((work.trans (.completeDesc _ _ _ _ _)).trans (.satReg _ _ _))⟩

theorem State.Wrote.sameButSteps {s t : State} {x : Steps} {m : Memory} (h : ({ s with steps := x } : State).Wrote t m) :
    State.sameButStores { t with arrays := s.arrays, steps := s.steps } s := by
  obtain ⟨_, _, _, _, _, _, _, _, _, rfl⟩ := h
  rfl

end Sys2Proof.Machine

open Sys2Proof Sys2Proof.Machine

/-- Settles O40: each command runs its work on its operands, which write memory in one place and else leave marks. -/
theorem vectorCommandsStore : Obligations.VectorCommandsStore := by
  refine ⟨fun a d s ready => ?vec, fun a d s ready => ?reduce, fun a d g s ready => ?stage, fun a d o s ready occ => ?gen⟩
  case vec =>
    have wrote := State.vec_wrote ready
    obtain ⟨height, width⟩ := s.length_vecResults_le d
    refine ⟨_, rfl, fun x out => wrote.beside height width out, fun fp lo hi i j row col => ?_, wrote.sameButStores⟩
    rw [fp, State.vecResults_fn lo hi] at wrote
    have wide : ∀ r ∈ (s.readFp32 d d.srcA).map (fun r => r.map (drainFn (s.steps.image.getD default) d.fn.toNat)),
        r.length = d.n.toNat := by
      intro r hr
      obtain ⟨x, hx, rfl⟩ := List.mem_map.mp hr
      rw [List.length_map, State.length_of_mem_readFp32 hx]
    have here : i < (s.readFp32 d d.srcA).length := by rwa [s.length_readFp32]
    have there := State.length_of_mem_readFp32 (List.getElem_mem here)
    refine (wrote.result wide (by rwa [List.length_map]) col (drainFn (s.steps.image.getD default) d.fn.toNat 0)).trans ?_
    simp [here, there, col]
  case reduce =>
    have wrote := State.reduce_wrote ready
    obtain ⟨height, width⟩ := s.length_reduceResults d
    refine ⟨_, rfl, fun x out => wrote.beside height.le (fun r hr => (width r hr).le) (out _ List.mem_cons_self),
      fun fp i j row col => ?_, wrote.sameButStores⟩
    rw [fp] at wrote
    have here : i < (s.readFp32 d d.srcA).length := by rwa [s.length_readFp32]
    refine (wrote.result width (height.symm ▸ row) col (.pure 0)).trans ?_
    simp [State.reduceResults, here]
  case stage =>
    have marks := State.stage_marks ready
    have wrote := State.Wrote.of_marks marks
    have len := s.length_staged d g
    refine ⟨_, rfl, fun copy i hi => ?_, fun wide i hi => ?_, fun x out => wrote.outside (len ▸ out), marks.keeps.2.1, ?_⟩
    · subst copy
      exact (wrote.inside (len ▸ hi)).trans (State.staged_getElem _)
    · have within : i < (s.staged d g).length := by
        have full : g ≠ [] := List.ne_nil_of_length_pos (Nat.zero_lt_of_lt hi)
        rw [len, if_neg full, elemSpan, ceilDiv, wide]
        omega
      exact (wrote.inside within).trans (State.staged_gather wide hi within)
    · have same := wrote.sameButStores
      rwa [← marks.keeps.2.1] at same
  case gen =>
    obtain ⟨bs, len, wrote⟩ := State.gen_wrote ready occ
    exact ⟨_, rfl, wrote.keeps.2.symm, fun x out => wrote.outside (len ▸ out), wrote.sameButSteps⟩

end

section
/-! SUPPORT. What an array's command shows once issued, and what its work and its completion leave alone (R99, R134, R138). -/

namespace Sys2Proof.Machine

/-! Registers and the trail, which neither a descriptor's work nor its completion changes. -/

@[simp] theorem State.workView_updArray (s : State) (a : Nat) (f : ArrayUnit → ArrayUnit) :
    (s.updArray a f).workView = s.workView := rfl
@[simp] theorem State.workView_noteTensor (s : State) (t : TensorNote) : (s.noteTensor t).workView = s.workView := rfl
@[simp] theorem State.workView_carryNotes (s : State) (src n dst : Nat) : (s.carryNotes src n dst).workView = s.workView := rfl
@[simp] theorem State.workView_takeDraws (s : State) (k step unit stream n : Nat) :
    (s.takeDraws k step unit stream n).2.workView = s.workView := rfl

@[simp] theorem State.workView_recordAnchors (s : State) (f addr bytes stride : Nat) (rows : List (List Nat)) :
    (s.recordAnchors f addr bytes stride rows).workView = s.workView := by
  unfold State.recordAnchors
  split <;> rfl

@[simp] theorem State.workView_releaseLantern (s : State) (k u i : Nat) : (s.releaseLantern k u i).workView = s.workView := by
  unfold State.releaseLantern
  dsimp only
  split
  · split
    · split
      · rw [State.advanceLantern, State.workView_setLantern, State.workView_touchLantern, State.workView_setLantern]
      · rw [State.workView_touchLantern, State.workView_setLantern]
    · rfl
  · rfl

@[simp] theorem State.workView_cleanTiles (s : State) (a n other : Nat) : (s.cleanTiles a n other).workView = s.workView := by
  unfold State.cleanTiles
  split
  · rfl
  · refine workView_foldl (fun s i => ?_) _ s
    split
    · exact State.workView_setLantern _ _
    · rfl

@[simp] theorem State.workView_completeDesc (s : State) (k unit wait raise : Nat) :
    (s.completeDesc k unit wait raise).workView = s.workView := by
  unfold State.completeDesc
  dsimp only
  split_ifs <;> simp only [State.workView_raiseLantern, State.workView_releaseLantern]

@[simp] theorem State.workView_arrayStore (s : State) (d : ArrayDesc) (a : Nat) (bs : Bytes) :
    (s.arrayStore d a bs).workView = s.workView := by
  rw [State.arrayStore, State.workView_cstore]
  exact workView_foldl (fun s _ => State.workView_fillLantern s _ _) _ s

@[simp] theorem State.workView_countArray (s : State) (a k sat nf ops : Nat) :
    (s.countArray a k sat nf ops).workView = s.workView := by
  rw [State.countArray, State.workView_count, State.workView_updArray]

@[simp] theorem State.workView_writeTensor (s : State) (a : Nat) (d : ArrayDesc) (out : List (List DOut)) :
    (s.writeTensor a d out).workView = s.workView := by
  rw [State.writeTensor, State.workView_countArray, State.workView_noteTensor, State.workView_recordAnchors,
    State.workView_arrayStore]

@[simp] theorem State.workView_streamRows (s : State) (a : Nat) (d : ArrayDesc) : (s.streamRows a d).workView = s.workView := by
  unfold State.streamRows
  dsimp only
  split
  · rfl
  · split_ifs <;> simp only [State.workView_countArray, State.workView_updArray]

@[simp] theorem State.workView_genBlocks (s : State) (a : Nat) (d : ArrayDesc) : (s.genBlocks a d).workView = s.workView := by
  unfold State.genBlocks
  extract_lets occ img m stream r t ws raw par put weights
  have drawn : t.workView = s.workView := s.workView_takeDraws _ _ _ _ _
  have stored (bs : Bytes) : (t.arrayStore d d.dst.toNat bs).workView = s.workView := by
    rw [State.workView_arrayStore, drawn]
  have puts (vs : List DVal) : (put vs).workView = s.workView := by
    unfold put
    rw [State.workView_countArray, stored]
  split
  case h_1 | h_3 => exact stored _
  all_goals exact puts _

@[simp] theorem State.workView_stageBytes (s : State) (d : ArrayDesc) (gather : List (Option Nat)) :
    (s.stageBytes d gather).workView = s.workView := by
  unfold State.stageBytes
  dsimp only
  split_ifs <;> simp only [State.workView_recordAnchors, State.workView_carryNotes, State.workView_cleanTiles,
    State.workView_arrayStore]

theorem State.workView_arrayWork (s : State) (a : Nat) (j : ArrayJob) : (s.arrayWork a j).workView = s.workView := by
  unfold State.arrayWork
  split
  · simp only [State.loadSlice, State.workView_countArray, State.workView_updArray]
  · exact s.workView_streamRows a _
  · simp only [State.drainRows, State.workView_updArray, State.workView_writeTensor]
  · simp only [State.joinRows, State.workView_noteTensor, State.workView_arrayStore, State.workView_updArray]
  · simp only [State.vecRows, State.storeResults, State.workView_writeTensor]
  · simp only [State.reduceRows, State.storeResults, State.workView_writeTensor]
  · exact s.workView_genBlocks a _
  · exact s.workView_stageBytes _ _
  · rfl

/-! Work that stores nothing. -/

/-- Registers, answers, counters and arrays may differ; nothing else does. -/
def State.Tallies (s t : State) : Prop :=
  ∃ regs answers counters arrays, t = { s with regs := regs, answers := answers, counters := counters, arrays := arrays }

namespace State.Tallies

theorem refl (s : State) : s.Tallies s := ⟨_, _, _, _, rfl⟩

theorem symm {s t : State} (h : s.Tallies t) : t.Tallies s := by
  obtain ⟨_, _, _, _, rfl⟩ := h
  exact ⟨s.regs, s.answers, s.counters, s.arrays, rfl⟩

theorem trans {s t u : State} (h : s.Tallies t) (g : t.Tallies u) : s.Tallies u := by
  obtain ⟨_, _, _, _, rfl⟩ := h
  obtain ⟨_, _, _, _, rfl⟩ := g
  exact ⟨_, _, _, _, rfl⟩

theorem after {s t u : State} (g : t.Tallies u) (h : s.Tallies t) : s.Tallies u := h.trans g

theorem setReg (s : State) (a v : Nat) : s.Tallies (s.setReg a v) := ⟨_, _, _, _, rfl⟩
theorem setReg64 (s : State) (a v : Nat) : s.Tallies (s.setReg64 a v) := ⟨_, _, _, _, rfl⟩
theorem satReg (s : State) (a n : Nat) : s.Tallies (s.satReg a n) := setReg s _ _
theorem answer (s : State) (b o c : Nat) : s.Tallies (s.answer b o c) := ⟨_, _, _, _, rfl⟩
theorem updArray (s : State) (a : Nat) (f : ArrayUnit → ArrayUnit) : s.Tallies (s.updArray a f) := ⟨_, _, _, _, rfl⟩

theorem count (s : State) (die ev inst n : Nat) : s.Tallies (s.count die ev inst n) := by
  unfold State.count
  dsimp only
  split
  · exact refl s
  · exact ⟨_, _, _, _, rfl⟩

theorem countArray (s : State) (a k sat nf ops : Nat) : s.Tallies (s.countArray a k sat nf ops) :=
  after (count _ _ _ _ _) (updArray s _ _)

theorem keeps {s t : State} (h : s.Tallies t) : t.mem = s.mem ∧ t.sheets = s.sheets ∧ t.checkpoints = s.checkpoints := by
  obtain ⟨_, _, _, _, rfl⟩ := h
  exact ⟨rfl, rfl, rfl⟩

theorem loadSlice (s : State) (a : Nat) (d : ArrayDesc) : s.Tallies (s.loadSlice a d) := by
  rw [State.loadSlice]
  exact after (countArray _ _ _ _ _ _) (updArray s _ _)

theorem streamRows (s : State) (a : Nat) (d : ArrayDesc) : s.Tallies (s.streamRows a d) := by
  unfold State.streamRows
  dsimp only
  split
  · exact refl s
  · split
    · exact after (countArray _ _ _ _ _ _) (updArray s _ _)
    · exact updArray s _ _

end State.Tallies

/-! Steps, host, security and time. -/

/-- Memory, the arrays, the draw indices and marks may differ; nothing else does. -/
def State.Works (s t : State) : Prop :=
  ∃ mem arrays draws, ({ s with mem := mem, arrays := arrays, steps := { s.steps with draws := draws } } : State).Marks t

namespace State.Works

theorem of_marks {s t : State} (h : s.Marks t) : s.Works t := ⟨s.mem, s.arrays, s.steps.draws, h⟩

theorem of_wrote {s t : State} {m : Memory} (h : s.Wrote t m) : s.Works t := ⟨m, h.choose, s.steps.draws, h.choose_spec⟩

theorem of_tallies {s t : State} (h : s.Tallies t) : s.Works t := by
  obtain ⟨_, _, _, arrays, rfl⟩ := h
  exact ⟨s.mem, arrays, s.steps.draws, _, _, _, _, _, _, _, _, rfl⟩

theorem trans {s t u : State} (h : s.Works t) (g : t.Works u) : s.Works u := by
  obtain ⟨_, _, _, _, _, _, _, _, _, _, _, rfl⟩ := h
  obtain ⟨_, _, _, _, _, _, _, _, _, _, _, rfl⟩ := g
  exact ⟨_, _, _, _, _, _, _, _, _, _, _, rfl⟩

theorem after {s t u : State} (g : t.Works u) (h : s.Works t) : s.Works u := h.trans g

theorem updArray (s : State) (a : Nat) (f : ArrayUnit → ArrayUnit) : s.Works (s.updArray a f) :=
  ⟨s.mem, _, s.steps.draws, .refl _⟩

theorem takeDraws (s : State) (k step unit stream n : Nat) : s.Works (s.takeDraws k step unit stream n).2 :=
  ⟨s.mem, s.arrays, _, .refl _⟩

/-- A descriptor's work in an occurrence that runs. -/
theorem arrayWork {s : State} {j : ArrayJob} {o : Occurrence} (occ : s.occOf j.desc.ctx.cadence = some o) (a : Nat) :
    s.Works (s.arrayWork a j) := by
  unfold State.arrayWork
  split
  · exact of_tallies (.loadSlice s a _)
  · exact of_tallies (.streamRows s a _)
  · exact after (updArray _ _ _) (of_wrote (.writeTensor s a _ _))
  · exact after (of_marks (.noteTensor _ _)) (after (of_wrote (.of_marks (.arrayStore _ _ _ _))) (updArray s _ _))
  · exact of_wrote (.writeTensor s a _ _)
  · exact of_wrote (.writeTensor s a _ _)
  · obtain ⟨bs, -, wrote⟩ := s.genBlocks_wrote a j.desc occ
    exact after (of_wrote wrote) (takeDraws s _ _ _ _ _)
  · exact of_wrote (.of_marks (s.stageBytes_marks _ _))
  · exact of_marks (.refl s)

theorem keeps {s t : State} (h : s.Works t) :
    t.steps.run = s.steps.run ∧ t.steps.occs = s.steps.occs ∧ t.host = s.host ∧ t.trail = s.trail ∧ t.sec = s.sec ∧
      t.time = s.time := by
  obtain ⟨_, _, _, _, _, _, _, _, _, _, _, rfl⟩ := h
  exact ⟨rfl, rfl, rfl, rfl, rfl, rfl⟩

end State.Works

/-! What an issue shows. -/

/-- A wait changes the sheets alone. -/
theorem State.await_eq (s : State) (k u i : Nat) : ∃ x, (s.await k u i).1 = { s with sheets := x } := by
  unfold State.await
  split_ifs
  · exact ⟨_, rfl⟩
  · exact ⟨_, rfl⟩
  · exact s.issueWait_eq k u i

/-- The state in which a well-formed descriptor shows its address and asks for its memory and its lantern. -/
def State.asking (s : State) (a : Nat) (j : ArrayJob) : State := s.setReg64 (arrayReg a 0x20) j.desc.ctx.addr

/-- The state after a descriptor's wait. -/
def State.awaiting (s : State) (a : Nat) (j : ArrayJob) : State :=
  ((s.asking a j).await j.desc.ctx.cadence j.desc.unit.toNat j.desc.wait.toNat).1

theorem State.setReg64_eq (s : State) (r v : Nat) : ∃ x, s.setReg64 r v = { s with regs := x } := ⟨_, rfl⟩

theorem State.asking_eq (s : State) (a : Nat) (j : ArrayJob) : ∃ x, s.asking a j = { s with regs := x } := s.setReg64_eq _ _

theorem State.asking_frame (s : State) (a : Nat) (j : ArrayJob) :
    (s.asking a j).faults = s.faults ∧ (s.asking a j).mem = s.mem ∧ (s.asking a j).arrays = s.arrays ∧
      (s.asking a j).steps = s.steps ∧ (s.asking a j).answers = s.answers ∧ (s.asking a j).time = s.time ∧
      (s.asking a j).sheets = s.sheets := by
  obtain ⟨x, hx⟩ := s.asking_eq a j
  rw [hx]
  exact ⟨rfl, rfl, rfl, rfl, rfl, rfl, rfl⟩

theorem State.issueWait_lanterns (s : State) (k u i : Nat) : (s.issueWait k u i).sheets.lanterns = s.sheets.lanterns := by
  unfold State.issueWait
  split <;> rfl

theorem State.await_frame (s : State) (k u i : Nat) :
    let t := (s.await k u i).1
    t.faults = s.faults ∧ t.mem = s.mem ∧ t.arrays = s.arrays ∧ t.steps = s.steps ∧ t.answers = s.answers ∧ t.time = s.time ∧
      t.regs = s.regs ∧ t.sheets.lanterns = s.sheets.lanterns := by
  obtain ⟨x, hx⟩ := s.await_eq k u i
  have lanterns : (s.await k u i).1.sheets.lanterns = s.sheets.lanterns := by
    unfold State.await
    split_ifs
    · rfl
    · rfl
    · exact s.issueWait_lanterns k u i
  dsimp only
  rw [lanterns, hx]
  exact ⟨rfl, rfl, rfl, rfl, rfl, rfl, rfl, rfl⟩

theorem State.awaiting_frame (s : State) (a : Nat) (j : ArrayJob) :
    (s.awaiting a j).faults = s.faults ∧ (s.awaiting a j).mem = s.mem ∧ (s.awaiting a j).arrays = s.arrays ∧
      (s.awaiting a j).steps = s.steps ∧ (s.awaiting a j).answers = s.answers ∧ (s.awaiting a j).time = s.time ∧
      (s.awaiting a j).sheets.lanterns = s.sheets.lanterns := by
  obtain ⟨faults, mem, arrays, steps, answers, time, sheets⟩ := s.asking_frame a j
  obtain ⟨faults', mem', arrays', steps', answers', time', -, lanterns⟩ :=
    (s.asking a j).await_frame j.desc.ctx.cadence j.desc.unit.toNat j.desc.wait.toNat
  exact ⟨faults'.trans faults, mem'.trans mem, arrays'.trans arrays, steps'.trans steps, answers'.trans answers,
    time'.trans time, lanterns.trans (congrArg Sheets.lanterns sheets)⟩

theorem State.awaiting_reg (s : State) (a : Nat) (j : ArrayJob) (r : Nat) : (s.awaiting a j).reg r = (s.asking a j).reg r := by
  obtain ⟨-, -, -, -, -, -, regs, -⟩ :=
    (s.asking a j).await_frame j.desc.ctx.cadence j.desc.unit.toNat j.desc.wait.toNat
  exact State.reg_congr _ _ regs r

/-- A block reports what it answered, where the answers before it were alike and its STATUS register stands. -/
theorem State.reports_of_answer {s t u : State} {b o c : Nat} (alike : u.answersAlike s b)
    (reg : t.reg b = (u.answer b o c).reg b) : t.reports s b o c := by
  have fld (lo w : Nat) : t.fld ⟨b, lo, w⟩ = (u.answer b o c).fld ⟨b, lo, w⟩ := State.fld_of_reg reg
  rw [State.reports, fld, fld, u.answer_fields, alike.keptAnswer]

/-- Once issued, a command's registers are those of its answer, but for its count of descriptors. -/
theorem State.arrayCommand_regs {s : State} {a : Fin 4} {j : ArrayJob} (h : s.arrayReady a j = true) :
    ∃ t : State, s.arrayCommand a j = t.satReg (arrayReg a 0x28) 1 ∧
      t.regs = ((s.awaiting a j).answer (blockArray a) served 0).regs := by
  have view := (State.workView_completeDesc ((s.issued a j).arrayWork a j) j.desc.ctx.cadence j.desc.unit.toNat
    j.desc.wait.toNat j.desc.raise.toNat).trans (State.workView_arrayWork _ _ _)
  exact ⟨_, State.arrayCommand_ready h, (congrArg WorkView.regs view).trans (State.count_frame _ _ _ _ _).2.2.1⟩

/-- A command of an array's list, once issued, reports Served, shows its address, and counts one descriptor more (R99, R134,
R138). -/
theorem State.arrayCommand_shows {s : State} {a : Fin 4} {j : ArrayJob} (h : s.arrayReady a j = true) :
    (s.arrayCommand a j).reports s (blockArray a) served 0 ∧
      (s.arrayCommand a j).reg (arrayReg a 0x28) = min (s.reg (arrayReg a 0x28) + 1) (2 ^ 32 - 1) ∧
      (s.arrayCommand a j).reg64 (arrayReg a 0x20) = j.desc.ctx.addr % 2 ^ 64 := by
  obtain ⟨t, eq, regs⟩ := State.arrayCommand_regs h
  obtain ⟨-, -, -, -, answers, time, -⟩ := s.awaiting_frame a j
  have answered (r : Nat) : t.reg r = ((s.awaiting a j).answer (blockArray a) served 0).reg r := State.reg_congr _ _ regs r
  have elsewhere (r : Nat) (other : r ≠ blockArray a) : t.reg r = (s.asking a j).reg r :=
    (answered r).trans (((s.awaiting a j).reg_answerAt_ne _ _ _ _ _ other).trans (s.awaiting_reg a j r))
  have before (r : Nat) (lo : r ≠ arrayReg a 0x20) (hi : r ≠ arrayReg a 0x20 + 4) : (s.asking a j).reg r = s.reg r :=
    s.reg_setReg64_ne _ _ lo hi
  obtain ⟨count, countLo, countHi, lo, hi⟩ : arrayReg a 0x28 ≠ blockArray a ∧ arrayReg a 0x28 ≠ arrayReg a 0x20 ∧
      arrayReg a 0x28 ≠ arrayReg a 0x20 + 4 ∧ arrayReg a 0x20 ≠ blockArray a ∧ arrayReg a 0x20 + 4 ≠ blockArray a := by
    unfold arrayReg
    omega
  rw [eq]
  refine ⟨State.reports_of_answer (u := s.awaiting a j) ⟨?_, answers, time⟩ ?_, ?_, ?_⟩
  · rw [s.awaiting_reg, before _ lo.symm hi.symm]
  · rw [State.reg_satReg_ne _ _ _ _ count.symm, answered]
  · rw [State.reg_satReg, elsewhere _ count, before _ countLo countHi]
  · have kept : (t.satReg (arrayReg a 0x28) 1).reg64 (arrayReg a 0x20) = (s.asking a j).reg64 (arrayReg a 0x20) :=
      State.reg64_of_reg ((t.reg_satReg_ne _ _ _ countLo.symm).trans (elsewhere _ lo))
        ((t.reg_satReg_ne _ _ _ countHi.symm).trans (elsewhere _ hi))
    exact kept.trans (s.reg64_setReg64 _ _)

end Sys2Proof.Machine
end

section
/-! SUPPORT. What the commands of an array's list that store nothing leave of the lanterns, and the statement about WAIT, RAISE
and END (R131, R150, R151). -/

namespace Sys2Proof.Machine

/-! Lanterns. -/

def LanternState.isAt (i : Nat) (l : LanternState) : Bool := l.index == i

theorem State.lantern_eq (s : State) (i : Nat) :
    s.lantern i = (s.sheets.lanterns.find? (LanternState.isAt i)).getD { (default : LanternState) with index := i } := rfl

theorem State.lantern_index (s : State) (i : Nat) : (s.lantern i).index = i := by
  rw [s.lantern_eq]
  cases found : s.sheets.lanterns.find? (LanternState.isAt i) with
  | none => rfl
  | some l => exact beq_iff_eq.mp (List.find?_some (p := LanternState.isAt i) found)

/-- A lantern that is set reads as set, and every other one as before. -/
theorem State.lantern_setLantern (s : State) (l : LanternState) (k : Nat) :
    (s.setLantern l).lantern k = if k = l.index then l else s.lantern k := by
  let rest := s.sheets.lanterns.filter (fun x => x.index != l.index)
  have stands : (s.setLantern l).sheets.lanterns = insertSorted (fun a b => decide (a.index ≤ b.index)) l rest := rfl
  rw [State.lantern_eq, stands]
  split
  · next same =>
    subst same
    have gone : ∀ y ∈ rest, y.isAt l.index = false := fun y hy => by
      simpa [LanternState.isAt] using (List.mem_filter.mp hy).2
    rw [find?_insertSorted_of_match (p := LanternState.isAt l.index) _ (beq_self_eq_true _) gone, Option.getD_some]
  · next other =>
    have kept : rest.find? (LanternState.isAt k) = s.sheets.lanterns.find? (LanternState.isAt k) := by
      rw [List.find?_filter]
      congr 1
      funext y
      by_cases here : y.index = k
      · simp [LanternState.isAt, here, other]
      · simp [LanternState.isAt, here]
    rw [find?_insertSorted_of_not (p := LanternState.isAt k) _ (beq_eq_false_iff_ne.mpr (Ne.symm other)), kept]
    rfl

theorem State.lantern_of_sheets {s t : State} (h : t.sheets = s.sheets) (k : Nat) : t.lantern k = s.lantern k := by
  rw [State.lantern, State.lantern, h]

/-- A raise by the producer lights a filling slot with the tag of its occurrence (R150). -/
theorem State.lantern_raiseLantern {s : State} {unit i : Nat} {u : LanternUse} (use : s.useOf i = some u)
    (producer : u.producer = unit) (fills : (s.lantern i).phase = filling) (time step k : Nat) :
    (s.raiseLantern unit i time step).lantern k =
      if k = i then { s.lantern i with phase := lit, tag := ⟨time, step, u.owner, unit⟩ } else s.lantern k := by
  have sheets : (s.raiseLantern unit i time step).sheets =
      (s.setLantern { s.lantern i with phase := lit, tag := ⟨time, step, u.owner, unit⟩ }).sheets := by
    unfold State.raiseLantern
    rw [use]
    dsimp only
    rw [if_pos ⟨fills, producer⟩]
    simp [State.touchLantern]
  rw [State.lantern_of_sheets sheets, State.lantern_setLantern]
  dsimp only
  rw [s.lantern_index]

/-! The wait and the raise of a descriptor, which rest on nothing that tells of its issue. -/

namespace State.Tallies

theorem setLantern {s t : State} (h : s.Tallies t) (l : LanternState) : (s.setLantern l).Tallies (t.setLantern l) := by
  obtain ⟨_, _, _, _, rfl⟩ := h
  exact ⟨_, _, _, _, rfl⟩

theorem touchLantern {s t : State} (h : s.Tallies t) (k i : Nat) : (s.touchLantern k i).Tallies (t.touchLantern k i) := by
  obtain ⟨_, _, _, _, rfl⟩ := h
  exact ⟨_, _, _, _, rfl⟩

theorem advanceLantern {s t : State} (h : s.Tallies t) (i : Nat) : (s.advanceLantern i).Tallies (t.advanceLantern i) := by
  obtain ⟨_, _, _, _, rfl⟩ := h
  exact ⟨_, _, _, _, rfl⟩

theorem reads {s t : State} (h : s.Tallies t) (i : Nat) : t.useOf i = s.useOf i ∧ t.lantern i = s.lantern i := by
  obtain ⟨_, _, _, _, rfl⟩ := h
  exact ⟨rfl, rfl⟩

theorem raiseLantern {s t : State} (h : s.Tallies t) (u i time n : Nat) :
    (s.raiseLantern u i time n).Tallies (t.raiseLantern u i time n) := by
  obtain ⟨use, lantern⟩ := h.reads i
  unfold State.raiseLantern
  rw [use, lantern]
  dsimp only
  split
  · split
    · exact after (count _ _ _ _ _) (trans (count _ _ _ _ _).symm ((h.setLantern _).touchLantern _ _))
    · exact h
  · exact h

theorem releaseLantern {s t : State} (h : s.Tallies t) (k u i : Nat) :
    (s.releaseLantern k u i).Tallies (t.releaseLantern k u i) := by
  obtain ⟨use, lantern⟩ := h.reads i
  unfold State.releaseLantern
  rw [use, lantern]
  dsimp only
  split
  · split
    · have released (l : LanternState) : ((s.setLantern l).touchLantern k i).Tallies ((t.setLantern l).touchLantern k i) :=
        (h.setLantern l).touchLantern k i
      split
      · exact (released _).advanceLantern i
      · exact released _
    · exact h
  · exact h

theorem completeDesc {s t : State} (h : s.Tallies t) (k unit wait raise : Nat) :
    (s.completeDesc k unit wait raise).Tallies (t.completeDesc k unit wait raise) := by
  have same : t.occOf k = s.occOf k ∧ ∀ n, t.stepTime n = s.stepTime n := by
    obtain ⟨_, _, _, _, rfl⟩ := h
    exact ⟨rfl, fun _ => rfl⟩
  unfold State.completeDesc
  rw [same.1]
  extract_lets n u v
  have raised : u.Tallies v := by
    unfold u v
    rw [same.2]
    split
    · exact h
    · exact h.raiseLantern _ _ _ _
  split
  · exact raised
  · exact raised.releaseLantern _ _ _

theorem await {s t : State} (h : s.Tallies t) (k u i : Nat) : (s.await k u i).1.Tallies (t.await k u i).1 := by
  obtain ⟨grants, waits⟩ : t.waitGranted u i = s.waitGranted u i ∧ t.sheets.waits = s.sheets.waits := by
    obtain ⟨_, _, _, _, rfl⟩ := h
    exact ⟨rfl, rfl⟩
  unfold State.await State.issueWait
  rw [grants, waits]
  obtain ⟨_, _, _, _, rfl⟩ := h
  split_ifs <;> exact ⟨_, _, _, _, rfl⟩

end State.Tallies

/-! A wait and a raise change lanterns, checkpoints and counters alone. -/

theorem State.sameButLanterns.trans {s t u : State} (g : u.sameButLanterns t) (h : t.sameButLanterns s) :
    u.sameButLanterns s := by
  unfold State.sameButLanterns at *
  rw [← h, ← g]

theorem State.count_sameButLanterns (s : State) (die ev inst n : Nat) : (s.count die ev inst n).sameButLanterns s := by
  unfold State.count
  dsimp only
  split <;> rfl

theorem State.await_sameButLanterns (s : State) (k u i : Nat) : (s.await k u i).1.sameButLanterns s := by
  obtain ⟨x, hx⟩ := s.await_eq k u i
  rw [hx]
  rfl

theorem State.setLantern_sameButLanterns (s : State) (l : LanternState) : (s.setLantern l).sameButLanterns s := rfl

theorem State.touchLantern_sameButLanterns (s : State) (k i : Nat) : (s.touchLantern k i).sameButLanterns s := rfl

theorem State.raiseLantern_sameButLanterns (s : State) (u i time n : Nat) : (s.raiseLantern u i time n).sameButLanterns s := by
  unfold State.raiseLantern
  dsimp only
  split
  · split
    · exact .trans (State.count_sameButLanterns _ _ _ _ _)
        (.trans (State.touchLantern_sameButLanterns _ _ _) (s.setLantern_sameButLanterns _))
    · rfl
  · rfl

theorem State.releaseLantern_sameButLanterns (s : State) (k u i : Nat) : (s.releaseLantern k u i).sameButLanterns s := by
  unfold State.releaseLantern
  dsimp only
  split
  · split
    · have released (l : LanternState) : ((s.setLantern l).touchLantern k i).sameButLanterns s :=
        .trans (State.touchLantern_sameButLanterns _ k i) (s.setLantern_sameButLanterns l)
      split
      · exact .trans (State.setLantern_sameButLanterns _ _) (released _)
      · exact released _
    · rfl
  · rfl

theorem State.completeDesc_sameButLanterns (s : State) (k unit wait raise : Nat) :
    (s.completeDesc k unit wait raise).sameButLanterns s := by
  unfold State.completeDesc
  extract_lets n u
  have raised : u.sameButLanterns s := by
    unfold u
    split
    · rfl
    · exact s.raiseLantern_sameButLanterns _ _ _ _
  split
  · exact raised
  · exact .trans (u.releaseLantern_sameButLanterns _ _ _) raised

theorem State.afterWaitAndRaise_sameButLanterns (s : State) (d : ArrayDesc) : (s.afterWaitAndRaise d).sameButLanterns s :=
  .trans (State.completeDesc_sameButLanterns _ _ _ _ _) (s.await_sameButLanterns _ _ _)

/-! Commands that store nothing. -/

/-- The state in which a descriptor works differs from that after its wait by what tells of its issue. -/
theorem State.issued_tallies (s : State) (a : Nat) (j : ArrayJob) :
    (s.await j.desc.ctx.cadence j.desc.unit.toNat j.desc.wait.toNat).1.Tallies (s.issued a j) :=
  .after (.count _ _ _ _ _) (.after (.answer _ _ _ _) (State.Tallies.await (.setReg64 s _ _) _ _ _))

/-- A command whose work stores nothing leaves the lanterns as its wait and its raise do (R150, R151). -/
theorem State.arrayCommand_tallies {s : State} {a : Fin 4} {j : ArrayJob} (h : s.arrayReady a j = true)
    (work : (s.issued a j).Tallies ((s.issued a j).arrayWork a j)) :
    (s.afterWaitAndRaise j.desc).Tallies (s.arrayCommand a j) := by
  rw [State.arrayCommand_ready h]
  exact .after (.satReg _ _ _) (((s.issued_tallies a j).trans work).completeDesc _ _ _ _)

theorem State.Tallies.sameButLanterns {s t : State} {d : ArrayDesc} (h : (s.afterWaitAndRaise d).Tallies t) :
    State.sameButLanterns { t with arrays := s.arrays } s := by
  have waited := s.afterWaitAndRaise_sameButLanterns d
  generalize s.afterWaitAndRaise d = u at *
  obtain ⟨_, _, _, _, rfl⟩ := h
  unfold State.sameButLanterns at waited ⊢
  conv_rhs => rw [← waited]
  rw [← waited]

/-- Completion and its count leave the arrays as the work left them. -/
theorem State.arrayCommand_arrays {s : State} {a : Fin 4} {j : ArrayJob} (h : s.arrayReady a j = true) :
    (s.arrayCommand a j).arrays = ((s.issued a j).arrayWork a j).arrays := by
  rw [State.arrayCommand_ready h]
  exact (State.Marks.after (.satReg _ _ _) (.completeDesc _ _ _ _ _)).keeps.2.1

/-- WAIT, RAISE and END leave the arrays as they were, and the lanterns as their wait and their raise do. -/
theorem State.arrayCommand_idle {s : State} {a : Fin 4} {op : Nat} {d : ArrayDesc}
    (does : op = opWait ∨ op = opRaise ∨ op = opEnd) (ready : s.arrayReady a ⟨op, d, []⟩ = true) :
    (s.afterWaitAndRaise d).Tallies (s.arrayCommand a ⟨op, d, []⟩) ∧ (s.arrayCommand a ⟨op, d, []⟩).arrays = s.arrays := by
  have work : (s.issued a ⟨op, d, []⟩).arrayWork a ⟨op, d, []⟩ = s.issued a ⟨op, d, []⟩ := by
    rcases does with rfl | rfl | rfl <;> rfl
  refine ⟨State.arrayCommand_tallies ready (work.symm ▸ .refl _), ?_⟩
  rw [State.arrayCommand_arrays ready, work]
  exact (State.issued_marks ready).keeps.2.1

end Sys2Proof.Machine

open Sys2Proof Sys2Proof.Machine

/-- Settles O41: WAIT, RAISE and END do no work, so that their wait and their raise are all that they leave. -/
theorem sequencerCommandsComplete : Obligations.SequencerCommandsComplete := by
  refine ⟨fun a d c s cases => ?_, fun a d u o s ready free use producer fills occ named => ?_⟩
  · obtain ⟨op, does, ready, runs⟩ : ∃ op, (op = opWait ∨ op = opRaise ∨ op = opEnd) ∧ s.arrayReady a ⟨op, d, []⟩ = true ∧
        exec c s = .next (s.arrayCommand a ⟨op, d, []⟩) := by
      rcases cases with ⟨rfl, ready⟩ | ⟨rfl, ready⟩ | ⟨rfl, ready⟩
      · exact ⟨_, .inl rfl, ready, rfl⟩
      · exact ⟨_, .inr (.inl rfl), ready, rfl⟩
      · exact ⟨_, .inr (.inr rfl), ready, rfl⟩
    obtain ⟨tallies, arrays⟩ := State.arrayCommand_idle does ready
    obtain ⟨-, sheets, points⟩ := tallies.keeps
    have same := tallies.sameButLanterns
    rw [← arrays] at same
    exact ⟨_, runs, (State.arrayCommand_shows ready).2.1, sheets, points, same⟩
  · obtain ⟨tallies, -⟩ := State.arrayCommand_idle (.inr (.inl rfl)) ready
    have lanterns : s.afterWaitAndRaise d = s.raiseLantern d.unit.toNat d.raise.toNat (s.stepTime o.step) o.step := by
      simp [State.afterWaitAndRaise, State.await, State.completeDesc, free, named, occ]
    have after (k : Nat) : (effRaise a d s).lantern k = if k = d.raise.toNat then
          { s.lantern d.raise.toNat with phase := lit, tag := ⟨s.stepTime o.step, o.step, u.owner, d.unit.toNat⟩ }
        else s.lantern k := by
      rw [← State.lantern_raiseLantern use producer fills, ← lanterns]
      exact State.lantern_of_sheets tallies.keeps.2.1 k
    refine ⟨_, rfl, ?_, ?_, fun k other => (after k).trans (if_neg other)⟩
    · rw [after, if_pos rfl]
    · rw [after, if_pos rfl]

end

section
/-! SUPPORT. LOAD_W and STREAM: what they leave in the cells and the entries, and the statement about them (R96, R97, R102,
R105). -/

namespace Sys2Proof.Machine

/-! The arrays after a change of one. -/

theorem State.array_of_arrays {s t : State} (h : t.arrays = s.arrays) (b : Nat) : t.array b = s.array b := by
  rw [State.array, State.array, h]

theorem State.array_updArray_self {s : State} {a : Nat} (f : ArrayUnit → ArrayUnit) (h : a < s.arrays.length) :
    (s.updArray a f).array a = f (s.array a) := by
  simp [State.updArray, State.array, h]

theorem State.array_updArray_ne (s : State) {a b : Nat} (f : ArrayUnit → ArrayUnit) (h : b ≠ a) :
    (s.updArray a f).array b = s.array b := by
  simp [State.updArray, State.array, List.getD_eq_getElem?_getD, List.getElem?_modify_ne _ _ (Ne.symm h)]

/-- Of the arrays only `a` differs, which is `x` but for its counts. -/
def State.Leaves (s t : State) (a : Nat) (x : ArrayUnit) : Prop :=
  (∃ c, t.array a = { x with counts := c }) ∧ ∀ b, b ≠ a → t.array b = s.array b

theorem State.Leaves.updArray {s : State} {a : Nat} (f : ArrayUnit → ArrayUnit) (h : a < s.arrays.length) :
    s.Leaves (s.updArray a f) a (f (s.array a)) :=
  ⟨⟨_, State.array_updArray_self f h⟩, fun _ ne => s.array_updArray_ne f ne⟩

/-- An array's unit with the counts of a descriptor (R117, R138). -/
def ArrayUnit.counted (u : ArrayUnit) (k sat nf ops : Nat) : ArrayUnit :=
  { u with
    counts := ⟨k, (u.countOf k).sat + sat, (u.countOf k).nonfin + nf, (u.countOf k).ops + ops⟩ ::
      u.counts.filter (fun x => x.cadence != k) }

theorem State.countArray_arrays (s : State) (a k sat nf ops : Nat) :
    (s.countArray a k sat nf ops).arrays = (s.updArray a (·.counted k sat nf ops)).arrays :=
  (State.Marks.count _ _ _ _ _).keeps.2.1

theorem State.Leaves.countArray {s t : State} {a : Nat} {x : ArrayUnit} (g : s.Leaves t a x) (h : a < t.arrays.length)
    (k sat nf ops : Nat) : s.Leaves (t.countArray a k sat nf ops) a x := by
  obtain ⟨⟨c, own⟩, others⟩ := g
  have counted := State.array_of_arrays (t.countArray_arrays a k sat nf ops)
  refine ⟨⟨(({ x with counts := c } : ArrayUnit).counted k sat nf ops).counts, ?_⟩, fun b ne => ?_⟩
  · rw [counted, State.array_updArray_self _ h, own]
    rfl
  · rw [counted, State.array_updArray_ne _ _ ne, others b ne]

/-- What a work leaves of the arrays, its command leaves. -/
theorem State.Leaves.command {s : State} {a : Fin 4} {j : ArrayJob} {x : ArrayUnit} (h : s.arrayReady a j = true)
    (work : (s.issued a j).Leaves ((s.issued a j).arrayWork a j) a x) : s.Leaves (s.arrayCommand a j) a x := by
  obtain ⟨own, others⟩ := work
  have after := State.array_of_arrays (State.arrayCommand_arrays h)
  have before := State.array_of_arrays (State.issued_marks h).keeps.2.1
  exact ⟨by rwa [after], fun b ne => by rw [after, others b ne, before]⟩

/-! LOAD_W (R97). -/

/-- The slice that LOAD_W of an integer format reads. -/
def State.intSlice (s : State) (d : ArrayDesc) : Slice :=
  ⟨d.fmtW.toNat, d.k.toNat, d.n.toNat,
    (s.readMat d.srcW.toNat d.fmtW.toNat d.k.toNat d.n.toNat).map (fun r => r.map (intElem d.fmtW.toNat)), [], [], []⟩

theorem State.loadSlice_leaves {s : State} {a : Nat} {d : ArrayDesc} (plain : blockScaled d = false) (h : a < s.arrays.length) :
    s.Leaves (s.loadSlice a d) a { s.array a with slice := some (s.intSlice d) } := by
  unfold State.loadSlice
  simp only [plain]
  exact .countArray (.updArray _ h) (by simpa [State.updArray] using h) _ _ _ _

/-! STREAM (R96, R101, R102, R105). -/

theorem getD_overlay_lt {α : Type} {new : List α} {i : Nat} (h : i < new.length) (old : List α) (z : α) :
    (overlay new old).getD i z = new.getD i z := by
  rw [overlay, List.getD_append _ _ _ _ h]

theorem getD_overlay_ge {α : Type} {new : List α} {i : Nat} (h : new.length ≤ i) (old : List α) (z : α) :
    (overlay new old).getD i z = old.getD i z := by
  rw [overlay, List.getD_append_right _ _ _ _ h, List.getD_eq_getElem?_getD, List.getElem?_drop, List.getD_eq_getElem?_getD,
    Nat.add_sub_cancel' h]

/-- Items numbered and worked on one by one. -/
theorem map_zip_range {α β : Type} {n : Nat} {l : List α} (len : l.length = n) (z : α) (f : Nat × α → β) :
    ((List.range n).zip l).map f = (List.range n).map (fun i => f (i, l.getD i z)) := by
  refine List.ext_getElem (by simp [len]) fun i hi _ => ?_
  have here : i < l.length := by simpa [len] using hi
  simp [here]

theorem getD_map_range {β : Type} {n i : Nat} (h : i < n) (f : Nat → β) (z : β) : ((List.range n).map f).getD i z = f i := by
  simp [h]

/-- The sum of products of an activation row and a column of the cells. -/
def rowSum (acts : List Int) (values : List (List Int)) (j : Nat) : Int :=
  (List.zipWith (fun x r => x * (r.getD j 0)) acts values).foldl (· + ·) 0

/-- The entry in row `i` and column `j` once STREAM has added the row's products, shifted, modulo 2⁴⁸ (R102, R105). -/
def State.streamEntry (s : State) (u : ArrayUnit) (d : ArrayDesc) (sl : Slice) (i j : Nat) : Nat :=
  ofSigned 48 ((if aFlag d 0 then s.columnBias d j else ((u.accum.getD i []).getD j 0 : Nat)) +
    rowSum (((s.readMat d.srcA.toNat d.fmtA.toNat d.m.toNat (min d.k.toNat sl.k)).getD i []).map (intElem d.fmtA.toNat))
      sl.values j * 2 ^ bitsOf d.pass.toNat 3 5)

/-- A narrow operand is multiplied whole (R101). -/
theorem map_passPart_narrow (signed high : Bool) (xs : List Int) : xs.map (passPart false signed high) = xs := by
  have whole : passPart false signed high = id := rfl
  rw [whole, List.map_id]

theorem State.streamRows_leaves {s : State} {a : Nat} {d : ArrayDesc} {sl : Slice} (plain : blockScaled d = false)
    (h : a < s.arrays.length) (slice : (s.array a).slice = some sl) (unscaled : sl.blocks = [])
    (narrowA : fmtBits d.fmtA.toNat ≤ 8) (narrowW : fmtBits sl.fmt ≤ 8) :
    ∃ x, s.Leaves (s.streamRows a d) a x ∧ x.slice = some sl ∧
      x.accum = overlay ((List.range d.m.toNat).map fun i =>
        overlay ((List.range (min d.n.toNat sl.n)).map (s.streamEntry (s.array a) d sl i)) ((s.array a).accum.getD i []))
        (s.array a).accum := by
  have wideA : (fmtBits d.fmtA.toNat == 16) = false := beq_eq_false_iff_ne.mpr (by omega)
  have wideW : (fmtBits sl.fmt == 16) = false := beq_eq_false_iff_ne.mpr (by omega)
  unfold State.streamRows
  extract_lets u m fa p shift first gf actWide
  split
  next empty => exact absurd (slice.symm.trans empty) (Option.some_ne_none sl)
  next own here =>
  obtain rfl : own = sl := Option.some.inj (here.symm.trans slice)
  extract_lets k n cut raw scaled wWide hi wpart bias row t
  have reads : scaled = raw.map (fun r => ⟨0, [], r.map (intElem fa), false⟩) := by
    unfold scaled gf
    simp only [plain]
    rfl
  have weights : wpart.values = own.values := by
    unfold wpart wWide
    simp [plain, wideW, map_passPart_narrow, cut]
  have entries (i : Nat) : row (i, scaled.getD i ⟨0, [], [], false⟩) =
      overlay ((List.range n).map (s.streamEntry u d own i)) (u.accum.getD i []) := by
    have acts : scaled.getD i ⟨0, [], [], false⟩ = ⟨0, [], (raw.getD i []).map (intElem fa), false⟩ := by
      rw [reads]
      exact List.getD_map raw [] (fun r => (⟨0, [], r.map (intElem fa), false⟩ : Scaled))
    have sums : rowSums wpart ((raw.getD i []).map (intElem fa)) [] 0 =
        (List.range n).map (rowSum ((raw.getD i []).map (intElem fa)) own.values) := by
      unfold rowSums
      rw [weights]
      simp only [show wpart.blocks = [] from unscaled, List.isEmpty_nil, if_true]
      rfl
    unfold row
    rw [acts]
    dsimp only
    rw [show actWide = false by simp [actWide, fa, wideA, plain], map_passPart_narrow, sums, map_zip_range (by simp) 0]
    congr 1
    refine List.map_congr_left fun j hj => ?_
    have col := List.mem_range.mp hj
    dsimp only [bias]
    rw [getD_map_range col, getD_map_range col]
    simp only [plain, Bool.false_eq_true, if_false]
    rfl
  have rows : ((List.range m).zip scaled).map row =
      (List.range m).map fun i => overlay ((List.range n).map (s.streamEntry u d own i)) (u.accum.getD i []) := by
    rw [map_zip_range (by rw [reads, List.length_map, s.length_readMat]) ⟨0, [], [], false⟩]
    simp only [entries]
  have changed : ∃ x, s.Leaves t a x ∧ x.slice = some own ∧ x.accum = overlay (((List.range m).zip scaled).map row) u.accum :=
    ⟨_, .updArray _ h, slice, rfl⟩
  rw [← rows]
  have counted : a < t.arrays.length := by simpa [t, State.updArray] using h
  obtain ⟨x, leaves, same, accum⟩ := changed
  refine ⟨x, ?_, same, accum⟩
  split
  · exact leaves.countArray counted _ _ _ _
  · exact leaves

/-! The two commands. -/

theorem State.Marks.intSlice {s t : State} (h : s.Marks t) (d : ArrayDesc) : t.intSlice d = s.intSlice d := by
  obtain ⟨_, _, _, _, _, _, _, _, rfl⟩ := h
  rfl

theorem State.Marks.streamEntry {s t : State} (h : s.Marks t) (u : ArrayUnit) (d : ArrayDesc) (sl : Slice) :
    t.streamEntry u d sl = s.streamEntry u d sl := by
  obtain ⟨_, _, _, _, _, _, _, _, rfl⟩ := h
  rfl

/-- LOAD_W fills the cells (R97). -/
theorem State.loadW_leaves {s : State} {a : Fin 4} {d : ArrayDesc} (h : s.arrayReady a ⟨opLoadW, d, []⟩ = true)
    (plain : blockScaled d = false) (four : s.arrays.length = 4) :
    s.Leaves (effLoadW a d s) a { s.array a with slice := some (s.intSlice d) } := by
  have marks := State.issued_marks h
  rw [← marks.intSlice, ← State.array_of_arrays marks.keeps.2.1]
  exact .command h (State.loadSlice_leaves plain (by rw [marks.keeps.2.1, four]; exact a.isLt))

/-- STREAM adds to the entries (R102). -/
theorem State.stream_leaves {s : State} {a : Fin 4} {d : ArrayDesc} {sl : Slice} (h : s.arrayReady a ⟨opStream, d, []⟩ = true)
    (plain : blockScaled d = false) (four : s.arrays.length = 4) (slice : (s.array a).slice = some sl) (unscaled : sl.blocks = [])
    (narrowA : fmtBits d.fmtA.toNat ≤ 8) (narrowW : fmtBits sl.fmt ≤ 8) :
    ∃ x, s.Leaves (effStream a d s) a x ∧ x.slice = some sl ∧
      x.accum = overlay ((List.range d.m.toNat).map fun i =>
        overlay ((List.range (min d.n.toNat sl.n)).map (s.streamEntry (s.array a) d sl i)) ((s.array a).accum.getD i []))
        (s.array a).accum := by
  have marks := State.issued_marks h
  have arrays := marks.keeps.2.1
  have same := State.array_of_arrays arrays a
  obtain ⟨x, leaves, kept, accum⟩ := State.streamRows_leaves plain (by rw [arrays, four]; exact a.isLt)
    (by rwa [same]) unscaled narrowA narrowW
  rw [same, marks.streamEntry] at accum
  exact ⟨x, .command h leaves, kept, accum⟩

end Sys2Proof.Machine

open Sys2Proof Sys2Proof.Machine

/-- Settles O38: both commands change one array, and their wait and their raise the lanterns; an entry is what STREAM's row puts
over it. -/
theorem loadAndStreamMultiply : Obligations.LoadAndStreamMultiply := by
  refine ⟨fun a d s ready plain four => ?load, fun a d sl s ready plain four slice unscaled narrowA narrowW => ?stream⟩
  case load =>
    have tallies := State.arrayCommand_tallies ready (.loadSlice _ a d)
    obtain ⟨-, sheets, points⟩ := tallies.keeps
    obtain ⟨⟨c, own⟩, others⟩ := State.loadW_leaves ready plain four
    refine ⟨_, rfl, congrArg ArrayUnit.slice own, ?_, others, sheets, points, tallies.sameButLanterns⟩
    rw [own]
  case stream =>
    have tallies := State.arrayCommand_tallies ready (.streamRows _ a d)
    obtain ⟨-, sheets, points⟩ := tallies.keeps
    obtain ⟨x, ⟨⟨c, own⟩, others⟩, kept, accum⟩ := State.stream_leaves ready plain four slice unscaled narrowA narrowW
    have entries : ((effStream a d s).array a).accum = _ := (congrArg ArrayUnit.accum own).trans accum
    refine ⟨_, rfl, fun i j row col => ?_, fun i below => ?_, (congrArg ArrayUnit.slice own).trans (kept.trans slice.symm),
      others, sheets, points, tallies.sameButLanterns⟩
    · rw [entries, getD_overlay_lt (by simpa using row), getD_map_range row, getD_overlay_lt (by simpa using col),
        getD_map_range col]
      rfl
    · rw [entries, getD_overlay_ge (by simpa using below)]

end

section
/-! SUPPORT. JOIN and DRAIN: the values that stand in the bytes they store, and the statement about them (R104, R112-R117). -/

namespace Sys2Proof.Machine

/-! Values stored row by row. -/

/-- The values of `m` rows and `n` columns. -/
def grid (m n : Nat) (f : Nat → Nat → Nat) : List (List Nat) := (List.range m).map fun i => (List.range n).map (f i)

theorem length_of_mem_grid {m n : Nat} {f : Nat → Nat → Nat} {r : List Nat} (h : r ∈ grid m n f) : r.length = n := by
  obtain ⟨i, -, rfl⟩ := List.mem_map.mp h
  simp

/-- A grid stored in elements of `k` bytes is read back by row and column. -/
theorem State.Wrote.grid_entry {s t : State} {dst k m n : Nat} {f : Nat → Nat → Nat}
    (h : s.Wrote t (Memory.setBytes s.mem dst ((grid m n f).flatten.flatMap (leBytes k)))) {i j : Nat} (row : i < m)
    (col : j < n) : leVal (t.load (dst + k * (i * n + j)) k) = f i j % 2 ^ (8 * k) := by
  have here : i < (grid m n f).length := by simpa [grid] using row
  have value : (grid m n f).flatten[i * n + j]? = some (f i j) := by
    rw [flatten_getElem? (fun r hr => length_of_mem_grid hr) col here]
    simp [grid, col]
  obtain ⟨within, val⟩ := List.getElem?_eq_some_iff.mp value
  rw [State.load, h.keeps.1, Memory.getBytes_element _ _ _ _ _ within, leVal_leBytes, val]

/-- Bytes outside a stored grid keep their values. -/
theorem State.Wrote.beside_grid {s t : State} {dst k m n : Nat} {f : Nat → Nat → Nat}
    (h : s.Wrote t (Memory.setBytes s.mem dst ((grid m n f).flatten.flatMap (leBytes k)))) {x : Nat}
    (out : x < dst ∨ dst + k * (m * n) ≤ x) : t.byte x = s.byte x := by
  have rows : (grid m n f).flatten.length ≤ m * n := by
    simpa [grid] using length_flatten_le (w := n) fun r (hr : r ∈ grid m n f) => (length_of_mem_grid hr).le
  refine h.outside ?_
  rw [length_flatMap_leBytes]
  have := Nat.mul_le_mul_left k rows
  omega

theorem State.Wrote.updArray {s t : State} {m : Memory} (h : s.Wrote t m) (a : Nat) (f : ArrayUnit → ArrayUnit) :
    s.Wrote (t.updArray a f) m :=
  let ⟨_, marks⟩ := h
  ⟨_, marks.withArrays _⟩

/-! Two's complement fields. -/

theorem ofSigned_lt (w : Nat) (x : Int) : ofSigned w x < 2 ^ w := by
  have pos : (0 : Int) < (2 ^ w : Nat) := by exact_mod_cast Nat.two_pow_pos w
  have := Int.emod_lt_of_pos x pos
  have := Int.emod_nonneg x (ne_of_gt pos)
  unfold ofSigned
  omega

theorem ofSigned_signedOf (w v : Nat) : ofSigned w (signedOf w v) = v % 2 ^ w := by
  have field : (signedOf w v) % ((2 ^ w : Nat) : Int) = ((v % 2 ^ w : Nat) : Int) := by
    unfold signedOf
    dsimp only
    split
    · exact_mod_cast Nat.mod_mod v (2 ^ w)
    · rw [Int.sub_emod_right]
      exact_mod_cast Nat.mod_mod v (2 ^ w)
  rw [ofSigned, field, Int.toNat_natCast]

/-! JOIN (R104). -/

/-- The sum in row `i` and column `j` that JOIN makes of the partials and of an array's entries. -/
def State.joinEntry (s : State) (u : ArrayUnit) (d : ArrayDesc) (i j : Nat) : Int :=
  (if aFlag d 0 then 0 else signedOf 64 (leVal (s.load (d.srcW.toNat + 8 * (i * d.n.toNat + j)) 8))) +
    (u.sums.getD i []).getD j 0

theorem State.joinRows_wrote (s : State) (a : Nat) (d : ArrayDesc) :
    s.Wrote (s.joinRows a d) (Memory.setBytes s.mem d.dst.toNat
      ((grid d.m.toNat d.n.toNat fun i j => ofSigned 64 (s.joinEntry (s.array a) d i j)).flatten.flatMap (leBytes 8))) := by
  unfold State.joinRows
  extract_lets u m n first before old new bs nf v
  have bytes : bs = (grid m n fun i j => ofSigned 64 (s.joinEntry u d i j)).flatten.flatMap (leBytes 8) := by
    have vals : (grid m n fun i j => ofSigned 64 (s.joinEntry u d i j)) = new.map (fun r => r.map (ofSigned 64)) := by
      simp only [grid, new, List.map_map, Function.comp_def, ofSigned_signedOf, Nat.mod_eq_of_lt (ofSigned_lt _ _)]
      rfl
    rw [vals, ← List.map_flatten, List.flatMap_map]
  rw [← bytes]
  exact ⟨_, .after (.noteTensor _ _) (.arrayStore v d _ _)⟩

theorem State.joinRows_joined {s : State} {a : Nat} (d : ArrayDesc) (h : a < s.arrays.length) :
    ((s.joinRows a d).array a).joined.isSome = aFlag d 1 := by
  unfold State.joinRows
  extract_lets u m n first before old new bs nf v
  have arrays : ((v.arrayStore d d.dst.toNat bs).noteTensor ⟨d.dst.toNat, bs.length, nf, 0, 0⟩).arrays = v.arrays :=
    (State.Marks.after (.noteTensor _ _) (.arrayStore v d _ _)).keeps.2.1
  rw [State.array_of_arrays arrays, State.array_updArray_self _ h]
  cases aFlag d 1 <;> rfl

/-! DRAIN to an integer format (R112-R117). -/

/-- The result in row `i` and column `j` of an integer drain of exact entries. -/
def State.drainEntry (s : State) (u : ArrayUnit) (d : ArrayDesc) (w i j : Nat) : Nat :=
  (drainInt w false ((u.sums.getD i []).getD j 0) 0 (s.colParam d j).mult (s.colParam d j).sh (s.colParam d j).zero).v

theorem drainInt_lt (w : Nat) (x k mult : Int) (sh : Nat) (zero : Int) : (drainInt w false x k mult sh zero).v < 2 ^ w :=
  ofSigned_lt w _

theorem getD_false {l : List Bool} (h : ∀ b ∈ l, b = false) (i : Nat) : l.getD i false = false := by
  rw [List.getD_eq_getElem?_getD]
  cases found : l[i]? with
  | none => rfl
  | some b => exact h b (List.mem_of_getElem? found)

theorem State.drainRows_wrote {s : State} {a : Nat} {d : ArrayDesc} {k : Nat} (width : fmtBits d.fmtOut.toNat = 8 * k)
    (integer : floatFmt d.fmtOut.toNat = none) (whole : (s.array a).frac = 0) (rowNf : ∀ b ∈ (s.array a).rowNf, b = false)
    (colNf : ∀ b ∈ (s.array a).colNf, b = false) (apart : (s.array a).joined = none) :
    s.Wrote (s.drainRows a d) (Memory.setBytes s.mem d.dst.toNat
      ((grid d.m.toNat d.n.toNat (s.drainEntry (s.array a) d (8 * k))).flatten.flatMap (leBytes k))) := by
  unfold State.drainRows
  extract_lets u img n fo fn ps sums nf e row
  have vals : ((List.range d.m.toNat).map row).map (fun r => r.map (·.v)) =
      grid d.m.toNat n (s.drainEntry u d (8 * k)) := by
    rw [List.map_map]
    refine List.map_congr_left fun i _ => ?_
    have flags (j : Nat) : nf i j = false := by
      unfold nf ArrayUnit.entryNf
      rw [show u.joined = none from apart, getD_false rowNf, getD_false colNf]
      rfl
    have scale (j : Nat) : e i j = 0 := if_pos whole
    have entries : sums = u.sums := by
      unfold sums
      rw [show u.joined = none from apart]
      rfl
    unfold row
    rw [Function.comp_apply, show floatFmt fo = none from integer]
    simp only [ps, List.map_map, Function.comp_def, flags, scale, entries, fo, width]
    rfl
  have wrote := State.Wrote.writeTensor s a d ((List.range d.m.toNat).map row)
  rw [vals, elemBytes_whole width] at wrote
  exact wrote.updArray _ _

theorem State.length_writeTensor (s : State) (a : Nat) (d : ArrayDesc) (out : List (List DOut)) :
    (s.writeTensor a d out).arrays.length = s.arrays.length := by
  rw [State.writeTensor, State.countArray_arrays, State.updArray, List.length_modify]
  exact congrArg List.length
    (State.Marks.after (.noteTensor _ _) (.after (.recordAnchors _ _ _ _ _ _) (.arrayStore s d _ _))).keeps.2.1

theorem State.drainRows_joined {s : State} {a : Nat} (d : ArrayDesc) (h : a < s.arrays.length) :
    ((s.drainRows a d).array a).joined = none := by
  unfold State.drainRows
  extract_lets u img n fo fn ps sums nf e row
  rw [State.array_updArray_self _ (by rwa [s.length_writeTensor])]

/-! The two commands. -/

theorem State.Marks.entries {s t : State} (h : s.Marks t) (d : ArrayDesc) (a : Nat) :
    t.joinEntry (t.array a) d = s.joinEntry (s.array a) d ∧ t.drainEntry (t.array a) d = s.drainEntry (s.array a) d := by
  obtain ⟨_, _, _, _, _, _, _, _, rfl⟩ := h
  exact ⟨rfl, rfl⟩

/-- JOIN stores its sums. -/
theorem State.join_wrote {s : State} {a : Fin 4} {d : ArrayDesc} (h : s.arrayReady a ⟨opJoin, d, []⟩ = true) :
    s.Wrote (effJoin a d s) (Memory.setBytes s.mem d.dst.toNat
      ((grid d.m.toNat d.n.toNat fun i j => ofSigned 64 (s.joinEntry (s.array a) d i j)).flatten.flatMap (leBytes 8))) := by
  rw [← ((State.issued_marks h).entries d a).1]
  exact State.arrayCommand_stores h (State.joinRows_wrote _ a d)

/-- DRAIN to an integer format stores its results. -/
theorem State.drain_wrote {s : State} {a : Fin 4} {d : ArrayDesc} {k : Nat} (h : s.arrayReady a ⟨opDrain, d, []⟩ = true)
    (width : fmtBits d.fmtOut.toNat = 8 * k) (integer : floatFmt d.fmtOut.toNat = none) (whole : (s.array a).frac = 0)
    (rowNf : ∀ b ∈ (s.array a).rowNf, b = false) (colNf : ∀ b ∈ (s.array a).colNf, b = false)
    (apart : (s.array a).joined = none) : s.Wrote (effDrain a d s) (Memory.setBytes s.mem d.dst.toNat
      ((grid d.m.toNat d.n.toNat (s.drainEntry (s.array a) d (8 * k))).flatten.flatMap (leBytes k))) := by
  have marks := State.issued_marks h
  have same := State.array_of_arrays marks.keeps.2.1 a
  rw [← (marks.entries d a).2]
  exact State.arrayCommand_stores h
    (State.drainRows_wrote width integer (by rwa [same]) (by rwa [same]) (by rwa [same]) (by rwa [same]))

end Sys2Proof.Machine

open Sys2Proof Sys2Proof.Machine

/-- Settles O39: both commands store one value for each row and column, which is read back from its place. -/
theorem joinAndDrainStore : Obligations.JoinAndDrainStore := by
  have present {s : State} {a : Fin 4} {j : ArrayJob} (ready : s.arrayReady a j = true) (four : s.arrays.length = 4) :
      a.val < (s.issued a j).arrays.length := by
    rw [(State.issued_marks ready).keeps.2.1, four]
    exact a.isLt
  refine ⟨fun a d s ready four => ?join, fun a d s ready fmt frac rowNf colNf apart four => ?drain⟩
  case join =>
    have wrote := State.join_wrote ready
    refine ⟨_, rfl, ?_, fun i j row col => ?_, fun x out => wrote.beside_grid out, wrote.sameButStores⟩
    · exact (congrArg (fun u : ArrayUnit => u.joined.isSome) (State.array_of_arrays (State.arrayCommand_arrays ready) a)).trans
        (State.joinRows_joined d (present ready four))
    · exact (wrote.grid_entry row col).trans (Nat.mod_eq_of_lt (ofSigned_lt 64 _))
  case drain =>
    obtain ⟨k, width, integer⟩ : ∃ k, fmtBits d.fmtOut.toNat = 8 * k ∧ floatFmt d.fmtOut.toNat = none := by
      rcases fmt with fmt | fmt <;> rw [fmt]
      · exact ⟨1, rfl, rfl⟩
      · exact ⟨2, rfl, rfl⟩
    have wrote := State.drain_wrote ready width integer frac rowNf colNf apart
    have bytes : fmtBits d.fmtOut.toNat / 8 = k := by omega
    dsimp only
    rw [bytes]
    refine ⟨_, rfl, ?_, fun i j row col => ?_, fun x out => wrote.beside_grid out, wrote.sameButStores⟩
    · exact (congrArg ArrayUnit.joined (State.array_of_arrays (State.arrayCommand_arrays ready) a)).trans
        (State.drainRows_joined d (present ready four))
    · exact (wrote.grid_entry row col).trans (Nat.mod_eq_of_lt (drainInt_lt _ _ _ _ _ _))

end

section
/-! SUPPORT. The head of an array's list: issued, refused, stopped by an order error or left waiting, and the statement about it
(R99, R133, R134, R151, R153, R155, R162, R481). -/

namespace Sys2Proof.Machine

/-! What an error's detection leaves alone. -/

theorem State.detect_frame (s : State) (region kind cause address : Nat) (detail : Bytes) (occs : List (Nat × Nat))
    (lost : List Nat) (count : Nat) (room : s.faults.queue.length < 256) :
    let t := s.detect region kind cause address detail occs lost count
    t.arrays = s.arrays ∧ t.sheets = s.sheets ∧ ∀ a, a < 0xE00000 → t.reg a = s.reg a := by
  obtain ⟨x, eq⟩ := s.detect_room region kind cause address detail occs lost count room
  dsimp only
  rw [eq]
  generalize (⟨s.faults.nextSeq, s.now, region, kind, cause, address, count, detail, occs, lost⟩ : ErrRec) = e
  generalize hu : ({ (s.newError region kind).2 with counters := x } : State) = u
  obtain ⟨arrays₀, sheets₀, reg₀⟩ : u.arrays = s.arrays ∧ u.sheets = s.sheets ∧ ∀ a, a < 0xE00000 → u.reg a = s.reg a := by
    subst hu
    exact ⟨rfl, rfl, fun a low => (State.reg_congr _ _ rfl a).trans (s.reg_newError_ne region kind (by omega) (by omega))⟩
  obtain ⟨arrays₁, sheets₁, reg₁⟩ : (u.noteUncorrected kind).arrays = u.arrays ∧ (u.noteUncorrected kind).sheets = u.sheets ∧
      ∀ a, a < 0xE00000 → (u.noteUncorrected kind).reg a = u.reg a := by
    unfold State.noteUncorrected
    split
    · refine ⟨by simp [State.faultEvent], by simp [State.faultEvent], fun a low => ?_⟩
      rw [State.reg_faultEvent_ne _ _ (by unfold faultEvents; omega), State.reg_satReg_ne _ _ _ _ (by omega)]
    · exact ⟨rfl, rfl, fun _ _ => rfl⟩
  generalize u.noteUncorrected kind = v at *
  obtain ⟨arrays₂, sheets₂⟩ : (v.enqueued e).arrays = v.arrays ∧ (v.enqueued e).sheets = v.sheets := by
    simp [State.enqueued, State.queueDepth]
  refine ⟨arrays₂.trans (arrays₁.trans arrays₀), sheets₂.trans (sheets₁.trans sheets₀), fun a low => ?_⟩
  have depth : (v.enqueued e).reg a = v.reg a := (State.reg_queueDepth_ne _ (by omega)).trans (State.reg_congr _ _ rfl a)
  rw [depth, reg₁ a low, reg₀ a low]

/-! What the commands of a list run. -/

theorem State.answer_eq (s : State) (b o c : Nat) : ∃ x y, s.answer b o c = { s with regs := x, answers := y } := ⟨_, _, rfl⟩

theorem exec_arrayJob {c : Instr} {a : Fin 4} {j : ArrayJob} (h : arrayJobOf c = some (a, j)) (s : State) :
    exec c s = .next (s.arrayCommand a j) := by
  unfold arrayJobOf at h
  split at h <;> cases h <;> rfl

/-- A descriptor with none before it is tried at once. -/
theorem State.arrayCommand_head {s : State} {a : Nat} {j : ArrayJob} (may : s.mayIssue j.desc.ctx.cadence = true)
    (queue : (s.array a).queue = []) :
    s.arrayCommand a j = if (s.arrayIssue a j).2 then (s.arrayIssue a j).1
      else (s.arrayIssue a j).1.updArray a (fun u => { u with queue := [j] }) := by
  rw [State.arrayCommand, if_neg (by simp [may]), if_neg (by simp [queue])]

/-- Showing an address changes nothing that an issue asks for. -/
theorem State.asking_same (s : State) (a : Nat) (j : ArrayJob) :
    (∀ r acc, (s.asking a j).memoryWaits r acc = s.memoryWaits r acc) ∧
      (∀ u ls rs ws, (s.asking a j).orderBroken u ls rs ws = s.orderBroken u ls rs ws) ∧
      ∀ u l, (s.asking a j).waitOver u l = s.waitOver u l := by
  obtain ⟨x, hx⟩ := s.asking_eq a j
  rw [hx]
  exact ⟨fun _ _ => rfl, fun _ _ _ _ => rfl, fun _ _ => rfl⟩

/-- A wait that is not over is left waiting (R151). -/
theorem State.await_waits {s : State} {unit wait : BitVec 16} (h : s.waitOver unit wait = false) (k : Nat) :
    s.await k unit.toNat wait.toNat = (s.issueWait k unit.toNat wait.toNat, false) := by
  obtain ⟨named, free⟩ : wait.toNat ≠ noLantern ∧ s.waitGranted unit.toNat wait.toNat = false := by
    simpa [State.waitOver] using h
  rw [State.await, if_neg named, if_neg (by simp [free])]

section
variable {s : State} {a : Fin 4} {j : ArrayJob} (ok : s.arrayOk a j.op j.desc = true)
  (service : s.inService (arrayRegion a) = true)
include ok service

/-- A descriptor whose memory keeps it waiting (R162, R481). -/
theorem State.arrayIssue_memoryWaits (memory : s.memoryWaits (arrayRegion a) (arrayReads j ++ arrayWrites j) = true) :
    s.arrayIssue a j =
      ((s.asking a j).noteMemoryWait (arrayRegion a) j.desc.ctx.cadence (arrayReads j ++ arrayWrites j), false) := by
  rw [← (s.asking_same a j).1] at memory
  simp only [State.asking] at memory ⊢
  simp [State.arrayIssue, ok, service, memory]

variable (memory : s.memoryWaits (arrayRegion a) (arrayReads j ++ arrayWrites j) = false)
include memory

/-- A descriptor whose lantern is not granted (R151). -/
theorem State.arrayIssue_waits (waits : s.waitOver j.desc.unit j.desc.wait = false) :
    s.arrayIssue a j =
      ((s.asking a j).issueWait j.desc.ctx.cadence j.desc.unit.toNat j.desc.wait.toNat, false) := by
  obtain ⟨free, -, ended⟩ := s.asking_same a j
  have waited := State.await_waits ((ended _ _).trans waits) j.desc.ctx.cadence
  rw [← free] at memory
  simp only [State.asking] at memory waited ⊢
  simp [State.arrayIssue, ok, service, memory, waited]

/-- A descriptor whose accesses break R153 (R155). -/
theorem State.arrayIssue_broken {i : Nat} (ended : s.waitOver j.desc.unit j.desc.wait = true)
    (broken : s.orderBroken j.desc.unit.toNat [j.desc.wait.toNat] (arrayReads j) (arrayWrites j) = some i) :
    s.arrayIssue a j = ((s.awaiting a j).orderError (arrayRegion a) i j.desc.ctx, true) := by
  obtain ⟨free, order, same⟩ := s.asking_same a j
  have granted := (State.await_over ((same _ _).trans ended) j.desc.ctx.cadence).1
  rw [← free] at memory
  rw [← order] at broken
  simp only [State.awaiting, State.asking] at memory granted broken ⊢
  simp [State.arrayIssue, ok, service, memory, granted, broken]

end

/-! What each of them leaves alone. -/

theorem State.issueWait_frame (s : State) (k u i : Nat) :
    (s.issueWait k u i).arrays = s.arrays ∧ (s.issueWait k u i).mem = s.mem ∧ (s.issueWait k u i).steps = s.steps := by
  obtain ⟨x, hx⟩ := s.issueWait_eq k u i
  rw [hx]
  exact ⟨rfl, rfl, rfl⟩

/-- A wait that has been issued stands among the waits (R151). -/
theorem State.issueWait_stands (s : State) (k u i : Nat) :
    (s.issueWait k u i).sheets.waits.any (fun w => w.unit == u && w.lantern == i) = true := by
  unfold State.issueWait
  split
  · assumption
  · simp

/-- A wait for memory is noted among the lent memories or the tiers (R162, R481). -/
theorem State.noteMemoryWait_frame (s : State) (r k : Nat) (acc : List (Nat × Nat)) :
    let t := s.noteMemoryWait r k acc
    t.arrays = s.arrays ∧ t.answers = s.answers ∧ t.mem = s.mem ∧ t.steps = s.steps ∧ t.sheets.lanterns = s.sheets.lanterns := by
  dsimp only
  unfold State.noteMemoryWait
  split
  · exact ⟨rfl, rfl, rfl, rfl, rfl⟩
  · split
    · split <;> exact ⟨rfl, rfl, rfl, rfl, rfl⟩
    · exact ⟨rfl, rfl, rfl, rfl, rfl⟩

/-- A descriptor left at the head of an array's list, which had none. -/
theorem State.updArray_queue {s t : State} {a : Nat} (arrays : t.arrays = s.arrays) (h : a < s.arrays.length)
    (l : List ArrayJob) :
    ((t.updArray a (fun u => { u with queue := l })).array a).queue = l ∧
      ∀ b, b ≠ a → (t.updArray a (fun u => { u with queue := l })).array b = s.array b := by
  refine ⟨?_, fun b ne => ?_⟩
  · rw [State.array_updArray_self _ (arrays ▸ h)]
  · rw [State.array_updArray_ne _ _ ne, State.array_of_arrays arrays]

/-- What a command that is issued leaves (R99, R134). -/
theorem State.arrayCommand_works {s : State} {a : Fin 4} {j : ArrayJob} (h : s.arrayReady a j = true) :
    s.Works (s.arrayCommand a j) := by
  have marks := State.issued_marks h
  obtain ⟨may, -⟩ := State.arrayReady_parts h
  obtain ⟨o, occ⟩ : ∃ o, (s.issued a j).occOf j.desc.ctx.cadence = some o := by
    rw [State.occOf, marks.keeps.2.2]
    have running : (s.occOf j.desc.ctx.cadence).isSome = true := by
      simp only [State.mayIssue, Bool.and_eq_true] at may
      exact may.2
    exact Option.isSome_iff_exists.mp running
  rw [State.arrayCommand_ready h]
  exact .after (.of_marks (.after (.satReg _ _ _) (.completeDesc _ _ _ _ _))) (.after (.arrayWork occ a) (.of_marks marks))

/-- A malformed descriptor is refused as a control error of its array (R133). -/
theorem State.arrayCommand_malformed {s : State} {a : Fin 4} {j : ArrayJob} (may : s.mayIssue j.desc.ctx.cadence = true)
    (queue : (s.array a).queue = []) (bad : s.arrayOk a j.op j.desc = false) (room : s.faults.queue.length < 256) :
    (s.arrayCommand a j).reports s (blockArray a) refused 0x0C ∧ (s.arrayCommand a j).mem = s.mem ∧
      (s.arrayCommand a j).arrays = s.arrays ∧ (s.arrayCommand a j).steps = s.steps := by
  let u := s.answer (blockArray a) refused 0x0C
  have eq : s.arrayCommand a j = u.badDescriptor (arrayRegion a) 0x0C j.desc.ctx := by
    rw [State.arrayCommand_head may queue]
    simp [State.arrayIssue, bad, u]
  have room' : u.faults.queue.length < 256 := by simpa [u] using room
  obtain ⟨mem, steps, -⟩ := u.detect_spec (arrayRegion a) 3 0x0C j.desc.ctx.addr []
    ((u.occOf j.desc.ctx.cadence).toList.map (fun o => (o.cadence, o.step))) [] 1 room'
  obtain ⟨arrays, -, reg⟩ := u.detect_frame (arrayRegion a) 3 0x0C j.desc.ctx.addr []
    ((u.occOf j.desc.ctx.cadence).toList.map (fun o => (o.cadence, o.step))) [] 1 room'
  have low : blockArray a < 0xE00000 := by unfold blockArray; omega
  rw [eq]
  exact ⟨State.reports_of_answer ⟨rfl, rfl, rfl⟩ (reg _ low), mem.trans (by simp [u]), arrays.trans (by simp [u]),
    steps.trans (by simp [u])⟩

/-- A descriptor that breaks R153 sets its groundsheet's event and does no more than report its error (R155). -/
theorem State.orderError_spec (s : State) (region i : Nat) (ctx : DescCtx) (room : s.faults.queue.length < 256) :
    let t := s.orderError region i ctx
    bitAt (t.reg (gsPage (lanternSheet i) + 0xC)) 2 = true ∧ t.mem = s.mem ∧ t.arrays = s.arrays ∧ t.steps = s.steps ∧
      t.sheets = s.sheets := by
  let u := s.event (0x70000C + 0x10000 * lanternSheet i) 2 false 0
  have room' : u.faults.queue.length < 256 := by simpa [u] using room
  obtain ⟨mem, steps, -⟩ := u.detect_spec region 3 0 (lanternAddr i) []
    ((u.occOf ctx.cadence).toList.map (fun o => (o.cadence, o.step))) [] 1 room'
  obtain ⟨arrays, sheets, reg⟩ := u.detect_frame region 3 0 (lanternAddr i) []
    ((u.occOf ctx.cadence).toList.map (fun o => (o.cadence, o.step))) [] 1 room'
  have sheet : lanternSheet i < 4 := bitsOf_lt i 12 2
  have page : gsPage (lanternSheet i) + 0xC = 0x70000C + 0x10000 * lanternSheet i := by unfold gsPage; omega
  refine ⟨?_, mem.trans (by simp [u]), arrays.trans (by simp [u]), steps.trans (by simp [u]), sheets.trans (by simp [u])⟩
  rw [page]
  have set := s.bitAt_event (0x70000C + 0x10000 * lanternSheet i) 2 false 0 (by decide)
  rwa [← reg _ (by omega)] at set

section
variable {s : State} {a : Fin 4} {j : ArrayJob} (may : s.mayIssue j.desc.ctx.cadence = true) (queue : (s.array a).queue = [])
include may queue

/-- A descriptor stopped by an order error does none of its work (R155). -/
theorem State.arrayCommand_broken {i : Nat}
    (issue : s.arrayIssue a j = ((s.awaiting a j).orderError (arrayRegion a) i j.desc.ctx, true))
    (room : s.faults.queue.length < 256) :
    let t := s.arrayCommand a j
    bitAt (t.reg (gsPage (lanternSheet i) + 0xC)) 2 = true ∧ t.mem = s.mem ∧ t.arrays = s.arrays ∧ t.steps = s.steps ∧
      t.sheets.lanterns = s.sheets.lanterns := by
  have eq : s.arrayCommand a j = (s.awaiting a j).orderError (arrayRegion a) i j.desc.ctx := by
    simp only [State.arrayCommand_head may queue, issue, if_true]
  obtain ⟨faults, mem, arrays, steps, -, -, lanterns⟩ := s.awaiting_frame a j
  obtain ⟨event, mem', arrays', steps', sheets⟩ := (s.awaiting a j).orderError_spec (arrayRegion a) i j.desc.ctx (by rwa [faults])
  dsimp only
  rw [eq]
  exact ⟨event, mem'.trans mem, arrays'.trans arrays, steps'.trans steps, (congrArg Sheets.lanterns sheets).trans lanterns⟩

/-- A descriptor whose lantern is not granted waits at the head of its list (R99, R151). -/
theorem State.arrayCommand_waits
    (issue : s.arrayIssue a j = ((s.asking a j).issueWait j.desc.ctx.cadence j.desc.unit.toNat j.desc.wait.toNat, false))
    (present : a < s.arrays.length) :
    let t := s.arrayCommand a j
    (t.array a).queue = [j] ∧
      t.sheets.waits.any (fun w => w.unit == j.desc.unit.toNat && w.lantern == j.desc.wait.toNat) = true ∧
      (∀ b, b ≠ a.val → t.array b = s.array b) ∧ t.sheets.lanterns = s.sheets.lanterns ∧ t.mem = s.mem ∧ t.steps = s.steps := by
  let u := (s.asking a j).issueWait j.desc.ctx.cadence j.desc.unit.toNat j.desc.wait.toNat
  have eq : s.arrayCommand a j = u.updArray a (fun x => { x with queue := [j] }) := by
    simp only [State.arrayCommand_head may queue, issue, Bool.false_eq_true, if_false, u]
  obtain ⟨-, mem, arrays, steps, -, -, sheets⟩ := s.asking_frame a j
  obtain ⟨arrays', mem', steps'⟩ := (s.asking a j).issueWait_frame j.desc.ctx.cadence j.desc.unit.toNat j.desc.wait.toNat
  obtain ⟨own, others⟩ := State.updArray_queue (arrays'.trans arrays) present [j]
  dsimp only
  rw [eq]
  exact ⟨own, (s.asking a j).issueWait_stands _ _ _, others,
    ((s.asking a j).issueWait_lanterns _ _ _).trans (congrArg Sheets.lanterns sheets), mem'.trans mem, steps'.trans steps⟩

/-- A descriptor whose memory keeps it waiting waits at the head of its list (R99, R162, R481). -/
theorem State.arrayCommand_memoryWaits {acc : List (Nat × Nat)}
    (issue : s.arrayIssue a j = ((s.asking a j).noteMemoryWait (arrayRegion a) j.desc.ctx.cadence acc, false))
    (present : a < s.arrays.length) :
    let t := s.arrayCommand a j
    (t.array a).queue = [j] ∧ (∀ b, b ≠ a.val → t.array b = s.array b) ∧ t.answers = s.answers ∧ t.mem = s.mem ∧
      t.steps = s.steps ∧ t.sheets.lanterns = s.sheets.lanterns := by
  let u := (s.asking a j).noteMemoryWait (arrayRegion a) j.desc.ctx.cadence acc
  have eq : s.arrayCommand a j = u.updArray a (fun x => { x with queue := [j] }) := by
    simp only [State.arrayCommand_head may queue, issue, Bool.false_eq_true, if_false, u]
  obtain ⟨-, mem, arrays, steps, answers, -, sheets⟩ := s.asking_frame a j
  obtain ⟨arrays', answers', mem', steps', lanterns'⟩ :=
    (s.asking a j).noteMemoryWait_frame (arrayRegion a) j.desc.ctx.cadence acc
  obtain ⟨own, others⟩ := State.updArray_queue (arrays'.trans arrays) present [j]
  dsimp only
  rw [eq]
  exact ⟨own, others, answers'.trans answers, mem'.trans mem, steps'.trans steps,
    lanterns'.trans (congrArg Sheets.lanterns sheets)⟩

end

end Sys2Proof.Machine

open Sys2Proof Sys2Proof.Machine

/-- Settles O37: the head of the list by what its issue asks for in turn, and a descriptor behind it by the list. -/
theorem arrayDescriptorsAreIssuedOrRefused : Obligations.ArrayDescriptorsAreIssuedOrRefused := by
  intro a j c s command may four
  rw [exec_arrayJob command]
  have present : a.val < s.arrays.length := four.symm ▸ a.isLt
  have turn (h : s.arrayTurn a j = true) : s.inService (arrayRegion a) = true ∧ (s.array a).queue = [] := by
    simpa [State.arrayTurn, may] using h
  refine ⟨fun ready => ?issued, fun queue bad room => ?malformed, fun queue ok out => ?outOfService,
    fun i its ok memory ended broken room => ?order, fun its ok memory waits => ?lantern, fun its ok memory => ?memory,
    fun behind => ?behind⟩
  case issued =>
    obtain ⟨reports, done, address⟩ := State.arrayCommand_shows ready
    obtain ⟨run, occs, host, trail, sec, time⟩ := (State.arrayCommand_works ready).keeps
    exact ⟨_, rfl, reports, done, address, run, occs, congrArg _ host, trail, sec, time⟩
  case malformed => exact ⟨_, rfl, State.arrayCommand_malformed may queue bad room⟩
  case outOfService =>
    have eq : s.arrayCommand a j = s.answer (blockArray a) refused 0x0A := by
      rw [State.arrayCommand_head may queue]
      simp [State.arrayIssue, ok, out]
    refine ⟨_, congrArg Host.Outcome.next eq, s.answer_fields _ _ _, ?_⟩
    obtain ⟨x, y, hx⟩ := s.answer_eq (blockArray a) refused 0x0A
    rw [hx]
  case order =>
    obtain ⟨service, queue⟩ := turn its
    exact ⟨_, rfl, State.arrayCommand_broken may queue (State.arrayIssue_broken ok service memory ended broken) room⟩
  case lantern =>
    obtain ⟨service, queue⟩ := turn its
    exact ⟨_, rfl, State.arrayCommand_waits may queue (State.arrayIssue_waits ok service memory waits) present⟩
  case memory =>
    obtain ⟨service, queue⟩ := turn its
    exact ⟨_, rfl, State.arrayCommand_memoryWaits may queue (State.arrayIssue_memoryWaits ok service memory) present⟩
  case behind =>
    have eq : s.arrayCommand a j = s.updArray a (fun u => { u with queue := u.queue ++ [j] }) := by
      rw [State.arrayCommand, if_neg (by simp [may]), if_pos behind]
    refine ⟨_, rfl, ?_⟩
    rw [eq]
    exact ⟨by rw [State.array_updArray_self _ present], fun b ne => s.array_updArray_ne _ ne, rfl⟩

end

section
/-! SUPPORT. What a raise and a release change of the lanterns, and the statement about DESCRIPTOR_COMPLETE (R145, R149, R150). -/

namespace Sys2Proof.Machine

/-- A change of a lantern is noted beside the undo logs, which it leaves alone. -/
theorem State.undo_touchLantern (s : State) (k i : Nat) :
    (s.touchLantern k i).checkpoints.map (·.undo) = s.checkpoints.map (·.undo) := by
  simp only [State.touchLantern, List.map_map]
  refine List.map_congr_left fun c _ => ?_
  dsimp only [Function.comp]
  split <;> rfl

/-- The lantern of a consumed slot after one of its consumers has released it (R150). -/
def LanternState.consumed (l : LanternState) (unit consumers uses : Nat) : LanternState :=
  let r := { l with released := unit :: l.released }
  if l.released.length + 1 = consumers then { r with phase := unlit, use := (l.use + 1) % max 1 uses } else r

/-- A release changes its slot and the checkpoint's note of it alone (R150). -/
theorem State.releaseLantern_eq {s : State} {unit i : Nat} {u : LanternUse} (use : s.useOf i = some u)
    (shown : (s.lantern i).phase = lit) (counted : u.held = false) (reads : u.units.contains unit = true)
    (first : (s.lantern i).released.contains unit = false) (k : Nat) :
    ∃ lanterns, s.releaseLantern k unit i =
        { s with sheets := { s.sheets with lanterns := lanterns }, checkpoints := (s.touchLantern k i).checkpoints } ∧
      ∀ j, (s.releaseLantern k unit i).lantern j =
        if j = i then (s.lantern i).consumed unit u.units.length (s.planUses i).length else s.lantern j := by
  have index := s.lantern_index i
  let released := { s.lantern i with released := unit :: (s.lantern i).released }
  let t := (s.setLantern released).touchLantern k i
  have reads₁ (j : Nat) : t.lantern j = if j = i then released else s.lantern j :=
    (s.lantern_setLantern released j).trans (by simp only [released, index])
  have eq : s.releaseLantern k unit i =
      if (s.lantern i).released.length + 1 = u.units.length then t.advanceLantern i else t := by
    unfold State.releaseLantern
    simp only [use]
    rw [if_pos ⟨shown, by simp [counted], reads, by simp only [first]; rfl⟩]
  rw [eq]
  by_cases last : (s.lantern i).released.length + 1 = u.units.length
  · simp only [if_pos last]
    refine ⟨_, rfl, fun j => ?_⟩
    rw [State.advanceLantern, State.lantern_setLantern, reads₁, reads₁, if_pos rfl]
    simp only [released, index, LanternState.consumed, if_pos last]
    split <;> rfl
  · simp only [if_neg last]
    refine ⟨_, rfl, fun j => ?_⟩
    simp only [reads₁, released, LanternState.consumed, if_neg last]

/-- A raise changes its slot, the checkpoint's note of it and the counters alone (R150). -/
theorem State.raiseLantern_frame (s : State) (unit i time n : Nat) :
    let t := s.raiseLantern unit i time n
    { t with sheets := { t.sheets with lanterns := s.sheets.lanterns }, checkpoints := s.checkpoints, counters := s.counters } = s ∧
      t.checkpoints.map (·.undo) = s.checkpoints.map (·.undo) := by
  dsimp only
  unfold State.raiseLantern
  dsimp only
  split
  · split
    · refine ⟨?_, ?_⟩
      · unfold State.count
        dsimp only
        split <;> rfl
      · simp only [State.count_frame]
        exact State.undo_touchLantern _ _ _
    · exact ⟨rfl, rfl⟩
  · exact ⟨rfl, rfl⟩

/-- A completion in a run that names a slot (R150). -/
theorem effDescriptorComplete_named {s : State} {l : BitVec 16} (up : s.up = true) (run : s.inRun = true)
    (named : l.toNat ≠ noLantern) (ok : lanternOk l.toNat = true) (k : Fin 16) (u : BitVec 16) :
    effDescriptorComplete k u l true s = s.releaseLantern k.val u.toNat l.toNat ∧
      ∀ x o, s.useOf l.toNat = some x → s.occOf x.cadence = some o →
        effDescriptorComplete k u l false s = s.raiseLantern u.toNat l.toNat (s.stepTime o.step) o.step := by
  have due : (!s.up || !s.inRun || l.toNat == noLantern || !lanternOk l.toNat) = false := by simp [up, run, named, ok]
  refine ⟨by simp [effDescriptorComplete, due], fun x o use occ => ?_⟩
  simp [effDescriptorComplete, due, use, occ]

end Sys2Proof.Machine

open Sys2Proof Sys2Proof.Machine

/-- Settles O21: a consumer's completion is the release of its slot, and a producer's the raise. -/
theorem lanternsLightAndRelease : Obligations.LanternsLightAndRelease := by
  refine ⟨fun k u l x s up run named ok use shown counted reads first => ?_,
    fun k u l x o s up run named ok use occ fills producer => ?_⟩
  · obtain ⟨lanterns, eq, after⟩ := State.releaseLantern_eq use shown counted reads first k.val
    have own := after l.toNat
    rw [if_pos rfl] at own
    refine ⟨_, congrArg Host.Outcome.next (effDescriptorComplete_named up run named ok k u).1, ?_, fun last => ?_, fun more => ?_,
      ?_, fun j other => (after j).trans (if_neg other), ?_, ?_⟩
    · rw [own, LanternState.consumed]
      split <;> rfl
    · rw [own, LanternState.consumed, if_pos last]
      exact ⟨rfl, rfl⟩
    · rw [own, LanternState.consumed, if_neg more]
      exact ⟨shown, rfl⟩
    · rw [own, LanternState.consumed]
      split <;> rfl
    · rw [eq]
      exact s.undo_touchLantern _ _
    · rw [eq]
  · have after (j : Nat) := State.lantern_raiseLantern use producer fills (s.stepTime o.step) o.step j
    obtain ⟨frame, undo⟩ := s.raiseLantern_frame u.toNat l.toNat (s.stepTime o.step) o.step
    refine ⟨_, congrArg Host.Outcome.next ((effDescriptorComplete_named up run named ok k u).2 x o use occ), ?_, ?_,
      fun j other => (after j).trans (if_neg other), undo, frame⟩
    · rw [after, if_pos rfl]
    · rw [after, if_pos rfl]

end

section
/-! SUPPORT. What a descriptor's work leaves of the work that waits, how a granted wait goes on, and the statement about lantern
waits, the watchdog, lendable windows and the tag view (R151, R155, R156, R160, R162, R164). -/

namespace Sys2Proof.Machine

/-! What waits at lanterns, arrays and vision engines. -/

/-- The lantern waits, the lists of the arrays and the vision engines. -/
structure WaitView where
  waits : List LanternWaiter
  queues : List (List ArrayJob)
  vision : List VisionUnit

@[reducible] def State.waitView (s : State) : WaitView where
  waits := s.sheets.waits
  queues := s.arrays.map (·.queue)
  vision := s.vision

theorem waitView_foldl {α : Type} {f : State → α → State} (hf : ∀ s x, (f s x).waitView = s.waitView) (l : List α) (s : State) :
    (l.foldl f s).waitView = s.waitView := foldl_keeps State.waitView f l (fun x _ s => hf s x) s

@[simp] theorem State.waitView_setLantern (s : State) (l : LanternState) : (s.setLantern l).waitView = s.waitView := rfl
@[simp] theorem State.waitView_touchLantern (s : State) (k i : Nat) : (s.touchLantern k i).waitView = s.waitView := rfl
@[simp] theorem State.waitView_logUndo (s : State) (k a n : Nat) : (s.logUndo k a n).waitView = s.waitView := rfl
@[simp] theorem State.waitView_forgetTensors (s : State) (a n : Nat) : (s.forgetTensors a n).waitView = s.waitView := rfl
@[simp] theorem State.waitView_noteTensor (s : State) (t : TensorNote) : (s.noteTensor t).waitView = s.waitView := rfl
@[simp] theorem State.waitView_carryNotes (s : State) (src n dst : Nat) : (s.carryNotes src n dst).waitView = s.waitView := rfl
@[simp] theorem State.waitView_satReg (s : State) (a n : Nat) : (s.satReg a n).waitView = s.waitView := rfl
@[simp] theorem State.waitView_answer (s : State) (b o c : Nat) : (s.answer b o c).waitView = s.waitView := rfl
@[simp] theorem State.waitView_takeDraws (s : State) (k step unit stream n : Nat) :
    (s.takeDraws k step unit stream n).2.waitView = s.waitView := rfl

@[simp] theorem State.waitView_count (s : State) (die ev inst n : Nat) : (s.count die ev inst n).waitView = s.waitView := by
  simp [State.waitView]

@[simp] theorem State.waitView_store (s : State) (a : Nat) (bs : Bytes) : (s.store a bs).waitView = s.waitView := by
  obtain ⟨x, hx⟩ := s.store_eq a bs
  rw [hx]

@[simp] theorem State.waitView_fillLantern (s : State) (u i : Nat) : (s.fillLantern u i).waitView = s.waitView := by
  unfold State.fillLantern
  dsimp only
  split
  · split
    · rw [State.waitView_touchLantern, State.waitView_setLantern]
    · rfl
  · rfl

@[simp] theorem State.waitView_raiseLantern (s : State) (u i t n : Nat) : (s.raiseLantern u i t n).waitView = s.waitView := by
  unfold State.raiseLantern
  dsimp only
  split
  · split
    · rw [State.waitView_count, State.waitView_touchLantern, State.waitView_setLantern]
    · rfl
  · rfl

@[simp] theorem State.waitView_releaseLantern (s : State) (k u i : Nat) : (s.releaseLantern k u i).waitView = s.waitView := by
  unfold State.releaseLantern
  dsimp only
  split
  · split
    · split <;> rfl
    · rfl
  · rfl

@[simp] theorem State.waitView_dirtyTiles (s : State) (a n : Nat) : (s.dirtyTiles a n).waitView = s.waitView := by
  unfold State.dirtyTiles
  split
  · rfl
  · exact waitView_foldl (fun s i => State.waitView_setLantern _ _) _ s

@[simp] theorem State.waitView_writeBeats (s : State) (a n : Nat) : (s.writeBeats a n).waitView = s.waitView := by
  unfold State.writeBeats
  split
  · rfl
  · exact waitView_foldl (fun s i => State.waitView_count _ _ _ _ _) _ s

@[simp] theorem State.waitView_tagRange (s : State) (a n t m u : Nat) : (s.tagRange a n t m u).waitView = s.waitView := by
  unfold State.tagRange
  split <;> rfl

@[simp] theorem State.waitView_cstore (s : State) (k u a : Nat) (bs : Bytes) : (s.cstore k u a bs).waitView = s.waitView := by
  unfold State.cstore
  dsimp only
  rw [State.waitView_forgetTensors, State.waitView_tagRange, State.waitView_writeBeats, State.waitView_dirtyTiles,
    State.waitView_store, State.waitView_logUndo]

@[simp] theorem State.waitView_cleanTiles (s : State) (a n other : Nat) : (s.cleanTiles a n other).waitView = s.waitView := by
  unfold State.cleanTiles
  split
  · rfl
  · refine waitView_foldl (fun s i => ?_) _ s
    split <;> rfl

@[simp] theorem State.waitView_recordAnchors (s : State) (f addr bytes stride : Nat) (rows : List (List Nat)) :
    (s.recordAnchors f addr bytes stride rows).waitView = s.waitView := by
  unfold State.recordAnchors
  split <;> rfl

@[simp] theorem State.waitView_arrayStore (s : State) (d : ArrayDesc) (a : Nat) (bs : Bytes) :
    (s.arrayStore d a bs).waitView = s.waitView := by
  rw [State.arrayStore, State.waitView_cstore]
  exact waitView_foldl (fun s _ => State.waitView_fillLantern s _ _) _ s

/-- A change of an array beside its list. -/
theorem State.waitView_updArray (s : State) (a : Nat) {f : ArrayUnit → ArrayUnit} (keeps : ∀ u, (f u).queue = u.queue) :
    (s.updArray a f).waitView = s.waitView := by
  have queues : (s.arrays.modify a f).map (·.queue) = s.arrays.map (·.queue) := by
    refine List.ext_getElem? fun i => ?_
    rw [List.getElem?_map, List.getElem?_map, List.getElem?_modify]
    split
    · cases s.arrays[i]? <;> simp [keeps]
    · simp
  exact congrArg (fun q => WaitView.mk s.sheets.waits q s.vision) queues

@[simp] theorem State.waitView_countArray (s : State) (a k sat nf ops : Nat) :
    (s.countArray a k sat nf ops).waitView = s.waitView := by
  rw [State.countArray, State.waitView_count]
  exact s.waitView_updArray a fun _ => rfl

@[simp] theorem State.waitView_writeTensor (s : State) (a : Nat) (d : ArrayDesc) (out : List (List DOut)) :
    (s.writeTensor a d out).waitView = s.waitView := by
  rw [State.writeTensor, State.waitView_countArray, State.waitView_noteTensor, State.waitView_recordAnchors,
    State.waitView_arrayStore]

@[simp] theorem State.waitView_genBlocks (s : State) (a : Nat) (d : ArrayDesc) : (s.genBlocks a d).waitView = s.waitView := by
  unfold State.genBlocks
  extract_lets occ img m stream r t ws raw par put weights
  have stored (bs : Bytes) : (t.arrayStore d d.dst.toNat bs).waitView = s.waitView := State.waitView_arrayStore t _ _ _
  have puts (vs : List DVal) : (put vs).waitView = s.waitView := by
    unfold put
    rw [State.waitView_countArray, stored]
  split
  case h_1 | h_3 => exact stored _
  all_goals exact puts _

@[simp] theorem State.waitView_stageBytes (s : State) (d : ArrayDesc) (gather : List (Option Nat)) :
    (s.stageBytes d gather).waitView = s.waitView := by
  unfold State.stageBytes
  dsimp only
  split_ifs <;> simp only [State.waitView_recordAnchors, State.waitView_carryNotes, State.waitView_cleanTiles,
    State.waitView_arrayStore]

/-- A descriptor's work touches nothing that waits. -/
theorem State.waitView_arrayWork (s : State) (a : Nat) (j : ArrayJob) : (s.arrayWork a j).waitView = s.waitView := by
  unfold State.arrayWork
  split
  · rw [State.loadSlice, State.waitView_countArray]
    exact s.waitView_updArray a fun _ => rfl
  · unfold State.streamRows
    dsimp only
    split
    · rfl
    · split
      · rw [State.waitView_countArray]
        exact s.waitView_updArray a fun _ => rfl
      · exact s.waitView_updArray a fun _ => rfl
  · rw [State.drainRows, State.waitView_updArray, State.waitView_writeTensor]
    exact fun _ => rfl
  · rw [State.joinRows, State.waitView_noteTensor, State.waitView_arrayStore]
    exact s.waitView_updArray a fun _ => rfl
  · rw [State.vecRows, State.storeResults, State.waitView_writeTensor]
  · rw [State.reduceRows, State.storeResults, State.waitView_writeTensor]
  · exact s.waitView_genBlocks a _
  · exact s.waitView_stageBytes _ _
  · rfl

theorem State.waitView_completeDesc (s : State) (k unit wait raise : Nat) :
    (s.completeDesc k unit wait raise).waitView = s.waitView := by
  unfold State.completeDesc
  dsimp only
  split_ifs <;> simp only [State.waitView_raiseLantern, State.waitView_releaseLantern]

theorem State.waitView_finishArray (s : State) (a : Nat) (j : ArrayJob) : (s.finishArray a j).waitView = s.waitView := by
  rw [State.finishArray, State.waitView_satReg, State.waitView_completeDesc, State.waitView_arrayWork, State.waitView_count,
    State.waitView_answer]

theorem State.queue_of_waitView {s t : State} (h : t.waitView = s.waitView) (b : Nat) : (t.array b).queue = (s.array b).queue := by
  have queue (s : State) : (s.array b).queue = (s.waitView.queues[b]?).getD [] := by
    rw [State.array, List.getD_eq_getElem?_getD, List.getElem?_map]
    cases s.arrays[b]? <;> rfl
  rw [queue, queue, h]

/-! Waiting work that does not go on. -/

theorem State.resumeFusion_idle {s : State} {u : Nat} (h : s.fusion.due = [] ∨ u ≠ s.fusionUnit) : s.resumeFusion u = s := by
  unfold State.resumeFusion
  split
  · next own =>
    have due : s.fusion.due = [] := h.resolve_right fun other => other own
    rw [due, List.foldl_nil, ← due]
  · rfl

theorem State.wakeArray_idle {s : State} {a : Nat} {passes : Nat → Bool}
    (h : ∀ j l, (s.array a).queue = j :: l → passes j.desc.unit.toNat = false) : s.wakeArray a passes = s := by
  unfold State.wakeArray
  split
  · next j l eq => rw [if_neg (by simp [h j l eq])]
  · rfl

theorem State.resumeCluster_idle {s : State} {v : Nat} {passes : Nat → Bool}
    (h : ∀ e < 4, ∀ x, (s.vision.getD v default).waitingUnit e = some x → passes x = false) : s.resumeCluster v passes = s := by
  unfold State.resumeCluster
  refine List.foldlRecOn (List.range 4) _ (motive := (· = s)) rfl fun t same e here => ?_
  subst same
  dsimp only
  split
  · next x eq => rw [if_neg (by simp [h e (List.mem_range.mp here) x eq])]
  · rfl

/-- What a unit's idleness says of the arrays and the vision engines, of those that are not there too. -/
theorem State.unitIdle_parts {s : State} {u : Nat} (h : s.unitIdle u = true) :
    (s.fusion.due = [] ∨ u ≠ s.fusionUnit) ∧
      (∀ a j l, (s.array a).queue = j :: l → (j.desc.unit.toNat == u) = false) ∧
      ∀ v, ∀ e < 4, ∀ x, (s.vision.getD v default).waitingUnit e = some x → (x == u) = false := by
  unfold State.unitIdle at h
  simp only [Bool.and_eq_true, Bool.or_eq_true, List.all_eq_true, beq_iff_eq, bne_iff_ne, List.mem_range] at h
  obtain ⟨⟨fusion, arrays⟩, vision⟩ := h
  refine ⟨fusion, fun a j l eq => ?_, fun v e low x eq => ?_⟩
  · rw [State.array, List.getD_eq_getElem?_getD] at eq
    cases found : s.arrays[a]? with
    | none => simp [found, default, instInhabitedArrayUnit.default] at eq
    | some y =>
      have := arrays y (List.mem_of_getElem? found)
      simp_all
  · rw [List.getD_eq_getElem?_getD] at eq
    cases found : s.vision[v]? with
    | none => simp [found, default, instInhabitedVisionUnit.default, VisionUnit.waitingUnit] at eq
    | some y =>
      have := vision y (List.mem_of_getElem? found) e low
      simp_all

/-- With no work of the unit that waits, nothing goes on. -/
theorem State.resumeUnit_idle {s : State} {u : Nat} (h : s.unitIdle u = true) : s.resumeUnit u = s := by
  obtain ⟨fusion, arrays, vision⟩ := State.unitIdle_parts h
  have woken : (List.range 4).foldl (fun s a => s.wakeArray a (fun x => x == u)) s = s :=
    List.foldlRecOn (List.range 4) _ (motive := (· = s)) rfl fun t same a _ => by
      subst same
      exact State.wakeArray_idle (arrays a)
  have resumed : (List.range 2).foldl (fun s v => s.resumeCluster v (fun x => x == u)) s = s :=
    List.foldlRecOn (List.range 2) _ (motive := (· = s)) rfl fun t same v _ => by
      subst same
      exact State.resumeCluster_idle (vision v)
  rw [State.resumeUnit, State.resumeFusion_idle fusion, woken, resumed]

/-! A descriptor that waited goes on (R151). -/

/-- A descriptor that fits is issued, works and completes (R99, R134). -/
theorem State.arrayIssue_fit {s : State} {a : Fin 4} {j : ArrayJob} (service : s.inService (arrayRegion a) = true)
    (fit : s.arrayFit a j = true) : s.arrayIssue a j = ((s.awaiting a j).finishArray a j, true) := by
  obtain ⟨ok, memory, waited, order⟩ : s.arrayOk a j.op j.desc = true ∧
      s.memoryWaits (arrayRegion a) (arrayReads j ++ arrayWrites j) = false ∧ s.waitOver j.desc.unit j.desc.wait = true ∧
      s.orderBroken j.desc.unit.toNat [j.desc.wait.toNat] (arrayReads j) (arrayWrites j) = none := by
    simpa [State.arrayFit, and_assoc] using fit
  obtain ⟨free, same, ended⟩ := s.asking_same a j
  have granted := (State.await_over ((ended _ _).trans waited) j.desc.ctx.cadence).1
  rw [← free] at memory
  rw [← same] at order
  simp only [State.awaiting, State.asking] at memory granted order ⊢
  simp [State.arrayIssue, ok, service, memory, granted, order]

/-- A descriptor that is issued reports Served and counts one descriptor more (R134, R138). -/
theorem State.finishArray_shows (s : State) (a : Fin 4) (j : ArrayJob) :
    ((s.awaiting a j).finishArray a j).reports s (blockArray a) served 0 ∧
      ((s.awaiting a j).finishArray a j).reg (arrayReg a 0x28) = min (s.reg (arrayReg a 0x28) + 1) (2 ^ 32 - 1) := by
  let u := s.awaiting a j
  let v := (u.answer (blockArray a) served 0).count (1 + a / 2) 0x11 (a % 2) 1
  let t := (v.arrayWork a j).completeDesc j.desc.ctx.cadence j.desc.unit.toNat j.desc.wait.toNat j.desc.raise.toNat
  have regs : t.regs = (u.answer (blockArray a) served 0).regs :=
    (congrArg WorkView.regs ((State.workView_completeDesc _ _ _ _ _).trans (State.workView_arrayWork v a j))).trans
      (State.count_frame _ _ _ _ _).2.2.1
  obtain ⟨-, -, -, -, answers, time, -⟩ := s.awaiting_frame a j
  have shown (r : Nat) (lo : r ≠ arrayReg a 0x20) (hi : r ≠ arrayReg a 0x20 + 4) : u.reg r = s.reg r :=
    (s.awaiting_reg a j r).trans (s.reg_setReg64_ne _ _ lo hi)
  obtain ⟨count, countLo, countHi, lo, hi⟩ : arrayReg a 0x28 ≠ blockArray a ∧ arrayReg a 0x28 ≠ arrayReg a 0x20 ∧
      arrayReg a 0x28 ≠ arrayReg a 0x20 + 4 ∧ blockArray a ≠ arrayReg a 0x20 ∧ blockArray a ≠ arrayReg a 0x20 + 4 := by
    unfold arrayReg
    omega
  refine ⟨State.reports_of_answer (u := u) ⟨shown _ lo hi, answers, time⟩ ?_, ?_⟩
  · exact (State.reg_satReg_ne t _ _ _ count.symm).trans (State.reg_congr _ _ regs _)
  · refine (State.reg_satReg t _ _).trans ?_
    rw [State.reg_congr _ _ regs, State.answer, State.reg_answerAt_ne _ _ _ _ _ _ count, shown _ countLo countHi]

/-- Of arrays that are woken in turn, the one that goes on does so once. -/
theorem foldl_wakeArray {p q : State} {a : Nat} {passes : Nat → Bool} (own : p.wakeArray a passes = q)
    (others : ∀ b, b ≠ a → p.wakeArray b passes = p) (done : ∀ b, q.wakeArray b passes = q) {l : List Nat} (here : a ∈ l) :
    l.foldl (fun s b => s.wakeArray b passes) p = q := by
  have rest (l : List Nat) : l.foldl (fun s b => s.wakeArray b passes) q = q :=
    List.foldlRecOn l _ (motive := (· = q)) rfl fun t same b _ => same ▸ done b
  induction l with
  | nil => cases here
  | cons b l ih =>
    rw [List.foldl_cons]
    by_cases first : b = a
    · rw [first, own, rest]
    · rw [others b first]
      exact ih ((List.mem_cons.mp here).resolve_left (Ne.symm first))

/-- A granted wait adds none to those that stand. -/
theorem State.mem_awaiting {s : State} {a : Nat} {j : ArrayJob} {w : LanternWaiter}
    (granted : s.waitGranted j.desc.unit.toNat j.desc.wait.toNat = true) (stands : w ∈ (s.awaiting a j).sheets.waits) :
    w ∈ s.sheets.waits := by
  obtain ⟨x, hx⟩ := s.asking_eq a j
  have still : ({ s with regs := x } : State).waitGranted j.desc.unit.toNat j.desc.wait.toNat = true := granted
  rw [State.awaiting, hx, State.await, if_pos still] at stands
  split at stands
  · exact stands
  · exact List.mem_of_mem_filter stands

theorem State.waiting_of_visionIdle {s : State} (idle : s.visionIdle = true) (v e : Nat) :
    (s.vision.getD v default).waitingUnit e = none := by
  rw [List.getD_eq_getElem?_getD]
  cases found : s.vision[v]? with
  | none => rfl
  | some x =>
    have empty := List.all_eq_true.mp idle x (List.mem_of_getElem? found)
    simp only [Bool.and_eq_true, beq_iff_eq] at empty
    simp [VisionUnit.waitingUnit, empty]

/-- Waiting and working leave the lists of the arrays and the vision engines. -/
theorem State.finishArray_lists (s : State) (a : Nat) (j : ArrayJob) :
    (∀ b, (((s.awaiting a j).finishArray a j).array b).queue = (s.array b).queue) ∧
      ((s.awaiting a j).finishArray a j).arrays.length = s.arrays.length ∧
      ((s.awaiting a j).finishArray a j).vision = s.vision ∧
      ((s.awaiting a j).finishArray a j).sheets.waits = (s.awaiting a j).sheets.waits := by
  have view := (s.awaiting a j).waitView_finishArray a j
  obtain ⟨-, -, arrays, -⟩ := s.awaiting_frame a j
  have vision : (s.awaiting a j).vision = s.vision := by
    obtain ⟨x, hx⟩ := (s.asking a j).await_eq j.desc.ctx.cadence j.desc.unit.toNat j.desc.wait.toNat
    obtain ⟨y, hy⟩ := s.asking_eq a j
    rw [State.awaiting, hx, hy]
  generalize (s.awaiting a j).finishArray a j = r at *
  refine ⟨fun b => ?_, ?_, ?_, congrArg WaitView.waits view⟩
  · rw [State.queue_of_waitView view, State.array_of_arrays arrays]
  · simpa [arrays] using congrArg (fun v => v.queues.length) view
  · exact (congrArg WaitView.vision view).trans vision

/-- Of the work that a unit's granted wait lets go on, an array's only descriptor is issued and done (R151). -/
theorem State.resumeUnit_arrayJob {s r : State} {a : Fin 4} {j : ArrayJob} (four : s.arrays.length = 4)
    (queue : (s.array a).queue = [j]) (others : ∀ b, b ≠ a.val → (s.array b).queue = []) (idle : s.visionIdle = true)
    (due : s.fusion.due = []) (issue : s.arrayIssue a j = (r, true)) (queues : ∀ b, (r.array b).queue = (s.array b).queue)
    (length : r.arrays.length = s.arrays.length) (vision : r.vision = s.vision) :
    ((s.resumeUnit j.desc.unit.toNat).array a).queue = [] ∧ (s.resumeUnit j.desc.unit.toNat).regs = r.regs ∧
      (s.resumeUnit j.desc.unit.toNat).sheets = r.sheets := by
  obtain ⟨q, done⟩ : ∃ q, q = r.updArray a (fun u => { u with queue := u.queue.drop 1 }) := ⟨_, rfl⟩
  have present : a.val < r.arrays.length := by omega
  have empty (b : Nat) : (q.array b).queue = [] := by
    by_cases own : b = a.val
    · rw [done, own, State.array_updArray_self _ present]
      simp [queues, queue]
    · rw [done, State.array_updArray_ne _ _ own, queues, others b own]
  have still : q.vision = s.vision := by rw [done, ← vision]; rfl
  have woken : (List.range 4).foldl (fun s b => s.wakeArray b (fun x => x == j.desc.unit.toNat)) s = q := by
    refine foldl_wakeArray (a := a) ?_ (fun b other => State.wakeArray_idle ?_) (fun b => State.wakeArray_idle ?_)
      (List.mem_range.mpr a.isLt)
    · simp [State.wakeArray, queue, State.resumeArray, issue, done]
    · simp [others b other]
    · simp [empty]
  have resumed : (List.range 2).foldl (fun s v => s.resumeCluster v (fun x => x == j.desc.unit.toNat)) q = q :=
    List.foldlRecOn (List.range 2) _ (motive := (· = q)) rfl fun t same v _ => by
      subst same
      refine State.resumeCluster_idle fun e _ x eq => ?_
      rw [still, State.waiting_of_visionIdle idle] at eq
      cases eq
  rw [State.resumeUnit, State.resumeFusion_idle (.inl due), woken, resumed]
  exact ⟨empty a, by rw [done]; rfl, by rw [done]; rfl⟩

/-- A block's report depends on the registers, and what came before on its answers. -/
theorem State.reports.congr {r p s t : State} {b o c : Nat} (h : r.reports p b o c) (regs : t.regs = r.regs)
    (alike : p.answersAlike s b) : t.reports s b o c := by
  unfold State.reports at h ⊢
  rw [State.fld_congr _ _ regs, State.fld_congr _ _ regs, h, alike.keptAnswer]

/-- What the descriptor that goes on leaves (R99, R134, R151). -/
theorem State.resumeUnit_issues {s : State} {a : Fin 4} {j : ArrayJob} (four : s.arrays.length = 4)
    (queue : (s.array a).queue = [j]) (others : ∀ b, b ≠ a.val → (s.array b).queue = []) (idle : s.visionIdle = true)
    (due : s.fusion.due = []) (service : s.inService (arrayRegion a) = true) (fit : s.arrayFit a j = true)
    (granted : s.waitGranted j.desc.unit.toNat j.desc.wait.toNat = true) :
    ((s.resumeUnit j.desc.unit.toNat).array a).queue = [] ∧
      (s.resumeUnit j.desc.unit.toNat).reports s (blockArray a) served 0 ∧
      (s.resumeUnit j.desc.unit.toNat).reg (arrayReg a 0x28) = min (s.reg (arrayReg a 0x28) + 1) (2 ^ 32 - 1) ∧
      ∀ w ∈ (s.resumeUnit j.desc.unit.toNat).sheets.waits, w ∈ s.sheets.waits := by
  obtain ⟨queues, length, vision, waiting⟩ := s.finishArray_lists a j
  obtain ⟨reports, count⟩ := s.finishArray_shows a j
  obtain ⟨empty, regs, sheets⟩ :=
    State.resumeUnit_arrayJob four queue others idle due (State.arrayIssue_fit service fit) queues length vision
  refine ⟨empty, reports.congr regs ⟨rfl, rfl, rfl⟩, (State.reg_congr _ _ regs _).trans count, fun w stands => ?_⟩
  rw [sheets, waiting] at stands
  exact State.mem_awaiting granted stands

/-- A wait that R151 grants ends, and the work of its unit goes on. -/
theorem effLanternGrant_granted {s : State} {u l : BitVec 16} (up : s.up = true)
    (waits : s.sheets.waits.any (fun w => w.unit == u.toNat && w.lantern == l.toNat) = true)
    (granted : s.waitGranted u.toNat l.toNat = true) :
    effLanternGrant u l s = (s.dropWait u.toNat l.toNat).resumeUnit u.toNat := by
  simp [effLanternGrant, up, waits, granted]

/-! The watchdog (R156). -/

/-- A wait that has reached its limit starts anew, before its error is detected. -/
def State.watchdogRaised (s : State) (w : LanternWaiter) (l : Nat) : State :=
  let again (x : LanternWaiter) : LanternWaiter := if x = w then { x with since := s.now } else x
  ({ s with sheets := { s.sheets with waits := s.sheets.waits.map again } } : State).event (gsPage (lanternSheet l) + 0xC) 3 false 0

theorem State.watchdogRaised_spec (s : State) (w : LanternWaiter) (l : Nat) :
    let t := s.watchdogRaised w l
    t.faults = s.faults ∧ t.mem = s.mem ∧ t.steps = s.steps ∧ t.trail = s.trail ∧ t.time = s.time ∧
      bitAt (t.reg (gsPage (lanternSheet l) + 0xC)) 3 = true ∧
      (w ∈ s.sheets.waits → { w with since := s.now } ∈ t.sheets.waits) := by
  refine ⟨by simp [State.watchdogRaised], by simp [State.watchdogRaised], by simp [State.watchdogRaised],
    by simp [State.watchdogRaised], by simp [State.watchdogRaised], State.bitAt_event _ _ 3 false 0 (by decide), fun here => ?_⟩
  simp only [State.watchdogRaised, State.event_frame]
  exact List.mem_map.mpr ⟨w, here, if_pos rfl⟩

theorem effLanternWatchdog_due {s : State} {u l : BitVec 16} {w : LanternWaiter} (up : s.up = true)
    (found : s.sheets.waits.find? (fun w => w.unit == u.toNat && w.lantern == l.toNat) = some w)
    (on : s.watchdogOn l.toNat = true) (waits : s.waitGranted u.toNat l.toNat = false)
    (runs : s.producerStalled l.toNat = false) (limit : w.since + s.watchdogLimit l.toNat ≤ s.now) :
    effLanternWatchdog u l s = (s.watchdogRaised w l.toNat).detect (dieRegion (sheetDieOf l.toNat)) 3 0 (lanternAddr l.toNat) []
      (s.producerOf l.toNat) [] 1 := by
  unfold effLanternWatchdog
  simp only [found]
  rw [if_pos ⟨up, on, by simp [waits], by simp [runs], limit⟩]
  rfl

/-! Lent memory and the tag view (R160, R162, R164). -/

/-- What the close of a window does to a tile (R162, R468). -/
def Tile.closed (w : LendWindow) (t : Tile) : Tile :=
  let t := if t.movingInto w.memory w.first w.last then { t with dest := none } else t
  if t.inWindow w.memory w.first w.last && !t.dirty then
    { t with loc := match t.home with | some k => .t4 k | none => .never }
  else t

theorem State.closeWindow_tiles (s : State) (w : LendWindow) :
    (s.closeWindow w).tiers.tiles = s.tiers.tiles.map (Tile.closed w) := rfl

/-- A tile that stays in a closed window is dirty. -/
theorem Tile.dirty_of_closed {w : LendWindow} {t : Tile} (h : (t.closed w).inWindow w.memory w.first w.last = true) :
    (t.closed w).dirty = true := by
  unfold Tile.closed at h ⊢
  extract_lets u at h ⊢
  by_cases leaves : (u.inWindow w.memory w.first w.last && !u.dirty) = true
  · rw [if_pos leaves] at h
    rcases home : u.home with _ | _ <;> simp [Tile.inWindow, home] at h
  · rw [if_neg leaves] at h ⊢
    simpa [h] using leaves

/-- A dirty tile stays where it is when its window closes. -/
theorem Tile.closed_dirty (w : LendWindow) {t : Tile} (dirty : t.dirty = true) :
    (t.closed w).index = t.index ∧ (t.closed w).loc = t.loc ∧ (t.closed w).dirty = true := by
  unfold Tile.closed
  dsimp only
  split <;> simp [dirty]

/-- The low words of a value sampled into `n` consecutive registers. -/
def State.sampleWords (s : State) (base v n : Nat) : State :=
  (List.range n).foldl (fun s i => s.setReg (base + 4 * i) (v / 2 ^ (32 * i) % 2 ^ 32)) s

theorem State.sampleWords_spec (s : State) (base v n : Nat) :
    (∀ i, i < n → (s.sampleWords base v n).reg (base + 4 * i) = v / 2 ^ (32 * i) % 2 ^ 32) ∧
      (∀ a, (∀ i, i < n → a ≠ base + 4 * i) → (s.sampleWords base v n).reg a = s.reg a) ∧
      ∃ x, s.sampleWords base v n = { s with regs := x } := by
  induction n with
  | zero => exact ⟨fun i h => absurd h (by omega), fun a _ => rfl, _, rfl⟩
  | succ n ih =>
    obtain ⟨words, others, x, hx⟩ := ih
    have last : s.sampleWords base v (n + 1) =
        (s.sampleWords base v n).setReg (base + 4 * n) (v / 2 ^ (32 * n) % 2 ^ 32) := by
      rw [State.sampleWords, List.range_succ, List.foldl_append, List.foldl_cons, List.foldl_nil, State.sampleWords]
    rw [last]
    refine ⟨fun i low => ?_, fun a apart => ?_, _, by rw [hx]; rfl⟩
    · by_cases top : i = n
      · rw [top, State.reg_setReg_self, Nat.mod_mod]
      · rw [State.reg_setReg_ne _ _ _ _ (by omega), words i (by omega)]
    · rw [State.reg_setReg_ne _ _ _ _ (apart n (by omega)), others a fun i low => apart i (by omega)]

theorem effGsTagSample_readable {s : State} (readable : s.readable = true) (g : Fin 3) :
    effGsTagSample g s =
      (s.sampleWords (gsPage g + 0x24) (s.tagBits (g * 4096 + s.fld ⟨gsPage g + 0x20, 0, 12⟩)) 6).replyWith
        (s.tagBits (g * 4096 + s.fld ⟨gsPage g + 0x20, 0, 12⟩) % 2 ^ 32) := by
  rw [effGsTagSample, if_neg (by simp [readable]), State.sampleWords]

end Sys2Proof.Machine

open Sys2Proof Sys2Proof.Machine

/-- Settles O22: a granted wait by the work that it lets go on, the watchdog by the error that it detects, and a window's close by
what it does to each tile. -/
theorem waitsEndAndWindowsOpenAndClose : Obligations.WaitsEndAndWindowsOpenAndClose := by
  refine ⟨⟨fun u l s up waits granted idle => ?ends, fun a j s up waits granted four queue others idle due service fit => ?issued,
    fun u l w s up found on waits runs limit room => ?watchdog⟩,
    fun i w s up run decl declared service covers closed => ?opens, fun i w s decl covers => ?stays,
    fun i w s up decl isOpen ended => ?closes, fun g s readable => ?sample⟩
  case ends =>
    have done : (s.dropWait u.toNat l.toNat).resumeUnit u.toNat = s.dropWait u.toNat l.toNat := State.resumeUnit_idle idle
    exact ⟨_, congrArg Host.Outcome.next ((effLanternGrant_granted up waits granted).trans done), rfl, rfl⟩
  case issued =>
    obtain ⟨p, dropped⟩ : ∃ p, s.dropWait j.desc.unit.toNat j.desc.wait.toNat = p := ⟨_, rfl⟩
    have still : p.inService (arrayRegion a) = s.inService (arrayRegion a) ∧ p.arrayFit a j = s.arrayFit a j ∧
        p.waitGranted j.desc.unit.toNat j.desc.wait.toNat = s.waitGranted j.desc.unit.toNat j.desc.wait.toNat ∧
        p.arrays = s.arrays ∧ p.vision = s.vision ∧ p.fusion = s.fusion ∧ p.regs = s.regs ∧ p.answers = s.answers ∧
        p.time = s.time := by
      subst dropped
      exact ⟨rfl, rfl, rfl, rfl, rfl, rfl, rfl, rfl, rfl⟩
    obtain ⟨service', fit', granted', arrays, vision, fusion, regs, answers, time⟩ := still
    have array (b : Nat) : p.array b = s.array b := State.array_of_arrays arrays b
    obtain ⟨done, reports, count, waiting⟩ := State.resumeUnit_issues (s := p) (arrays ▸ four) (array a ▸ queue)
      (fun b other => array b ▸ others b other) (by rwa [State.visionIdle, vision]) (fusion ▸ due) (service' ▸ service)
      (fit'.trans fit) (granted'.trans granted)
    rw [← dropped] at waiting
    refine ⟨_, congrArg Host.Outcome.next ((effLanternGrant_granted up waits granted).trans (by rw [dropped])), done,
      reports.congr rfl ⟨State.reg_congr _ _ regs _, answers, time⟩, ?_, fun w stands => ?_⟩
    · rw [count, State.reg_congr _ _ regs]
    · obtain ⟨-, left⟩ := List.mem_filter.mp (waiting w (dropped ▸ stands))
      rw [not_and_or]
      simpa using left
  case watchdog =>
    let p := s.watchdogRaised w l.toNat
    obtain ⟨faults, mem, steps, trail, time, event, again⟩ := s.watchdogRaised_spec w l.toNat
    have room' : p.faults.queue.length < 256 := by rwa [faults]
    obtain ⟨mem', steps', trail', -, -, faults', -⟩ := p.detect_spec (dieRegion (sheetDieOf l.toNat)) 3 0 (lanternAddr l.toNat) []
      (s.producerOf l.toNat) [] 1 room'
    obtain ⟨-, sheets', reg'⟩ := p.detect_frame (dieRegion (sheetDieOf l.toNat)) 3 0 (lanternAddr l.toNat) []
      (s.producerOf l.toNat) [] 1 room'
    have sheet : lanternSheet l.toNat < 4 := bitsOf_lt l.toNat 12 2
    refine ⟨_, congrArg Host.Outcome.next (effLanternWatchdog_due up found on waits runs limit), ?_,
      ⟨_, by rw [faults', faults], rfl, rfl, rfl, rfl, ?_⟩, ?_, mem'.trans mem, steps'.trans steps, trail'.trans trail⟩
    · rw [reg' _ (by unfold gsPage; omega)]
      exact event
    · show (s.watchdogRaised w l.toNat).now = s.now
      rw [State.now, time, State.now]
    · rw [sheets']
      exact again (List.mem_of_find?_eq_some found)
  case opens =>
    refine ⟨_, congrArg Host.Outcome.next ?_, rfl⟩
    unfold effLendableWindowOpen
    simp only [decl]
    exact if_pos ⟨up, run, declared, service, covers, by simp only [closed]; rfl⟩
  case stays =>
    refine congrArg Host.Outcome.next ?_
    simp [effLendableWindowClose, decl, covers]
  case closes =>
    have eq : effLendableWindowClose i s = s.closeWindow w := by
      unfold effLendableWindowClose
      simp only [decl]
      exact if_pos ⟨up, isOpen, by simp only [ended]; rfl⟩
    refine ⟨_, congrArg Host.Outcome.next eq, ?_, fun y here inside => ?_, fun y here _ dirty => ?_, rfl⟩
    · simp [State.closeWindow]
    · obtain ⟨x, -, rfl⟩ := List.mem_map.mp here
      exact Tile.dirty_of_closed inside
    · exact ⟨y.closed w, List.mem_map_of_mem here, Tile.closed_dirty w dirty⟩
  case sample =>
    let v := s.tagBits (g.val * 4096 + s.fld ⟨gsPage g.val + 0x20, 0, 12⟩)
    obtain ⟨words, others, x, frame⟩ := s.sampleWords_spec (gsPage g.val + 0x24) v 6
    have first := words 0 (by omega)
    rw [Nat.mul_zero, Nat.pow_zero, Nat.div_one, Nat.add_zero] at first
    refine ⟨_, congrArg Host.Outcome.next (effGsTagSample_readable readable g), fun i low => ?_, ?_, fun a apart => ?_, ?_⟩
    · rw [State.reg_replyWith]
      exact words i low
    · rw [State.reg_replyWith, first]
      rfl
    · rw [State.reg_replyWith]
      exact others a apart
    · rw [frame]
      rfl

end

section
/-! SUPPORT. Host commands that are not critical, as their ring gives them and as they complete (R498-R502), and the statement about
host objects (R162, R460, R472, R473). -/

namespace Sys2Proof.Machine

/-! The host interface and registers alone. -/

/-- The host interface and registers may differ; nothing else does. -/
def State.HostSide (s t : State) : Prop := ∃ host regs, t = { s with host := host, regs := regs }

namespace State.HostSide

theorem refl (s : State) : s.HostSide s := ⟨_, _, rfl⟩

theorem trans {s t u : State} (h : s.HostSide t) (g : t.HostSide u) : s.HostSide u := by
  obtain ⟨_, _, rfl⟩ := h
  obtain ⟨_, _, rfl⟩ := g
  exact ⟨_, _, rfl⟩

theorem setRing (s : State) (r : Nat) (x : Ring) : s.HostSide (s.setRing r x) := ⟨_, _, rfl⟩
theorem setReg (s : State) (a v : Nat) : s.HostSide (s.setReg a v) := ⟨_, _, rfl⟩
theorem satReg (s : State) (a n : Nat) : s.HostSide (s.satReg a n) := setReg s _ _
theorem hostWrite (s : State) (a : Nat) (bs : Bytes) : s.HostSide (s.hostWrite a bs) := ⟨_, _, rfl⟩

theorem msix (s : State) (v : Nat) : s.HostSide (s.msix v) := by
  unfold State.msix
  split <;> exact ⟨_, _, rfl⟩

theorem event (s : State) (off bit : Nat) (en : Bool) (vec : Nat) : s.HostSide (s.event off bit en vec) := by
  unfold State.event
  split
  · exact (setReg s _ _).trans (msix _ _)
  · exact setReg s _ _

theorem post (s : State) (c : Completion) (quiet : Bool) : s.HostSide (s.post c quiet) := by
  unfold State.post
  split
  · exact refl s
  · split
    · exact ⟨_, _, rfl⟩
    · dsimp only
      split
      · exact (setRing s _ _).trans ⟨_, _, rfl⟩
      · exact .trans ((setRing s _ _).trans ⟨_, _, rfl⟩) (msix _ _)

theorem complete (s : State) (h : CmdHdr) (op o c d : Nat) (r : Bytes) : s.HostSide (s.complete h op o c d r) := post s _ _

theorem completeIn (s : State) (e : Nat) (h : CmdHdr) (op o c d : Nat) (r : Bytes) :
    s.HostSide (s.completeIn e h op o c d r) := by
  unfold State.completeIn
  split
  · exact complete s _ _ _ _ _ _
  · exact refl s

theorem ringError (s : State) (r t op : Nat) : s.HostSide (s.ringError r t op) := by
  unfold State.ringError
  exact ((post s _ _).trans (setRing _ _ _)).trans (event _ _ _ _ _)

theorem skipUnknown (fuel : Nat) (s : State) (r : Nat) : s.HostSide (State.skipUnknown fuel s r) := by
  induction fuel generalizing s with
  | zero => exact refl s
  | succ fuel ih =>
    unfold State.skipUnknown
    split
    · exact refl s
    · split
      · exact refl s
      · dsimp only
        split
        · exact (setRing s _ _).trans (ringError _ _ _ _)
        · exact ((setRing s _ _).trans (post _ _ _)).trans (ih _)

theorem entryTaken (s : State) (h : CmdHdr) : s.HostSide (s.entryTaken h) := (setRing s _ _).trans (skipUnknown _ _ _)

/-- The host interface and registers of another state put back give that state. -/
theorem restored {s t : State} (h : s.HostSide t) : { t with host := s.host, regs := s.regs } = s := by
  obtain ⟨_, _, rfl⟩ := h
  rfl

end State.HostSide

/-! An entry taken (R499, R501, R502). -/

theorem State.take_offers {s : State} {h : CmdHdr} (offered : s.offers h = true) (op : Nat) :
    s.take h op false = .taken (s.entryTaken h) := by
  simp only [State.offers, State.entryOk, Bool.and_eq_true, Bool.or_eq_true, Bool.not_eq_true', beq_iff_eq] at offered
  obtain ⟨⟨⟨ready, flags⟩, body⟩, plain⟩ := offered
  have orderly : ¬(h.flags.toNat / 8 ≠ 0 ∨ (h.flags.getLsbD 1 = true ∧ (!h.bodyReadable) = true)) := by
    rintro (bad | ⟨bulk, unreadable⟩)
    · exact bad flags
    · rw [bulk, (Bool.not_eq_true' _).mp unreadable] at body
      simp at body
  unfold State.take
  dsimp only
  rw [if_neg (by simp [ready]), if_neg orderly, if_neg (by rw [plain]; decide)]
  rfl

/-- A host command that is offered does its work once its entry is taken. -/
theorem State.hostCommand_offers {s : State} {h : CmdHdr} (offered : s.offers h = true) (op : Nat) (f : State → State) :
    s.hostCommand h op f = f (s.entryTaken h) := by
  rw [State.hostCommand, State.take_offers offered]

/-- An entry taken changes no register but the event flags of the host interface (R501). -/
theorem State.reg_entryTaken (s : State) (h : CmdHdr) {a : Nat} (other : a ≠ 0x100008) : (s.entryTaken h).reg a = s.reg a :=
  (State.skipUnknown_reg _ _ _ other).trans (State.reg_congr _ _ (by simp) a)

theorem State.entryTaken_frame (s : State) (h : CmdHdr) :
    (s.entryTaken h).host.epoch = s.host.epoch ∧ (s.entryTaken h).host.written = s.host.written := by
  simp [State.entryTaken]

theorem State.entryTaken_alike (s : State) (h : CmdHdr) {b : Nat} (other : b ≠ 0x100008) : (s.entryTaken h).answersAlike s b :=
  ⟨s.reg_entryTaken h other, by simp [State.entryTaken], by simp [State.entryTaken]⟩

/-- A block that answers a host command, whose entry was taken, reports the answer. -/
theorem State.reports_completed {s u : State} {h : CmdHdr} {b o c op d : Nat} {r : Bytes} (own : u.reg b = s.reg b)
    (answers : u.answers = s.answers) (time : u.time = s.time) :
    ((u.answer b o c).complete h op o c d r).reports s b o c :=
  State.reports_of_answer ⟨own, answers, time⟩ (State.reg_congr _ _ (by simp) b)

/-- An answer and its completion change the host interface, registers and answers alone. -/
theorem State.completed_eq (u : State) (h : CmdHdr) (b o c op o' c' d : Nat) (r : Bytes) :
    ∃ host regs answers, (u.answer b o c).complete h op o' c' d r = { u with host := host, regs := regs, answers := answers } := by
  obtain ⟨x, y, answered⟩ := u.answer_eq b o c
  obtain ⟨host, regs, completed⟩ := State.HostSide.complete (u.answer b o c) h op o' c' d r
  exact ⟨host, regs, y, by rw [completed, answered]⟩

/-! OBJ_ALLOC (R460, R464, R472, R473). -/

/-- What T3 has free rests on the tiers, on what is out of service, and on four registers. -/
theorem State.t3Free_congr {s t : State} (tiers : t.tiers = s.tiers) (faults : t.faults = s.faults)
    (regs : ∀ a, a ≠ 0x100008 → t.reg a = s.reg a) : t.t3Free = s.t3Free := by
  simp [State.t3Free, State.reservedFrames, State.framesUsed, State.pcsIn, State.grantBytes, State.windowUsable, State.fld,
    tiers, faults, regs]

theorem effObjAlloc_fits {s : State} {h : CmdHdr} {tiles : Nat} (offered : s.offers h = true) (some_ : 0 < tiles)
    (low : 0x8000 ≤ h.tenant.toNat) (high : h.tenant.toNat ≤ 0x80FF)
    (room : tiles ≤ min ((s.quotaOf h.tenant.toNat).t3 - s.allocated h.tenant.toNat) s.t3Free)
    (space : s.tiers.nextTile + tiles ≤ runtimeLastTile) (names : s.tiers.nextId ≤ 0xFFFFFFFE) :
    ∃ res, effObjAlloc h tiles s = (((s.entryTaken h).addObject .host .hot h.tenant.toNat tiles).answer blockMemory served 0).complete
      h 0x0005 served 0 0 res := by
  obtain ⟨host, regs, taken⟩ := State.HostSide.entryTaken s h
  have tiers : (s.entryTaken h).tiers = s.tiers := by rw [taken]
  have free : (s.entryTaken h).t3Free = s.t3Free :=
    State.t3Free_congr tiers (by rw [taken]) fun a other => s.reg_entryTaken h other
  have quota : (s.entryTaken h).quotaOf h.tenant.toNat = s.quotaOf h.tenant.toNat := by simp [State.quotaOf, tiers]
  have held : (s.entryTaken h).allocated h.tenant.toNat = s.allocated h.tenant.toNat := by simp [State.allocated, tiers]
  unfold effObjAlloc
  rw [State.hostCommand_offers offered]
  dsimp only
  rw [free, quota, held, tiers, if_neg (by omega), if_neg (by omega), State.spill, if_pos (by omega)]
  exact ⟨_, rfl⟩

/-! OBJ_FREE (R460). -/

theorem Memory.get_clear (m : Memory) (a n b : Nat) :
    Memory.get (Memory.clear m a n) b = if a ≤ b ∧ b < a + n then 0 else Memory.get m b := by
  unfold Memory.clear Memory.get
  induction m with
  | nil => simp [sparseGet, memReset]
  | cons c m ih =>
    obtain ⟨k, v⟩ := c
    by_cases kept : k < a ∨ a + n ≤ k
    · rw [List.filter_cons_of_pos (by simpa using kept)]
      by_cases here : k = b
      · have outside : ¬(a ≤ b ∧ b < a + n) := by omega
        simp [sparseGet, here, outside]
      · rw [sparseGet, if_neg here, ih, sparseGet, if_neg here]
    · rw [List.filter_cons_of_neg (by simpa using kept), ih]
      by_cases here : k = b
      · have inside : a ≤ b ∧ b < a + n := by omega
        simp [inside]
      · simp [sparseGet, here]

/-- With nothing that waits, the owners of lent memory in which no tile is left go on without a stall (R162). -/
theorem State.endLentWaits_quiet {s : State} (quiet : s.sheets.lent.all (fun x => x.since.isNone) = true) :
    s.endLentWaits =
      { s with sheets := { s.sheets with lent := s.sheets.lent.filter (fun y => s.leftTiles y.memory != []) } } := by
  unfold State.endLentWaits
  refine List.foldlRecOn _ _ (motive := (· = _)) rfl fun t same x here => ?_
  have none_ : x.since = none := by
    simpa using List.all_eq_true.mp quiet x (List.mem_of_mem_filter here)
  rw [none_, same]

/-- What `nothingWaits` says of each unit, of those that are not there too. -/
theorem State.nothingWaits_parts {s : State} (h : s.nothingWaits = true) :
    (∀ a, (s.array a).queue = []) ∧ (∀ v e, (s.vision.getD v default).waitingUnit e = none) ∧
      s.sheets.lent.all (fun x => x.since.isNone) = true ∧ s.tiers.tierWaits = [] := by
  simp only [State.nothingWaits, Bool.and_eq_true, beq_iff_eq] at h
  obtain ⟨⟨⟨arrays, vision⟩, lent⟩, tiers⟩ := h
  refine ⟨fun a => ?_, State.waiting_of_visionIdle vision, lent, tiers⟩
  rw [State.array, List.getD_eq_getElem?_getD]
  cases found : s.arrays[a]? with
  | none => rfl
  | some u => simpa using List.all_eq_true.mp arrays u (List.mem_of_getElem? found)

/-- With no work that waits, no owner goes on. -/
theorem State.resumeOwners_quiet {s : State} (arrays : ∀ a, (s.array a).queue = [])
    (vision : ∀ v e, (s.vision.getD v default).waitingUnit e = none) (old : State) : State.resumeOwners old s = s := by
  unfold State.resumeOwners
  refine List.foldlRecOn _ _ (motive := (· = s)) rfl fun t same m _ => ?_
  subst same
  split
  · exact State.wakeArray_idle (by simp [arrays])
  · exact State.resumeCluster_idle fun e _ x eq => by rw [vision] at eq; cases eq

/-- The tiers once an object is gone. -/
theorem State.dropObject_spec (s : State) (o : Obj) :
    (∀ x ∈ (s.dropObject o).tiers.objects, x.id ≠ o.id) ∧
      (∀ y ∈ (s.dropObject o).tiers.tiles, y.index < o.baseTile ∨ o.baseTile + o.tiles ≤ y.index) ∧
      ∃ tiers, s.dropObject o =
        { s with mem := Memory.clear s.mem (o.baseTile * tileBytes) (o.tiles * tileBytes), tiers := tiers } := by
  refine ⟨fun x here => ?_, fun y here => ?_, _, rfl⟩
  · simpa using (List.mem_filter.mp here).2
  · have outside := (List.mem_filter.mp here).2
    simp only [Bool.not_eq_true', decide_eq_false_iff_not] at outside
    omega

end Sys2Proof.Machine

open Sys2Proof Sys2Proof.Machine

/-- Settles O18: an allocation within quota is `addObject`, and a release is `dropObject` with nothing that goes on. -/
theorem hostObjectsAllocateAndFree : Obligations.HostObjectsAllocateAndFree := by
  refine ⟨fun h tiles s offered some_ low high room space names => ?alloc, fun h id o s offered quiet found => ?free⟩
  case alloc =>
    obtain ⟨res, eq⟩ := effObjAlloc_fits offered some_ low high room space names
    obtain ⟨host, regs, taken⟩ := State.HostSide.entryTaken s h
    obtain ⟨host', regs', answers', done⟩ := ((s.entryTaken h).addObject .host .hot h.tenant.toNat tiles).completed_eq h
      blockMemory served 0 0x0005 served 0 0 res
    obtain ⟨alike, answers, time⟩ := s.entryTaken_alike h (b := blockMemory) (by decide)
    have tiers : (effObjAlloc h tiles s).tiers = (s.addObject .host .hot h.tenant.toNat tiles).tiers := by
      rw [eq, done, taken]
      rfl
    refine ⟨effObjAlloc h tiles s, rfl, tiers, ?_, ?_, ?_, eq ▸ State.reports_completed alike answers time, ?_⟩
    · refine ⟨⟨s.tiers.nextId, .host, .hot, h.tenant.toNat, s.tiers.nextTile, tiles, s.tiers.nextPc⟩, ?_, rfl, rfl, rfl, rfl, rfl⟩
      simp [tiers, State.addObject]
    · rw [tiers, State.addObject]
    · rw [tiers, State.addObject]
    · rw [eq, done, taken]
      rfl
  case free =>
    obtain ⟨queues, engines, lent, -⟩ := State.nothingWaits_parts quiet
    obtain ⟨host, regs, taken⟩ := State.HostSide.entryTaken s h
    obtain ⟨alike, answers, time⟩ := s.entryTaken_alike h (b := blockMemory) (by decide)
    obtain ⟨u, hu⟩ : ∃ u, (s.entryTaken h).dropObject o = u := ⟨_, rfl⟩
    obtain ⟨named, outside, tiers, dropped⟩ := (s.entryTaken h).dropObject_spec o
    obtain ⟨host', regs', answers', done⟩ := u.completed_eq h blockMemory served 0 0x0006 served 0 0 []
    have freed : effObjFree h id s = (u.answer blockMemory served 0).complete h 0x0006 served 0 0 [] := by
      unfold effObjFree
      rw [State.hostCommand_offers offered]
      have found' : (s.entryTaken h).tiers.objects.find?
          (fun o => o.id == id.toNat && o.isHostClient && o.tenant == h.tenant.toNat) = some o := by rw [taken]; exact found
      simp only [found', hu]
    have after : effObjFree h id s =
        { s with
          mem := Memory.clear s.mem (o.baseTile * tileBytes) (o.tiles * tileBytes), tiers := tiers
          host := host', regs := regs', answers := answers' } := by
      rw [freed, done, ← hu, dropped, taken]
    rw [dropped] at named outside
    have ended := State.endLentWaits_quiet (s := effObjFree h id s) (by rw [after]; exact lent)
    have still : State.resumeOwners s (effObjFree h id s).endLentWaits = (effObjFree h id s).endLentWaits :=
      State.resumeOwners_quiet (by rw [ended, after]; exact queues) (by rw [ended, after]; exact engines) s
    have regs : (effObjFree h id s).endLentWaits.regs = (effObjFree h id s).regs := by rw [ended]
    have reports : (effObjFree h id s).reports s blockMemory served 0 := by
      rw [freed]
      exact State.reports_completed (by rw [← hu, dropped]; exact alike) (by rw [← hu, dropped]; exact answers)
        (by rw [← hu, dropped]; exact time)
    refine ⟨_, congrArg Host.Outcome.next still, ?_, ?_, fun a => ?_, fun canonical => ?_,
      reports.congr regs ⟨rfl, rfl, rfl⟩, ?_, ?_⟩
    · rw [ended, after]
      exact named
    · rw [ended, after]
      exact outside
    · rw [ended, after]
      exact Memory.get_clear _ _ _ _
    · rw [ended, after]
      exact Memory.wf_clear _ _ _ canonical
    · rw [ended, after]
      rfl
    · rw [ended, after]

end

section
/-! SUPPORT. Moves between the tiers, fetches and their views, with nothing that goes on after them, and the statement about them
(R162, R464, R467, R473, R476, R485, R489). -/

namespace Sys2Proof.Machine

/-! What a move lets go on. -/

/-- With no descriptor that waits for memory, none goes on (R481). -/
theorem State.resumeHeld_quiet {s : State} (quiet : s.tiers.tierWaits = []) (cause : Nat) : s.resumeHeld cause = s := by
  have ended : s.endTierWaits cause = s := by
    unfold State.endTierWaits
    dsimp only
    rw [quiet, List.filter_nil, List.filter_nil, List.foldl_nil, ← quiet]
  unfold State.resumeHeld
  dsimp only
  rw [ended, quiet]
  rfl

/-- A move after which nothing goes on. -/
theorem execTileMoveComplete_quiet {s u : State} {n : Nat} {to_ : MoveTo} (moved : effTileMoveComplete n to_ none s = u.endLentWaits)
    (arrays : u.arrays = s.arrays) (vision : u.vision = s.vision) (lent : u.sheets.lent = s.sheets.lent)
    (waits : u.tiers.tierWaits = s.tiers.tierWaits) (quiet : s.nothingWaits = true) :
    execTileMoveComplete n to_ none s = .next
      { u with sheets := { u.sheets with lent := s.sheets.lent.filter (fun y => u.leftTiles y.memory != []) } } := by
  obtain ⟨queues, engines, owners, tiers⟩ := State.nothingWaits_parts quiet
  have ended := State.endLentWaits_quiet (s := u) (lent ▸ owners)
  rw [lent] at ended
  rw [execTileMoveComplete, moved, ended, State.resumeOwners_quiet, State.resumeHeld_quiet]
  · exact waits.trans tiers
  · exact fun a => (congrArg ArrayUnit.queue (State.array_of_arrays arrays a)).trans (queues a)
  · intro v e
    show (u.vision.getD v default).waitingUnit e = none
    rw [vision]
    exact engines v e

/-! A tile set (R466). -/

theorem State.index_of_tileAt {s : State} {n : Nat} {x : Tile} (h : s.tileAt n = some x) : x.index = n := by
  simpa using List.find?_some h

/-- A tile that is set reads as set. -/
theorem State.tileAt_setTile {s : State} {n : Nat} {x y : Tile} (h : s.tileAt n = some x) (same : y.index = x.index) :
    (s.setTile y).tileAt n = some y := by
  have own := State.index_of_tileAt h
  have fixes : ∀ z : Tile, (if z.index = y.index then y else z).index == n ↔ z.index == n := fun z => by
    split
    · next e => rw [e, same]
    · rfl
  have found : (s.tiers.tiles.map (fun z => if z.index = y.index then y else z)).find? (fun z => z.index == n) =
      (s.tiers.tiles.find? (fun z => z.index == n)).map (fun z => if z.index = y.index then y else z) := by
    rw [List.find?_map]
    congr 2
    funext z
    exact Bool.eq_iff_iff.mpr (fixes z)
  have found' : s.tiers.tiles.find? (fun z => z.index == n) = some x := h
  rw [State.tileAt]
  show (s.tiers.tiles.map (fun z => if z.index = y.index then y else z)).find? (fun z => z.index == n) = some y
  rw [found, found', Option.map_some, if_pos same.symm]

/-! Counters and moves (R467, R473). -/

theorem State.count_eq (s : State) (die ev inst n : Nat) : ∃ x, s.count die ev inst n = { s with counters := x } := by
  unfold State.count
  dsimp only
  split <;> exact ⟨_, rfl⟩

theorem State.countLent_eq (s : State) (l : TileLoc) : ∃ x, s.countLent l = { s with counters := x } := by
  unfold State.countLent
  split
  · exact s.count_eq _ _ _ _
  · exact s.count_eq _ _ _ _
  · exact ⟨_, rfl⟩

/-- Within quota, and with a frame that is free, a lent tile comes to lie in T3 (R464, R473). -/
theorem effTileMoveComplete_toT3 {s : State} {n m k : Nat} {x : Tile} {o : Obj} (up : s.up = true) (tile : s.tileAt n = some x)
    (object : s.objectAt (n * tileBytes) = some o) (lent : x.loc = .t2 m k)
    (quota : s.t3Used o.tenant < (s.quotaOf o.tenant).t3) (room : 0 < s.t3Free) :
    ∃ c, effTileMoveComplete n .t3 none s =
      (({ s with counters := c } : State).setTile { x with loc := .t3 (s.pickFrame o x.index), dest := none }).endLentWaits := by
  obtain ⟨c, hc⟩ := s.countLent_eq (.t2 m k)
  obtain ⟨c', hc'⟩ := ({ s with counters := c } : State).count_eq 3 0x41 (channelOf (s.pickFrame o x.index)) 1
  refine ⟨c', ?_⟩
  simp [effTileMoveComplete, tile, object, up, State.moveStall, lent, State.moveToT3, quota, room, hc, hc']

/-- A clean tile with a copy in T4 is left to that copy (R467). -/
theorem effTileMoveComplete_toT4 {s : State} {n f k : Nat} {x : Tile} {o : Obj} (up : s.up = true) (tile : s.tileAt n = some x)
    (object : s.objectAt (n * tileBytes) = some o) (here : x.loc = .t3 f) (home : x.home = some k) (clean : x.dirty = false)
    (usable : s.windowUsable = true) (cls : classT4 o.cls = true) (free : s.tilePinned x = false) :
    ∃ c, effTileMoveComplete n .t4 none s =
      (({ s with counters := c } : State).setTile { x with loc := .t4 k, home := some k, dirty := false, dest := none }).endLentWaits := by
  obtain ⟨c, hc⟩ := s.countLent_eq (.t3 f)
  refine ⟨c, ?_⟩
  simp [effTileMoveComplete, tile, object, up, State.moveStall, here, State.moveToT4, home, clean, usable, cls, free, hc]

/-! Fetches (R476, R488). -/

/-- A tile accepted lies clean in T3, in the frame it has or in the one that R464 picks, and keeps its copy in T4 (R467). -/
theorem State.acceptTile_stays {s : State} (stays : s.tiers.withdraw = none) (o : Obj) (x : Tile) (k : Nat) (b : Bytes × Bytes) :
    ∃ c f, s.acceptTile o x k b =
      { ({ s with
          mem := Memory.setBytes s.mem (x.index * tileBytes) b.1
          tiers := { s.tiers with refetched := s.tiers.refetched.filter (fun y => y != x.index) } } : State).setTile
            { x with loc := .t3 f, dest := none, dirty := false, home := some k, tag := tagOfBytes b.2 } with counters := c } := by
  unfold State.acceptTile
  simp only [stays, Bool.false_eq_true, if_false]
  obtain ⟨c, hc⟩ := State.count_eq _ 3 0x41 (channelOf (match x.loc with | .t3 f => f | _ => s.pickFrame o x.index)) 1
  exact ⟨c, _, hc⟩

theorem effT4FetchComplete_opens {s : State} {n k : Nat} {x : Tile} {o : Obj} {data side : Bytes} {b : Bytes × Bytes}
    (up : s.up = true) (usable : s.windowUsable = true) (sound : s.sec.quarantined = false) (tile : s.tileAt n = some x)
    (object : s.objectAt (n * tileBytes) = some o) (slot : x.slot? = some k)
    (opened : openTile s.tiers.hostKey (s.slotEntry k).archive k (s.slotEntry k).counter o.id (x.index - o.baseTile) data side =
      some b) :
    ∃ c, effT4FetchComplete n data side none s = ({ s with counters := c } : State).acceptTile o x k b := by
  obtain ⟨c, hc⟩ := s.count_eq 0 0x43 0 1
  refine ⟨c, ?_⟩
  unfold effT4FetchComplete
  simp only [tile, object, slot]
  rw [if_neg (by simp [up, usable, sound])]
  simp only [State.moveStall, hc]
  have same : ({ s with counters := c } : State).slotEntry k = s.slotEntry k := rfl
  rw [same, opened]

/-! Row repair (R485). -/

/-- A row repaired: its pseudo-channel's traffic goes on, and the repair is counted. -/
def State.rowRepaired (s : State) (row : Nat) : State :=
  { s with tiers := { s.tiers with
      repairing := s.tiers.repairing.filter (fun r => r != row), heldPcs := s.tiers.heldPcs.filter (fun p => p.1 != row) } }

theorem effSoftRowRepairComplete_repairs {s : State} {row : Nat} (up : s.up = true)
    (repairing : s.tiers.repairing.contains row = true) :
    effSoftRowRepairComplete row s = ((s.rowRepaired row).satReg 0x60003C 1).memEvent 3 :=
  if_pos ⟨up, repairing⟩

/-! Views (R489). -/

/-- A tile's view rests on no register. -/
theorem State.tileView_congr {s t : State} {a : Nat} (tiers : t.tiers = s.tiers) (points : t.checkpoints = s.checkpoints) :
    t.tileView a = s.tileView a := by
  unfold State.tileView State.objectAt State.tileAt State.tilePinned State.writersOf State.objectAt
  rw [tiers, points]

/-- The tile query of an address whose low half is held and whose high half is written. -/
theorem effTileQuery_up {s : State} (up : s.up = true) (hi : Word) :
    effTileQuery hi s =
      (((s.consumeLo 0x600060).setReg64 0x600060 (s.loForCommit 0x600060 true + hi.toNat * 2 ^ 32)).setReg 0x600068
        (s.tileView (s.loForCommit 0x600060 true + hi.toNat * 2 ^ 32))) := by
  have view := State.tileView_congr (s := s) (a := s.loForCommit 0x600060 true + hi.toNat * 2 ^ 32)
    (t := (s.consumeLo 0x600060).setReg64 0x600060 (s.loForCommit 0x600060 true + hi.toNat * 2 ^ 32)) (by simp) (by simp)
  rw [← view, effTileQuery, if_neg (by simp [up])]

/-- The tenant view's words: quota and use in T3 and T2, quota in T4, and use of T4 with the spills. -/
def State.tenantWords (s : State) : Nat × Nat × Nat × Nat :=
  let tn := s.fld ⟨0x60004C, 0, 16⟩
  let q := s.quotaOf tn
  (min q.t3 (2 ^ 20 - 1) + min q.t2 2047 * 2 ^ 20, min (s.t3Used tn) (2 ^ 20 - 1) + min (s.t2Used tn) 2047 * 2 ^ 20,
    min q.t4 (2 ^ 27 - 1), min (s.t4Used tn) (2 ^ 27 - 1) + min ((lookupKey tn s.tiers.spillsLast).getD 0) 31 * 2 ^ 27)

theorem State.tenantWords_lt (s : State) : s.tenantWords.1 < 2 ^ 32 ∧ s.tenantWords.2.2.1 < 2 ^ 32 := by
  unfold State.tenantWords
  dsimp only
  omega

/-- A tenant's tiles rest on the tiers alone. -/
theorem State.countTiles_setReg (s : State) (a v tn : Nat) (p : Tile → Bool) :
    (s.setReg a v).countTiles tn p = s.countTiles tn p := by
  unfold State.countTiles State.tenantOf State.objectAt
  simp

/-- The tenant view that shows four words. -/
def State.tenantShown (s : State) (w : Nat × Nat × Nat × Nat) : State :=
  (((s.setReg 0x600050 w.1).setReg 0x600054 w.2.1).setReg 0x600058 w.2.2.1).setReg 0x60005C w.2.2.2

theorem State.tenantShown_spec (s : State) (w : Nat × Nat × Nat × Nat) :
    (s.tenantShown w).reg 0x600050 = w.1 % 2 ^ 32 ∧ (s.tenantShown w).reg 0x600054 = w.2.1 % 2 ^ 32 ∧
      (s.tenantShown w).reg 0x600058 = w.2.2.1 % 2 ^ 32 ∧ (s.tenantShown w).reg 0x60005C = w.2.2.2 % 2 ^ 32 ∧
      ∃ x, s.tenantShown w = { s with regs := x } := by
  unfold State.tenantShown
  refine ⟨?_, ?_, ?_, State.reg_setReg_self _ _ _, _, rfl⟩
  · rw [State.reg_setReg_ne _ _ _ _ (by decide), State.reg_setReg_ne _ _ _ _ (by decide),
      State.reg_setReg_ne _ _ _ _ (by decide), State.reg_setReg_self]
  · rw [State.reg_setReg_ne _ _ _ _ (by decide), State.reg_setReg_ne _ _ _ _ (by decide), State.reg_setReg_self]
  · rw [State.reg_setReg_ne _ _ _ _ (by decide), State.reg_setReg_self]

theorem effTenantViewSample_readable {s : State} (readable : s.readable = true) :
    effTenantViewSample s = (s.tenantShown s.tenantWords).replyWith s.tenantWords.1 := by
  rw [effTenantViewSample, if_neg (by simp [readable])]
  simp only [State.t3Used, State.t2Used, State.t4Used, State.countTiles_setReg, State.setReg_frame, State.tenantWords,
    State.tenantShown]

/-- A word of two fields, the low one of `w` bits, fits a register and gives its low field. -/
theorem bitsOf_pair {a b w : Nat} (low : a < 2 ^ w) (fits : a + b * 2 ^ w < 2 ^ 32) :
    bitsOf ((a + b * 2 ^ w) % 2 ^ 32) 0 w = a := by
  rw [Nat.mod_eq_of_lt fits, bitsOf_eq, Nat.pow_zero, Nat.div_one, Nat.add_mul_mod_self_right, Nat.mod_eq_of_lt low]

end Sys2Proof.Machine

open Sys2Proof Sys2Proof.Machine

/-- Settles O20: each move by the tile that it sets and the owners and descriptors that it lets go on, of which there are
none, and each view by the words that it samples. -/
theorem tilesMoveAndAreViewed : Obligations.TilesMoveAndAreViewed := by
  refine ⟨⟨fun n m k x o s up tile object lent quota room quiet => ?fromT2,
    fun n f k x o s up tile object here home clean usable cls free quiet => ?toT4,
    fun n k x o data side b s up usable sound tile object slot none_ waits opened => ?fetched,
    fun row s up repairing waits => ?repaired⟩, fun hi s up => ?query, fun s readable => ?tenant⟩
  case fromT2 =>
    obtain ⟨c, moved⟩ := effTileMoveComplete_toT3 up tile object lent quota room
    have placed := State.tileAt_setTile (s := { s with counters := c }) (y := { x with loc := .t3 (s.pickFrame o x.index), dest := none })
      tile rfl
    refine ⟨_, execTileMoveComplete_quiet moved rfl rfl rfl rfl quiet, ?_, rfl, rfl, rfl⟩
    exact congrArg (Option.map (·.loc)) placed
  case toT4 =>
    obtain ⟨c, moved⟩ := effTileMoveComplete_toT4 up tile object here home clean usable cls free
    have placed := State.tileAt_setTile (s := { s with counters := c })
      (y := { x with loc := .t4 k, home := some k, dirty := false, dest := none }) tile rfl
    refine ⟨_, execTileMoveComplete_quiet moved rfl rfl rfl rfl quiet, ?_, rfl, rfl⟩
    exact congrArg (Option.map (·.loc)) placed
  case fetched =>
    obtain ⟨c, fetch⟩ := effT4FetchComplete_opens up usable sound tile object slot opened
    obtain ⟨c', f, accepted⟩ := State.acceptTile_stays (s := { s with counters := c }) none_ o x k b
    have own := State.index_of_tileAt tile
    let u : State := { s with
      mem := Memory.setBytes s.mem (x.index * tileBytes) b.1, counters := c'
      tiers := { s.tiers with refetched := s.tiers.refetched.filter (fun y => y != x.index) } }
    have placed := State.tileAt_setTile (s := u)
      (y := { x with loc := .t3 f, dest := none, dirty := false, home := some k, tag := tagOfBytes b.2 }) tile rfl
    have done : effT4FetchComplete n data side none s =
        u.setTile { x with loc := .t3 f, dest := none, dirty := false, home := some k, tag := tagOfBytes b.2 } := by
      rw [fetch, accepted]
      rfl
    refine ⟨_, congrArg Host.Outcome.next ((State.resumeHeld_quiet (by rw [done]; exact waits) _).trans done), ?_, ?_, ?_⟩
    · rw [← own]
      rfl
    · rw [placed]
      rfl
    · rw [placed]
      rfl
  case repaired =>
    have done := effSoftRowRepairComplete_repairs up repairing
    have tiers : (effSoftRowRepairComplete row s).tiers = (s.rowRepaired row).tiers := by
      rw [done]
      simp [State.memEvent]
    obtain ⟨host, regs, eq⟩ : (s.rowRepaired row).HostSide (effSoftRowRepairComplete row s) :=
      done ▸ (State.HostSide.satReg _ _ _).trans (.event _ _ _ _ _)
    refine ⟨_, congrArg Host.Outcome.next (State.resumeHeld_quiet (by rw [tiers]; exact waits) _), ?_, ?_, ?_, ?_⟩
    · rw [tiers]
      simp [State.rowRepaired]
    · rw [done, State.memEvent, State.reg_event_ne _ _ _ _ _ (by decide), State.reg_satReg]
      rfl
    · rw [done]
      exact State.bitAt_event _ _ _ _ _ (by decide)
    · rw [eq]
      rfl
  case query =>
    have low := s.loForCommit_lt 0x600060
    have high := hi.isLt
    refine ⟨_, congrArg Host.Outcome.next (effTileQuery_up up hi), ?_, ?_, ?_, fun a lo hi' result => ?_, ?_⟩
    · rw [State.reg_setReg_self]
    · rw [State.reg_setReg_ne _ _ _ _ (by decide), State.setReg64, State.reg_setReg_self]
      omega
    · exact lookupKey_dropKey_self _ _
    · rw [State.reg_setReg_ne _ _ _ _ result, State.reg_setReg64_ne _ _ _ lo hi']
      rfl
    · obtain ⟨x, hx⟩ := (s.consumeLo 0x600060).setReg64_eq 0x600060 (s.loForCommit 0x600060 true + hi.toNat * 2 ^ 32)
      rw [hx]
      rfl
  case tenant =>
    obtain ⟨quota, used, t4, spilled, x, frame⟩ := s.tenantShown_spec s.tenantWords
    refine ⟨_, congrArg Host.Outcome.next (effTenantViewSample_readable readable), ?_, ?_, ?_, ?_, ?_, ?_⟩
    · rw [State.reg_replyWith, quota]
      exact bitsOf_pair (b := min (s.quotaOf (s.fld ⟨0x60004C, 0, 16⟩)).t2 2047) (by omega) (by omega)
    · rw [State.reg_replyWith, used]
      exact bitsOf_pair (b := min (s.t2Used (s.fld ⟨0x60004C, 0, 16⟩)) 2047) (by omega) (by omega)
    · rw [State.reg_replyWith, t4]
      exact Nat.mod_eq_of_lt s.tenantWords_lt.2
    · rw [State.reg_replyWith, spilled]
      exact bitsOf_pair (b := min ((lookupKey (s.fld ⟨0x60004C, 0, 16⟩) s.tiers.spillsLast).getD 0) 31) (by omega) (by omega)
    · rw [State.reg_replyWith, quota, Nat.mod_eq_of_lt s.tenantWords_lt.1]
      rfl
    · rw [frame]
      rfl

end

section
/-! SUPPORT. The similarity search engine's answers: a batch's counts and its result block, host requests at idle, deadlines, the
end of a merge and the view, and the statement about them (R153, R155, R345-R356, R360). -/

namespace Sys2Proof.Machine

/-! The counts of a batch (R355, R360). -/

/-- Registers, vectors raised and collections may differ; nothing else does. -/
def State.Counted (s t : State) : Prop :=
  ∃ regs sent pending colls,
    t = { s with
      regs := regs, host := { s.host with sent := sent, vectorPending := pending }, search := { s.search with colls := colls } }

namespace State.Counted

theorem refl (s : State) : s.Counted s := ⟨_, _, _, _, rfl⟩

theorem trans {s t u : State} (h : s.Counted t) (g : t.Counted u) : s.Counted u := by
  obtain ⟨_, _, _, _, rfl⟩ := h
  obtain ⟨_, _, _, _, rfl⟩ := g
  exact ⟨_, _, _, _, rfl⟩

theorem setReg (s : State) (a v : Nat) : s.Counted (s.setReg a v) := ⟨_, _, _, _, rfl⟩
theorem satReg (s : State) (a n : Nat) : s.Counted (s.satReg a n) := setReg s _ _
theorem addReg64 (s : State) (a n : Nat) : s.Counted (s.addReg64 a n) := (setReg s _ _).trans (setReg _ _ _)
theorem setColl (s : State) (i : Nat) (c : Collection) : s.Counted (s.setColl i c) := ⟨_, _, _, _, rfl⟩

theorem searchEvent (s : State) (bit : Nat) : s.Counted (s.searchEvent bit) := by
  have raised (s : State) (v : Nat) : s.Counted (s.msix v) := by
    unfold State.msix
    split <;> exact ⟨_, _, _, _, rfl⟩
  unfold State.searchEvent State.event
  split
  · exact (setReg s _ _).trans (raised _ _)
  · exact setReg s _ _

/-- A count that is made on a condition. -/
theorem onlyIf {s t u : State} (h : s.Counted t) (g : t.Counted u) (c : Prop) [Decidable c] : s.Counted (if c then u else t) := by
  split
  · exact h.trans g
  · exact h

theorem countBatch (s : State) (r : QueryReq) (b : BatchAns) : s.Counted (s.countBatch r b) := by
  unfold State.countBatch
  split
  · exact refl s
  · exact .trans (onlyIf (onlyIf ((((addReg64 s _ _).trans (addReg64 _ _ _)).trans (addReg64 _ _ _)).trans (satReg _ _ _))
      (searchEvent _ _) _) (searchEvent _ _) _) (setColl _ _ _)

end State.Counted

theorem State.reg_searchEvent_ne (s : State) (bit : Nat) {a : Nat} (h : a ≠ searchEvents) : (s.searchEvent bit).reg a = s.reg a :=
  State.reg_event_ne _ _ _ _ _ h

theorem State.reg_searchEvent_onlyIf (s : State) (bit : Nat) {a : Nat} (h : a ≠ searchEvents) (c : Prop) [Decidable c] :
    (if c then s.searchEvent bit else s).reg a = s.reg a := by
  split
  · exact s.reg_searchEvent_ne bit h
  · rfl

/-- The counts of a batch leave the block's answer. -/
theorem State.reg_countBatch (s : State) (r : QueryReq) (b : BatchAns) : (s.countBatch r b).reg blockSearch = s.reg blockSearch := by
  unfold State.countBatch
  split
  · rfl
  · dsimp only
    refine (State.reg_congr _ _ rfl _).trans ((State.reg_searchEvent_onlyIf _ _ (by decide) _).trans
      ((State.reg_searchEvent_onlyIf _ _ (by decide) _).trans ?_))
    rw [State.reg_satReg_ne _ _ _ _ (by decide), State.reg_addReg64_ne _ _ _ (by decide) (by decide),
      State.reg_addReg64_ne _ _ _ (by decide) (by decide), State.reg_addReg64_ne _ _ _ (by decide) (by decide)]

theorem State.countBatch_alike (s : State) (r : QueryReq) (b : BatchAns) : (s.countBatch r b).answersAlike s blockSearch := by
  refine ⟨s.reg_countBatch r b, ?_⟩
  obtain ⟨_, _, _, _, eq⟩ := State.Counted.countBatch s r b
  rw [eq]
  exact ⟨rfl, rfl⟩

/-! The result block (R350). -/

theorem length_entryBytes (c : Candidate) : (entryBytes c).length = 16 := by simp [entryBytes]

theorem length_flatMap_const {α β : Type} {f : α → List β} {n : Nat} (l : List α) (h : ∀ x ∈ l, (f x).length = n) :
    (l.flatMap f).length = l.length * n := by
  rw [List.length_flatMap, List.map_congr_left h, List.map_const', List.sum_replicate, smul_eq_mul]

theorem length_queryBytes {k : Nat} (tag : Nat) {best : List Candidate} (h : best.length ≤ k) :
    (queryBytes k tag best).length = 16 + 16 * k := by
  unfold queryBytes
  rw [List.length_append, length_flatMap_const _ fun c _ => length_entryBytes c]
  simp
  omega

/-- A query keeps no more candidates than it asks for (R349). -/
theorem State.best_batchAns {s : State} {r : QueryReq} {e : Nat} {host : Bool} {a : QueryAns} (h : a ∈ (s.batchAns r e host).answers) :
    a.best.length ≤ r.k := by
  unfold State.batchAns at h
  split at h
  · simp at h
  · split at h
    · simp at h
    · split at h
      · simp at h
      · obtain ⟨q, -, rfl⟩ := List.mem_map.mp h
        exact List.length_take_le _ _

/-- The bytes of a batch's result block. -/
def State.batchBytes (s : State) (r : QueryReq) (b : BatchAns) : Bytes := batchHeader b ++ (s.queryBlocks r b).flatMap id

theorem State.length_batchBytes (s : State) (r : QueryReq) (e : Nat) (host : Bool) :
    (s.batchBytes r (s.batchAns r e host)).length = 32 + r.queries * (16 + 16 * r.k) := by
  have header : (batchHeader (s.batchAns r e host)).length = 32 := by simp [batchHeader]
  have block : ∀ x ∈ s.queryBlocks r (s.batchAns r e host), (id x).length = 16 + 16 * r.k := by
    intro x mem
    obtain ⟨i, -, rfl⟩ := List.mem_map.mp mem
    refine length_queryBytes _ ?_
    cases found : (s.batchAns r e host).answers[i]? with
    | none => exact Nat.zero_le _
    | some a => exact State.best_batchAns (List.mem_of_getElem? found)
  rw [State.batchBytes, List.length_append, header, length_flatMap_const _ block, State.queryBlocks, List.length_map,
    List.length_range]

/-- Bytes stored are read back, and no other byte changes. -/
theorem State.load_stored {t : State} {m : Memory} {a n : Nat} {bs : Bytes} (mem : t.mem = Memory.setBytes m a bs)
    (length : bs.length = n) : t.load a n = bs ∧ ∀ x, x < a ∨ a + n ≤ x → t.byte x = m.get x := by
  subst length
  rw [State.load, mem]
  refine ⟨Memory.getBytes_setBytes bs m a, fun x apart => ?_⟩
  rw [State.byte, mem]
  exact Memory.get_setBytes_outside bs m a x apart

/-! What the detection of an error changes (R554-R556). -/

/-- The host interface, registers, the log of errors and counters may differ; nothing else does. -/
def State.Reported (s t : State) : Prop :=
  ∃ host regs faults counters, t = { s with host := host, regs := regs, faults := faults, counters := counters }

theorem State.Reported.trans {s t u : State} (h : s.Reported t) (g : t.Reported u) : s.Reported u := by
  obtain ⟨_, _, _, _, rfl⟩ := h
  obtain ⟨_, _, _, _, rfl⟩ := g
  exact ⟨_, _, _, _, rfl⟩

theorem State.HostSide.reported {s t : State} (h : s.HostSide t) : s.Reported t := by
  obtain ⟨_, _, rfl⟩ := h
  exact ⟨_, _, _, _, rfl⟩

theorem State.detect_reported (s : State) (region kind cause address : Nat) (detail : Bytes) (occs : List (Nat × Nat))
    (lost : List Nat) (count : Nat) (room : s.faults.queue.length < 256) :
    s.Reported (s.detect region kind cause address detail occs lost count) := by
  obtain ⟨x, eq⟩ := s.detect_room region kind cause address detail occs lost count room
  have numbered : s.Reported { (s.newError region kind).2 with counters := x } := by
    obtain ⟨y, hy⟩ := s.setReg64_eq 0xE00040 s.faults.nextSeq
    unfold State.newError
    dsimp only
    rw [hy]
    exact ⟨_, _, _, _, rfl⟩
  have noted (u : State) : u.Reported (u.noteUncorrected kind) := by
    unfold State.noteUncorrected
    split
    · exact ((State.HostSide.satReg u _ _).trans (.event _ _ _ _ _)).reported
    · exact (State.HostSide.refl u).reported
  have queued (u : State) (e : ErrRec) : u.Reported (u.enqueued e) :=
    .trans ⟨_, _, _, _, rfl⟩ ((State.HostSide.setReg _ _ _).trans (.setReg _ _ _)).reported
  rw [eq]
  exact (numbered.trans (noted _)).trans (queued _ _)

theorem State.orderError_reported (s : State) (region i : Nat) (ctx : DescCtx) (room : s.faults.queue.length < 256) :
    s.Reported (s.orderError region i ctx) :=
  (State.HostSide.event s _ _ _ _).reported.trans (State.detect_reported _ _ _ _ _ _ _ _ _ (by simpa using room))

/-! SEARCH_BATCH (R347-R350, R355, R356). -/

/-- A batch's result block where it has room. -/
def State.resultStored (s : State) (k unit : Nat) (r : QueryReq) (bs : Bytes) : State :=
  if s.resultRoom r then (s.fillRange unit r.resultAddr (32 + r.queries * (16 + 16 * r.k))).cstore k unit r.resultAddr bs else s

/-- A batch's result block, the lanterns it waited on released and its result's raised. -/
def State.batchMarked (s : State) (k unit raise step : Nat) (r : QueryReq) (bs : Bytes) (tiles : List Nat) : State :=
  let s := tiles.foldl (fun s l => s.releaseLantern k unit l) (s.resultStored k unit r bs)
  s.raiseLantern unit raise (s.stepTime step) step

/-- The memory once a result block is stored. -/
def State.resultMem (s : State) (r : QueryReq) (bs : Bytes) : Memory :=
  if s.resultRoom r then Memory.setBytes s.mem r.resultAddr bs else s.mem

theorem State.fillRange_marks (s : State) (unit a n : Nat) : s.Marks (s.fillRange unit a n) :=
  .foldl (fun s _ => .fillLantern s _ _) _ _

theorem State.resultStored_marks (s : State) (k unit : Nat) (r : QueryReq) (bs : Bytes) :
    ({ s with mem := s.resultMem r bs } : State).Marks (s.resultStored k unit r bs) ∧
      (s.resultStored k unit r bs).workView = s.workView := by
  unfold State.resultStored State.resultMem
  split
  · have filled := s.fillRange_marks unit r.resultAddr (32 + r.queries * (16 + 16 * r.k))
    have views : (s.fillRange unit r.resultAddr (32 + r.queries * (16 + 16 * r.k))).workView = s.workView :=
      workView_foldl (fun _ _ => State.workView_fillLantern _ _ _) _ _
    have written := State.Marks.cstore (s.fillRange unit r.resultAddr (32 + r.queries * (16 + 16 * r.k))) k unit r.resultAddr bs
    rw [filled.keeps.1] at written
    exact ⟨.after written (filled.withMem _), (State.workView_cstore _ _ _ _ _).trans views⟩
  · exact ⟨.refl s, rfl⟩

theorem State.batchMarked_marks (s : State) (k unit raise step : Nat) (r : QueryReq) (bs : Bytes) (tiles : List Nat) :
    ({ s with mem := s.resultMem r bs } : State).Marks (s.batchMarked k unit raise step r bs tiles) ∧
      (s.batchMarked k unit raise step r bs tiles).regs = s.regs := by
  obtain ⟨stored, same⟩ := s.resultStored_marks k unit r bs
  have views : (s.batchMarked k unit raise step r bs tiles).workView = (s.resultStored k unit r bs).workView :=
    (State.workView_raiseLantern _ _ _ _ _).trans (workView_foldl (fun _ _ => State.workView_releaseLantern _ _ _ _) _ _)
  exact ⟨.after (.raiseLantern _ _ _ _ _) (.after (.foldl (fun s _ => .releaseLantern s _ _ _) _ _) stored),
    congrArg WorkView.regs (views.trans same)⟩

/-- A batch marked for output stands in the step's output (R356). -/
def State.outMarked (s : State) : Option MatchOut → State
  | none => s
  | some m => { s with search := { s.search with outs := s.search.outs ++ [m] } }

theorem effSearchBatch_broken {k : Fin 16} {req : Nat} {unit raise : BitVec 16} {out : Option Nat} {o : Occurrence} {s : State}
    (up : s.up = true) (run : s.inRun = true) (occ : s.occOf k.val = some o) {i : Nat}
    (broken : s.orderBroken unit.toNat ((s.batchReads req (queryReqOf (s.load req 128))).flatMap (fun x => slotsIn x.1 x.2))
      (s.batchReads req (queryReqOf (s.load req 128))) (s.batchWrites (queryReqOf (s.load req 128))) = some i) :
    effSearchBatch k req unit raise out s = s.orderError (engineRegion 4) i ⟨k.val, req⟩ := by
  rw [effSearchBatch, if_neg (by simp [up, run]), occ]
  simp only [broken]

theorem effSearchBatch_answers {k : Fin 16} {req : Nat} {unit raise : BitVec 16} {out : Option Nat} {o : Occurrence} {s : State}
    (up : s.up = true) (run : s.inRun = true) (occ : s.occOf k.val = some o) {r : QueryReq} (hr : r = queryReqOf (s.load req 128))
    {b : BatchAns} (hb : b = s.batchAns r (o.epochs.getD r.coll 0) false) {tiles : List Nat}
    (ht : tiles = (s.batchReads req r).flatMap (fun x => slotsIn x.1 x.2))
    (kept : s.orderBroken unit.toNat tiles (s.batchReads req r) (s.batchWrites r) = none) :
    effSearchBatch k req unit raise out s =
      (((s.countBatch r b).answer blockSearch b.outcome b.cause).batchMarked k.val unit.toNat raise.toNat o.step r
        (s.batchBytes r b) tiles).outMarked
          (out.map fun stream => ⟨k.val, o.step, stream, r.coll, r.k, b.outcome == served, batchHeader b, s.queryBlocks r b⟩) := by
  subst hr ht
  rw [effSearchBatch, if_neg (by simp [up, run]), occ]
  simp only [kept, ← hb]
  cases out <;> rfl

/-- What a batch that is answered leaves. -/
theorem State.batchMarked_counted {s u : State} (counted : s.Counted u) (k unit raise step : Nat) (r : QueryReq) (bs : Bytes)
    (tiles : List Nat) (o c : Nat) (m : Option MatchOut) :
    let t := (((u.answer blockSearch o c).batchMarked k unit raise step r bs tiles).outMarked m)
    t.regs = (u.answer blockSearch o c).regs ∧ t.mem = s.resultMem r bs ∧ t.search.outs = s.search.outs ++ m.toList ∧
      State.sameButStores { t with search := s.search } s := by
  obtain ⟨x, y, answered⟩ := u.answer_eq blockSearch o c
  obtain ⟨marks, regs⟩ := (u.answer blockSearch o c).batchMarked_marks k unit raise step r bs tiles
  rw [← regs]
  generalize (u.answer blockSearch o c).batchMarked k unit raise step r bs tiles = v at marks ⊢
  rw [answered] at marks
  obtain ⟨_, _, _, _, rfl⟩ := counted
  obtain ⟨_, _, _, _, _, _, _, _, rfl⟩ := marks
  cases m with
  | none => exact ⟨rfl, rfl, (List.append_nil _).symm, rfl⟩
  | some m => exact ⟨rfl, rfl, rfl, rfl⟩

/-- A batch whose accesses keep R153: its answer, its result block, its mark and what stays. -/
theorem effSearchBatch_spec {k : Fin 16} {req : Nat} {unit raise : BitVec 16} {out : Option Nat} {o : Occurrence} {s : State}
    (up : s.up = true) (run : s.inRun = true) (occ : s.occOf k.val = some o) {r : QueryReq} (hr : r = queryReqOf (s.load req 128))
    {b : BatchAns} (hb : b = s.batchAns r (o.epochs.getD r.coll 0) false) {tiles : List Nat}
    (ht : tiles = (s.batchReads req r).flatMap (fun x => slotsIn x.1 x.2))
    (kept : s.orderBroken unit.toNat tiles (s.batchReads req r) (s.batchWrites r) = none) :
    ∃ t, effSearchBatch k req unit raise out s = t ∧ t.reports s blockSearch b.outcome b.cause ∧ t.mem = s.resultMem r (s.batchBytes r b) ∧
      t.search.outs = s.search.outs ++ (out.map fun stream =>
        (⟨k.val, o.step, stream, r.coll, r.k, b.outcome == served, batchHeader b, s.queryBlocks r b⟩ : MatchOut)).toList ∧
      State.sameButStores { t with search := s.search } s := by
  obtain ⟨regs, mem, outs, frame⟩ := State.batchMarked_counted (.countBatch s r b) k.val unit.toNat raise.toNat o.step r
    (s.batchBytes r b) tiles b.outcome b.cause
    (out.map fun stream => ⟨k.val, o.step, stream, r.coll, r.k, b.outcome == served, batchHeader b, s.queryBlocks r b⟩)
  exact ⟨_, effSearchBatch_answers up run occ hr hb ht kept,
    State.reports_of_answer (s.countBatch_alike r b) (State.reg_congr _ _ regs _), mem, outs, frame⟩

/-! Host requests at idle (R349-R354). -/

/-- The host interface, registers and answers may differ; nothing else does. -/
def State.Replied (s t : State) : Prop := ∃ host regs answers, t = { s with host := host, regs := regs, answers := answers }

theorem State.Replied.trans {s t u : State} (h : s.Replied t) (g : t.Replied u) : s.Replied u := by
  obtain ⟨_, _, _, rfl⟩ := h
  obtain ⟨_, _, _, rfl⟩ := g
  exact ⟨_, _, _, rfl⟩

theorem State.HostSide.replied {s t : State} (h : s.HostSide t) : s.Replied t := by
  obtain ⟨_, _, rfl⟩ := h
  exact ⟨_, _, _, rfl⟩

theorem State.Replied.answer (s : State) (b o c : Nat) : s.Replied (s.answer b o c) := by
  obtain ⟨_, _, eq⟩ := s.answer_eq b o c
  exact ⟨_, _, _, eq⟩

theorem State.Replied.restored {s t : State} (h : s.Replied t) :
    { t with host := s.host, regs := s.regs, answers := s.answers } = s := by
  obtain ⟨_, _, _, rfl⟩ := h
  rfl

theorem State.Replied.searchRefuse (s : State) (e : Nat) (h : CmdHdr) (op cause : Nat) : s.Replied (s.searchRefuse e h op cause) :=
  (State.Replied.answer s _ _ _).trans ((State.HostSide.satReg _ _ _).trans (.completeIn _ _ _ _ _ _ _ _)).replied

/-- A refused request's answer is the block's (R355). -/
theorem State.reports_searchRefuse {s u : State} (alike : u.answersAlike s blockSearch) (e : Nat) (h : CmdHdr) (op cause : Nat) :
    (u.searchRefuse e h op cause).reports s blockSearch refused cause :=
  State.reports_of_answer alike ((State.reg_congr ((u.answer blockSearch refused cause).satReg 0xD00054 1) _
    (by simp [State.searchRefuse]) _).trans (State.reg_satReg_ne _ _ _ _ (by decide)))

/-- A request that is answered, with its reply. -/
theorem State.reports_answeredIn {s u : State} (alike : u.answersAlike s blockSearch) (e : Nat) (h : CmdHdr)
    (op o c o' c' d : Nat) (bs : Bytes) : ((u.answer blockSearch o c).completeIn e h op o' c' d bs).reports s blockSearch o c :=
  State.reports_of_answer alike (State.reg_congr _ _ (by simp) _)

theorem State.HostSide.setFld (s : State) (f : Fld) (n : Nat) : s.HostSide (s.setFld f n) := setReg s _ _

/-- The engine drains a queue of one request (R353). -/
theorem State.drainSearch_one {u : State} (quiet : u.search.queue = []) (q : HostQuery) (f : Fld) (n : Nat) :
    (({ u with search := { u.search with queue := [q] } } : State).setFld f n).drainSearch = (u.setFld f n).runHead q := by
  have same : ({ u with search := { u.search with queue := [] } } : State) = u := by rw [← quiet]
  have moved (x : SearchUnit) : ({ u with search := x } : State).setFld f n = { u.setFld f n with search := x } := rfl
  have stays : ({ u.setFld f n with search := { u.search with queue := [] } } : State) = u.setFld f n := by rw [← moved, same]
  rw [moved, State.drainSearch, List.foldl_cons, List.foldl_nil, ← stays]

/-- A request that finds the engine idle and none before it runs at once, the host interface and a register aside. -/
theorem State.searchRequest_idle {s : State} {h : CmdHdr} (offered : s.offers h = true) (quiet : s.search.queue = []) (op : Nat)
    (cmd : Instr) :
    ∃ v, s.searchRequest h op true cmd = v.runHead ⟨cmd, h.tenant.toNat, s.host.epoch, s.now⟩ ∧ s.HostSide v ∧
      v.host.epoch = s.host.epoch ∧ v.host.written = s.host.written ∧ v.reg blockSearch = s.reg blockSearch := by
  obtain ⟨epoch, written⟩ := s.entryTaken_frame h
  have own := s.reg_entryTaken h (a := blockSearch) (by decide)
  have taken := State.HostSide.entryTaken s h
  rw [State.searchRequest, State.hostCommand_offers offered]
  generalize s.entryTaken h = u at *
  obtain ⟨none_, now⟩ : u.search.queue = [] ∧ u.now = s.now := by
    obtain ⟨_, _, rfl⟩ := taken
    exact ⟨quiet, rfl⟩
  have some_ : 1 ≤ u.hostQuota := by
    unfold State.hostQuota
    omega
  refine ⟨u.setFld ⟨0xD00010, 16, 9⟩ (max 1 (u.fld ⟨0xD00010, 16, 9⟩)), ?_, taken.trans (.setFld _ _ _), by simpa using epoch,
    by simpa using written,
    (State.reg_setFld_ne _ _ _ _ (by decide)).trans own⟩
  have few : ¬u.hostQuota ≤ 0 := by omega
  have read (x : SearchUnit) (f : Fld) : ({ u with search := x } : State).fld f = u.fld f := State.fld_congr _ _ rfl f
  simp only [none_, List.filter_nil, List.length_nil, List.nil_append, List.length_singleton, few, if_false, if_true,
    Nat.not_le_of_lt (show 0 < 256 by decide), epoch, now, read]
  rw [State.drainSearch_one none_]

/-! SEARCH_QUERY (R349, R354). -/

/-- What a query is answered rests on no register of the host's side. -/
theorem State.HostSide.asked {s v : State} (side : s.HostSide v) (r : QueryReq) (e : Nat) (host : Bool) (b : BatchAns)
    (bs : Bytes) :
    v.coll r.coll = s.coll r.coll ∧ v.batchAns r e host = s.batchAns r e host ∧ v.batchBytes r b = s.batchBytes r b ∧
      v.resultMem r bs = s.resultMem r bs ∧ v.now = s.now := by
  obtain ⟨_, _, rfl⟩ := side
  exact ⟨rfl, rfl, rfl, rfl, rfl⟩

/-- A query's counts and its result block, where it has room. -/
def State.queryStored (s : State) (r : QueryReq) (b : BatchAns) : State :=
  if (s.countBatch r b).resultRoom r then (s.countBatch r b).store r.resultAddr ((s.countBatch r b).batchBytes r b)
  else s.countBatch r b

theorem State.queryStored_spec (s : State) (r : QueryReq) (b : BatchAns) :
    (s.queryStored r b).search.queue = s.search.queue ∧ (s.queryStored r b).mem = s.resultMem r (s.batchBytes r b) ∧
      (s.queryStored r b).answersAlike s blockSearch ∧ (s.queryStored r b).now = s.now := by
  obtain ⟨reg, answers, time⟩ := s.countBatch_alike r b
  have counted := State.Counted.countBatch s r b
  unfold State.queryStored
  generalize s.countBatch r b = u at *
  obtain ⟨queue, room, bytes, mem⟩ : u.search.queue = s.search.queue ∧ u.resultRoom r = s.resultRoom r ∧
      u.batchBytes r b = s.batchBytes r b ∧ u.mem = s.mem := by
    obtain ⟨_, _, _, _, rfl⟩ := counted
    exact ⟨rfl, rfl, rfl, rfl⟩
  have now : u.now = s.now := by rw [State.now, time, State.now]
  rw [room, bytes, State.resultMem]
  by_cases free : s.resultRoom r = true
  · obtain ⟨x, eq⟩ := u.store_eq r.resultAddr (s.batchBytes r b)
    rw [if_pos free, if_pos free, eq, mem]
    exact ⟨queue, by dsimp only, ⟨(State.reg_congr u _ rfl _).trans reg, answers, time⟩, now⟩
  · rw [if_neg free, if_neg free]
    exact ⟨queue, mem, ⟨reg, answers, time⟩, now⟩

/-- A query that runs as it arrives: its deadline has not passed, and it is Delayed when it takes longer (R354). -/
theorem State.runHostQuery_now (s : State) (e : Nat) (h : CmdHdr) (req : Bytes) (ns : Nat) {r : QueryReq} (hr : r = queryReqOf req)
    {b : BatchAns} (hb : b = s.batchAns r (s.coll r.coll).epoch true) :
    (b.outcome = served → ∃ d, s.runHostQuery e s.now h req ns =
      ((s.queryStored r b).answer blockSearch (if r.deadlineUs ≠ 0 ∧ r.deadlineUs * 1000 < ns then delayed else served) 0).completeIn
        e h 0x40 (if r.deadlineUs ≠ 0 ∧ r.deadlineUs * 1000 < ns then delayed else served) 0 d []) ∧
    (b.outcome ≠ served → s.runHostQuery e s.now h req ns = (s.queryStored r b).searchRefuse e h 0x40 b.cause) := by
  obtain ⟨-, -, -, now⟩ := s.queryStored_spec r b
  have timely : ¬(r.deadlineUs ≠ 0 ∧ s.now + r.deadlineUs * usUnits < s.now) := by omega
  have late : (r.deadlineUs ≠ 0 ∧ s.now + r.deadlineUs * usUnits < s.now + ns * nsUnits) ↔
      (r.deadlineUs ≠ 0 ∧ r.deadlineUs * 1000 < ns) := by
    unfold usUnits nsUnits
    omega
  have stored : (if (s.countBatch r b).resultRoom r then
      (s.countBatch r b).store r.resultAddr (batchHeader b ++ ((s.countBatch r b).queryBlocks r b).flatMap id)
      else s.countBatch r b) = s.queryStored r b := rfl
  refine ⟨fun ok => ?_, fun bad => ?_⟩
  · unfold State.runHostQuery
    simp only [← hr, timely, if_false, ← hb, stored, ok, ne_eq, not_true_eq_false, now]
    simp only [ne_eq] at late
    by_cases exceeds : ¬r.deadlineUs = 0 ∧ r.deadlineUs * 1000 < ns
    · rw [if_pos (late.mpr exceeds), if_pos exceeds]
      exact ⟨_, rfl⟩
    · rw [if_neg fun h => exceeds (late.mp h), if_neg exceeds]
      exact ⟨_, rfl⟩
  · unfold State.runHostQuery
    simp only [← hr, timely, if_false, ← hb, stored, ne_eq, bad, not_false_eq_true, if_true]

/-- What a query leaves that runs as it arrives, once its request is taken. -/
theorem State.runHostQuery_spec {s v : State} (side : s.HostSide v) (own : v.reg blockSearch = s.reg blockSearch) (e : Nat) (h : CmdHdr)
    (req : Bytes) (ns : Nat) {r : QueryReq} (hr : r = queryReqOf req) {b : BatchAns}
    (hb : b = s.batchAns r (s.coll r.coll).epoch true) :
    let t := v.runHostQuery e s.now h req ns
    t.search.queue = s.search.queue ∧ t.mem = s.resultMem r (s.batchBytes r b) ∧
      (b.outcome = served → t.reports s blockSearch
        (if r.deadlineUs ≠ 0 ∧ r.deadlineUs * 1000 < ns then delayed else served) 0) ∧
      (b.outcome ≠ served → t.reports s blockSearch refused b.cause) := by
  obtain ⟨coll, answer, bytes, mem, now⟩ := side.asked r (s.coll r.coll).epoch true b (s.batchBytes r b)
  obtain ⟨queue', mem', ⟨reg, answers, time⟩, -⟩ := v.queryStored_spec r b
  obtain ⟨delays, refuses⟩ := v.runHostQuery_now e h req ns hr (b := b) (by rw [coll, answer, hb])
  obtain ⟨queue, same⟩ : v.search.queue = s.search.queue ∧ v.answers = s.answers ∧ v.time = s.time := by
    obtain ⟨_, _, rfl⟩ := side
    exact ⟨rfl, rfl, rfl⟩
  have alike : (v.queryStored r b).answersAlike s blockSearch :=
    ⟨reg.trans own, answers.trans same.1, time.trans same.2⟩
  rw [now] at delays refuses
  rw [bytes, mem] at mem'
  dsimp only
  by_cases ok : b.outcome = served
  · obtain ⟨d, eq⟩ := delays ok
    rw [eq]
    exact ⟨by simpa using queue'.trans queue, by simpa using mem', fun _ => State.reports_answeredIn alike _ _ _ _ _ _ _ _ _,
      fun bad => absurd ok bad⟩
  · rw [refuses ok]
    exact ⟨by simpa [State.searchRefuse] using queue'.trans queue, by simpa [State.searchRefuse] using mem', fun h => absurd h ok,
      fun _ => State.reports_searchRefuse alike _ _ _ _⟩

/-! SEARCH_GET and SEARCH_EXPORT (R351, R352). -/

theorem State.answersAlike.hostWrite {s v : State} {b : Nat} (alike : v.answersAlike s b) (a : Nat) (bs : Bytes) :
    (v.hostWrite a bs).answersAlike s b := by
  obtain ⟨own, answers, time⟩ := alike
  exact ⟨(State.reg_congr v (v.hostWrite a bs) rfl b).trans own, answers, time⟩

section
variable {s v : State} (side : s.HostSide v) (own : v.reg blockSearch = s.reg blockSearch)
  (written : v.host.written = s.host.written)
include side own

theorem State.HostSide.alike : v.answersAlike s blockSearch := by
  obtain ⟨answers, time⟩ : v.answers = s.answers ∧ v.time = s.time := by
    obtain ⟨_, _, rfl⟩ := side
    exact ⟨rfl, rfl⟩
  exact ⟨own, answers, time⟩

include written

/-- A request that is Served with bytes written to the host. -/
theorem State.served_written (e : Nat) (h : CmdHdr) (op reply : Nat) (bs result : Bytes) :
    let t := ((v.hostWrite reply bs).answer blockSearch served 0).completeIn e h op served 0 0 result
    s.Replied t ∧ t.reports s blockSearch served 0 ∧ t.host.written = (reply, bs) :: s.host.written := by
  have alike := (side.alike own).hostWrite reply bs
  have wrote : (v.hostWrite reply bs).host.written = (reply, bs) :: s.host.written := congrArg ((reply, bs) :: ·) written
  have after := side.trans (.hostWrite v reply bs)
  generalize v.hostWrite reply bs = u at *
  exact ⟨after.replied.trans ((State.Replied.answer u _ _ _).trans (State.HostSide.completeIn _ _ _ _ _ _ _ _).replied),
    State.reports_answeredIn alike _ _ _ _ _ _ _ _ _, by simpa using wrote⟩

variable {i : Nat} (service : s.inService (engineRegion 4) = true) (usable : s.collCause i = 0)
include service usable

/-- A vector that is read at the committed epoch, or that is not visible then. -/
theorem State.runGet_spec (e : Nat) (h : CmdHdr) (id reply : Nat) :
    let t := v.runGet e h i id reply
    s.Replied t ∧
      (∀ x, ((s.coll i).visibleAt (s.coll i).epoch).find? (fun x => x.id == id) = some x →
        t.reports s blockSearch served 0 ∧ t.host.written = (reply, vecBytes x) :: s.host.written) ∧
      (((s.coll i).visibleAt (s.coll i).epoch).find? (fun x => x.id == id) = none → t.reports s blockSearch refused 0x52) := by
  obtain ⟨service', usable', coll⟩ : v.inService (engineRegion 4) = true ∧ v.collCause i = 0 ∧ v.coll i = s.coll i := by
    obtain ⟨_, _, rfl⟩ := side
    exact ⟨service, usable, rfl⟩
  dsimp only
  rw [State.runGet, if_neg (by simp [service']), if_neg (by simp [usable'])]
  dsimp only
  rw [coll]
  cases ((s.coll i).visibleAt (s.coll i).epoch).find? (fun x => x.id == id) with
  | none =>
    exact ⟨side.replied.trans (.searchRefuse v _ _ _ _), nofun, fun _ => State.reports_searchRefuse (side.alike own) _ _ _ _⟩
  | some x =>
    obtain ⟨replied, reports, wrote⟩ := State.served_written side own written e h 0x41 reply (vecBytes x)
      (leBytes 4 (vecBytes x).length)
    refine ⟨replied, fun y h => ?_, nofun⟩
    cases h
    exact ⟨reports, wrote⟩

/-- A snapshot that is written to the host. -/
theorem State.runExport_spec (e : Nat) (h : CmdHdr) (reply : Nat) :
    let t := v.runExport e h i reply
    s.Replied t ∧ t.reports s blockSearch served 0 ∧ t.host.written = (reply, s.snapshotBytes i) :: s.host.written := by
  obtain ⟨service', usable', bytes⟩ : v.inService (engineRegion 4) = true ∧ v.collCause i = 0 ∧
      v.snapshotBytes i = s.snapshotBytes i := by
    obtain ⟨_, _, rfl⟩ := side
    exact ⟨service, usable, rfl⟩
  have done := State.served_written side own written e h 0x42 reply (s.snapshotBytes i) (leBytes 8 (s.snapshotBytes i).length)
  dsimp only
  rw [State.runExport, if_neg (by simp [service']), if_neg (by simp [usable'])]
  dsimp only
  rw [bytes]
  exact done

end

/-! HOST_QUERY_DEADLINE (R354). -/

/-- A query whose deadline has passed leaves the queue refused. -/
def State.refuseLate (s : State) (q : HostQuery) : State :=
  match q.cmd with
  | .searchQuery h _ _ _ => (s.searchEvent 3).searchRefuse q.epoch h 0x40 0x51
  | _ => s

theorem effHostQueryDeadline_up {s : State} (up : s.up = true) :
    effHostQueryDeadline s = (s.search.queue.filter (fun q => q.expired s.now)).foldl State.refuseLate
      { s with search := { s.search with queue := s.search.queue.filter (fun q => !q.expired s.now) } } := by
  rw [effHostQueryDeadline, if_neg (by simp [up])]
  rfl

theorem State.refuseLate_expired (s : State) {q : HostQuery} {now : Nat} (late : q.expired now = true) :
    s.Replied (s.refuseLate q) ∧ (s.refuseLate q).reg 0xD00054 = min (s.reg 0xD00054 + 1) (2 ^ 32 - 1) := by
  obtain ⟨h, req, idle, ns, cmd⟩ : ∃ h req idle ns, q.cmd = .searchQuery h req idle ns := by
    unfold HostQuery.expired at late
    split at late
    · exact ⟨_, _, _, _, ‹_›⟩
    · cases late
  have refuses : s.refuseLate q = (s.searchEvent 3).searchRefuse q.epoch h 0x40 0x51 := by rw [State.refuseLate, cmd]
  have counted : (s.refuseLate q).regs = (((s.searchEvent 3).answer blockSearch refused 0x51).satReg 0xD00054 1).regs := by
    rw [refuses]
    simp [State.searchRefuse]
  rw [State.reg_congr _ _ counted, State.reg_satReg, refuses, State.answer, State.reg_answerAt_ne _ _ _ _ _ _ (by decide),
    State.reg_searchEvent_ne _ _ (by decide)]
  exact ⟨(State.HostSide.event s _ _ _ _).replied.trans (.searchRefuse _ _ _ _ _), rfl⟩

theorem State.foldl_refuseLate {now : Nat} (l : List HostQuery) (late : ∀ q ∈ l, q.expired now = true) (s : State) :
    s.Replied (l.foldl State.refuseLate s) ∧
      (l.foldl State.refuseLate s).reg 0xD00054 = min (s.reg 0xD00054 + l.length) (2 ^ 32 - 1) := by
  induction l generalizing s with
  | nil =>
    have fits := s.reg_lt 0xD00054
    exact ⟨(State.HostSide.refl s).replied, by rw [List.foldl_nil, List.length_nil]; omega⟩
  | cons q l ih =>
    obtain ⟨one, counted⟩ := s.refuseLate_expired (late q List.mem_cons_self)
    obtain ⟨rest, total⟩ := ih (fun q h => late q (List.mem_cons_of_mem _ h)) (s.refuseLate q)
    rw [List.foldl_cons, total, counted, List.length_cons]
    exact ⟨one.trans rest, by omega⟩

/-! The end of a background merge (R345, R346). -/

theorem effBackgroundMergeEnd_free {s : State} {i : Nat} (up : s.up = true) (merging : (s.coll i).merging = true)
    (quiet : s.search.waitCommits = []) : effBackgroundMergeEnd i s = s.endMerge i := by
  have none_ : (s.endMerge i).search.waitCommits = [] := quiet
  rw [effBackgroundMergeEnd, if_neg (by simp [up, merging]), State.resumeCommits, none_, List.foldl_nil]

theorem State.coll_setColl (s : State) {i : Nat} (present : i < s.search.colls.length) (c : Collection) :
    (s.setColl i c).coll i = c ∧ ∀ j, j ≠ i → (s.setColl i c).coll j = s.coll j := by
  refine ⟨?_, fun j ne => ?_⟩
  · simp [State.coll, State.setColl, List.getD_eq_getElem?_getD, present]
  · simp [State.coll, State.setColl, List.getD_eq_getElem?_getD, List.getElem?_set_ne ne.symm]

/-! The view of a collection (R360). -/

/-- Registers may differ; nothing else does. -/
def State.RegsOnly (s t : State) : Prop := ∃ x, t = { s with regs := x }

theorem State.RegsOnly.trans {s t u : State} (h : s.RegsOnly t) (g : t.RegsOnly u) : s.RegsOnly u := by
  obtain ⟨_, rfl⟩ := h
  obtain ⟨_, rfl⟩ := g
  exact ⟨_, rfl⟩

theorem State.RegsOnly.setReg (s : State) (a v : Nat) : s.RegsOnly (s.setReg a v) := ⟨_, rfl⟩
theorem State.RegsOnly.setReg64 (s : State) (a v : Nat) : s.RegsOnly (s.setReg64 a v) := s.setReg64_eq a v

/-- The view registers that show a collection: dimension and form, lists, epoch, visible vectors, awning and next identifier. -/
def State.collShown (s : State) (form lists epoch visible fill next : Nat) : State :=
  (((((s.setReg 0xD00018 form).setReg 0xD0001C lists).setReg64 0xD00020 epoch).setReg64 0xD00028 visible).setReg 0xD00030
    fill).setReg 0xD00034 next

theorem State.collShown_spec (s : State) (form lists epoch visible fill next : Nat) :
    let t := s.collShown form lists epoch visible fill next
    t.reg64 0xD00020 = epoch % 2 ^ 64 ∧ t.reg64 0xD00028 = visible % 2 ^ 64 ∧ t.reg 0xD00034 = next % 2 ^ 32 ∧
      s.RegsOnly t := by
  have kept (u : State) {a b : Nat} (n : Nat) (lo : b ≠ a) (hi : b + 4 ≠ a) : (u.setReg a n).reg64 b = u.reg64 b := by
    rw [State.reg64, State.reg_setReg_ne _ _ _ _ lo, State.reg_setReg_ne _ _ _ _ hi, State.reg64]
  unfold State.collShown
  refine ⟨?_, ?_, State.reg_setReg_self _ _ _, ?_⟩
  · rw [kept _ _ (by decide) (by decide), kept _ _ (by decide) (by decide), State.setReg64, kept _ _ (by decide) (by decide),
      kept _ _ (by decide) (by decide), State.reg64_setReg64]
  · rw [kept _ _ (by decide) (by decide), kept _ _ (by decide) (by decide), State.reg64_setReg64]
  · exact (((((State.RegsOnly.setReg s _ _).trans (.setReg _ _ _)).trans (.setReg64 _ _ _)).trans (.setReg64 _ _ _)).trans
      (.setReg _ _ _)).trans (.setReg _ _ _)

/-- The form of a collection as its view shows it: dimension, program, whether the host writes it, and its state. -/
def State.collForm (s : State) (i : Nat) : Nat :=
  (s.collDecl i).dim + (s.collDecl i).program % 65536 * 2 ^ 11 + b2n (s.collDecl i).hostWrite * 2 ^ 27 + (s.coll i).state * 2 ^ 28

theorem effCollViewSample_declared {s : State} (readable : s.readable = true) {i : Nat} (hi : i = s.fld ⟨0xD00014, 0, 6⟩)
    (declared : i < s.collDecls.length) :
    ∃ t x, effCollViewSample s = t.replyWith (t.reg 0xD00018) ∧ t = { s with regs := x } ∧
      t.reg64 0xD00020 = (s.coll i).epoch % 2 ^ 64 ∧
      t.reg64 0xD00028 = ((s.coll i).visibleAt (s.coll i).epoch).length % 2 ^ 64 ∧ t.reg 0xD00034 = (s.coll i).nextId % 2 ^ 32 := by
  obtain ⟨epoch, visible, next, x, shown⟩ := s.collShown_spec (s.collForm i) (s.collDecl i).centroids.length (s.coll i).epoch
    ((s.coll i).visibleAt (s.coll i).epoch).length (s.coll i).awningFill (s.coll i).nextId
  refine ⟨_, x, ?_, shown, epoch, visible, next⟩
  rw [effCollViewSample, if_neg (by simp [readable])]
  simp only [← hi, declared, if_true]
  rfl

end Sys2Proof.Machine

open Sys2Proof Sys2Proof.Machine

/-- Settles O58: a batch by its counts, its result block and its lanterns, a host request by the drained queue of one, the
others by what they change. -/
theorem searchesAnswer : Obligations.SearchesAnswer := by
  refine ⟨?batch, ?query, ?host, ?deadline, ?merge, ?view⟩
  case batch =>
    intro k req unit raise out o s up run occ r b bs tiles
    have length : bs.length = 32 + r.queries * (16 + 16 * r.k) := s.length_batchBytes r _ _
    refine ⟨fun i broken room => ?_, fun kept => ?_⟩
    · obtain ⟨event, mem, -, steps, sheets⟩ := s.orderError_spec (engineRegion 4) i ⟨k.val, req⟩ room
      obtain ⟨_, _, _, _, reported⟩ := s.orderError_reported (engineRegion 4) i ⟨k.val, req⟩ room
      have page : gsPage (lanternSheet i) + 0xC = 0x70000C + 0x10000 * lanternSheet i := by unfold gsPage; omega
      exact ⟨_, congrArg Host.Outcome.next (effSearchBatch_broken up run occ broken), page ▸ event, mem, by rw [reported],
        sheets, steps⟩
    · obtain ⟨t, answers, reports, mem, outs, frame⟩ :=
        effSearchBatch_spec (raise := raise) (out := out) up run occ (r := r) rfl (b := b) rfl (tiles := tiles) rfl kept
      clear_value b r
      refine ⟨t, congrArg Host.Outcome.next answers, reports, fun full => ?_, fun room => ?_, fun none_ => ?_, fun stream some_ => ?_,
        frame⟩
      · exact mem.trans (if_neg (by simp [full]))
      · obtain ⟨block, outside⟩ := State.load_stored (mem.trans (if_pos room)) length
        exact ⟨block, fun x apart => outside x (by omega)⟩
      · rw [outs, none_]
        exact List.append_nil _
      · rw [outs, some_]
        rfl
  case query =>
    intro h req ns s offered quiet r b
    obtain ⟨v, runs, side, -, -, own⟩ := State.searchRequest_idle offered quiet 0x40 (.searchQuery h req true ns)
    obtain ⟨queue, mem, reports, refusal⟩ := State.runHostQuery_spec side own s.host.epoch h req ns (r := r) rfl (b := b) rfl
    have length : (s.batchBytes r b).length = 32 + r.queries * (16 + 16 * r.k) := s.length_batchBytes r _ _
    clear_value b r
    refine ⟨_, congrArg Host.Outcome.next runs, queue.trans quiet, reports, refusal, fun room => ?_, fun x apart => ?_⟩
    · exact (State.load_stored (mem.trans (if_pos room)) length).1
    · by_cases room : s.resultRoom r = true
      · exact (State.load_stored (mem.trans (if_pos room)) length).2 x (by simp [room] at apart; omega)
      · exact congrArg (Memory.get · x) (mem.trans (if_neg room))
  case host =>
    intro h i id reply s offered quiet service usable
    refine ⟨?_, ?_⟩
    · obtain ⟨v, runs, side, -, written, own⟩ := State.searchRequest_idle offered quiet 0x41 (.searchGet h i id reply true)
      obtain ⟨replied, found, missing⟩ := State.runGet_spec side own written service usable s.host.epoch h id.toNat reply
      exact ⟨_, congrArg Host.Outcome.next runs, replied.restored, found, missing⟩
    · obtain ⟨v, runs, side, -, written, own⟩ := State.searchRequest_idle offered quiet 0x42 (.searchExport h i reply true)
      obtain ⟨replied, reports, wrote⟩ := State.runExport_spec side own written service usable s.host.epoch h reply
      exact ⟨_, congrArg Host.Outcome.next runs, reports, wrote, replied.restored⟩
  case deadline =>
    intro s up
    obtain ⟨replied, counted⟩ := State.foldl_refuseLate (s.search.queue.filter (fun q => q.expired s.now))
      (fun q h => (List.mem_filter.mp h).2)
      { s with search := { s.search with queue := s.search.queue.filter (fun q => !q.expired s.now) } }
    refine ⟨_, congrArg Host.Outcome.next (effHostQueryDeadline_up up), ?_, counted, ?_⟩
    · obtain ⟨_, _, _, eq⟩ := replied
      rw [eq]
    · obtain ⟨_, _, _, eq⟩ := replied
      rw [eq]
  case merge =>
    intro i s up merging quiet present
    obtain ⟨own, others⟩ := s.coll_setColl present
      { s.coll i with
        merging := false
        entries := (s.coll i).entries.filter (fun v => decide (min (s.coll i).merged (s.leastAdmission i) < v.epochDel)) }
    have same : (s.endMerge i).coll i = _ := own
    refine ⟨_, congrArg Host.Outcome.next (effBackgroundMergeEnd_free up merging quiet), ?_, fun x => ?_, others, rfl⟩
    · rw [same]
    · rw [same]
      simp
  case view =>
    intro s readable declared c
    obtain ⟨t, x, sample, shown, epoch, visible, next⟩ := effCollViewSample_declared readable rfl declared
    refine ⟨_, congrArg Host.Outcome.next sample, ?_, ?_, ?_, ?_, ?_⟩
    · rw [State.reg64_replyWith, epoch]
    · rw [State.reg64_replyWith, visible]
    · rw [State.reg_replyWith, next]
    · rw [State.reg_replyWith]
      generalize t.reg 0xD00018 = w
      rw [shown]
      rfl
    · generalize t.reg 0xD00018 = w
      rw [shown]
      rfl

end

section
/-! SUPPORT. Map reads, merges and the channel view, which read or drop what stands in their units (R287, R289, R290, R303, R390). -/

namespace Sys2Proof.Machine

/-! MAP_READ (R289, R290, R303). -/

/-- Why a read of the map at epoch `e` is refused; 0 when it is not. -/
def State.readCause (s : State) (kind page e : Nat) : Nat :=
  if page = 0 ∨ 4096 < page ∨ 6 < kind then 0x0C
  else if s.inService (engineRegion 2) = false then 0x0A
  else if e + 1 < s.map.epoch then 0x42
  else if s.map.epoch < e then 0x47
  else 0

/-- The epoch that a read names. -/
def State.readEpoch (s : State) (epoch : Nat) : Nat := if epoch = liveEpoch then s.map.epoch else epoch

/-- A read that finds the engine idle and none before it runs at once, the host interface and a register aside. -/
theorem effMapRead_idle {s : State} {h : CmdHdr} (offered : s.offers h = true) (quiet : s.mapQueue = []) (kind : Nat)
    (epoch : BitVec 64) (first page : Nat) (args : List Nat) (reply : Nat) :
    ∃ v, effMapRead h kind epoch first page args reply true s =
        v.runMapRead s.host.epoch h kind epoch.toNat first page args reply ∧
      s.HostSide v ∧ v.host.written = s.host.written ∧ v.reg blockMap = s.reg blockMap := by
  obtain ⟨attached, written⟩ := s.entryTaken_frame h
  have own := s.reg_entryTaken h (a := blockMap) (by decide)
  have taken := State.HostSide.entryTaken s h
  rw [effMapRead, State.hostCommand_offers offered]
  generalize s.entryTaken h = u at *
  have none_ : u.mapQueue = [] := by
    obtain ⟨_, _, rfl⟩ := taken
    exact quiet
  refine ⟨u.setFld ⟨0xB00034, 8, 7⟩ (max 1 (u.fld ⟨0xB00034, 8, 7⟩)), ?_, taken.trans (.setFld _ _ _), by simpa using written,
    (State.reg_setFld_ne _ _ _ _ (by decide)).trans own⟩
  have read (x : List HostReq) (f : Fld) : ({ u with mapQueue := x } : State).fld f = u.fld f := State.fld_congr _ _ rfl f
  have same : ({ u with mapQueue := [] } : State) = u := by rw [← none_]
  have moved (x : List HostReq) (f : Fld) (n : Nat) :
      ({ u with mapQueue := x } : State).setFld f n = { u.setFld f n with mapQueue := x } := rfl
  have stays (f : Fld) (n : Nat) : ({ u.setFld f n with mapQueue := [] } : State) = u.setFld f n := by rw [← moved, same]
  simp only [none_, List.length_nil, List.nil_append, List.length_singleton, Nat.not_le_of_lt (show 0 < 64 by decide), if_false,
    if_true, attached, read]
  rw [moved, State.drainMap, List.foldl_cons, List.foldl_nil, State.runMapHead, stays]

section
variable {s v : State} (side : s.HostSide v) (own : v.reg blockMap = s.reg blockMap)
include side own

/-- An answer to a read, with or without bytes for the host. -/
theorem State.mapAnswer_spec (e : Nat) (h : CmdHdr) (o c : Nat) (result : Bytes) :
    let t := v.mapAnswer e h o c result
    s.Replied t ∧ t.reports s blockMap o c ∧ t.host.written = v.host.written := by
  obtain ⟨answers, time⟩ : v.answers = s.answers ∧ v.time = s.time := by
    obtain ⟨_, _, rfl⟩ := side
    exact ⟨rfl, rfl⟩
  have alike : v.answersAlike s blockMap := ⟨own, answers, time⟩
  exact ⟨side.replied.trans ((State.Replied.answer v _ _ _).trans (State.HostSide.completeIn _ _ _ _ _ _ _ _).replied),
    State.reports_of_answer alike (State.reg_congr _ _ (by simp [State.mapAnswer]) _), by simp [State.mapAnswer]⟩

theorem State.runMapRead_spec (written : v.host.written = s.host.written) (ep : Nat) (h : CmdHdr) (kind epoch first page : Nat) (args : List Nat) (reply : Nat) {e cause : Nat}
    (he : e = s.readEpoch epoch) (hc : cause = s.readCause kind page e) :
    let t := v.runMapRead ep h kind epoch first page args reply
    s.Replied t ∧
      (cause = 0 → t.reports s blockMap served 0 ∧
        t.host.written = (reply, ((s.mapSelect kind e first args).take page).flatMap (·.2)) :: s.host.written) ∧
      (cause ≠ 0 → t.reports s blockMap refused cause ∧ t.host.written = s.host.written) := by
  obtain ⟨map, service, selected⟩ : v.map = s.map ∧ v.inService (engineRegion 2) = s.inService (engineRegion 2) ∧
      v.mapSelect kind e first args = s.mapSelect kind e first args := by
    obtain ⟨_, _, rfl⟩ := side
    exact ⟨rfl, rfl, rfl⟩
  have refuses (c : Nat) (some_ : c ≠ 0) : let t := v.mapAnswer ep h refused c []
      s.Replied t ∧
        (c = 0 → t.reports s blockMap served 0 ∧
          t.host.written = (reply, ((s.mapSelect kind e first args).take page).flatMap (·.2)) :: s.host.written) ∧
        (c ≠ 0 → t.reports s blockMap refused c ∧ t.host.written = s.host.written) := by
    obtain ⟨replied, reports, same⟩ := State.mapAnswer_spec side own ep h refused c []
    exact ⟨replied, fun h => absurd h some_, fun _ => ⟨reports, same.trans written⟩⟩
  subst hc
  have epoch' : (if epoch = liveEpoch then s.map.epoch else epoch) = e := he.symm
  unfold State.runMapRead State.readCause
  dsimp only
  rw [map, epoch', service]
  by_cases ill : page = 0 ∨ 4096 < page ∨ 6 < kind
  · simp only [if_pos ill]
    exact refuses 0x0C (by decide)
  simp only [if_neg ill]
  by_cases out : s.inService (engineRegion 2) = false
  · simp only [out, Bool.not_false, if_true]
    exact refuses 0x0A (by decide)
  simp only [out, Bool.not_eq_true']
  by_cases old : e + 1 < s.map.epoch
  · simp only [if_pos old]
    exact refuses 0x42 (by decide)
  simp only [if_neg old]
  by_cases ahead : s.map.epoch < e
  · simp only [if_pos ahead]
    exact refuses 0x47 (by decide)
  simp only [if_neg ahead, selected]
  let bs := ((s.mapSelect kind e first args).take page).flatMap (·.2)
  have wrote : (v.hostWrite reply bs).host.written = (reply, bs) :: s.host.written := congrArg ((reply, bs) :: ·) written
  obtain ⟨replied, reports, same⟩ := State.mapAnswer_spec (side.trans (.hostWrite v reply bs))
    ((State.reg_congr v (v.hostWrite reply bs) rfl _).trans own) ep h served 0
    (leBytes 8 e ++ leBytes 4 ((s.mapSelect kind e first args).take page).length ++
      leBytes 4 ((((s.mapSelect kind e first args)[page]?).map (·.1)).getD 0))
  exact ⟨replied, fun _ => ⟨reports, same.trans wrote⟩, fun h => absurd rfl h⟩

end

/-! MERGE (R287). -/

theorem effMerge_issued {s : State} (may : s.mayIssue s.mapDecl.cadence = true) (service : s.inService (engineRegion 2) = true) :
    effMerge s = { s with map := { s.map with
      landmarks := s.map.landmarks.filter (fun l => decide (s.map.e1 < l.epochDel + 2))
      factors := s.map.factors.filter (fun f => decide (s.map.e1 < f.epochDel + 2))
      work := { s.map.work with merged := true } } } := by
  rw [effMerge, if_neg (by simp [may]), if_neg (by simp [service])]

/-! The view of a channel (R390). -/

/-- The view registers of a channel. -/
def State.chanShown (s : State) (place form ratio last : Nat) : State :=
  (((s.setReg 0x500038 place).setReg 0x50003C form).setReg 0x500040 ratio).setReg 0x500044 last

theorem State.chanShown_spec (s : State) (place form ratio last : Nat) :
    let t := s.chanShown place form ratio last
    t.reg 0x500038 = place % 2 ^ 32 ∧ t.reg 0x50003C = form % 2 ^ 32 ∧ t.reg 0x500040 = ratio % 2 ^ 32 ∧
      t.reg 0x500044 = last % 2 ^ 32 ∧ s.RegsOnly t := by
  unfold State.chanShown
  refine ⟨?_, ?_, ?_, State.reg_setReg_self _ _ _,
    (((State.RegsOnly.setReg s _ _).trans (.setReg _ _ _)).trans (.setReg _ _ _)).trans (.setReg _ _ _)⟩
  · rw [State.reg_setReg_ne _ _ _ _ (by decide), State.reg_setReg_ne _ _ _ _ (by decide),
      State.reg_setReg_ne _ _ _ _ (by decide), State.reg_setReg_self]
  · rw [State.reg_setReg_ne _ _ _ _ (by decide), State.reg_setReg_ne _ _ _ _ (by decide), State.reg_setReg_self]
  · rw [State.reg_setReg_ne _ _ _ _ (by decide), State.reg_setReg_self]

/-- The view's reply is its first register. -/
theorem State.chanShown_reply (s : State) (place form ratio last : Nat) :
    (s.chanShown place form ratio last).replyWith (((s.setReg 0x500038 place).setReg 0x50003C form).reg 0x500038) =
      (s.chanShown place form ratio last).replyWith ((s.chanShown place form ratio last).reg 0x500038) := by
  rw [State.chanShown, State.reg_setReg_ne _ 0x500044 _ _ (by decide), State.reg_setReg_ne _ 0x500040 _ _ (by decide)]

theorem effChanViewSample_declared {s : State} (readable : s.readable = true) {d : ChannelDecl}
    (found : s.channelDecls.find? (fun d => d.index == s.fld ⟨0x500034, 0, 13⟩) = some d) :
    ∃ t form last, t = s.chanShown (d.slot + d.element * 2 ^ 12 + d.stream * 2 ^ 16) form d.ratio last ∧
      effChanViewSample s = t.replyWith (t.reg 0x500038) := by
  rw [effChanViewSample, if_neg (by simp [readable])]
  dsimp only
  rw [found]
  exact ⟨_, _, _, rfl, State.chanShown_reply s _ _ _ _⟩

theorem effChanViewSample_undeclared {s : State} (readable : s.readable = true)
    (missing : s.channelDecls.find? (fun d => d.index == s.fld ⟨0x500034, 0, 13⟩) = none) :
    effChanViewSample s = (s.chanShown 0 0 0 0).replyWith 0 := by
  rw [effChanViewSample, if_neg (by simp [readable])]
  dsimp only
  rw [missing]
  rfl

end Sys2Proof.Machine
end

section
/-! SUPPORT. What an insertion list leaves of the map: its epochs, its keyframes' identifiers and its dead landmarks, and the delta
blocks that it writes (R281-R283, R292-R297). -/

namespace Sys2Proof.Machine

/-! What the work of an occurrence keeps of the map. -/

/-- What a keyframe keeps from its insertion on: identifier, sensor, stamp and epoch. -/
def enteredAs (k : Keyframe) : Nat × Nat × Nat × Nat := (k.id, k.sensor, k.stamp, k.epochIn)

/-- A landmark as another stands later: the same entry, and dead if it was. -/
def outlasts (x y : Landmark) : Prop := x.id = y.id ∧ x.epochIn = y.epochIn ∧ (x.live = false → y.live = false)

/-- A map that work of the occurrence has grown: the same epochs and pegs, its keyframes still first, and no landmark but old ones
and those of the epoch to come. -/
structure MapUnit.Grows (m n : MapUnit) : Prop where
  epoch : n.epoch = m.epoch
  merged : n.merged = m.merged
  pegs : n.pegs = m.pegs
  keyframes : m.keyframes.map enteredAs <+: n.keyframes.map enteredAs
  landmarks : ∀ y ∈ n.landmarks, y.epochIn = m.e1 ∨ ∃ x ∈ m.landmarks, outlasts x y

namespace MapUnit.Grows

theorem e1 {m n : MapUnit} (h : m.Grows n) : n.e1 = m.e1 := congrArg (· + 1) h.epoch

/-- Landmarks that stand as they were. -/
theorem same_landmarks {m n : MapUnit} (h : n.landmarks = m.landmarks) :
    ∀ y ∈ n.landmarks, y.epochIn = m.e1 ∨ ∃ x ∈ m.landmarks, outlasts x y :=
  fun y here => .inr ⟨y, h ▸ here, rfl, rfl, id⟩

/-- Work on factors and beside the map's entries. -/
theorem of_same {m n : MapUnit} (epoch : n.epoch = m.epoch) (merged : n.merged = m.merged) (pegs : n.pegs = m.pegs)
    (keyframes : n.keyframes = m.keyframes) (landmarks : n.landmarks = m.landmarks) : m.Grows n :=
  ⟨epoch, merged, pegs, keyframes ▸ List.prefix_rfl, same_landmarks landmarks⟩

theorem refl (m : MapUnit) : m.Grows m := of_same rfl rfl rfl rfl rfl

theorem trans {m n p : MapUnit} (h : m.Grows n) (g : n.Grows p) : m.Grows p := by
  refine ⟨g.epoch.trans h.epoch, g.merged.trans h.merged, g.pegs.trans h.pegs, h.keyframes.trans g.keyframes, fun z here => ?_⟩
  rcases g.landmarks z here with new | ⟨y, mid, id', in', dead'⟩
  · exact .inl (new.trans h.e1)
  · rcases h.landmarks y mid with new | ⟨x, old, id_, in_, dead⟩
    · exact .inl (in' ▸ new)
    · exact .inr ⟨x, old, id_.trans id', in_.trans in', fun d => dead' (dead d)⟩

theorem foldl {α : Type} {part : α → MapUnit} {β : Type} {f : α → β → α} (one : ∀ a x, (part a).Grows (part (f a x))) (l : List β)
    (a : α) : (part a).Grows (part (l.foldl f a)) := by
  induction l generalizing a with
  | nil => exact refl _
  | cons x l ih => exact (one a x).trans (ih _)

/-- Landmarks changed one by one. -/
theorem landmarksMap (m : MapUnit) {f : Landmark → Landmark} (keeps : ∀ x, outlasts x (f x)) :
    m.Grows { m with landmarks := m.landmarks.map f } := by
  refine ⟨rfl, rfl, rfl, List.prefix_rfl, fun y here => ?_⟩
  obtain ⟨x, old, rfl⟩ := List.mem_map.mp here
  exact .inr ⟨x, old, keeps x⟩

/-- Keyframes changed one by one. -/
theorem keyframesMap (m : MapUnit) {f : Keyframe → Keyframe} (keeps : ∀ k, enteredAs (f k) = enteredAs k) :
    m.Grows { m with keyframes := m.keyframes.map f } := by
  refine ⟨rfl, rfl, rfl, ?_, same_landmarks rfl⟩
  have same : (m.keyframes.map f).map enteredAs = m.keyframes.map enteredAs := by
    rw [List.map_map]
    exact List.map_congr_left fun k _ => keeps k
  exact same ▸ List.prefix_rfl

/-- The keyframes of the map stand first, with their identifiers. -/
theorem ids {m n : MapUnit} (h : m.Grows n) :
    (n.keyframes.map (·.id)).take m.keyframes.length = m.keyframes.map (·.id) := by
  have first : (m.keyframes.map enteredAs).map Prod.fst <+: (n.keyframes.map enteredAs).map Prod.fst := h.keyframes.map _
  rw [List.map_map, List.map_map, List.prefix_iff_eq_take, List.length_map] at first
  exact first.symm

/-! Deletions and insertions (R282, R283). -/

theorem deleteFactors (m : MapUnit) (p : MapFactor → Bool) : m.Grows (m.deleteFactors p) := of_same rfl rfl rfl rfl rfl

theorem delete (a : Inserting) (d : MapDelete) : a.m.Grows (a.delete d).m := by
  cases d with
  | landmark id =>
    unfold Inserting.delete
    dsimp only
    split
    · refine (deleteFactors a.m _).trans (landmarksMap _ fun x => ?_)
      split
      · next marked =>
        simp only [Bool.and_eq_true] at marked
        exact ⟨rfl, rfl, fun dead => absurd marked.2 (by simp [dead])⟩
      · exact ⟨rfl, rfl, fun dead => dead⟩
    · exact refl _
  | factor id =>
    unfold Inserting.delete
    dsimp only
    split
    · exact deleteFactors _ _
    · exact refl _

theorem insertFactor {m n : MapUnit} {cap : Nat} {f : MapFactor} (h : m.insertFactor cap f = .ok n) : m.Grows n := by
  unfold MapUnit.insertFactor at h
  split at h
  · cases h
    exact of_same rfl rfl rfl rfl rfl
  · cases h

theorem note (a : Inserting) (cap : Nat) (f : MapFactor) : a.m.Grows (a.note (a.m.insertFactor cap f)).m := by
  cases h : a.m.insertFactor cap f with
  | ok n => exact insertFactor h
  | error c => exact refl _

/-- A keyframe that enters stands behind those of the map. -/
theorem keyframe_appended (m : MapUnit) (k : Keyframe) (n : Nat) (w : MapWork) :
    m.Grows { m with keyframes := m.keyframes ++ [k], nextKf := n, work := w } :=
  ⟨rfl, rfl, rfl, by simp [List.map_append], same_landmarks rfl⟩

theorem keyframe (d : MapDecl) (a : Inserting) (k : KfCandidate) : a.m.Grows (a.keyframe d k).m := by
  unfold Inserting.keyframe
  split
  · dsimp only
    split
    · exact (keyframe_appended _ _ _ _).trans (note ⟨_, _, _, _⟩ _ _)
    · exact keyframe_appended _ _ _ _
  · exact refl _

theorem landmark (d : MapDecl) (a : Inserting) (l : NewLandmark) : a.m.Grows (a.landmark d l).m := by
  unfold Inserting.landmark
  extract_lets own c
  split
  · refine ⟨rfl, rfl, rfl, List.prefix_rfl, fun y here => ?_⟩
    rcases List.mem_append.mp here with old | new
    · exact .inr ⟨y, old, rfl, rfl, id⟩
    · rw [List.mem_singleton] at new
      subst new
      exact .inl rfl
  · exact refl _

theorem factor (d : MapDecl) (pegs : List Peg) (a : Inserting) (f : NewFactor) : a.m.Grows (a.factor d pegs f).m := by
  unfold Inserting.factor
  dsimp only
  split
  · exact note _ _ _
  · exact refl _

/-! The gauge and frozen variables (R276, R284). -/

theorem setGauge (m : MapUnit) : m.Grows m.setGauge := keyframesMap m fun _ => rfl

theorem freezeLms (m : MapUnit) (p : Landmark → Bool) : m.Grows (m.freezeLms p) := by
  refine landmarksMap m fun x => ?_
  split
  · exact ⟨rfl, rfl, fun dead => dead⟩
  · exact ⟨rfl, rfl, fun dead => dead⟩

theorem freezeTo (limit fuel : Nat) (m : MapUnit) : m.Grows (MapUnit.freezeTo limit fuel m) := by
  induction fuel generalizing m with
  | zero => exact refl m
  | succ fuel ih =>
    unfold MapUnit.freezeTo
    split
    · exact refl m
    · split
      · exact refl m
      · refine .trans (keyframesMap m fun k => ?_) (.trans (freezeLms _ _) (ih _))
        split <;> rfl

end MapUnit.Grows

/-! What a deletion does (R282). -/

/-- A landmark that a deletion names is dead once it is taken. -/
theorem Inserting.delete_landmark (a : Inserting) (id : Nat) (edge : a.m.e1 ≠ liveEpoch) {y : Landmark}
    (here : y ∈ (a.delete (.landmark id)).m.landmarks) (named : y.id = id) : y.live = false := by
  unfold Inserting.delete at here
  dsimp only at here
  split at here
  · obtain ⟨x, -, rfl⟩ := List.mem_map.mp here
    by_cases marked : (decide (x.id = id) && x.live) = true
    · rw [if_pos (by simpa using marked)]
      exact beq_false_of_ne edge
    · rw [if_neg (by simpa using marked)] at named ⊢
      simpa [named] using marked
  · next none_ =>
    cases alive : y.live with
    | false => rfl
    | true => exact absurd (List.any_eq_true.mpr ⟨y, here, by simp [named, alive]⟩) none_

/-- After all deletions the landmarks that they name are dead, but for those of the epoch to come. -/
theorem Inserting.deletes_landmark (a : Inserting) (l : List MapDelete) (edge : a.m.e1 ≠ liveEpoch) {id : Nat}
    (named : MapDelete.landmark id ∈ l) {y : Landmark} (here : y ∈ (l.foldl Inserting.delete a).m.landmarks) (same : y.id = id)
    (old : y.epochIn ≠ a.m.e1) : y.live = false := by
  obtain ⟨before, after, rfl⟩ := List.append_of_mem named
  rw [List.foldl_append, List.foldl_cons] at here
  have grown : a.m.Grows (before.foldl Inserting.delete a).m := .foldl (part := Inserting.m) .delete _ _
  generalize before.foldl Inserting.delete a = u at *
  have next := MapUnit.Grows.delete u (.landmark id)
  have rest : ((u.delete (.landmark id)).m).Grows (after.foldl Inserting.delete (u.delete (.landmark id))).m :=
    .foldl (part := Inserting.m) .delete _ _
  rcases rest.landmarks y here with new | ⟨x, mid, id', -, dead⟩
  · exact absurd (new.trans (next.e1.trans grown.e1)) old
  · exact dead (u.delete_landmark id (grown.e1 ▸ edge) mid (id'.trans same))

/-- The first candidate of a list, with room, enters under the next identifier (R283). -/
theorem Inserting.keyframe_enters (d : MapDecl) (a : Inserting) (k : KfCandidate) (awning : a.m.awnKfs < awningKfs)
    (room : a.m.keyframes.length < d.kfCap) :
    (a.m.nextKf, k.sensor, k.stamp, a.m.e1) ∈ ((a.keyframe d k).m.keyframes.map enteredAs) := by
  have fits : partCause a.m.awnKfs awningKfs a.m.keyframes.length d.kfCap = 0 := by
    rw [partCause, if_neg (by omega), if_neg (by omega)]
  have entered {m n : MapUnit} (h : m.Grows n) {x : Nat × Nat × Nat × Nat} (old : x ∈ m.keyframes.map enteredAs) :
      x ∈ n.keyframes.map enteredAs := h.keyframes.subset old
  have enters (w : MapWork) (s₁ s₂ : PoseSlot) (f v : Nat) :
      (a.m.nextKf, k.sensor, k.stamp, a.m.e1) ∈ ({ a.m with
        keyframes := a.m.keyframes ++ [⟨a.m.nextKf, k.sensor, f, k.stamp, a.m.e1, s₁, s₂, v⟩]
        nextKf := a.m.nextKf + 1, work := w } : MapUnit).keyframes.map enteredAs := by
    simp [enteredAs]
  unfold Inserting.keyframe
  rw [fits]
  split
  · dsimp only
    split
    · exact entered (MapUnit.Grows.note ⟨_, _, _, _⟩ _ _) (enters _ _ _ _ _)
    · exact enters _ _ _ _ _
  · next other => exact absurd rfl other

/-! The state's work on the map. -/

/-- The map grows, and neither memory nor the run changes. -/
def State.MapKept (s t : State) : Prop := s.map.Grows t.map ∧ t.mem = s.mem ∧ t.steps = s.steps

namespace State.MapKept

theorem refl (s : State) : s.MapKept s := ⟨.refl _, rfl, rfl⟩

theorem trans {s t u : State} (h : s.MapKept t) (g : t.MapKept u) : s.MapKept u :=
  ⟨h.1.trans g.1, g.2.1.trans h.2.1, g.2.2.trans h.2.2⟩

theorem setMap (s : State) {m : MapUnit} (h : s.map.Grows m) : s.MapKept { s with map := m } := ⟨h, rfl, rfl⟩

/-- Work that leaves the map as it is. -/
theorem of_same {s t : State} (map : t.map = s.map) (mem : t.mem = s.mem) (steps : t.steps = s.steps) : s.MapKept t :=
  ⟨map ▸ .refl _, mem, steps⟩

theorem of_replied {s t : State} (h : s.Replied t) : s.MapKept t := by
  obtain ⟨_, _, _, rfl⟩ := h
  exact refl s

theorem answer (s : State) (b o c : Nat) : s.MapKept (s.answer b o c) := of_replied (.answer s b o c)
theorem mapEvent (s : State) (bit : Nat) : s.MapKept (s.mapEvent bit) := of_replied (State.HostSide.event s _ _ _ _).replied

theorem countBatch (s : State) (r : QueryReq) (b : BatchAns) : s.MapKept (s.countBatch r b) := by
  obtain ⟨_, _, _, _, eq⟩ := State.Counted.countBatch s r b
  rw [eq]
  exact refl s

theorem foldl {α : Type} {f : State → α → State} (one : ∀ (s : State) (x : α), s.MapKept (f s x)) (l : List α) (s : State) :
    s.MapKept (l.foldl f s) := by
  induction l generalizing s with
  | nil => exact refl s
  | cons x l ih => exact (one s x).trans (ih _)

theorem insertAnswer (s : State) (causes : List Nat) : s.MapKept (s.insertAnswer causes) := by
  have evented (s : State) (bit : Nat) (c : Prop) [Decidable c] : s.MapKept (if c then s.mapEvent bit else s) := by
    split
    · exact mapEvent s bit
    · exact refl s
  unfold State.insertAnswer
  dsimp only
  split
  · exact ((evented s 0 _).trans (evented _ 1 _)).trans (answer _ _ _ _)
  · exact ((evented s 0 _).trans (evented _ 1 _)).trans (answer _ _ _ _)

theorem placeQuery (s : State) (k : Keyframe) (vec : List Nat) : s.MapKept (s.placeQuery k vec).2 := by
  unfold State.placeQuery
  extract_lets decl r
  split
  · exact refl s
  · exact (countBatch s _ _).trans (answer _ _ _ _)

/-- A closure entered, with what else changes beside the map's entries. -/
theorem closed (s : State) {m : MapUnit} (h : s.map.Grows m) (w : MapWork) : s.MapKept { s with map := { m with work := w } } :=
  setMap s (h.trans (.of_same rfl rfl rfl rfl rfl))

theorem closeLoop (s : State) (occ : Occurrence) (pos id : Nat) (vec : List Nat) : s.MapKept (s.closeLoop occ pos id vec) := by
  unfold State.closeLoop
  split
  · exact refl s
  · next k _ =>
    extract_lets q u cands r entry add
    have asked : s.MapKept u := by
      unfold u
      split
      · exact ((placeQuery s k vec).trans (mapEvent _ _)).trans (answer _ _ _ _)
      · exact placeQuery s k vec
    refine asked.trans ?_
    clear_value u
    split
    · exact closed u (.refl _) _
    · split
      · next inserted => exact closed u (.insertFactor inserted) _
      · exact (closed u (.refl _) _).trans (answer _ _ _ _)

theorem closeLoops (s : State) (occ : Occurrence) (xs : List (Nat × Nat × List Nat)) : s.MapKept (s.closeLoops occ xs) := by
  refine foldl (fun s x => ?_) xs s
  split
  · exact (closed s (.refl _) _).trans (mapEvent _ _)
  · exact closeLoop s _ _ _ _

end State.MapKept

/-! The submission (R297). -/

/-- Stores of compiled work, one by one: marks, and no byte but theirs. -/
theorem State.foldl_cstore {α : Type} (k unit : Nat) (addr : α → Nat) (bytes : α → Bytes) (l : List α) (s : State) :
    ∃ m, ({ s with mem := m } : State).Marks (l.foldl (fun s x => s.cstore k unit (addr x) (bytes x)) s) ∧
      ∀ b, (∀ x ∈ l, b < addr x ∨ addr x + (bytes x).length ≤ b) → Memory.get m b = Memory.get s.mem b := by
  induction l generalizing s with
  | nil => exact ⟨s.mem, .refl s, fun _ _ => rfl⟩
  | cons x l ih =>
    obtain ⟨m, marks, outside⟩ := ih (s.cstore k unit (addr x) (bytes x))
    have first := State.Marks.cstore s k unit (addr x) (bytes x)
    refine ⟨m, (first.withMem m).trans marks, fun b apart => (outside b fun y h => apart y (List.mem_cons_of_mem _ h)).trans ?_⟩
    rw [first.keeps.1]
    exact Memory.get_setBytes_outside _ _ _ _ (apart x List.mem_cons_self)

theorem length_deltaBytes (d : Delta) : (deltaBytes d).length = 768 := length_fitBytes _ _

theorem State.Marks.map {s t : State} (h : s.Marks t) : t.map = s.map := by
  obtain ⟨_, _, _, _, _, _, _, _, rfl⟩ := h
  rfl

/-- The submission of an occurrence: its header names its delta blocks, and it writes them alone. -/
theorem State.submit_spec (s : State) (occ : Occurrence) (pegs : List Peg) :
    let t := s.submit occ pegs
    let n := (s.submission occ pegs).deltas.length
    s.map.Grows t.map ∧ (∃ b, t.map.work.header = some (n, s.map.e1, b, s.mapDecl.deltaBase)) ∧
      ∀ x, (∀ i, i < n → x < deltaAddr s.mapDecl.deltaBase i ∨ deltaAddr s.mapDecl.deltaBase i + 768 ≤ x) → t.byte x = s.byte x := by
  unfold State.submit
  extract_lets decl sub u reorder m work w t n
  obtain ⟨mem, marks, outside⟩ := s.foldl_cstore decl.cadence decl.unit (fun p : Nat × Delta => deltaAddr decl.deltaBase p.1)
    (fun p => deltaBytes p.2) (List.zip (List.range sub.deltas.length) sub.deltas)
  have last : w.Marks t := .after (.raiseLantern _ _ _ _ _) (.fillLantern w _ _)
  have same : m = s.map := (State.Marks.map marks).trans rfl
  have written : t.mem = mem := last.keeps.1.trans marks.keeps.1
  refine ⟨?_, ⟨reorder, ?_⟩, fun x apart => ?_⟩
  · rw [last.map, ← same]
    exact .of_same rfl rfl rfl rfl rfl
  · rw [last.map, ← same]
  · rw [State.byte, written, State.byte]
    refine outside x fun p h => ?_
    rw [length_deltaBytes]
    exact apart p.1 (List.mem_range.mp (List.of_mem_zip h).1)

/-! INSERTION_LIST (R281-R283, R292-R297). -/

/-- The map of the list's deletions. -/
def State.deleted (s : State) (l : InsertList) : Inserting := l.deletes.foldl Inserting.delete ⟨s.map, [], [], []⟩

/-- What the list inserts. -/
def State.inserted (s : State) (l : InsertList) (pegs : List Peg) : Inserting :=
  l.factors.foldl (Inserting.factor s.mapDecl pegs) (l.landmarks.foldl (Inserting.landmark s.mapDecl)
    (l.keyframes.foldl (Inserting.keyframe s.mapDecl) (s.deleted l)))

/-- A list that is taken ends in a submission, from a map that has grown from what the list inserts. -/
theorem effInsertionList_submits {l : InsertList} {o : Occurrence} {s : State} (may : s.mayIssue s.mapDecl.cadence = true)
    (occ : s.occOf s.mapDecl.cadence = some o) (service : s.inService (engineRegion 2) = true) :
    ∃ u : State, effInsertionList l s = u.submit o (s.pegsFor o.step) ∧ (s.inserted l (s.pegsFor o.step)).m.Grows u.map ∧ u.mem = s.mem ∧
      u.steps = s.steps := by
  unfold effInsertionList
  extract_lets decl
  split
  · next none_ => exact absurd (none_.symm.trans occ) nofun
  · next o' found =>
  obtain rfl : o' = o := Option.some.inj (found.symm.trans occ)
  rw [if_neg (by simp [decl, may]), if_neg (by simp [service])]
  extract_lets pegs a m₀ work m u marked v m₁ m₂
  have frozen : a.m.Grows m := (MapUnit.Grows.freezeLms a.m _).trans (.of_same rfl rfl rfl rfl rfl)
  obtain ⟨answered, mem, steps⟩ : ({ s with map := m } : State).MapKept v :=
    (State.MapKept.insertAnswer _ _).trans (State.MapKept.closeLoops _ _ _)
  refine ⟨{ v with map := m₂ }, rfl, ?_, mem, steps⟩
  exact ((frozen.trans answered).trans (.setGauge _)).trans (.freezeTo _ _ _)

/-- A list's work, from the map as it was to the map that is submitted. -/
theorem State.inserted_grows (s : State) (l : InsertList) (pegs : List Peg) :
    s.map.Grows (s.deleted l).m ∧ (s.deleted l).m.Grows (s.inserted l pegs).m :=
  ⟨MapUnit.Grows.foldl (part := Inserting.m) .delete l.deletes ⟨s.map, [], [], []⟩,
    (MapUnit.Grows.foldl (part := Inserting.m) (.keyframe s.mapDecl) _ _).trans
      ((MapUnit.Grows.foldl (part := Inserting.m) (.landmark s.mapDecl) _ _).trans
        (.foldl (part := Inserting.m) (.factor s.mapDecl pegs) _ _))⟩

/-- A deletion takes no keyframe, and no identifier of one. -/
theorem Inserting.deletes_keyframes (l : List MapDelete) (a : Inserting) :
    let b := l.foldl Inserting.delete a
    b.m.keyframes = a.m.keyframes ∧ b.m.nextKf = a.m.nextKf ∧ b.m.merged = a.m.merged ∧ b.m.e1 = a.m.e1 := by
  induction l generalizing a with
  | nil => exact ⟨rfl, rfl, rfl, rfl⟩
  | cons d l ih =>
    obtain ⟨keyframes, next, merged, edge⟩ := ih (a.delete d)
    have one : (a.delete d).m.keyframes = a.m.keyframes ∧ (a.delete d).m.nextKf = a.m.nextKf ∧
        (a.delete d).m.merged = a.m.merged ∧ (a.delete d).m.e1 = a.m.e1 := by
      cases d <;> (unfold Inserting.delete; dsimp only; split <;> exact ⟨rfl, rfl, rfl, rfl⟩)
    obtain ⟨keyframes', next', merged', edge'⟩ := one
    exact ⟨keyframes.trans keyframes', next.trans next', merged.trans merged', edge.trans edge'⟩

/-- The first candidate of a list, with room, stands in the map that the list makes. -/
theorem State.inserted_first (s : State) {l : InsertList} {k : KfCandidate} {ks : List KfCandidate} (first : l.keyframes = k :: ks)
    (awning : s.map.awnKfs < awningKfs) (room : s.map.keyframes.length < s.mapDecl.kfCap) (pegs : List Peg) :
    (s.map.nextKf, k.sensor, k.stamp, s.map.e1) ∈ (s.inserted l pegs).m.keyframes.map enteredAs := by
  obtain ⟨keyframes, next, merged, edge⟩ := Inserting.deletes_keyframes l.deletes ⟨s.map, [], [], []⟩
  have enters := Inserting.keyframe_enters s.mapDecl (s.deleted l) k
    (by rw [MapUnit.awnKfs, State.deleted, keyframes, merged]; exact awning) (by rw [State.deleted, keyframes]; exact room)
  rw [State.deleted, next, edge] at enters
  refine MapUnit.Grows.keyframes ?_ |>.subset enters
  rw [State.inserted, first, List.foldl_cons]
  exact (MapUnit.Grows.foldl (part := Inserting.m) (.keyframe s.mapDecl) _ _).trans
    ((MapUnit.Grows.foldl (part := Inserting.m) (.landmark s.mapDecl) _ _).trans
      (.foldl (part := Inserting.m) (.factor s.mapDecl pegs) _ _))

end Sys2Proof.Machine
end

section
/-! SUPPORT. What a solver submission stores and answers (R310, R325, R326), and the statement about the map, the solver and the
channels (R153, R281-R326). -/

namespace Sys2Proof.Machine

/-! Errors, by what they leave alone. -/

/-- A malformed descriptor's error leaves memory, the run and the low registers (R554). -/
theorem State.badDescriptor_spec (s : State) (region cause : Nat) (ctx : DescCtx) (room : s.faults.queue.length < 256) :
    let t := s.badDescriptor region cause ctx
    s.Reported t ∧ ∀ a, a < 0xE00000 → t.reg a = s.reg a := by
  obtain ⟨-, -, reg⟩ := s.detect_frame region 3 cause ctx.addr []
    ((s.occOf ctx.cadence).toList.map (fun o => (o.cadence, o.step))) [] 1 room
  exact ⟨State.detect_reported _ _ _ _ _ _ _ _ _ room, reg⟩

/-- A descriptor that is refused with a cause (R155, R205, R314). -/
theorem State.refused_badDescriptor (s : State) (region b cause : Nat) (ctx : DescCtx) (room : s.faults.queue.length < 256)
    (low : b < 0xE00000) :
    let t := (s.answer b refused cause).badDescriptor region cause ctx
    t.reports s b refused cause ∧
      ∃ host regs faults counters answers,
        t = { s with host := host, regs := regs, faults := faults, counters := counters, answers := answers } := by
  obtain ⟨reported, reg⟩ := (s.answer b refused cause).badDescriptor_spec region cause ctx (by simpa using room)
  refine ⟨State.reports_of_answer ⟨rfl, rfl, rfl⟩ (reg b low), ?_⟩
  obtain ⟨x, y, answered⟩ := s.answer_eq b refused cause
  obtain ⟨host, regs, faults, counters, eq⟩ := reported
  exact ⟨host, regs, faults, counters, y, by rw [eq, answered]⟩

/-- An order error changes one register below the fault block's: its groundsheet's events (R155). -/
theorem State.reg_orderError (s : State) (region i : Nat) (ctx : DescCtx) (room : s.faults.queue.length < 256) {a : Nat}
    (low : a < 0xE00000) (other : a ≠ 0x70000C + 0x10000 * lanternSheet i) : (s.orderError region i ctx).reg a = s.reg a := by
  obtain ⟨-, -, reg⟩ := (s.event (0x70000C + 0x10000 * lanternSheet i) 2 false 0).detect_frame region 3 0 (lanternAddr i) []
    (((s.event (0x70000C + 0x10000 * lanternSheet i) 2 false 0).occOf ctx.cadence).toList.map (fun o => (o.cadence, o.step))) [] 1
    (by simpa using room)
  exact (reg a low).trans (State.reg_event_ne _ _ _ _ _ other)

/-! Events. -/

/-- Registers and vectors raised may differ; nothing else does. -/
def State.Evented (s t : State) : Prop :=
  ∃ regs sent pending, t = { s with regs := regs, host := { s.host with sent := sent, vectorPending := pending } }

theorem State.Evented.trans {s t u : State} (h : s.Evented t) (g : t.Evented u) : s.Evented u := by
  obtain ⟨_, _, _, rfl⟩ := h
  obtain ⟨_, _, _, rfl⟩ := g
  exact ⟨_, _, _, rfl⟩

theorem State.Evented.refl (s : State) : s.Evented s := ⟨_, _, _, rfl⟩

theorem State.Evented.event (s : State) (off bit : Nat) (en : Bool) (vec : Nat) : s.Evented (s.event off bit en vec) := by
  have written (s : State) (a v : Nat) : s.Evented (s.setReg a v) := ⟨_, _, _, rfl⟩
  have raised (s : State) (v : Nat) : s.Evented (s.msix v) := by
    unfold State.msix
    split <;> exact ⟨_, _, _, rfl⟩
  unfold State.event
  split
  · exact (written s _ _).trans (raised _ _)
  · exact written s _ _

/-! A slot's writer (R153). -/

/-- Who may write a slot rests on the slot's phase and use, and on the plan. -/
theorem State.mayWriteSlot_congr {s t : State} {i : Nat} (phase : (t.lantern i).phase = (s.lantern i).phase)
    (use : (t.lantern i).use = (s.lantern i).use) (steps : t.steps = s.steps) (unit : Nat) :
    t.mayWriteSlot unit i = s.mayWriteSlot unit i := by
  have plan : t.planUses i = s.planUses i := by rw [State.planUses, State.planUses, steps]
  rw [State.mayWriteSlot, State.mayWriteSlot, State.useOf, State.useOf, phase, use, plan]

/-- The phase and the use of a slot. -/
def State.slotStage (s : State) (i : Nat) : Nat × Nat := ((s.lantern i).phase, (s.lantern i).use)

theorem State.slotStage_of_sheets {s t : State} (h : t.sheets = s.sheets) (i : Nat) : t.slotStage i = s.slotStage i := by
  rw [State.slotStage, State.lantern_of_sheets h, State.slotStage]

theorem State.slotStage_dirtyTiles (s : State) (a n i : Nat) : (s.dirtyTiles a n).slotStage i = s.slotStage i := by
  unfold State.dirtyTiles
  split
  · rfl
  · refine foldl_keeps (·.slotStage i) _ _ (fun k _ s => ?_) s
    unfold State.slotStage
    rw [State.lantern_setLantern]
    split
    · next same =>
      rw [State.lantern_index] at same
      rw [same]
    · rfl

theorem State.slotStage_writeBeats (s : State) (a n i : Nat) : (s.writeBeats a n).slotStage i = s.slotStage i := by
  unfold State.writeBeats
  split
  · rfl
  · exact foldl_keeps (·.slotStage i) _ _ (fun k _ s => State.slotStage_of_sheets (by simp) i) s

/-- A store leaves every slot's phase and use. -/
theorem State.slotStage_cstore (s : State) (k u a : Nat) (bs : Bytes) (i : Nat) : (s.cstore k u a bs).slotStage i = s.slotStage i := by
  have tagged (s : State) (a n t m u : Nat) : (s.tagRange a n t m u).slotStage i = s.slotStage i := by
    unfold State.tagRange
    split <;> rfl
  have stored (s : State) : (s.store a bs).slotStage i = s.slotStage i := by
    obtain ⟨_, eq⟩ := s.store_eq a bs
    rw [eq]
    rfl
  unfold State.cstore
  refine (State.slotStage_of_sheets (s := State.tagRange _ _ _ _ _ _) rfl i).trans ?_
  rw [tagged, State.slotStage_writeBeats, State.slotStage_dirtyTiles, stored]
  rfl

theorem State.mayWriteSlot_cstores {α : Type} (k unit : Nat) (addr : α → Nat) (bytes : α → Bytes) (l : List α) (s : State)
    (writer i : Nat) :
    (l.foldl (fun s x => s.cstore k unit (addr x) (bytes x)) s).mayWriteSlot writer i = s.mayWriteSlot writer i := by
  have stage := foldl_keeps (·.slotStage i) (fun s x => s.cstore k unit (addr x) (bytes x)) l
    (fun x _ s => s.slotStage_cstore k unit (addr x) (bytes x) i) s
  obtain ⟨m, marks, -⟩ := s.foldl_cstore k unit addr bytes l
  exact State.mayWriteSlot_congr (congrArg Prod.fst stage) (congrArg Prod.snd stage) marks.keeps.2.2 writer

/-! Stores and lanterns, by what no store or lantern changes. -/

/-- Memory, tiers, checkpoints, counters, sheets and notes of tensors may differ; nothing else does. -/
def State.Stored (s t : State) : Prop :=
  ∃ mem tiers points counters sheets anchors tensors,
    t = { s with
      mem := mem, tiers := tiers, checkpoints := points, counters := counters, sheets := sheets, anchors := anchors
      tensors := tensors }

namespace State.Stored

theorem refl (s : State) : s.Stored s := ⟨_, _, _, _, _, _, _, rfl⟩

theorem trans {s t u : State} (h : s.Stored t) (g : t.Stored u) : s.Stored u := by
  obtain ⟨_, _, _, _, _, _, _, rfl⟩ := h
  obtain ⟨_, _, _, _, _, _, _, rfl⟩ := g
  exact ⟨_, _, _, _, _, _, _, rfl⟩

theorem foldl {α : Type} {f : State → α → State} (one : ∀ (s : State) (x : α), s.Stored (f s x)) (l : List α) (s : State) :
    s.Stored (l.foldl f s) := by
  induction l generalizing s with
  | nil => exact refl s
  | cons x l ih => exact (one s x).trans (ih (f s x))

theorem keeps {s t : State} (h : s.Stored t) :
    t.regs = s.regs ∧ t.answers = s.answers ∧ t.time = s.time ∧ t.steps = s.steps ∧ t.faults = s.faults ∧ t.host = s.host := by
  obtain ⟨_, _, _, _, _, _, _, rfl⟩ := h
  exact ⟨rfl, rfl, rfl, rfl, rfl, rfl⟩

theorem setLantern (s : State) (l : LanternState) : s.Stored (s.setLantern l) := ⟨_, _, _, _, _, _, _, rfl⟩
theorem touchLantern (s : State) (k i : Nat) : s.Stored (s.touchLantern k i) := ⟨_, _, _, _, _, _, _, rfl⟩
theorem dropWait (s : State) (u i : Nat) : s.Stored (s.dropWait u i) := ⟨_, _, _, _, _, _, _, rfl⟩
theorem logUndo (s : State) (k a n : Nat) : s.Stored (s.logUndo k a n) := ⟨_, _, _, _, _, _, _, rfl⟩
theorem forgetTensors (s : State) (a n : Nat) : s.Stored (s.forgetTensors a n) := ⟨_, _, _, _, _, _, _, rfl⟩

theorem count (s : State) (die ev inst n : Nat) : s.Stored (s.count die ev inst n) := by
  obtain ⟨_, eq⟩ := s.count_eq die ev inst n
  exact ⟨_, _, _, _, _, _, _, eq⟩

theorem store (s : State) (a : Nat) (bs : Bytes) : s.Stored (s.store a bs) := by
  obtain ⟨_, eq⟩ := s.store_eq a bs
  exact ⟨_, _, _, _, _, _, _, eq⟩

theorem fillLantern (s : State) (u i : Nat) : s.Stored (s.fillLantern u i) := by
  unfold State.fillLantern
  dsimp only
  split
  · split
    · exact (setLantern s _).trans (touchLantern _ _ _)
    · exact refl s
  · exact refl s

theorem raiseLantern (s : State) (u i t n : Nat) : s.Stored (s.raiseLantern u i t n) := by
  unfold State.raiseLantern
  dsimp only
  split
  · split
    · exact ((setLantern s _).trans (touchLantern _ _ _)).trans (count _ _ _ _ _)
    · exact refl s
  · exact refl s

theorem dirtyTiles (s : State) (a n : Nat) : s.Stored (s.dirtyTiles a n) := by
  unfold State.dirtyTiles
  split
  · exact refl s
  · exact foldl (fun s _ => setLantern s _) _ s

theorem writeBeats (s : State) (a n : Nat) : s.Stored (s.writeBeats a n) := by
  unfold State.writeBeats
  split
  · exact refl s
  · exact foldl (fun s _ => count s _ _ _ _) _ s

theorem tagRange (s : State) (a n t m u : Nat) : s.Stored (s.tagRange a n t m u) := by
  unfold State.tagRange
  split
  · exact refl s
  · exact ⟨_, _, _, _, _, _, _, rfl⟩

theorem cstore (s : State) (k u a : Nat) (bs : Bytes) : s.Stored (s.cstore k u a bs) :=
  (((((logUndo s k a bs.length).trans (store _ _ _)).trans (dirtyTiles _ _ _)).trans (writeBeats _ _ _)).trans
    (tagRange _ _ _ _ _ _)).trans (forgetTensors _ _ _)

end State.Stored

/-! The result of a solve (R326). -/

theorem length_resultBytes (r : SolveResult) : (resultBytes r).length = 256 := length_fitBytes _ _

/-- The bytes that a tile begins with. -/
theorem take_fitBytes {n : Nat} {bs : Bytes} (fits : bs.length ≤ n) : (fitBytes n bs).take bs.length = bs := by
  rw [fitBytes, List.take_of_length_le fits, List.take_left]

/-- A byte that neither a solution tile nor the result's slot holds. -/
def State.besideResult (s : State) (r : SolveResult) (x : Nat) : Prop :=
  (x < s.solverDecl.solutionBase ∨ s.solverDecl.solutionBase + ceilDiv r.entries.length 341 * tileBytes ≤ x) ∧
    (x < lanternAddr s.solverDecl.resultLantern ∨ lanternAddr s.solverDecl.resultLantern + tileBytes ≤ x)

/-- The tile that a result status is. -/
def resultTile (r : SolveResult) : Bytes := fitBytes tileBytes (resultBytes r)

/-- A result's solution tiles, and then its status, by the unit that may write it or not. -/
theorem State.writeResult_eq (s : State) (o : Occurrence) (r : SolveResult) :
    ∃ (u : State) (m : Memory) (time : Nat), ({ s with mem := m } : State).Marks u ∧ s.Stored u ∧
      s.writeResult o r = (if s.mayWriteSlot s.solverDecl.unit s.solverDecl.resultLantern then
          (u.fillLantern s.solverDecl.unit s.solverDecl.resultLantern).cstore s.solverDecl.cadence s.solverDecl.unit
            (lanternAddr s.solverDecl.resultLantern) (resultTile r)
        else u.orderError (engineRegion 3) s.solverDecl.resultLantern
          ⟨s.solverDecl.cadence, lanternAddr s.solverDecl.resultLantern⟩).raiseLantern s.solverDecl.unit
            s.solverDecl.resultLantern time o.step ∧
      ∀ x, s.besideResult r x → Memory.get m x = Memory.get s.mem x := by
  have own := s.mayWriteSlot_cstores s.solverDecl.cadence s.solverDecl.unit (fun t => s.solverDecl.solutionBase + t * tileBytes)
    (fun t => fitBytes tileBytes (((r.entries.drop (341 * t)).take 341).flatMap entryOf)) (List.range (ceilDiv r.entries.length 341))
    s.solverDecl.unit s.solverDecl.resultLantern
  obtain ⟨m, marks, outside⟩ := s.foldl_cstore s.solverDecl.cadence s.solverDecl.unit
    (fun t => s.solverDecl.solutionBase + t * tileBytes)
    (fun t => fitBytes tileBytes (((r.entries.drop (341 * t)).take 341).flatMap entryOf)) (List.range (ceilDiv r.entries.length 341))
  have stored := State.Stored.foldl (fun (s' : State) t => .cstore s' s.solverDecl.cadence s.solverDecl.unit
    (s.solverDecl.solutionBase + t * tileBytes) (fitBytes tileBytes (((r.entries.drop (341 * t)).take 341).flatMap entryOf)))
    (List.range (ceilDiv r.entries.length 341)) s
  unfold State.writeResult
  extract_lets d n u
  refine ⟨u, m, u.stepTime o.step, marks, stored, ?_, fun x apart => outside x fun t h => ?_⟩
  · rw [State.storeTile, own]
    rfl
  · have below := List.mem_range.mp h
    rw [length_fitBytes]
    have last : (t + 1) * tileBytes ≤ ceilDiv r.entries.length 341 * tileBytes := Nat.mul_le_mul_right _ below
    have next : (t + 1) * tileBytes = t * tileBytes + tileBytes := Nat.succ_mul _ _
    rcases apart.1 with low | high
    · exact .inl (by omega)
    · exact .inr (by omega)

/-- A result in a slot that is the solver's own. -/
theorem State.writeResult_owned {s : State} (o : Occurrence) (r : SolveResult)
    (owned : s.mayWriteSlot s.solverDecl.unit s.solverDecl.resultLantern = true) :
    s.Stored (s.writeResult o r) ∧
      Memory.getBytes (s.writeResult o r).mem (lanternAddr s.solverDecl.resultLantern) 256 = resultBytes r ∧
      ∀ x, s.besideResult r x → (s.writeResult o r).byte x = s.byte x := by
  obtain ⟨u, m, time, marks, stored, eq, outside⟩ := s.writeResult_eq o r
  rw [if_pos owned] at eq
  generalize filled : u.fillLantern s.solverDecl.unit s.solverDecl.resultLantern = v at eq
  have first : u.Stored v := filled ▸ .fillLantern u _ _
  have held : v.mem = m := (filled ▸ (State.Marks.fillLantern u _ _).keeps.1).trans marks.keeps.1
  have written := (State.Marks.cstore v s.solverDecl.cadence s.solverDecl.unit (lanternAddr s.solverDecl.resultLantern)
    (resultTile r)).trans (.raiseLantern _ s.solverDecl.unit s.solverDecl.resultLantern time o.step)
  have last := (State.Stored.cstore v s.solverDecl.cadence s.solverDecl.unit (lanternAddr s.solverDecl.resultLantern)
    (resultTile r)).trans (.raiseLantern _ s.solverDecl.unit s.solverDecl.resultLantern time o.step)
  rw [← eq] at written last
  have mem : (s.writeResult o r).mem = Memory.setBytes m (lanternAddr s.solverDecl.resultLantern) (resultTile r) :=
    written.keeps.1.trans (by rw [held])
  refine ⟨(stored.trans first).trans last, ?_, fun x apart => ?_⟩
  · have part := Memory.getBytes_setBytes_part m (lanternAddr s.solverDecl.resultLantern) 0 256 (resultTile r)
      (by rw [resultTile, length_fitBytes]; decide)
    rw [Nat.add_zero, List.drop_zero] at part
    have whole := take_fitBytes (n := tileBytes) (bs := resultBytes r) (by rw [length_resultBytes]; decide)
    rw [length_resultBytes] at whole
    rw [mem]
    exact part.trans whole
  · rw [State.byte, mem]
    refine (Memory.get_setBytes_outside _ _ _ _ ?_).trans (outside x apart)
    rw [resultTile, length_fitBytes]
    exact apart.2

/-- A result whose slot is not the solver's own: no status is written, and the error is reported (R155). -/
theorem State.writeResult_broken {s : State} (o : Occurrence) (r : SolveResult)
    (foreign : s.mayWriteSlot s.solverDecl.unit s.solverDecl.resultLantern = false) (room : s.faults.queue.length < 256) :
    (s.writeResult o r).solver = s.solver ∧ (s.writeResult o r).answersAlike s blockSolver ∧
      ∀ x, s.besideResult r x → (s.writeResult o r).byte x = s.byte x := by
  obtain ⟨u, m, time, marks, stored, eq, outside⟩ := s.writeResult_eq o r
  rw [if_neg (by simp [foreign])] at eq
  obtain ⟨regs, -, -, -, faults, -⟩ := stored.keeps
  have sheet : lanternSheet s.solverDecl.resultLantern < 4 := bitsOf_lt _ 12 2
  have reg := u.reg_orderError (engineRegion 3) s.solverDecl.resultLantern
    ⟨s.solverDecl.cadence, lanternAddr s.solverDecl.resultLantern⟩ (faults ▸ room) (a := blockSolver) (by decide)
    (by unfold blockSolver; omega)
  have reported := u.orderError_reported (engineRegion 3) s.solverDecl.resultLantern
    ⟨s.solverDecl.cadence, lanternAddr s.solverDecl.resultLantern⟩ (faults ▸ room)
  generalize u.orderError (engineRegion 3) s.solverDecl.resultLantern
    ⟨s.solverDecl.cadence, lanternAddr s.solverDecl.resultLantern⟩ = v at *
  have last := State.Stored.raiseLantern v s.solverDecl.unit s.solverDecl.resultLantern time o.step
  have kept := (State.Marks.raiseLantern v s.solverDecl.unit s.solverDecl.resultLantern time o.step).keeps.1
  rw [← eq] at last kept
  generalize s.writeResult o r = t at *
  have own : t.reg blockSolver = s.reg blockSolver :=
    (State.reg_congr _ _ last.keeps.1 _).trans (reg.trans (State.reg_congr _ _ regs _))
  have same : v.mem = u.mem := by
    obtain ⟨_, _, _, _, rfl⟩ := reported
    rfl
  have mem : t.mem = m := kept.trans (same.trans marks.keeps.1)
  obtain ⟨solver, answers, time'⟩ : t.solver = s.solver ∧ t.answers = s.answers ∧ t.time = s.time := by
    obtain ⟨_, _, _, _, _, _, _, rfl⟩ := last
    obtain ⟨_, _, _, _, rfl⟩ := reported
    obtain ⟨_, _, _, _, _, _, _, rfl⟩ := stored
    exact ⟨rfl, rfl, rfl⟩
  refine ⟨solver, ⟨own, answers, time'⟩, fun x apart => ?_⟩
  rw [State.byte, mem, State.byte]
  exact outside x apart

/-! SOLVER_SUBMISSION (R310, R325, R326). -/

theorem State.Evented.solverEvent_onlyIf (s : State) (bit : Nat) (c : Prop) [Decidable c] :
    s.Evented (if c then s.solverEvent bit else s) ∧ (if c then s.solverEvent bit else s).reg blockSolver = s.reg blockSolver := by
  split
  · exact ⟨.event _ _ _ _ _, State.reg_event_ne _ _ _ _ _ (by decide)⟩
  · exact ⟨.refl s, rfl⟩

/-- The events of a solve (R325). -/
def State.solveEvents (s : State) (r : SolveResult) : State :=
  let s := if r.status = 1 then s.solverEvent 0 else s
  let s := if r.status = 2 then s.solverEvent 1 else s
  let s := if r.cause = 0x4B then s.solverEvent 2 else s
  if r.reordered then s.solverEvent 3 else s

theorem State.solveEvents_spec (s : State) (r : SolveResult) :
    s.Evented (s.solveEvents r) ∧ (s.solveEvents r).reg blockSolver = s.reg blockSolver := by
  unfold State.solveEvents
  extract_lets a b c
  obtain ⟨ha, ra⟩ := State.Evented.solverEvent_onlyIf s 0 (r.status = 1)
  obtain ⟨hb, rb⟩ := State.Evented.solverEvent_onlyIf a 1 (r.status = 2)
  obtain ⟨hc, rc⟩ := State.Evented.solverEvent_onlyIf b 2 (r.cause = 0x4B)
  obtain ⟨hd, rd⟩ := State.Evented.solverEvent_onlyIf c 3 (r.reordered = true)
  exact ⟨((ha.trans hb).trans hc).trans hd, rd.trans (rc.trans (rb.trans ra))⟩

/-- The solver once a submission is solved, before its result is written. -/
def State.solved (s : State) (o : Occurrence) (r : SolverUnit × SolveResult) : State :=
  ({ s with solver := { r.1 with submitted := some o.step, result := some r.2 } } : State).solveEvents r.2

/-- A submission is refused as malformed exactly when it is not well formed and the occurrence's first (R314). -/
theorem not_wellFormed_eq (count : Nat) (again formed : Bool) :
    (!(decide (count ≤ maxDeltas) && !again && formed)) = (decide (maxDeltas < count) || again || !formed) := by
  have few : decide (maxDeltas < count) = !decide (count ≤ maxDeltas) := by
    rw [← decide_not]
    exact decide_eq_decide.mpr Nat.not_le.symm
  rw [few, Bool.not_and, Bool.not_and, Bool.not_not]

theorem effSolverSubmission_solves {count epoch : Nat} {reorder : Bool} {addr : Nat} {o : Occurrence} {s : State}
    (may : s.mayIssue s.solverDecl.cadence = true) (occ : s.occOf s.solverDecl.cadence = some o)
    (service : s.inService (engineRegion 3) = true) {ds : List Delta}
    (hd : ds = (List.range count).map (fun i => deltaOf (s.load (deltaAddr addr i) 768))) {r : SolverUnit × SolveResult}
    (hr : r = s.solver.solve s.solveCfg ds epoch reorder)
    (good : (decide (count ≤ maxDeltas) && (!(s.solver.submitted == some o.step)) && s.solver.wellFormed ds) = true) :
    effSolverSubmission count epoch reorder addr s =
      ((s.solved o r).writeResult o r.2).answer blockSolver (if r.2.status = 2 then shed else served)
        (if r.2.status = 2 then r.2.cause else 0) := by
  have taken : (decide (maxDeltas < count) || s.solver.submitted == some o.step || !s.solver.wellFormed ds) = false := by
    rw [← not_wellFormed_eq, good]
    rfl
  have ends (u : State) (c : Prop) [Decidable c] (k : Nat) :
      (if c then u.answer blockSolver shed k else u.answer blockSolver served 0) =
        u.answer blockSolver (if c then shed else served) (if c then k else 0) := by
    split <;> rfl
  subst hd hr
  unfold effSolverSubmission
  extract_lets decl ds r work
  split
  · next none_ => exact absurd (none_.symm.trans occ) nofun
  · next o' found =>
    obtain rfl : o' = o := Option.some.inj (found.symm.trans occ)
    rw [if_neg (by simp [decl, may]), if_neg (by simp [service])]
    extract_lets u a b c d w
    exact (if_neg (Bool.eq_false_iff.mp taken)).trans (ends w _ _)

theorem effSolverSubmission_malformed {count epoch : Nat} {reorder : Bool} {addr : Nat} {o : Occurrence} {s : State}
    (may : s.mayIssue s.solverDecl.cadence = true) (occ : s.occOf s.solverDecl.cadence = some o)
    (service : s.inService (engineRegion 3) = true) {ds : List Delta}
    (hd : ds = (List.range count).map (fun i => deltaOf (s.load (deltaAddr addr i) 768)))
    (bad : (decide (count ≤ maxDeltas) && (!(s.solver.submitted == some o.step)) && s.solver.wellFormed ds) = false) :
    effSolverSubmission count epoch reorder addr s =
      (s.answer blockSolver refused 0x0C).badDescriptor (engineRegion 3) 0x0C ⟨s.solverDecl.cadence, addr⟩ := by
  have malformed : (decide (maxDeltas < count) || s.solver.submitted == some o.step || !s.solver.wellFormed ds) = true := by
    rw [← not_wellFormed_eq, bad]
    rfl
  subst hd
  unfold effSolverSubmission
  extract_lets decl ds r work
  split
  · next none_ => exact absurd (none_.symm.trans occ) nofun
  · next o' found =>
    obtain rfl : o' = o := Option.some.inj (found.symm.trans occ)
    rw [if_neg (by simp [decl, may]), if_neg (by simp [service])]
    extract_lets u a b c d w
    exact if_pos malformed

/-- The events of a solve leave the plan, the lanterns and the bytes. -/
theorem State.solved_spec (s : State) (o : Occurrence) (r : SolverUnit × SolveResult) :
    (s.solved o r).answersAlike s blockSolver ∧
      ({ s with solver := { r.1 with submitted := some o.step, result := some r.2 } } : State).Evented (s.solved o r) := by
  obtain ⟨evented, reg⟩ :=
    ({ s with solver := { r.1 with submitted := some o.step, result := some r.2 } } : State).solveEvents_spec r.2
  refine ⟨⟨reg.trans (State.reg_congr _ _ rfl _), ?_⟩, evented⟩
  unfold State.solved
  obtain ⟨_, _, _, eq⟩ := evented
  rw [eq]
  exact ⟨rfl, rfl⟩

/-- A submission that is solved: the solver, the answer, and what is stored (R325, R326). -/
theorem State.writeResult_solved {s : State} (o : Occurrence) (r : SolverUnit × SolveResult) (outcome cause : Nat)
    (may : s.mayWriteSlot s.solverDecl.unit s.solverDecl.resultLantern = true ∨ s.faults.queue.length < 256) :
    let t := ((s.solved o r).writeResult o r.2).answer blockSolver outcome cause
    t.solver = { r.1 with submitted := some o.step, result := some r.2 } ∧ t.reports s blockSolver outcome cause ∧
      (s.mayWriteSlot s.solverDecl.unit s.solverDecl.resultLantern = true →
        t.load (lanternAddr s.solverDecl.resultLantern) 256 = resultBytes r.2) ∧
      (∀ x, s.besideResult r.2 x → t.byte x = s.byte x) ∧
      (s.mayWriteSlot s.solverDecl.unit s.solverDecl.resultLantern = true → State.sameButStores { t with solver := s.solver } s) := by
  obtain ⟨⟨own, answers, time⟩, evented⟩ := s.solved_spec o r
  generalize s.solved o r = u at *
  obtain ⟨solver, decl, writes, mem, faults⟩ : u.solver = { r.1 with submitted := some o.step, result := some r.2 } ∧
      u.solverDecl = s.solverDecl ∧ (∀ w i, u.mayWriteSlot w i = s.mayWriteSlot w i) ∧ u.mem = s.mem ∧ u.faults = s.faults := by
    obtain ⟨_, _, _, rfl⟩ := evented
    exact ⟨rfl, rfl, fun _ _ => rfl, rfl, rfl⟩
  have beside (x : Nat) : u.besideResult r.2 x ↔ s.besideResult r.2 x := by rw [State.besideResult, decl, State.besideResult]
  have bytes (x : Nat) : u.byte x = s.byte x := congrArg (Memory.get · x) mem
  cases owned : s.mayWriteSlot s.solverDecl.unit s.solverDecl.resultLantern with
  | true =>
    obtain ⟨stored, status, outside⟩ := State.writeResult_owned o r.2 (s := u) (by rw [decl, writes, owned])
    have kept := stored
    generalize u.writeResult o r.2 = v at *
    obtain ⟨regs', answers', time', -⟩ := stored.keeps
    obtain ⟨x, y, answered⟩ := v.answer_eq blockSolver outcome cause
    have alike : v.answersAlike s blockSolver :=
      ⟨(State.reg_congr _ _ regs' _).trans own, answers'.trans answers, time'.trans time⟩
    refine ⟨?_, State.reports_of_answer alike rfl, fun _ => ?_, fun x apart => ?_, fun _ => ?_⟩
    · rw [answered, ← solver]
      obtain ⟨_, _, _, _, _, _, _, rfl⟩ := kept
      rfl
    · rw [answered, ← decl]
      exact status
    · rw [answered]
      exact (outside x ((beside x).mpr apart)).trans (bytes x)
    · rw [answered]
      obtain ⟨_, _, _, _, _, _, _, rfl⟩ := kept
      obtain ⟨_, _, _, rfl⟩ := evented
      rfl
  | false =>
    obtain ⟨kept, alike, outside⟩ := State.writeResult_broken o r.2 (s := u) (by rw [decl, writes, owned])
      (faults ▸ may.resolve_left (by simp [owned]))
    generalize u.writeResult o r.2 = v at *
    obtain ⟨reg', answers', time'⟩ := alike
    obtain ⟨x, y, answered⟩ := v.answer_eq blockSolver outcome cause
    refine ⟨?_, State.reports_of_answer ⟨reg'.trans own, answers'.trans answers, time'.trans time⟩ rfl, nofun, fun x apart => ?_, nofun⟩
    · rw [answered]
      exact kept.trans solver
    · rw [answered]
      exact (outside x ((beside x).mpr apart)).trans (bytes x)

/-- A well-formed submission (R325, R326). -/
theorem effSolverSubmission_spec {count epoch : Nat} {reorder : Bool} {addr : Nat} {o : Occurrence} {s : State}
    (may : s.mayIssue s.solverDecl.cadence = true) (occ : s.occOf s.solverDecl.cadence = some o)
    (service : s.inService (engineRegion 3) = true) {ds : List Delta}
    (hd : ds = (List.range count).map (fun i => deltaOf (s.load (deltaAddr addr i) 768))) {r : SolverUnit × SolveResult}
    (hr : r = s.solver.solve s.solveCfg ds epoch reorder)
    (good : (decide (count ≤ maxDeltas) && (!(s.solver.submitted == some o.step)) && s.solver.wellFormed ds) = true)
    (room : s.mayWriteSlot s.solverDecl.unit s.solverDecl.resultLantern = true ∨ s.faults.queue.length < 256) :
    ∃ t, effSolverSubmission count epoch reorder addr s = t ∧
      t.solver = { r.1 with submitted := some o.step, result := some r.2 } ∧
      (r.2.status = 2 → t.reports s blockSolver shed r.2.cause) ∧ (r.2.status ≠ 2 → t.reports s blockSolver served 0) ∧
      (s.mayWriteSlot s.solverDecl.unit s.solverDecl.resultLantern = true →
        t.load (lanternAddr s.solverDecl.resultLantern) 256 = resultBytes r.2) ∧
      (∀ x, s.besideResult r.2 x → t.byte x = s.byte x) ∧
      (s.mayWriteSlot s.solverDecl.unit s.solverDecl.resultLantern = true →
        State.sameButStores { t with solver := s.solver } s) := by
  have solves := effSolverSubmission_solves may occ service hd hr good
  obtain ⟨solver, reports, status, outside, frame⟩ := State.writeResult_solved o r (if r.2.status = 2 then shed else served)
    (if r.2.status = 2 then r.2.cause else 0) room
  generalize ((s.solved o r).writeResult o r.2).answer blockSolver (if r.2.status = 2 then shed else served)
    (if r.2.status = 2 then r.2.cause else 0) = t at *
  refine ⟨t, solves, solver, fun ill => ?_, fun posed => ?_, status, outside, frame⟩
  · rwa [if_pos ill, if_pos ill] at reports
  · rwa [if_neg posed, if_neg posed] at reports

end Sys2Proof.Machine

open Sys2Proof Sys2Proof.Machine

/-- Settles O59: a submission by its solve and its result, an insertion list by what its work keeps of the map, a read by its
causes in turn. -/
theorem mapSolverAndChannelCommands : Obligations.MapSolverAndChannelCommands := by
  refine ⟨?solver, ?insertion, fun s may service => ?merge, ?read, fun s readable => ?view⟩
  case solver =>
    intro count epoch reorder addr o s may occ service ds good r base lan writes
    refine ⟨fun wellFormed room => ?_, fun malformed room => ?_⟩
    · obtain ⟨t, solves, solver, ill, posed, status, outside, frame⟩ :=
        effSolverSubmission_spec may occ service (ds := ds) rfl (r := r) rfl wellFormed room
      clear_value r
      exact ⟨t, congrArg Host.Outcome.next solves, solver, ill, posed, status, fun x solution result => outside x ⟨solution, result⟩,
        frame⟩
    · have refuses := effSolverSubmission_malformed (reorder := reorder) (epoch := epoch) may occ service (ds := ds) rfl malformed
      obtain ⟨reports, _, _, _, _, _, eq⟩ :=
        s.refused_badDescriptor (engineRegion 3) blockSolver 0x0C ⟨s.solverDecl.cadence, addr⟩ room (by decide)
      exact ⟨_, congrArg Host.Outcome.next refuses, reports, by rw [eq], by rw [eq], by rw [eq]⟩
  case insertion =>
    intro l o s may occ service edge
    obtain ⟨u, submits, grown, mem, steps⟩ := effInsertionList_submits (l := l) may occ service
    obtain ⟨submitted, header, outside⟩ := u.submit_spec o (s.pegsFor o.step)
    have decl : u.mapDecl = s.mapDecl := by rw [State.mapDecl, steps, State.mapDecl]
    obtain ⟨deleted, inserted⟩ := s.inserted_grows l (s.pegsFor o.step)
    have late := (inserted.trans grown).trans submitted
    have whole := deleted.trans late
    refine ⟨_, (u.submission o (s.pegsFor o.step)).deltas.length, congrArg Host.Outcome.next submits, whole.epoch, whole.merged,
      whole.pegs, whole.ids, ?_, fun x apart => ?_, fun id named y here same old => ?_, fun k ks first awning room => ?_⟩
    · rw [(deleted.trans (inserted.trans grown)).e1, decl] at header
      exact header
    · rw [decl] at outside
      exact (outside x apart).trans (congrArg (Memory.get · x) mem)
    · rcases late.landmarks y here with new | ⟨x, mid, id', in', dead⟩
      · exact absurd (new.trans deleted.e1) old
      · exact dead (Inserting.deletes_landmark ⟨s.map, [], [], []⟩ l.deletes edge named mid (id'.trans same)
          (fun new => old (in' ▸ new)))
    · obtain ⟨x, here, entered⟩ := List.mem_map.mp
        ((grown.trans submitted).keyframes.subset (s.inserted_first first awning room (s.pegsFor o.step)))
      simp only [enteredAs, Prod.mk.injEq] at entered
      exact ⟨x, here, entered⟩
  case merge =>
    refine ⟨_, congrArg Host.Outcome.next (effMerge_issued may service), rfl, rfl, fun x => ?_, fun x => ?_, rfl⟩
    · simp
    · simp
  case read =>
    intro h kind first page epoch args reply s offered quiet e cause
    obtain ⟨v, runs, side, written, own⟩ := effMapRead_idle offered quiet kind epoch first page args reply
    obtain ⟨replied, answered, refused_⟩ := State.runMapRead_spec side own written s.host.epoch h kind epoch.toNat first page args reply
      (e := e) rfl (cause := cause) rfl
    exact ⟨_, congrArg Host.Outcome.next runs, replied.restored, answered, refused_⟩
  case view =>
    cases found : s.channelDecls.find? (fun d => d.index == s.fld ⟨0x500034, 0, 13⟩) with
    | some d =>
      obtain ⟨t, form, last, shown, sample⟩ := effChanViewSample_declared readable found
      obtain ⟨place, -, ratio, -, x, frame⟩ := s.chanShown_spec (d.slot + d.element * 2 ^ 12 + d.stream * 2 ^ 16) form d.ratio last
      rw [← shown] at place ratio frame
      refine ⟨_, congrArg Host.Outcome.next sample, fun d' same => ?_, nofun, ?_, ?_⟩
      · cases same
        exact ⟨(State.reg_replyWith _ _ _).trans place, (State.reg_replyWith _ _ _).trans ratio⟩
      · rw [State.reg_replyWith]
        generalize t.reg 0x500038 = w
        rw [frame]
        rfl
      · generalize t.reg 0x500038 = w
        rw [frame]
        rfl
    | none =>
      obtain ⟨place, form, ratio, last, x, frame⟩ := s.chanShown_spec 0 0 0 0
      have sample := effChanViewSample_undeclared readable found
      generalize s.chanShown 0 0 0 0 = t at *
      refine ⟨_, congrArg Host.Outcome.next sample, nofun, fun _ => ?_, ?_, ?_⟩
      · exact ⟨(State.reg_replyWith _ _ _).trans place, (State.reg_replyWith _ _ _).trans form,
          (State.reg_replyWith _ _ _).trans ratio, (State.reg_replyWith _ _ _).trans last⟩
      · rw [State.reg_replyWith, place, frame]
        rfl
      · rw [frame]
        rfl

end

section
/-! SUPPORT. What the issue of a vision descriptor asks for, and how it is refused, stopped or left waiting (R151, R153, R155, R162,
R166, R201-R207). -/

namespace Sys2Proof.Machine

/-! The commands. -/

/-- A work descriptor's command reaches the sequencer of its engine (R203, R210). -/
theorem exec_visionDesc {c : Instr} {v : Fin 2} {op : Nat} {d : VisionDesc} (h : visionDescOf c = some (v, op, d)) (s : State) :
    exec c s = .next (s.visionCommand v ⟨visionEngineOf op, op, d⟩) := by
  unfold visionDescOf at h
  split at h <;> cases h <;> rfl

/-- The opcodes of work descriptors (R201). -/
def visionOps : List Nat := [opFlow, opStereo, opFeature, opMatch, opProjRay, opProjPlane, opProjPtsImage, opProjPtsGrid]

theorem visionDescOf_op {c : Instr} {v : Fin 2} {op : Nat} {d : VisionDesc} (h : visionDescOf c = some (v, op, d)) :
    op ∈ visionOps := by
  unfold visionDescOf at h
  split at h <;> cases h <;> decide

theorem visionOps_work : ∀ op ∈ visionOps, visionControlOp op = false ∧ visionEngineOf op < 4 := by decide

/-! What a descriptor's work and its accesses rest on. -/

section
variable {s t : State} (mem : t.mem = s.mem) (steps : t.steps = s.steps)
include mem

theorem State.load_congr (a n : Nat) : t.load a n = s.load a n := by rw [State.load, mem, State.load]

theorem State.imageAt_congr (a w h : Nat) : t.imageAt a w h = s.imageAt a w h := by
  simp only [State.imageAt, State.load_congr mem]

theorem State.poseAt_congr (a : Nat) : t.poseAt a = s.poseAt a := by simp only [State.poseAt, State.load_congr mem]

theorem State.predAt_congr (a c x y : Nat) : t.predAt a c x y = s.predAt a c x y := by
  simp only [State.predAt, State.load_congr mem]

theorem State.featList_congr (a : Nat) : t.featList a = s.featList a := by simp only [State.featList, State.load_congr mem]

include steps

theorem State.sourceImage_congr (d : VisionDesc) (sel : BitVec 16) : t.sourceImage d sel = s.sourceImage d sel := by
  simp only [State.sourceImage, State.heavyStream, State.frameOf, State.occOf, steps, State.imageAt_congr mem]

theorem State.sourcePoints_congr (d : VisionDesc) : t.sourcePoints d = s.sourcePoints d := by
  simp only [State.sourcePoints, State.heavyStream, State.frameOf, State.occOf, steps, State.load_congr mem]

omit mem in
theorem State.sourceSize_congr (d : VisionDesc) (sel : BitVec 16) : t.sourceSize d sel = s.sourceSize d sel := by
  simp only [State.sourceSize, State.heavyStream, steps]

omit mem in
theorem State.calOf_congr (k i : Nat) : t.calOf k i = s.calOf k i := by simp only [State.calOf, State.occOf, steps]

theorem State.projInputs_congr (d : VisionDesc) (b : Bytes) : t.projInputs d b = s.projInputs d b := by
  simp only [State.projInputs, State.calOf_congr steps, State.poseAt_congr mem]

/-- A descriptor's work rests on memory and the run alone. -/
theorem State.visionWork_congr (op : Nat) (d : VisionDesc) : t.visionWork op d = s.visionWork op d := by
  have flow (b : Bytes) : t.flowWork d b = s.flowWork d b := by
    simp only [State.flowWork, State.sourceImage_congr mem steps, State.sourceSize_congr steps, State.predAt_congr mem]
  have stereo (b : Bytes) : t.stereoWork d b = s.stereoWork d b := by
    simp only [State.stereoWork, State.sourceImage_congr mem steps, State.sourceSize_congr steps]
  have feature (b : Bytes) : t.featureWork d b = s.featureWork d b := by
    simp only [State.featureWork, State.sourceImage_congr mem steps, State.sourceSize_congr steps]
  have matched (b : Bytes) : t.matchWork d b = s.matchWork d b := by
    simp only [State.matchWork, State.featList_congr mem, State.load_congr mem]
  have ray (b : Bytes) : t.projRayWork d b = s.projRayWork d b := by
    simp only [State.projRayWork, State.sourceImage_congr mem steps, State.projInputs_congr mem steps, State.calOf_congr steps,
      projTab, steps]
  have plane (b : Bytes) : t.projPlaneWork d b = s.projPlaneWork d b := by
    simp only [State.projPlaneWork, State.sourceImage_congr mem steps, State.projInputs_congr mem steps, projTab, steps]
  have image (b : Bytes) : t.projPtsImageWork d b = s.projPtsImageWork d b := by
    simp only [State.projPtsImageWork, State.sourcePoints_congr mem steps, State.projInputs_congr mem steps,
      State.calOf_congr steps, projTab, steps]
  have grid (b : Bytes) : t.projPtsGridWork d b = s.projPtsGridWork d b := by
    simp only [State.projPtsGridWork, State.sourcePoints_congr mem steps, State.projInputs_congr mem steps, steps]
  simp only [State.visionWork, State.load_congr mem, flow, stereo, feature, matched, ray, plane, image, grid]

theorem State.visionReads_congr (op : Nat) (d : VisionDesc) : t.visionReads op d = s.visionReads op d := by
  simp only [State.visionReads, State.predRange, State.featRange, State.load_congr mem, State.sourceSize_congr steps]

theorem State.visionWaits_congr (op : Nat) (d : VisionDesc) : t.visionWaits op d = s.visionWaits op d := by
  simp only [State.visionWaits, State.predRange, State.load_congr mem, State.sourceSize_congr steps]

theorem State.visionAccesses_congr (op : Nat) (d : VisionDesc) : t.visionAccesses op d = s.visionAccesses op d := by
  rw [State.visionAccesses, State.visionReads_congr mem steps, State.visionWork_congr mem steps, State.visionAccesses]

end
/-- Registers and waits are nothing that an issue asks for. -/
theorem State.asks_same (s : State) (regs : List (Nat × Word)) (waits : List LanternWaiter) :
    let t : State := { s with regs := regs, sheets := { s.sheets with waits := waits } }
    (∀ r acc, t.memoryWaits r acc = s.memoryWaits r acc) ∧ (∀ u l, t.waitGranted u l = s.waitGranted u l) ∧
      (∀ u ls rs ws, t.orderBroken u ls rs ws = s.orderBroken u ls rs ws) ∧ ∀ u l, t.mayWriteSlot u l = s.mayWriteSlot u l :=
  ⟨fun _ _ => rfl, fun _ _ => rfl, fun _ _ _ _ => rfl, fun _ _ => rfl⟩

/-! The waits of a descriptor (R151). -/

/-- Waits that are all granted change nothing but the waits. -/
theorem State.awaitAll_granted (k unit : Nat) (ls : List Nat) (s : State)
    (granted : ∀ l ∈ ls, s.waitGranted unit l = true) :
    ∃ waits, State.awaitAll k unit ls s = ({ s with sheets := { s.sheets with waits := waits } }, true) := by
  induction ls generalizing s with
  | nil => exact ⟨_, rfl⟩
  | cons l ls ih =>
    obtain ⟨here, later⟩ := List.forall_mem_cons.mp granted
    obtain ⟨first, eq⟩ : ∃ waits, s.await k unit l = ({ s with sheets := { s.sheets with waits := waits } }, true) := by
      by_cases named : l = noLantern
      · exact ⟨_, if_pos named⟩
      · exact ⟨_, (if_neg named).trans (if_pos here)⟩
    obtain ⟨waits, eq'⟩ := ih { s with sheets := { s.sheets with waits := first } } later
    refine ⟨waits, ?_⟩
    rw [State.awaitAll, eq]
    exact eq'

/-- With one wait that is not granted, the first of them is left waiting. -/
theorem State.awaitAll_waits (k unit : Nat) (ls : List Nat) (s : State)
    (waits : ∃ l ∈ ls, l ≠ noLantern ∧ s.waitGranted unit l = false) :
    ∃ sheets, State.awaitAll k unit ls s = ({ s with sheets := sheets }, false) := by
  induction ls generalizing s with
  | nil => simp at waits
  | cons l ls ih =>
    rw [State.awaitAll, State.await]
    by_cases named : l = noLantern
    · rw [if_pos named]
      obtain ⟨y, here, other, free⟩ := waits
      exact ih s ⟨y, (List.mem_cons.mp here).resolve_left (fun same => other (same.trans named)), other, free⟩
    · rw [if_neg named]
      by_cases granted : s.waitGranted unit l = true
      · rw [if_pos granted]
        obtain ⟨y, here, other, free⟩ := waits
        have behind : y ∈ ls := (List.mem_cons.mp here).resolve_left
          (fun same => Bool.false_ne_true ((same ▸ free).symm.trans granted))
        exact ih (s.dropWait unit l) ⟨y, behind, other, free⟩
      · rw [if_neg granted]
        obtain ⟨x, eq⟩ := s.issueWait_eq k unit l
        exact ⟨x, congrArg (·, false) eq⟩

/-! The head of an engine's list (R203). -/

section
variable {s : State} {v : Nat} {w : VisionWait} (may : s.mayIssue w.desc.ctx.cadence = true)
include may

/-- A descriptor with work before it waits behind it. -/
theorem State.visionCommand_behind (busy : (s.vision.getD v default).busy w.engine = true) :
    s.visionCommand v w = s.updVision v (fun u => { u with queue := u.queue ++ [w] }) := by
  rw [State.visionCommand, if_neg (by simp [may]), if_pos busy]

/-- A descriptor with none before it is tried at once. -/
theorem State.visionCommand_head (free : (s.vision.getD v default).busy w.engine = false) {t : State} {done : Bool}
    (issue : s.visionIssue v w = (t, done)) :
    s.visionCommand v w = if done then t else t.updVision v (fun u => { u with queue := u.queue ++ [w] }) := by
  rw [State.visionCommand, if_neg (by simp [may]), if_neg (free ▸ Bool.false_ne_true), issue]

end

/-- A command that a cluster's unit joins to its list. -/
theorem State.getD_updVision {s t : State} {v : Nat} (same : t.vision = s.vision) (present : v < s.vision.length)
    (f : VisionUnit → VisionUnit) : (t.updVision v f).vision.getD v default = f (s.vision.getD v default) := by
  rw [State.updVision, same, List.getD_eq_getElem?_getD, List.getD_eq_getElem?_getD, List.getElem?_modify_eq,
    List.getElem?_eq_getElem present]
  rfl

/-- A state in which an engine shows the address of the descriptor it issues (R210). -/
def State.showing (s : State) (v e addr : Nat) : State := s.setReg64 (visionReg v (0x10 + 0x10 * e)) addr

theorem State.showing_eq (s : State) (v e addr : Nat) : ∃ x, s.showing v e addr = { s with regs := x } := s.setReg64_eq _ _

section
variable {s : State} {v e op : Nat} {d : VisionDesc} (work : visionControlOp op = false)
include work

/-- A malformed descriptor is refused (R205). -/
theorem State.visionIssue_malformed (bad : s.visionOk v op d = false) :
    s.visionIssue v ⟨e, op, d⟩ = (s.refuseVision v e 0x0C d.ctx, true) := by
  simp [State.visionIssue, work, bad]

variable (ok : s.visionOk v op d = true)
include ok

/-- A descriptor of an engine out of service is refused. -/
theorem State.visionIssue_outOfService (out : s.inService (visionRegion v e) = false) :
    s.visionIssue v ⟨e, op, d⟩ = (s.answer (blockVision v) refused 0x0A, true) := by
  simp [State.visionIssue, work, ok, out]

variable (service : s.inService (visionRegion v e) = true)
include service

/-- A descriptor that reads a tether of another cluster is refused (R166). -/
theorem State.visionIssue_foreign (foreign : ∃ x ∈ visionSlots op d, s.mayRead v e x = false) :
    s.visionIssue v ⟨e, op, d⟩ = (s.refuseVision v e 0x20 d.ctx, true) := by
  have any : (visionSlots op d).any (fun t => !s.mayRead v e t) = true := by
    simpa using foreign
  simp [State.visionIssue, work, ok, service, any]

variable (own : ∀ x ∈ visionSlots op d, s.mayRead v e x = true)
include own

/-- A descriptor that is its engine's to work on asks, in the state that shows its address, for its memory, its waits and the
order of its accesses in turn. -/
theorem State.visionIssue_asks :
    s.visionIssue v ⟨e, op, d⟩ =
      let u := s.showing v e d.ctx.addr
      let a := State.awaitAll d.ctx.cadence d.unit.toNat (s.visionWaits op d) u
      if s.memoryWaits (visionRegion v e) (s.visionAccesses op d) then
        (u.noteMemoryWait (visionRegion v e) d.ctx.cadence (s.visionAccesses op d), false)
      else if a.2 then
        match s.orderBroken d.unit.toNat (s.visionWaits op d) (s.visionReads op d)
            (visionWrites d (s.visionWork op d).tiles.length) with
        | some i => (a.1.orderError (visionRegion v e) i d.ctx, true)
        | none => (a.1.finishVision v ⟨e, op, d⟩ (s.visionWaits op d), true)
      else (a.1, false) := by
  have any : (visionSlots op d).any (fun t => !s.mayRead v e t) = false := by
    simpa using own
  obtain ⟨x, shown⟩ := s.showing_eq v e d.ctx.addr
  obtain ⟨free, -, order, -⟩ := s.asks_same x s.sheets.waits
  generalize hu : s.showing v e d.ctx.addr = u at *
  have fold : s.setReg64 (visionReg v (0x10 + 0x10 * e)) d.ctx.addr = u := hu
  have mem : u.mem = s.mem := by rw [shown]
  have steps : u.steps = s.steps := by rw [shown]
  replace free (r : Nat) (acc : List (Nat × Nat)) : u.memoryWaits r acc = s.memoryWaits r acc := shown ▸ free r acc
  replace order (i : Nat) (ls : List Nat) (rs ws : List (Nat × Nat)) : u.orderBroken i ls rs ws = s.orderBroken i ls rs ws :=
    shown ▸ order i ls rs ws
  simp only [State.visionIssue, work, ok, service, any, fold, State.visionWaits_congr mem steps, State.visionReads_congr mem steps,
    State.visionAccesses_congr mem steps, State.visionWork_congr mem steps, free, order]
  simp only [Bool.not_true, Bool.not_false, Bool.true_and, Bool.false_eq_true, if_false]
  split
  · rfl
  · cases (State.awaitAll d.ctx.cadence d.unit.toNat (s.visionWaits op d) u).2 <;> rfl

end

/-- A state in which an engine shows its descriptor's address and the waits that were granted are over. -/
def State.Asked (s u : State) (v e addr : Nat) : Prop :=
  (∃ regs waits, u = { s with regs := regs, sheets := { s.sheets with waits := waits } }) ∧ u.regs = (s.showing v e addr).regs

theorem State.reg64_congr (s t : State) (h : t.regs = s.regs) (a : Nat) : t.reg64 a = s.reg64 a := by
  rw [State.reg64, State.reg_congr s t h, State.reg_congr s t h, State.reg64]

namespace State.Asked

variable {s u : State} {v e addr : Nat}

theorem keeps (h : s.Asked u v e addr) :
    u.mem = s.mem ∧ u.steps = s.steps ∧ u.vision = s.vision ∧ u.answers = s.answers ∧ u.time = s.time ∧
      u.faults = s.faults := by
  obtain ⟨⟨_, _, rfl⟩, -⟩ := h
  exact ⟨rfl, rfl, rfl, rfl, rfl, rfl⟩

theorem reg_status (h : s.Asked u v e addr) : u.reg (blockVision v) = s.reg (blockVision v) := by
  rw [State.reg_congr _ _ h.2, State.showing]
  exact State.reg_setReg64_ne _ _ _ (by unfold visionReg; omega) (by unfold visionReg; omega)

theorem reg64_address (h : s.Asked u v e addr) : u.reg64 (visionReg v (0x10 + 0x10 * e)) = addr % 2 ^ 64 := by
  rw [State.reg64_congr _ _ h.2, State.showing, State.reg64_setReg64]

theorem lantern (h : s.Asked u v e addr) (i : Nat) : u.lantern i = s.lantern i := by
  obtain ⟨⟨_, _, rfl⟩, -⟩ := h
  rfl

end State.Asked

/-- Granted waits of a descriptor are over once its engine shows its address (R151). -/
theorem State.awaitAll_asked {s : State} {k unit : Nat} {ls : List Nat} (granted : ∀ l ∈ ls, s.waitGranted unit l = true)
    (v e addr : Nat) : ∃ u, s.Asked u v e addr ∧ State.awaitAll k unit ls (s.showing v e addr) = (u, true) := by
  obtain ⟨x, shown⟩ := s.showing_eq v e addr
  obtain ⟨-, same, -, -⟩ := s.asks_same x s.sheets.waits
  obtain ⟨waits, eq⟩ := State.awaitAll_granted k unit ls { s with regs := x } (fun l here => (same _ _).trans (granted l here))
  exact ⟨_, ⟨⟨x, waits, rfl⟩, by rw [shown]⟩, by rw [shown, eq]⟩

/-! What an issue that does no work leaves. -/

theorem State.noteMemoryWait_eq (s : State) (r k : Nat) (acc : List (Nat × Nat)) :
    ∃ sheets tiers, s.noteMemoryWait r k acc = { s with sheets := sheets, tiers := tiers } := by
  unfold State.noteMemoryWait
  split
  · exact ⟨_, _, rfl⟩
  · split
    · split <;> exact ⟨_, _, rfl⟩
    · exact ⟨_, _, rfl⟩

/-- A refused descriptor's answer and error (R205). -/
theorem State.refuseVision_spec (s : State) (v : Fin 2) (e cause : Nat) (ctx : DescCtx) (room : s.faults.queue.length < 256) :
    let t := s.refuseVision v e cause ctx
    t.reports s (blockVision v) refused cause ∧ t.mem = s.mem ∧ t.vision = s.vision ∧ t.steps = s.steps := by
  obtain ⟨reports, _, _, _, _, _, eq⟩ := s.refused_badDescriptor (visionRegion v e) (blockVision v) cause ctx room
    (by unfold blockVision; omega)
  dsimp only
  rw [State.refuseVision]
  exact ⟨reports, by rw [eq], by rw [eq], by rw [eq]⟩

/-- A descriptor that waits, with nothing else done. -/
def State.waitsAt (t s : State) (v : Nat) (w : VisionWait) : Prop :=
  (t.vision.getD v default).queue = (s.vision.getD v default).queue ++ [w] ∧ t.mem = s.mem ∧ t.answers = s.answers ∧
    t.steps = s.steps

section
variable {s : State} {v : Fin 2} {e op : Nat} {d : VisionDesc} (work : visionControlOp op = false)
  (turn : s.engineTurn v e d = true) (ok : s.visionOk v op d = true) (own : ∀ x ∈ visionSlots op d, s.mayRead v e x = true)

/-- A descriptor that its engine leaves at the end of its list. -/
theorem State.waitsAt_of_issue (may : s.mayIssue d.ctx.cadence = true) (free : (s.vision.getD v default).busy e = false)
    (present : v < s.vision.length) {sheets : Sheets} {tiers : Tiers} {regs : List (Nat × Word)}
    (issue : s.visionIssue v ⟨e, op, d⟩ = ({ s with sheets := sheets, tiers := tiers, regs := regs }, false)) :
    (s.visionCommand v ⟨e, op, d⟩).waitsAt s v ⟨e, op, d⟩ := by
  rw [State.visionCommand_head (w := ⟨e, op, d⟩) may free issue]
  exact ⟨congrArg VisionUnit.queue (State.getD_updVision rfl present _), rfl, rfl, rfl⟩

theorem State.engineTurn_parts (turn : s.engineTurn v e d = true) :
    s.mayIssue d.ctx.cadence = true ∧ s.inService (visionRegion v e) = true ∧ (s.vision.getD v default).busy e = false := by
  simpa [State.engineTurn, and_assoc] using turn

include work turn ok own

/-- A descriptor whose memory keeps it waiting (R162, R203). -/
theorem State.visionCommand_memoryWaits (present : v < s.vision.length)
    (memory : s.memoryWaits (visionRegion v e) (s.visionAccesses op d) = true) :
    (s.visionCommand v ⟨e, op, d⟩).waitsAt s v ⟨e, op, d⟩ := by
  obtain ⟨may, service, free⟩ := State.engineTurn_parts turn
  obtain ⟨x, shown⟩ := s.showing_eq v e d.ctx.addr
  obtain ⟨sheets, tiers, noted⟩ :=
    (s.showing v e d.ctx.addr).noteMemoryWait_eq (visionRegion v e) d.ctx.cadence (s.visionAccesses op d)
  refine State.waitsAt_of_issue (sheets := sheets) (tiers := tiers) (regs := x) may free present ?_
  rw [State.visionIssue_asks work ok service own]
  dsimp only
  rw [if_pos memory, noted, shown]

variable (memory : s.memoryWaits (visionRegion v e) (s.visionAccesses op d) = false)
include memory

/-- A descriptor with a wait that is not granted (R151, R203). -/
theorem State.visionCommand_waits (present : v < s.vision.length)
    (waits : ∃ l ∈ s.visionWaits op d, l ≠ noLantern ∧ s.waitGranted d.unit.toNat l = false) :
    (s.visionCommand v ⟨e, op, d⟩).waitsAt s v ⟨e, op, d⟩ := by
  obtain ⟨may, service, free⟩ := State.engineTurn_parts turn
  obtain ⟨x, shown⟩ := s.showing_eq v e d.ctx.addr
  obtain ⟨-, granted, -, -⟩ := s.asks_same x s.sheets.waits
  obtain ⟨sheets, left⟩ := State.awaitAll_waits d.ctx.cadence d.unit.toNat (s.visionWaits op d) (s.showing v e d.ctx.addr) (by
    obtain ⟨l, here, named, closed⟩ := waits
    exact ⟨l, here, named, by rw [shown]; exact (granted _ _).trans closed⟩)
  refine State.waitsAt_of_issue (sheets := sheets) (tiers := s.tiers) (regs := x) may free present ?_
  rw [State.visionIssue_asks work ok service own]
  dsimp only
  rw [if_neg (by simp [memory]), left, if_neg Bool.false_ne_true, shown]

variable (granted : ∀ l ∈ s.visionWaits op d, s.waitGranted d.unit.toNat l = true)
include granted

/-- A descriptor whose waits are granted is issued, or breaks the order (R153, R155, R203). -/
theorem State.visionCommand_granted :
    ∃ u, s.Asked u v e d.ctx.addr ∧ s.visionCommand v ⟨e, op, d⟩ =
      match s.orderBroken d.unit.toNat (s.visionWaits op d) (s.visionReads op d)
          (visionWrites d (s.visionWork op d).tiles.length) with
      | some i => u.orderError (visionRegion v e) i d.ctx
      | none => u.finishVision v ⟨e, op, d⟩ (s.visionWaits op d) := by
  obtain ⟨may, service, free⟩ := State.engineTurn_parts turn
  obtain ⟨u, asked, awaited⟩ := State.awaitAll_asked (k := d.ctx.cadence) granted v e d.ctx.addr
  refine ⟨u, asked, ?_⟩
  have issue := State.visionIssue_asks work ok service own
  dsimp only at issue
  rw [if_neg (by simp [memory]), awaited, if_pos rfl] at issue
  generalize s.orderBroken d.unit.toNat (s.visionWaits op d) (s.visionReads op d)
    (visionWrites d (s.visionWork op d).tiles.length) = broken at *
  cases broken with
  | some i => exact (State.visionCommand_head (w := ⟨e, op, d⟩) may free issue).trans (if_pos rfl)
  | none => exact (State.visionCommand_head (w := ⟨e, op, d⟩) may free issue).trans (if_pos rfl)

/-- A descriptor whose accesses break R153 sets its groundsheet's event and does none of its work (R155). -/
theorem State.visionCommand_broken {i : Nat} (room : s.faults.queue.length < 256)
    (order : s.orderBroken d.unit.toNat (s.visionWaits op d) (s.visionReads op d)
      (visionWrites d (s.visionWork op d).tiles.length) = some i) :
    let t := s.visionCommand v ⟨e, op, d⟩
    bitAt (t.reg (0x70000C + 0x10000 * lanternSheet i)) 2 = true ∧ t.mem = s.mem ∧ t.vision = s.vision ∧ t.steps = s.steps := by
  obtain ⟨u, asked, eq⟩ := State.visionCommand_granted work turn ok own memory granted
  obtain ⟨mem, steps, vision, -, -, faults⟩ := asked.keeps
  rw [order] at eq
  dsimp only at eq
  obtain ⟨event, -⟩ := u.orderError_spec (visionRegion v e) i d.ctx (faults ▸ room)
  have page : gsPage (lanternSheet i) + 0xC = 0x70000C + 0x10000 * lanternSheet i := by unfold gsPage; omega
  rw [page] at event
  obtain ⟨_, _, _, _, reported⟩ := u.orderError_reported (visionRegion v e) i d.ctx (faults ▸ room)
  dsimp only
  rw [eq]
  refine ⟨event, ?_, ?_, ?_⟩ <;> rw [reported]
  · exact mem
  · exact vision
  · exact steps

end

end Sys2Proof.Machine
end

section
/-! SUPPORT. What the job of a vision descriptor stores, how it completes, and what its work answers (R150, R151, R168, R194,
R203, R204, R210). -/

namespace Sys2Proof.Machine

/-! Lanterns, as part of what stores change. -/

theorem State.Stored.advanceLantern (s : State) (i : Nat) : s.Stored (s.advanceLantern i) := State.Stored.setLantern s _

theorem State.Stored.releaseLantern (s : State) (k u i : Nat) : s.Stored (s.releaseLantern k u i) := by
  unfold State.releaseLantern
  dsimp only
  split
  · split
    · have released (l : LanternState) : s.Stored ((s.setLantern l).touchLantern k i) :=
        (State.Stored.setLantern s l).trans (.touchLantern _ _ _)
      split
      · exact (released _).trans (.advanceLantern _ _)
      · exact released _
    · exact .refl s
  · exact .refl s

/-- A wait for a slot that a unit fills changes no byte, and one that is over leaves the slot the unit's to write (R151, R153). -/
theorem State.awaitWrite_spec (s : State) (k unit i : Nat) :
    let w := s.awaitWrite k unit i
    s.Stored w.1 ∧ w.1.mem = s.mem ∧ (w.2 = true → w.1.mayWriteSlot unit i = true) := by
  dsimp only
  unfold State.awaitWrite
  split
  · next own =>
    refine ⟨.dropWait s _ _, rfl, fun _ => ?_⟩
    exact (State.mayWriteSlot_congr (s := s) rfl rfl rfl unit).trans (Bool.and_eq_true_iff.mp own).2
  · obtain ⟨x, eq⟩ := s.issueWait_eq k unit i
    dsimp only
    rw [eq]
    exact ⟨⟨_, _, _, _, _, _, _, rfl⟩, rfl, nofun⟩

/-! Stores within a range of addresses. -/

/-- Compiled work that stores no byte outside `P`. -/
def State.StoresWithin (s : State) (P : Nat → Prop) (t : State) : Prop := s.Stored t ∧ ∀ x, ¬P x → t.byte x = s.byte x

namespace State.StoresWithin

variable {s t u : State} {P Q : Nat → Prop}

theorem of_mem (h : s.Stored t) (mem : t.mem = s.mem) : s.StoresWithin P t := ⟨h, fun x _ => congrArg (Memory.get · x) mem⟩

theorem refl (s : State) : s.StoresWithin P s := of_mem (.refl s) rfl

theorem trans (h : s.StoresWithin P t) (g : t.StoresWithin P u) : s.StoresWithin P u :=
  ⟨h.1.trans g.1, fun x out => (g.2 x out).trans (h.2 x out)⟩

theorem mono (h : s.StoresWithin P t) (within : ∀ x, P x → Q x) : s.StoresWithin Q t :=
  ⟨h.1, fun x out => h.2 x fun inside => out (within x inside)⟩

theorem cstore (s : State) (k unit a : Nat) (bs : Bytes) (within : ∀ x, a ≤ x → x < a + bs.length → P x) :
    s.StoresWithin P (s.cstore k unit a bs) := by
  refine ⟨.cstore s k unit a bs, fun x out => ?_⟩
  rw [State.byte, (State.Marks.cstore s k unit a bs).keeps.1]
  refine Memory.get_setBytes_outside bs s.mem a x (Classical.not_not.mp fun inside => out (within x ?_ ?_)) <;> omega

end State.StoresWithin

/-- A tile stored in a slot that is the unit's to write, and the lantern raised (R150, R153). -/
theorem State.storeTile_within {s : State} {unit i : Nat} (own : s.mayWriteSlot unit i = true) (region k time step : Nat) (bs : Bytes) :
    s.StoresWithin (fun x => lanternAddr i ≤ x ∧ x < lanternAddr i + tileBytes)
      ((s.storeTile region k unit i bs).raiseLantern unit i time step) := by
  rw [State.storeTile, if_pos own]
  have filled : s.StoresWithin (fun x => lanternAddr i ≤ x ∧ x < lanternAddr i + tileBytes) (s.fillLantern unit i) :=
    .of_mem (.fillLantern s unit i) (State.Marks.fillLantern s unit i).keeps.1
  refine (filled.trans (.cstore _ k unit (lanternAddr i) (fitBytes tileBytes bs) fun x low high => ⟨low, ?_⟩)).trans
    (.of_mem (.raiseLantern _ _ _ _ _) (State.Marks.raiseLantern _ _ _ _ _).keeps.1)
  rwa [length_fitBytes] at high

/-! A job's outputs (R203). -/

/-- The bytes that a job's next outputs take: from its address, or in its ring of slots. -/
def VisionJob.outputs (j : VisionJob) (x : Nat) : Prop :=
  (∃ a, j.address = some a ∧ a + j.stored * tileBytes ≤ x ∧ x < a + (j.stored + j.tiles.length) * tileBytes) ∨
    (j.address = none ∧ ∃ k, lanternAddr (ringSlot j.ring k) ≤ x ∧ x < lanternAddr (ringSlot j.ring k) + tileBytes)

/-- A job with its next output stored. -/
def VisionJob.advance (j : VisionJob) (rest : List Bytes) : VisionJob := { j with tiles := rest, stored := j.stored + 1 }

theorem VisionJob.outputs_advance {j : VisionJob} {tile : Bytes} {rest : List Bytes} (next : j.tiles = tile :: rest) {x : Nat}
    (h : (j.advance rest).outputs x) : j.outputs x := by
  have count : j.stored + 1 + rest.length = j.stored + j.tiles.length := by rw [next, List.length_cons]; omega
  rcases h with ⟨a, address, low, high⟩ | ring
  · refine .inl ⟨a, address, ?_, ?_⟩
    · have step : (j.stored + 1) * tileBytes = j.stored * tileBytes + tileBytes := Nat.succ_mul _ _
      have low' : a + (j.stored + 1) * tileBytes ≤ x := low
      omega
    · rw [← count]
      exact high
  · exact .inr ring

/-- The next output of a job with an address. -/
def State.outputStored (s : State) (j : VisionJob) (a : Nat) (tile : Bytes) : State :=
  (s.fillRange j.unit (a + j.stored * tileBytes) tileBytes).cstore j.ctx.cadence j.unit (a + j.stored * tileBytes)
    (fitBytes tileBytes tile)

theorem State.outputStored_spec (s : State) (j : VisionJob) (a : Nat) (tile : Bytes) :
    s.Stored (s.outputStored j a tile) ∧
      (s.outputStored j a tile).mem = Memory.setBytes s.mem (a + j.stored * tileBytes) (fitBytes tileBytes tile) := by
  have filled : s.Stored (s.fillRange j.unit (a + j.stored * tileBytes) tileBytes) :=
    .foldl (fun s _ => .fillLantern s _ _) _ s
  have mem : (s.fillRange j.unit (a + j.stored * tileBytes) tileBytes).mem = s.mem :=
    (State.Marks.foldl (fun s _ => .fillLantern s _ _) _ s).keeps.1
  refine ⟨filled.trans (.cstore _ _ _ _ _), ?_⟩
  rw [State.outputStored, (State.Marks.cstore _ _ _ _ _).keeps.1, mem]

theorem State.storeJob_address (region fuel : Nat) {s : State} {j : VisionJob} {a : Nat} (address : j.address = some a) {tile : Bytes}
    {rest : List Bytes} (next : j.tiles = tile :: rest) :
    State.storeJob region (fuel + 1) s j = State.storeJob region fuel (s.outputStored j a tile) (j.advance rest) := by
  cases j
  cases address
  cases next
  rfl

theorem State.storeJob_ring (region fuel : Nat) {s : State} {j : VisionJob} (address : j.address = none) {tile : Bytes}
    {rest : List Bytes} (next : j.tiles = tile :: rest) :
    State.storeJob region (fuel + 1) s j =
      let w := s.awaitWrite j.ctx.cadence j.unit (ringSlot j.ring j.stored)
      if w.2 then
        State.storeJob region fuel ((w.1.storeTile region j.ctx.cadence j.unit (ringSlot j.ring j.stored) tile).raiseLantern j.unit
          (ringSlot j.ring j.stored) (compact j.validTime) j.step) (j.advance rest)
      else (w.1, j) := by
  cases j
  cases address
  cases next
  rfl

/-- A job stores no byte outside its outputs (R203). -/
theorem State.storeJob_within (region fuel : Nat) (s : State) (j : VisionJob) :
    s.StoresWithin j.outputs (State.storeJob region fuel s j).1 := by
  induction fuel generalizing s j with
  | zero => exact .refl s
  | succ fuel ih =>
    cases next : j.tiles with
    | nil =>
      rw [State.storeJob, next]
      exact .refl s
    | cons tile rest =>
      have later (u : State) := (ih u (j.advance rest)).mono fun x h => VisionJob.outputs_advance next h
      cases address : j.address with
      | some a =>
        rw [State.storeJob_address region fuel address next]
        refine .trans ?_ (later _)
        obtain ⟨stored, mem⟩ := s.outputStored_spec j a tile
        refine ⟨stored, fun x out => ?_⟩
        rw [State.byte, mem]
        refine Memory.get_setBytes_outside _ _ _ _ (Classical.not_not.mp fun inside => out (.inl ⟨a, address, ?_⟩))
        rw [length_fitBytes] at inside
        have last : (j.stored + j.tiles.length) * tileBytes = j.stored * tileBytes + rest.length * tileBytes + tileBytes := by
          rw [next, List.length_cons, Nat.add_mul, Nat.succ_mul, Nat.add_assoc]
        rw [last]
        omega
      | none =>
        rw [State.storeJob_ring region fuel address next]
        dsimp only
        obtain ⟨waited, mem, own⟩ := s.awaitWrite_spec j.ctx.cadence j.unit (ringSlot j.ring j.stored)
        have asked : s.StoresWithin j.outputs (s.awaitWrite j.ctx.cadence j.unit (ringSlot j.ring j.stored)).1 := .of_mem waited mem
        split
        · next granted =>
          have stored := State.storeTile_within (own granted) region j.ctx.cadence (compact j.validTime) j.step tile
          exact (asked.trans (stored.mono fun x inside => .inr ⟨address, j.stored, inside⟩)).trans (later _)
        · exact asked

theorem State.load_of_bytes {s t : State} {a n : Nat} (same : ∀ x, a ≤ x → x < a + n → t.byte x = s.byte x) :
    t.load a n = s.load a n := by
  refine List.map_congr_left fun i inside => same (a + i) (Nat.le_add_right a i) ?_
  exact Nat.add_lt_add_left (List.mem_range.mp inside) a

/-- A job with an address stores all its outputs, tile by tile (R203). -/
theorem State.storeJob_stores (region fuel : Nat) (s : State) (j : VisionJob) {a : Nat} (address : j.address = some a)
    (enough : j.tiles.length ≤ fuel) :
    let r := State.storeJob region fuel s j
    r.2.tiles = [] ∧
      ∀ k tile, j.tiles[k]? = some tile → r.1.load (a + (j.stored + k) * tileBytes) tileBytes = fitBytes tileBytes tile := by
  induction fuel generalizing s j with
  | zero =>
    have none_ : j.tiles = [] := List.eq_nil_of_length_eq_zero (Nat.le_zero.mp enough)
    exact ⟨none_, fun k tile h => absurd (none_ ▸ h) (by simp)⟩
  | succ fuel ih =>
    cases next : j.tiles with
    | nil =>
      dsimp only
      rw [State.storeJob, next]
      exact ⟨next, fun k tile h => absurd h (by simp)⟩
    | cons tile rest =>
      have fits : rest.length ≤ fuel := by
        rw [next, List.length_cons] at enough
        omega
      obtain ⟨done, stores⟩ := ih (s.outputStored j a tile) (j.advance rest) address fits
      have within := State.storeJob_within region fuel (s.outputStored j a tile) (j.advance rest)
      dsimp only
      rw [State.storeJob_address region fuel address next]
      refine ⟨done, fun k t h => ?_⟩
      cases k with
      | zero =>
        obtain rfl : tile = t := Option.some.inj h
        obtain ⟨-, mem⟩ := s.outputStored_spec j a tile
        refine (State.load_of_bytes fun x low high => within.2 x ?_).trans
          (State.load_stored mem (length_fitBytes _ _)).1
        rintro (⟨b, same, past, -⟩ | ⟨ring, -⟩)
        · obtain rfl : a = b := Option.some.inj (address.symm.trans same)
          have past' : a + (j.stored + 1) * tileBytes ≤ x := past
          rw [Nat.succ_mul] at past'
          rw [Nat.add_zero] at high
          omega
        · exact absurd (address.symm.trans ring) nofun
      | succ k =>
        have place : j.stored + (k + 1) = j.stored + 1 + k := by omega
        rw [place]
        exact stores k t h

/-! A job's completion (R150, R203, R204). -/

/-- All that a job stores: its outputs, and its summary in the slot it raises. -/
def VisionJob.stores (j : VisionJob) (x : Nat) : Prop :=
  j.outputs x ∨ (j.raise ≠ noLantern ∧ lanternAddr j.raise ≤ x ∧ x < lanternAddr j.raise + tileBytes)

/-- A job that has stored `n` tiles releases the tiles it consumed and is counted. -/
def State.completeJob (s : State) (v : Nat) (j : VisionJob) (n : Nat) : State :=
  ((j.waited.foldl (fun s l => s.releaseLantern j.ctx.cadence j.unit l) s).updVision v
    (fun u => { u.updCount j.ctx.cadence (fun c => { c with tiles := c.tiles.modify j.engine (· + n) }) with
      done := u.done.modify j.engine (· + 1) })).count (v + 1) 0x21 j.engine n

theorem State.runJob_eq (s : State) (v : Nat) (j : VisionJob) :
    s.runJob v j =
      let r := State.storeJob (visionRegion v j.engine) j.tiles.length s j
      let keep (s : State) : State := s.updVision v (fun u => { u with jobs := u.jobs ++ [r.2] })
      if r.2.tiles ≠ [] then keep r.1
      else if j.raise = noLantern then r.1.completeJob v j r.2.stored
      else
        let w := r.1.awaitWrite j.ctx.cadence j.unit j.raise
        if w.2 then
          ((w.1.storeTile (visionRegion v j.engine) j.ctx.cadence j.unit j.raise j.summary).raiseLantern j.unit j.raise
            (compact j.validTime) j.step).completeJob v j r.2.stored
        else keep w.1 := rfl

/-- Compiled work that stores within `P`, with a change of the vision units beside it. -/
def State.RunsWithin (s : State) (P : Nat → Prop) (t : State) : Prop :=
  ∃ u vision, s.StoresWithin P u ∧ t = { u with vision := vision }

theorem State.completeJob_spec (s : State) (v : Nat) (j : VisionJob) (n : Nat) :
    s.RunsWithin j.stores (s.completeJob v j n) ∧ (s.completeJob v j n).mem = s.mem ∧
      (v < s.vision.length →
        ((s.completeJob v j n).vision.getD v default).done = (s.vision.getD v default).done.modify j.engine (· + 1)) := by
  have stored : s.Stored (j.waited.foldl (fun s l => s.releaseLantern j.ctx.cadence j.unit l) s) :=
    .foldl (fun s _ => .releaseLantern s _ _ _) _ s
  have mem : (j.waited.foldl (fun s l => s.releaseLantern j.ctx.cadence j.unit l) s).mem = s.mem :=
    (State.Marks.foldl (fun s _ => .releaseLantern s _ _ _) _ s).keeps.1
  rw [State.completeJob]
  generalize j.waited.foldl (fun s l => s.releaseLantern j.ctx.cadence j.unit l) s = u at *
  have vision : u.vision = s.vision := by
    obtain ⟨_, _, _, _, _, _, _, rfl⟩ := stored
    rfl
  obtain ⟨x, eq⟩ := (u.updVision v (fun u => { u.updCount j.ctx.cadence (fun c =>
    { c with tiles := c.tiles.modify j.engine (· + n) }) with done := u.done.modify j.engine (· + 1) })).count_eq (v + 1) 0x21
    j.engine n
  rw [eq]
  refine ⟨⟨{ u with counters := x }, _, .of_mem (stored.trans ⟨_, _, _, _, _, _, _, rfl⟩) mem, rfl⟩, mem, fun present => ?_⟩
  exact congrArg VisionUnit.done (State.getD_updVision vision present _)

theorem State.StoresWithin.runs {s t u : State} {P : Nat → Prop} (h : s.StoresWithin P t) (g : t.RunsWithin P u) :
    s.RunsWithin P u := by
  obtain ⟨w, vision, within, eq⟩ := g
  exact ⟨w, vision, h.trans within, eq⟩

/-- A job's run stores within its outputs and its summary's slot (R203, R204). -/
theorem State.runJob_within (s : State) (v : Nat) (j : VisionJob) : s.RunsWithin j.stores (s.runJob v j) := by
  rw [State.runJob_eq]
  have outputs : s.StoresWithin j.stores (State.storeJob (visionRegion v j.engine) j.tiles.length s j).1 :=
    (State.storeJob_within (visionRegion v j.engine) j.tiles.length s j).mono fun _ => .inl
  dsimp only
  generalize State.storeJob (visionRegion v j.engine) j.tiles.length s j = r at *
  split
  · exact ⟨r.1, _, outputs, rfl⟩
  · split
    · exact outputs.runs (r.1.completeJob_spec v j r.2.stored).1
    · next raises =>
      obtain ⟨waited, mem, own⟩ := r.1.awaitWrite_spec j.ctx.cadence j.unit j.raise
      generalize r.1.awaitWrite j.ctx.cadence j.unit j.raise = w at *
      have asked : s.StoresWithin j.stores w.1 := outputs.trans (.of_mem waited mem)
      split
      · next granted =>
        have summary := (State.storeTile_within (own granted) (visionRegion v j.engine) j.ctx.cadence (compact j.validTime) j.step
          j.summary).mono (Q := j.stores) fun x inside => .inr ⟨raises, inside⟩
        exact (asked.trans summary).runs (State.completeJob_spec _ v j r.2.stored).1
      · exact ⟨w.1, _, asked, rfl⟩

/-- A job with an address and no lantern stores its tiles and is done (R203). -/
theorem State.runJob_stores (s : State) (v : Nat) {j : VisionJob} {a : Nat} (address : j.address = some a)
    (silent : j.raise = noLantern) (present : v < s.vision.length) :
    (∀ k tile, j.tiles[k]? = some tile →
      (s.runJob v j).load (a + (j.stored + k) * tileBytes) tileBytes = fitBytes tileBytes tile) ∧
      ((s.runJob v j).vision.getD v default).done = (s.vision.getD v default).done.modify j.engine (· + 1) := by
  obtain ⟨done, stores⟩ := State.storeJob_stores (visionRegion v j.engine) j.tiles.length s j address le_rfl
  obtain ⟨stored, -⟩ := State.storeJob_within (visionRegion v j.engine) j.tiles.length s j
  rw [State.runJob_eq]
  dsimp only
  generalize State.storeJob (visionRegion v j.engine) j.tiles.length s j = r at *
  have vision : r.1.vision = s.vision := by
    obtain ⟨_, _, _, _, _, _, _, eq⟩ := stored
    rw [eq]
  rw [if_neg (not_not.mpr done), if_pos silent]
  obtain ⟨-, mem, counted⟩ := r.1.completeJob_spec v j r.2.stored
  rw [vision] at counted
  exact ⟨fun k tile h => (State.load_congr mem _ _).trans (stores k tile h), counted present⟩

end Sys2Proof.Machine
end

section
/-! SUPPORT. What a vision descriptor that is issued answers and leaves, and the statement about them (R150, R155, R168, R194,
R201-R210). -/

namespace Sys2Proof.Machine

/-! What a descriptor's work answers (R168, R194). -/

/-- The work of an image without its frame is Served, with the missing frame in its status (R168). -/
theorem State.visionWork_noFrame {s : State} {op : Nat} {d : VisionDesc} (known : op ∈ visionOps) (work : op ≠ opMatch)
    (image : op ≠ opProjPtsImage) (grid : op ≠ opProjPtsGrid) (missing : s.sourceImage d d.selA = none) :
    (s.visionWork op d).outcome = served ∧ (s.visionWork op d).cause = 0 ∧ (s.visionWork op d).status = 1 := by
  generalize hb : s.load d.param.toNat 64 = b
  have flow : (s.flowWork d b).outcome = served ∧ (s.flowWork d b).cause = 0 ∧ (s.flowWork d b).status = 1 := by
    rw [State.flowWork, missing]
    exact ⟨rfl, rfl, rfl⟩
  have stereo : (s.stereoWork d b).outcome = served ∧ (s.stereoWork d b).cause = 0 ∧ (s.stereoWork d b).status = 1 := by
    rw [State.stereoWork, missing]
    exact ⟨rfl, rfl, rfl⟩
  have feature : (s.featureWork d b).outcome = served ∧ (s.featureWork d b).cause = 0 ∧ (s.featureWork d b).status = 1 := by
    rw [State.featureWork, missing]
    exact ⟨rfl, rfl, rfl⟩
  have ray : (s.projRayWork d b).outcome = served ∧ (s.projRayWork d b).cause = 0 ∧ (s.projRayWork d b).status = 1 := by
    rw [State.projRayWork, missing]
    exact ⟨rfl, rfl, rfl⟩
  have plane : (s.projPlaneWork d b).outcome = served ∧ (s.projPlaneWork d b).cause = 0 ∧ (s.projPlaneWork d b).status = 1 := by
    rw [State.projPlaneWork, missing]
    exact ⟨rfl, rfl, rfl⟩
  subst hb
  simp only [visionOps, List.mem_cons, List.not_mem_nil, or_false] at known
  rcases known with rfl | rfl | rfl | rfl | rfl | rfl | rfl | rfl
  · exact flow
  · exact stereo
  · exact feature
  · exact absurd rfl work
  · exact ray
  · exact plane
  · exact absurd rfl image
  · exact absurd rfl grid

/-- Projection from a source that exists, with no usable input calibration, is Shed (R194). -/
theorem State.visionWork_uncalibrated {s : State} {op : Nat} {d : VisionDesc}
    (source : (op = opProjRay ∨ op = opProjPlane) ∧ s.sourceImage d d.selA ≠ none ∨
      (op = opProjPtsImage ∨ op = opProjPtsGrid) ∧ s.sourcePoints d ≠ none)
    (unusable : (s.calOf d.ctx.cadence (leAt (s.load d.param.toNat 64) 4 2)).filter calUsable = none) :
    (s.visionWork op d).outcome = shed ∧ (s.visionWork op d).cause = 0x22 := by
  generalize hb : s.load d.param.toNat 64 = b at unusable
  have none_ : (s.projInputs d b).1 = none := unusable
  rcases source with ⟨op, present⟩ | ⟨op, present⟩
  · obtain ⟨src, found⟩ := Option.ne_none_iff_exists'.mp present
    have ray : (s.projRayWork d b).outcome = shed ∧ (s.projRayWork d b).cause = 0x22 := by
      rw [State.projRayWork, found, none_]
      exact ⟨rfl, rfl⟩
    have plane : (s.projPlaneWork d b).outcome = shed ∧ (s.projPlaneWork d b).cause = 0x22 := by
      rw [State.projPlaneWork, found, none_]
      exact ⟨rfl, rfl⟩
    subst hb
    rcases op with rfl | rfl
    · exact ray
    · exact plane
  · obtain ⟨src, found⟩ := Option.ne_none_iff_exists'.mp present
    have image : (s.projPtsImageWork d b).outcome = shed ∧ (s.projPtsImageWork d b).cause = 0x22 := by
      rw [State.projPtsImageWork, found, none_]
      exact ⟨rfl, rfl⟩
    have grid : (s.projPtsGridWork d b).outcome = shed ∧ (s.projPtsGridWork d b).cause = 0x22 := by
      rw [State.projPtsGridWork, found, none_]
      exact ⟨rfl, rfl⟩
    subst hb
    rcases op with rfl | rfl
    · exact image
    · exact grid

/-! What the outputs' observations change (R207, R210). -/

/-- An event that is raised if a condition holds. -/
theorem State.visionEvent_onlyIf (s : State) (v bit : Nat) (c : Prop) [Decidable c] :
    s.Evented (if c then s.visionEvent v bit else s) ∧
      (∀ a, a ≠ visionReg v 0xC → (if c then s.visionEvent v bit else s).reg a = s.reg a) ∧
      (¬c → (if c then s.visionEvent v bit else s) = s) := by
  split
  · next holds => exact ⟨.event _ _ _ _ _, fun a other => State.reg_event_ne _ _ _ _ _ other, fun fails => absurd holds fails⟩
  · exact ⟨.refl s, fun _ _ => rfl, fun _ => rfl⟩

/-- The observations set events beside counts of the cluster, and a missing frame sets its own. -/
theorem State.noteVision_spec (s : State) (v op k : Nat) (o : VisionOut) :
    ∃ vision counters, ({ s with vision := vision, counters := counters } : State).Evented (s.noteVision v op k o) ∧
      (∀ a, a ≠ visionReg v 0xC → (s.noteVision v op k o).reg a = s.reg a) ∧
      (o.status = 1 → bitAt ((s.noteVision v op k o).reg (visionReg v 0xC)) 1 = true) ∧
      (v < s.vision.length → v < (s.noteVision v op k o).vision.length ∧
        ((s.noteVision v op k o).vision.getD v default).done = (s.vision.getD v default).done) := by
  unfold State.noteVision
  extract_lets a b pct c e f
  obtain ⟨x, counted⟩ := a.count_eq (v + 1) 0x22 (visionEngineOf op) (o.codes.foldl (· + ·) 0)
  obtain ⟨hc, rc, -⟩ := b.visionEvent_onlyIf v 0 (0 < o.total ∧ pct * o.total ≤ 100 * (o.total - o.valid))
  obtain ⟨he, re, -⟩ := c.visionEvent_onlyIf v 1 (o.status % 2 = 1)
  obtain ⟨hf, rf, skipf⟩ := e.visionEvent_onlyIf v 2 (o.status / 2 % 2 = 1)
  obtain ⟨hg, rg, skipg⟩ := f.visionEvent_onlyIf v 3 (o.status / 4 = 1)
  have evented := ((hc.trans he).trans hf).trans hg
  have own (i : Nat) (other : i ≠ visionReg v 0xC) : b.reg i = s.reg i := State.reg_congr _ _ (by rw [show b = _ from counted]; rfl) i
  refine ⟨a.vision, x, ?_, fun i other => ?_, fun missing => ?_, fun present => ?_⟩
  · have eq : b = { s with vision := a.vision, counters := x } := counted
    rw [← eq]
    exact evented
  · exact (rg i other).trans ((rf i other).trans ((re i other).trans ((rc i other).trans (own i other))))
  · rw [skipg (by omega)]
    have second : f = e := skipf (by omega)
    have first : e = c.visionEvent v 1 := if_pos (by omega)
    rw [second, first]
    exact c.bitAt_event _ _ _ _ (by decide)
  · have vision : (if o.status / 4 = 1 then f.visionEvent v 3 else f).vision = b.vision := by
      obtain ⟨_, _, _, eq⟩ := evented
      rw [eq]
    rw [vision, show b = _ from counted]
    have counts := State.getD_updVision (t := s) rfl present (VisionUnit.updCount k fun c => { c with codes := addCounts op o c.codes })
    have same := congrArg VisionUnit.done counts
    exact ⟨present.trans_eq (List.length_modify ..).symm, same⟩

/-! A descriptor that is issued (R203, R204). -/

/-- The job of a work descriptor whose work has given `o`. -/
def State.visionJob (s : State) (w : VisionWait) (waited : List Nat) (o : VisionOut) : VisionJob :=
  { engine := w.engine, ctx := w.desc.ctx, unit := w.desc.unit.toNat, tiles := o.tiles, stored := 0, ring := w.desc.dstRing.toNat
    address := if w.desc.dstMode = 0 then none else some w.desc.dstAddr.toNat
    raise := w.desc.raise.toNat, waited := waited, summary := summaryBytes w.op o
    validTime := (s.steps.run.map (fun r => r.instant ((s.occOf w.desc.ctx.cadence).getD default).step)).getD 0
    step := ((s.occOf w.desc.ctx.cadence).getD default).step }

theorem State.finishVision_work (s : State) (v : Nat) {w : VisionWait} (waited : List Nat) (work : visionControlOp w.op = false) :
    s.finishVision v w waited =
      ((s.answer (blockVision v) (s.visionWork w.op w.desc).outcome (s.visionWork w.op w.desc).cause).noteVision v w.op
        w.desc.ctx.cadence (s.visionWork w.op w.desc)).runJob v (s.visionJob w waited (s.visionWork w.op w.desc)) :=
  if_neg (work ▸ Bool.false_ne_true)

/-- What the job of a descriptor stores (R203). -/
theorem State.visionStores_of_job {s : State} {w : VisionWait} {waited : List Nat} {o : VisionOut} {x : Nat}
    (h : (s.visionJob w waited o).stores x) : visionStores w.desc o.tiles.length x := by
  have mode (a : Nat) : (s.visionJob w waited o).address = some a ↔ w.desc.dstMode ≠ 0 ∧ w.desc.dstAddr.toNat = a := by
    simp [State.visionJob]
  have ring : (s.visionJob w waited o).address = none ↔ w.desc.dstMode = 0 := by simp [State.visionJob]
  rcases h with (⟨a, address, low, high⟩ | ⟨none_, slot⟩) | summary
  · obtain ⟨direct, rfl⟩ := (mode a).mp address
    simp only [State.visionJob, Nat.zero_mul, Nat.zero_add] at low high
    exact .inl ⟨direct, low, high⟩
  · exact .inr (.inl ⟨ring.mp none_, slot⟩)
  · exact .inr (.inr summary)

section
variable {s u : State} {v e op : Nat} {d : VisionDesc} (asked : s.Asked u v e d.ctx.addr) (work : visionControlOp op = false)
include asked work

/-- The issue of a work descriptor: its answer and its events, and then its job. -/
theorem State.finishVision_spec (waited : List Nat) :
    let o := s.visionWork op d
    ∃ n : State, u.finishVision v ⟨e, op, d⟩ waited = n.runJob v (u.visionJob ⟨e, op, d⟩ waited o) ∧
      (∃ vision counters regs answers sent pending,
        n = { s with
          vision := vision, counters := counters, regs := regs, answers := answers, sheets := u.sheets
          host := { s.host with sent := sent, vectorPending := pending } }) ∧
      (∀ a, a ≠ visionReg v 0xC → n.reg a = (u.answer (blockVision v) o.outcome o.cause).reg a) ∧
      (o.status = 1 → bitAt (n.reg (visionReg v 0xC)) 1 = true) ∧
      (v < s.vision.length → v < n.vision.length ∧ (n.vision.getD v default).done = (s.vision.getD v default).done) := by
  obtain ⟨mem, steps, same, -, -, -⟩ := asked.keeps
  obtain ⟨⟨regs, waits, hu⟩, -⟩ := asked
  have finish := u.finishVision_work v (w := ⟨e, op, d⟩) waited work
  rw [State.visionWork_congr mem steps] at finish
  dsimp only
  obtain ⟨vision, counters, evented, reg, missing, done⟩ :=
    (u.answer (blockVision v) (s.visionWork op d).outcome (s.visionWork op d).cause).noteVision_spec v op d.ctx.cadence (s.visionWork op d)
  refine ⟨_, finish, ?_, reg, missing, fun present => ?_⟩
  · obtain ⟨x, y, answered⟩ := u.answer_eq (blockVision v) (s.visionWork op d).outcome (s.visionWork op d).cause
    obtain ⟨regs, sent, pending, eq⟩ := evented
    exact ⟨vision, counters, regs, y, sent, pending, eq.trans (by rw [answered, hu])⟩
  · have kept : (u.answer (blockVision v) (s.visionWork op d).outcome (s.visionWork op d).cause).vision = s.vision := by
      obtain ⟨x, y, answered⟩ := u.answer_eq (blockVision v) (s.visionWork op d).outcome (s.visionWork op d).cause
      rw [answered]
      exact same
    rw [kept] at done
    exact done present

/-- Once issued, a descriptor shows its address and its work's answer and events (R204, R210). -/
theorem State.finishVision_shows (fits : e < 4) (waited : List Nat) :
    let o := s.visionWork op d
    let t := u.finishVision v ⟨e, op, d⟩ waited
    t.reports s (blockVision v) o.outcome o.cause ∧ t.reg64 (visionReg v (0x10 + 0x10 * e)) = d.ctx.addr % 2 ^ 64 ∧
      (o.status = 1 → bitAt (t.reg (visionReg v 0xC)) 1 = true) := by
  obtain ⟨n, finish, -, reg, missing, -⟩ := State.finishVision_spec asked work waited
  obtain ⟨-, -, -, answers, time, -⟩ := asked.keeps
  obtain ⟨w, vision, ⟨stored, -⟩, ran⟩ := n.runJob_within v (u.visionJob ⟨e, op, d⟩ waited (s.visionWork op d))
  dsimp only
  rw [finish, ran]
  have own (a : Nat) : ({ w with vision := vision } : State).reg a = n.reg a := State.reg_congr _ _ stored.keeps.1 a
  have answered (a : Nat) (other : a ≠ blockVision v) :
      (u.answer (blockVision v) (s.visionWork op d).outcome (s.visionWork op d).cause).reg a = u.reg a :=
    State.reg_answerAt_ne _ _ _ _ _ _ other
  refine ⟨State.reports_of_answer ⟨asked.reg_status, answers, time⟩ ((own _).trans (reg _ (by unfold visionReg; omega))), ?_,
    fun status => (congrArg (bitAt · 1) (own _)).trans (missing status)⟩
  have shown := asked.reg64_address
  rw [State.reg64] at shown ⊢
  have low : visionReg v (0x10 + 0x10 * e) ≠ visionReg v 0xC ∧ visionReg v (0x10 + 0x10 * e) ≠ blockVision v := by
    unfold visionReg; omega
  have high : visionReg v (0x10 + 0x10 * e) + 4 ≠ visionReg v 0xC ∧ visionReg v (0x10 + 0x10 * e) + 4 ≠ blockVision v := by
    unfold visionReg; omega
  rwa [own, own, reg _ low.1, reg _ high.1, answered _ low.2, answered _ high.2]

/-- Once issued, a descriptor stores within its destination and its summary's slot (R203, R204). -/
theorem State.finishVision_within (waited : List Nat) :
    let o := s.visionWork op d
    let t := u.finishVision v ⟨e, op, d⟩ waited
    (∀ x, ¬visionStores d o.tiles.length x → t.byte x = s.byte x) ∧ State.sameButStores { t with vision := s.vision } s := by
  obtain ⟨n, finish, ⟨vision, counters, regs, answers, sent, pending, eq⟩, -, -, -⟩ := State.finishVision_spec asked work waited
  obtain ⟨w, vision', ⟨stored, outside⟩, ran⟩ := n.runJob_within v (u.visionJob ⟨e, op, d⟩ waited (s.visionWork op d))
  dsimp only
  rw [finish, ran]
  refine ⟨fun x out => (outside x fun inside => out (State.visionStores_of_job inside)).trans ?_, ?_⟩
  · rw [eq]
    rfl
  · obtain ⟨_, _, _, _, _, _, _, rfl⟩ := stored
    rw [eq]
    rfl

/-- A descriptor with a destination in memory and no summary stores its tiles there and is done (R203). -/
theorem State.finishVision_stores (present : v < s.vision.length) (direct : d.dstMode ≠ 0) (silent : d.raise.toNat = noLantern)
    (waited : List Nat) :
    let o := s.visionWork op d
    let t := u.finishVision v ⟨e, op, d⟩ waited
    (∀ k tile, o.tiles[k]? = some tile →
      t.load (d.dstAddr.toNat + k * tileBytes) tileBytes = fitBytes tileBytes tile) ∧
      (t.vision.getD v default).done = (s.vision.getD v default).done.modify e (· + 1) := by
  obtain ⟨n, finish, ⟨vision, counters, regs, answers, sent, pending, eq⟩, -, -, done⟩ := State.finishVision_spec asked work waited
  obtain ⟨still, before⟩ := done present
  obtain ⟨stores, counted⟩ := n.runJob_stores v (j := u.visionJob ⟨e, op, d⟩ waited (s.visionWork op d)) (if_neg direct) silent still
  dsimp only
  rw [finish]
  refine ⟨fun k tile h => ?_, counted.trans (by rw [before]; rfl)⟩
  have place := stores k tile h
  rwa [show (u.visionJob ⟨e, op, d⟩ waited (s.visionWork op d)).stored = 0 from rfl, Nat.zero_add] at place

end

/-! WAIT, RAISE and END (R150, R151, R201). -/

/-- The lantern that a control descriptor waits on. -/
def controlWaits (d : VisionDesc) : List Nat := if d.wait.toNat = noLantern then [] else [d.wait.toNat]

section
variable {s : State} {v : Fin 2} {e op : Nat} {d : VisionDesc} (control : visionControlOp op = true)
  (turn : s.engineTurn v e d = true) (ended : s.waitOver d.unit d.wait = true) (ok : s.visionCommonOk v op d = true)
include control turn ended ok

/-- A control descriptor whose wait is over is issued. -/
theorem State.visionCommand_control :
    ∃ u, s.Asked u v e d.ctx.addr ∧ s.visionCommand v ⟨e, op, d⟩ = u.finishVision v ⟨e, op, d⟩ (controlWaits d) := by
  obtain ⟨may, service, free⟩ := State.engineTurn_parts turn
  have granted : ∀ l ∈ controlWaits d, s.waitGranted d.unit.toNat l = true := by
    unfold controlWaits
    split
    · nofun
    · next named =>
      intro l here
      rw [List.mem_singleton.mp here]
      simpa [State.waitOver, named] using ended
  obtain ⟨u, asked, awaited⟩ := State.awaitAll_asked (k := d.ctx.cadence) granted v e d.ctx.addr
  refine ⟨u, asked, ?_⟩
  have fold : s.setReg64 (visionReg v (0x10 + 0x10 * e)) d.ctx.addr = s.showing v e d.ctx.addr := rfl
  have issue : s.visionIssue v ⟨e, op, d⟩ = (u.finishVision v ⟨e, op, d⟩ (controlWaits d), true) := by
    unfold controlWaits at awaited ⊢
    simp [State.visionIssue, control, ok, service, fold, awaited]
  exact (State.visionCommand_head (w := ⟨e, op, d⟩) may free issue).trans (if_pos rfl)

end

theorem State.sameButLanterns.keeps {s t : State} (h : t.sameButLanterns s) :
    t.mem = s.mem ∧ t.steps = s.steps ∧ t.vision = s.vision := by
  unfold State.sameButLanterns at h
  have mem := congrArg State.mem h
  have steps := congrArg State.steps h
  have vision := congrArg State.vision h
  exact ⟨mem, steps, vision⟩

/-- The lanterns after the answer of a control descriptor that has released its tile. -/
def State.controlled (u : State) (v : Nat) (d : VisionDesc) : State :=
  (controlWaits d).foldl (fun s l => s.releaseLantern d.ctx.cadence d.unit.toNat l) (u.answer (blockVision v) served 0)

theorem State.finishVision_control (u : State) (v e op : Nat) (d : VisionDesc) (control : visionControlOp op = true) :
    u.finishVision v ⟨e, op, d⟩ (controlWaits d) =
      (if op = 0x09 then (u.controlled v d).raiseLantern d.unit.toNat d.raise.toNat
        ((u.controlled v d).stepTime ((u.occOf d.ctx.cadence).getD default).step) ((u.occOf d.ctx.cadence).getD default).step
      else u.controlled v d).updVision v (fun u => { u with done := u.done.modify e (· + 1) }) :=
  if_pos control

theorem State.lantern_releaseLantern_ne (s : State) (k unit : Nat) {i j : Nat} (other : j ≠ i) :
    (s.releaseLantern k unit i).lantern j = s.lantern j := by
  have touched (l : LanternState) (own : l.index = i) : ((s.setLantern l).touchLantern k i).lantern j = s.lantern j :=
    (s.lantern_setLantern l j).trans (if_neg (own ▸ other))
  have index := s.lantern_index i
  unfold State.releaseLantern
  dsimp only
  split
  · split
    · split
      · rw [State.advanceLantern, State.lantern_setLantern, State.lantern_index, if_neg other]
        exact touched _ index
      · exact touched _ index
    · rfl
  · rfl

section
variable {s u : State} {v e : Nat} {d : VisionDesc} (asked : s.Asked u v e d.ctx.addr)
include asked

/-- A control descriptor answers Served, and changes its wait's lantern alone (R150, R151). -/
theorem State.controlled_spec :
    (u.controlled v d).sameButLanterns s ∧
      (u.controlled v d).reg (blockVision v) = (u.answer (blockVision v) served 0).reg (blockVision v) ∧
      ∀ i, i ∉ controlWaits d → (u.controlled v d).lantern i = s.lantern i := by
  have before : (u.answer (blockVision v) served 0).sameButLanterns s := by
    obtain ⟨⟨_, _, rfl⟩, -⟩ := asked
    obtain ⟨_, _, answered⟩ := State.answer_eq _ (blockVision v) served 0
    rw [answered]
    rfl
  have lanterns (i : Nat) : (u.answer (blockVision v) served 0).lantern i = s.lantern i := by
    obtain ⟨_, _, answered⟩ := u.answer_eq (blockVision v) served 0
    rw [answered]
    exact asked.lantern i
  unfold State.controlled controlWaits
  split
  · exact ⟨before, rfl, fun i _ => lanterns i⟩
  · generalize u.answer (blockVision v) served 0 = a at *
    refine ⟨(a.releaseLantern_sameButLanterns _ _ _).trans before, ?_, fun i apart => ?_⟩
    · exact State.reg_congr _ _ (State.Stored.releaseLantern a _ _ _).keeps.1 _
    · exact (a.lantern_releaseLantern_ne _ _ (List.ne_of_not_mem_cons apart)).trans (lanterns i)

end

section
variable {s : State} {v : Fin 2} {e op : Nat} {d : VisionDesc} (turn : s.engineTurn v e d = true)
  (ended : s.waitOver d.unit d.wait = true)
include turn ended

/-- WAIT and END do nothing else than wait, answer and be done (R151, R201). -/
theorem State.visionCommand_waitOrEnd (which : op = 0x08 ∨ op = 0x0B) (ok : s.visionCommonOk v op d = true)
    (present : v < s.vision.length) :
    let t := s.visionCommand v ⟨e, op, d⟩
    t.reports s (blockVision v) served 0 ∧
      (t.vision.getD v default).done = (s.vision.getD v default).done.modify e (· + 1) ∧
      State.sameButLanterns { t with vision := s.vision } s := by
  have control : visionControlOp op = true := by rcases which with rfl | rfl <;> rfl
  have silent : op ≠ 0x09 := by rcases which with rfl | rfl <;> decide
  obtain ⟨u, asked, eq⟩ := State.visionCommand_control control turn ended ok
  obtain ⟨same, reg, -⟩ := State.controlled_spec asked
  obtain ⟨-, -, -, answers, time, -⟩ := asked.keeps
  dsimp only
  rw [eq, State.finishVision_control u v e op d control, if_neg silent]
  generalize u.controlled v d = r at *
  obtain ⟨-, -, vision⟩ := same.keeps
  refine ⟨State.reports_of_answer ⟨asked.reg_status, answers, time⟩ ((State.reg_congr _ _ rfl _).trans reg), ?_, ?_⟩
  · exact congrArg VisionUnit.done (State.getD_updVision vision present fun u => { u with done := u.done.modify e (· + 1) })
  · exact congrArg (fun z : State => { z with vision := s.vision }) same

/-- RAISE lights the slot that its unit has filled, with the tag of its occurrence (R150). -/
theorem State.visionCommand_raise (ok : s.visionCommonOk v 0x09 d = true) {x : LanternUse} {o : Occurrence}
    (occ : s.occOf d.ctx.cadence = some o) (use : s.useOf d.raise.toNat = some x) (producer : x.producer = d.unit.toNat)
    (fills : (s.lantern d.raise.toNat).phase = filling) :
    let t := s.visionCommand v ⟨e, 0x09, d⟩
    (t.lantern d.raise.toNat).phase = lit ∧
      (t.lantern d.raise.toNat).tag = ⟨s.stepTime o.step, o.step, x.owner, d.unit.toNat⟩ ∧
      (∀ i, i ≠ d.raise.toNat → i ≠ d.wait.toNat → t.lantern i = s.lantern i) ∧ t.mem = s.mem ∧ t.steps = s.steps := by
  have apart : d.raise.toNat ∉ controlWaits d := by
    unfold controlWaits
    split
    · exact List.not_mem_nil
    · next named =>
      intro here
      have granted : s.waitGranted d.unit.toNat d.wait.toNat = true := by simpa [State.waitOver, named] using ended
      rw [← List.mem_singleton.mp here] at granted
      simp [State.waitGranted, use, fills, filling, lit, unlit] at granted
  have others {i : Nat} (other : i ≠ d.wait.toNat) : i ∉ controlWaits d := by
    unfold controlWaits
    split
    · exact List.not_mem_nil
    · exact fun here => other (List.mem_singleton.mp here)
  obtain ⟨u, asked, eq⟩ := State.visionCommand_control rfl turn ended ok
  obtain ⟨same, -, lanterns⟩ := State.controlled_spec asked
  obtain ⟨-, steps, -⟩ := asked.keeps
  dsimp only
  have now : (u.occOf d.ctx.cadence).getD default = o := by
    rw [State.occOf, steps]
    exact congrArg (Option.getD · default) occ
  rw [eq, State.finishVision_control u v e 0x09 d rfl, if_pos rfl, now]
  generalize u.controlled v d = r at *
  obtain ⟨mem', steps', -⟩ := same.keeps
  have time : r.stepTime o.step = s.stepTime o.step := by rw [State.stepTime, steps', State.stepTime]
  have own := lanterns _ apart
  have use' : r.useOf d.raise.toNat = some x := by
    have plan : r.planUses d.raise.toNat = s.planUses d.raise.toNat := by rw [State.planUses, steps', State.planUses]
    rw [State.useOf, plan, own]
    exact use
  have after (i : Nat) := State.lantern_raiseLantern use' producer ((congrArg LanternState.phase own).trans fills)
    (s.stepTime o.step) o.step i
  rw [time]
  have kept := State.Marks.raiseLantern r d.unit.toNat d.raise.toNat (s.stepTime o.step) o.step
  generalize r.raiseLantern d.unit.toNat d.raise.toNat (s.stepTime o.step) o.step = w at *
  obtain ⟨mem'', -, steps''⟩ := kept.keeps
  have shown (i : Nat) : (w.updVision v fun u => { u with done := u.done.modify e (· + 1) }).lantern i = w.lantern i :=
    State.lantern_of_sheets rfl i
  have raised := (shown d.raise.toNat).trans ((after d.raise.toNat).trans (if_pos rfl))
  refine ⟨by rw [raised], by rw [raised], fun i other away => ?_, mem''.trans mem', steps''.trans steps'⟩
  exact (shown i).trans ((after i).trans ((if_neg other).trans (lanterns i (others away))))

end

/-! A work descriptor that its engine issues now. -/

theorem State.visionReady_parts {s : State} {v op : Nat} {d : VisionDesc} (ready : s.visionReady v op d = true) :
    s.engineTurn v (visionEngineOf op) d = true ∧ s.visionOk v op d = true ∧
      (∀ x ∈ visionSlots op d, s.mayRead v (visionEngineOf op) x = true) ∧
      s.memoryWaits (visionRegion v (visionEngineOf op)) (s.visionAccesses op d) = false ∧
      (∀ l ∈ s.visionWaits op d, s.waitGranted d.unit.toNat l = true) ∧
      s.orderBroken d.unit.toNat (s.visionWaits op d) (s.visionReads op d)
        (visionWrites d (s.visionWork op d).tiles.length) = none := by
  simpa [State.visionReady, and_assoc] using ready

theorem State.visionCommand_ready {s : State} {v : Fin 2} {op : Nat} {d : VisionDesc} (work : visionControlOp op = false)
    (ready : s.visionReady v op d = true) :
    ∃ u, s.Asked u v (visionEngineOf op) d.ctx.addr ∧
      s.visionCommand v ⟨visionEngineOf op, op, d⟩ = u.finishVision v ⟨visionEngineOf op, op, d⟩ (s.visionWaits op d) := by
  obtain ⟨turn, ok, own, memory, granted, order⟩ := State.visionReady_parts ready
  obtain ⟨u, asked, eq⟩ := State.visionCommand_granted work turn ok own memory granted
  rw [order] at eq
  exact ⟨u, asked, eq⟩

end Sys2Proof.Machine

open Sys2Proof Sys2Proof.Machine

/-- Settles O56: a work descriptor by what its issue asks for in turn, and then by its work and its job; a control descriptor by
its lanterns. -/
theorem visionDescriptorsAreIssuedOrRefused : Obligations.VisionDescriptorsAreIssuedOrRefused := by
  refine ⟨?work, fun v e d s turn ended two => ?control⟩
  case work =>
    intro v op d c s command may two e o u
    obtain ⟨work, engine⟩ := visionOps_work op (visionDescOf_op command)
    rw [exec_visionDesc command]
    have present : v.val < s.vision.length := two.symm ▸ v.isLt
    refine ⟨fun ready => ?issued, fun free bad room => ?malformed, fun free ok out => ?outOfService,
      fun turn ok room foreign => ?foreign, fun turn ok own memory => ?memory, fun turn ok own memory => ⟨fun i granted room order =>
        ?order, fun waits => ?waits⟩, fun busy => ?behind⟩
    case issued =>
      obtain ⟨a, asked, eq⟩ := State.visionCommand_ready work ready
      obtain ⟨reports, address, event⟩ := State.finishVision_shows asked work engine (s.visionWaits op d)
      obtain ⟨bytes, frame⟩ := State.finishVision_within asked work (s.visionWaits op d)
      refine ⟨_, congrArg Host.Outcome.next eq, reports, address, bytes,
        fun direct silent => State.finishVision_stores asked work present direct silent _,
        fun matched image grid missing => ?_, fun source unusable => ?_, frame⟩
      · obtain ⟨outcome, cause, status⟩ := State.visionWork_noFrame (visionDescOf_op command) matched image grid missing
        rw [outcome, cause] at reports
        exact ⟨reports, event status⟩
      · obtain ⟨outcome, cause⟩ := State.visionWork_uncalibrated source unusable
        rwa [outcome, cause] at reports
    case malformed =>
      have head := State.visionCommand_head (w := ⟨e, op, d⟩) may free (State.visionIssue_malformed work bad)
      exact ⟨_, congrArg Host.Outcome.next (head.trans (if_pos rfl)), s.refuseVision_spec v e 0x0C d.ctx room⟩
    case outOfService =>
      have head := State.visionCommand_head (w := ⟨e, op, d⟩) may free (State.visionIssue_outOfService work ok out)
      refine ⟨_, congrArg Host.Outcome.next (head.trans (if_pos rfl)), s.answer_fields _ _ _, ?_⟩
      obtain ⟨x, y, answered⟩ := s.answer_eq (blockVision v) refused 0x0A
      rw [answered]
    case foreign =>
      obtain ⟨-, service, free⟩ := State.engineTurn_parts turn
      have head := State.visionCommand_head (w := ⟨e, op, d⟩) may free (State.visionIssue_foreign work ok service foreign)
      exact ⟨_, congrArg Host.Outcome.next (head.trans (if_pos rfl)), s.refuseVision_spec v e 0x20 d.ctx room⟩
    case memory => exact ⟨_, rfl, State.visionCommand_memoryWaits work turn ok own present memory⟩
    case order => exact ⟨_, rfl, State.visionCommand_broken work turn ok own memory granted room order⟩
    case waits => exact ⟨_, rfl, State.visionCommand_waits work turn ok own memory present waits⟩
    case behind =>
      have held := State.visionCommand_behind (w := ⟨e, op, d⟩) may busy
      exact ⟨_, congrArg Host.Outcome.next held, congrArg VisionUnit.queue (State.getD_updVision rfl present _), rfl⟩
  case control =>
    have present : v.val < s.vision.length := two.symm ▸ v.isLt
    refine ⟨fun c which => ?_, fun x o ok occ use producer fills => ?_⟩
    · rcases which with ⟨rfl, ok⟩ | ⟨rfl, ok⟩
      · exact ⟨_, rfl, State.visionCommand_waitOrEnd turn ended (.inl rfl) ok present⟩
      · exact ⟨_, rfl, State.visionCommand_waitOrEnd turn ended (.inr rfl) ok present⟩
    · exact ⟨_, rfl, State.visionCommand_raise turn ended ok occ use producer fills⟩

end

section
/-! SUPPORT. The writes of the fusion engine under the lantern plan (R150, R151, R153, R234, R236), and what its commands leave as
it was. -/

namespace Sys2Proof.Machine

/-! What fusion work may touch. -/

/-- Memory and what stands beside a store, registers, answers, interrupts and the fusion engine may differ; nothing else does. -/
def State.Fuses (s t : State) : Prop :=
  ∃ mem tiers points regs answers counters sheets anchors tensors sent pending fusion,
    t = { s with
      mem := mem, tiers := tiers, checkpoints := points, regs := regs, answers := answers, counters := counters, sheets := sheets
      anchors := anchors, tensors := tensors, host := { s.host with sent := sent, vectorPending := pending }, fusion := fusion }

namespace State.Fuses

theorem refl (s : State) : s.Fuses s := ⟨_, _, _, _, _, _, _, _, _, _, _, _, rfl⟩

theorem trans {s t u : State} (h : s.Fuses t) (g : t.Fuses u) : s.Fuses u := by
  obtain ⟨_, _, _, _, _, _, _, _, _, _, _, _, rfl⟩ := h
  obtain ⟨_, _, _, _, _, _, _, _, _, _, _, _, rfl⟩ := g
  exact ⟨_, _, _, _, _, _, _, _, _, _, _, _, rfl⟩

theorem foldl {α : Type} {f : State → α → State} (one : ∀ (s : State) (x : α), s.Fuses (f s x)) (l : List α) (s : State) :
    s.Fuses (l.foldl f s) := by
  induction l generalizing s with
  | nil => exact refl s
  | cons x l ih => exact (one s x).trans (ih (f s x))

theorem sameButStores {s t : State} (h : s.Fuses t) : State.sameButStores { t with fusion := s.fusion } s := by
  obtain ⟨_, _, _, _, _, _, _, _, _, _, _, _, rfl⟩ := h
  rfl

theorem keeps {s t : State} (h : s.Fuses t) :
    t.steps = s.steps ∧ t.time = s.time ∧ t.active = s.active ∧ t.ports = s.ports := by
  obtain ⟨_, _, _, _, _, _, _, _, _, _, _, _, rfl⟩ := h
  exact ⟨rfl, rfl, rfl, rfl⟩

theorem withFusion (s : State) (x : Fusion) : s.Fuses { s with fusion := x } := ⟨_, _, _, _, _, _, _, _, _, _, _, _, rfl⟩

theorem of_stored {s t : State} (h : s.Stored t) : s.Fuses t := by
  obtain ⟨_, _, _, _, _, _, _, rfl⟩ := h
  exact ⟨_, _, _, _, _, _, _, _, _, _, _, _, rfl⟩

theorem answer (s : State) (b o c : Nat) : s.Fuses (s.answer b o c) := ⟨_, _, _, _, _, _, _, _, _, _, _, _, rfl⟩

theorem fusionEvent (s : State) (bit : Nat) : s.Fuses (s.fusionEvent bit) := by
  unfold State.fusionEvent State.event State.msix
  dsimp only
  split
  · split <;> exact ⟨_, _, _, _, _, _, _, _, _, _, _, _, rfl⟩
  · exact ⟨_, _, _, _, _, _, _, _, _, _, _, _, rfl⟩

end State.Fuses

/-! An event of the fusion block sets its flag, and nothing of the engine or of memory. -/

@[simp] theorem State.fusion_fusionEvent (s : State) (bit : Nat) : (s.fusionEvent bit).fusion = s.fusion := by
  simp [State.fusionEvent]

@[simp] theorem State.mem_fusionEvent (s : State) (bit : Nat) : (s.fusionEvent bit).mem = s.mem := by
  simp [State.fusionEvent]

@[simp] theorem State.sheets_fusionEvent (s : State) (bit : Nat) : (s.fusionEvent bit).sheets = s.sheets := by
  simp [State.fusionEvent]

@[simp] theorem State.steps_fusionEvent (s : State) (bit : Nat) : (s.fusionEvent bit).steps = s.steps := by
  simp [State.fusionEvent]

theorem State.fusionEvent_alike (s : State) (bit : Nat) : (s.fusionEvent bit).answersAlike s blockFusion :=
  ⟨State.reg_event_ne s _ _ _ _ (by decide), by simp [State.fusionEvent], by simp [State.fusionEvent]⟩

theorem State.answersAlike.trans {s t u : State} {b : Nat} (h : t.answersAlike s b) (g : u.answersAlike t b) :
    u.answersAlike s b := by
  obtain ⟨reg, answers, time⟩ := h
  obtain ⟨reg', answers', time'⟩ := g
  exact ⟨reg'.trans reg, answers'.trans answers, time'.trans time⟩

/-! One write. -/

theorem State.waitGranted_congr {s t : State} (sheets : t.sheets = s.sheets) (steps : t.steps = s.steps) (unit i : Nat) :
    t.waitGranted unit i = s.waitGranted unit i := by
  unfold State.waitGranted State.useOf State.planUses State.lantern
  rw [sheets, steps]

/-- A write whose slots are free is its bytes in memory (R151, R153). -/
theorem State.fusionWrite_free {s : State} {w : FusionWrite}
    (free : (slotsIn w.addr w.bytes.length).all (s.waitGranted s.fusionUnit) = true) :
    s.Stored (s.fusionWrite w) ∧ (s.fusionWrite w).mem = Memory.setBytes s.mem w.addr w.bytes := by
  unfold State.fusionWrite
  dsimp only
  rw [if_pos free]
  have filled (u : Nat) (l : List Nat) (s : State) :
      s.Stored (l.foldl (fun s i => (s.dropWait u i).fillLantern u i) s) ∧
        (l.foldl (fun s i => (s.dropWait u i).fillLantern u i) s).mem = s.mem :=
    ⟨.foldl (fun s i => (State.Stored.dropWait s u i).trans (.fillLantern _ u i)) l s,
      (State.Marks.foldl (fun s i => (State.Marks.dropWait s u i).trans (.fillLantern _ u i)) l s).keeps.1⟩
  obtain ⟨first, mem⟩ := filled s.fusionUnit (slotsIn w.addr w.bytes.length) s
  refine ⟨(first.trans (.cstore _ _ _ _ _)).trans (.foldl (fun s i => .raiseLantern s _ _ _ _) _ _), ?_⟩
  rw [(State.Marks.foldl (fun s i => .raiseLantern s _ _ _ _) _ _).keeps.1, (State.Marks.cstore _ _ _ _ _).keeps.1, mem]

/-- A write that must wait for a slot stays due, and its waits are issued (R151). -/
theorem State.fusionWrite_due {s : State} {w : FusionWrite}
    (busy : (slotsIn w.addr w.bytes.length).all (s.waitGranted s.fusionUnit) = false) :
    ∃ x, s.fusionWrite w = { s with sheets := x, fusion := { s.fusion with due := s.fusion.due ++ [w] } } := by
  have waits (l : List Nat) (s : State) (u : Nat) :
      ∃ x, l.foldl (fun s i => if s.waitGranted u i then s else s.issueWait 0 u i) s = { s with sheets := x } := by
    induction l generalizing s with
    | nil => exact ⟨_, rfl⟩
    | cons i l ih =>
      rw [List.foldl_cons]
      split
      · exact ih s
      · obtain ⟨x, eq⟩ := s.issueWait_eq 0 u i
        obtain ⟨y, eq'⟩ := ih (s.issueWait 0 u i)
        exact ⟨y, eq'.trans (by rw [eq])⟩
  obtain ⟨x, eq⟩ := waits (slotsIn w.addr w.bytes.length) s s.fusionUnit
  unfold State.fusionWrite
  dsimp only
  rw [if_neg (by rw [busy]; decide), eq]
  exact ⟨x, rfl⟩

/-! Writes, one after another. -/

/-- Writes of the fusion engine: no byte outside `P` changes, and of the engine only what is due. -/
def State.FusionWrites (s : State) (P : Nat → Prop) (t : State) : Prop :=
  ∃ due, ({ s with fusion := { s.fusion with due := due } } : State).StoresWithin P t

namespace State.FusionWrites

variable {s t u : State} {P Q : Nat → Prop}

theorem refl (s : State) : s.FusionWrites P s := ⟨s.fusion.due, .refl s⟩

theorem trans (h : s.FusionWrites P t) (g : t.FusionWrites P u) : s.FusionWrites P u := by
  obtain ⟨d, ⟨_, _, _, _, _, _, _, rfl⟩, out⟩ := h
  obtain ⟨e, ⟨_, _, _, _, _, _, _, rfl⟩, out'⟩ := g
  exact ⟨e, ⟨_, _, _, _, _, _, _, rfl⟩, fun x away => (out' x away).trans (out x away)⟩

theorem foldl {α : Type} {f : State → α → State} (l : List α) (one : ∀ (s : State), ∀ x ∈ l, s.FusionWrites P (f s x))
    (s : State) : s.FusionWrites P (l.foldl f s) := by
  induction l generalizing s with
  | nil => exact refl s
  | cons x l ih =>
    exact (one s x List.mem_cons_self).trans (ih (fun s y h => one s y (List.mem_cons_of_mem _ h)) (f s x))

theorem mono (h : s.FusionWrites P t) (within : ∀ x, P x → Q x) : s.FusionWrites Q t := h.imp fun _ h => h.mono within

theorem fuses (h : s.FusionWrites P t) : s.Fuses t := by
  obtain ⟨d, stored, -⟩ := h
  exact (State.Fuses.withFusion s _).trans (.of_stored stored)

theorem fusion (h : s.FusionWrites P t) : t.fusion = { s.fusion with due := t.fusion.due } := by
  obtain ⟨d, ⟨_, _, _, _, _, _, _, rfl⟩, -⟩ := h
  rfl

theorem keeps (h : s.FusionWrites P t) : t.regs = s.regs ∧ t.answers = s.answers ∧ t.time = s.time ∧ t.steps = s.steps := by
  obtain ⟨d, ⟨_, _, _, _, _, _, _, rfl⟩, -⟩ := h
  exact ⟨rfl, rfl, rfl, rfl⟩

theorem outside (h : s.FusionWrites P t) {x : Nat} (away : ¬P x) : t.byte x = s.byte x := by
  obtain ⟨d, -, out⟩ := h
  exact out x away

/-- One write changes no byte but its own, whether its slots are free or not. -/
theorem write (s : State) (w : FusionWrite) :
    s.FusionWrites (fun x => w.addr ≤ x ∧ x < w.addr + w.bytes.length) (s.fusionWrite w) := by
  cases free : (slotsIn w.addr w.bytes.length).all (s.waitGranted s.fusionUnit) with
  | true =>
    obtain ⟨stored, mem⟩ := State.fusionWrite_free free
    refine ⟨s.fusion.due, stored, fun x away => ?_⟩
    rw [State.byte, mem]
    exact Memory.get_setBytes_outside _ _ _ _ (by omega)
  | false =>
    obtain ⟨x, eq⟩ := State.fusionWrite_due free
    rw [eq]
    exact ⟨s.fusion.due ++ [w], ⟨_, _, _, _, _, _, _, rfl⟩, fun _ _ => rfl⟩

end State.FusionWrites

end Sys2Proof.Machine
end

section
/-! SUPPORT. The stream view (R249), and the flow prediction fields with where a tiled field keeps its elements (R178, R231). -/

namespace Sys2Proof.Machine

/-! STREAM_STAT_SAMPLE (R249). -/

/-- Four view registers written together, the first of which is answered. -/
def State.statShown (s : State) (a b c d : Nat) : State :=
  ((((s.setReg 0xA00044 a).setReg 0xA00048 b).setReg 0xA0004C c).setReg 0xA00050 d).replyWith a

/-- The four registers of the view, written in a row. -/
theorem State.statShown_fold (s : State) (vals : List Nat) :
    ((List.range 4).foldl (fun s k => s.setReg (0xA00044 + 4 * k) (vals.getD k 0)) s).replyWith (vals.getD 0 0) =
      s.statShown (vals.getD 0 0) (vals.getD 1 0) (vals.getD 2 0) (vals.getD 3 0) := by rfl

/-- The state bits of a stream take one byte (R234). -/
theorem State.streamBits_lt (s : State) (d : StreamDecl) (f : FStream) : s.streamBits d f < 256 := by
  have usable := b2n_le (s.usable d f)
  have unaligned := b2n_le f.unaligned
  have outlier := b2n_le f.outlier
  have masked := b2n_le (s.egoMasked d)
  have stale := b2n_le f.stale
  have contested := b2n_le f.contested
  have privileged := b2n_le d.privileged
  unfold State.streamBits
  omega

/-- A read of the view shows the selected stream: its number, its state bits, and what else the registers hold. -/
theorem effStreamStatSample_shown {d : StreamDecl} {f : FStream} {s : State} (up : s.readable = true)
    (decl : s.streamDecls[s.fld ⟨0xA00040, 0, 13⟩]? = some d) (stream : s.fusion.streams[s.fld ⟨0xA00040, 0, 13⟩]? = some f) :
    let al := s.fusion.align.getD (s.fld ⟨0xA00040, 0, 13⟩) default
    ∃ bits err conf, effStreamStatSample s = s.statShown (d.slot + d.stream * 2 ^ 16) bits err conf ∧
      bits % 256 = s.streamBits d { f with unaligned := al.unaligned, cause := al.cause } := by
  unfold effStreamStatSample
  simp only [up, decl, stream, Bool.not_true, Bool.false_eq_true, if_false]
  rw [State.statShown_fold]
  simp only [List.getD_cons_zero, List.getD_cons_succ]
  refine ⟨_, _, _, rfl, ?_⟩
  have small := s.streamBits_lt d { f with
    unaligned := (s.fusion.align.getD (s.fld ⟨0xA00040, 0, 13⟩) default).unaligned
    cause := (s.fusion.align.getD (s.fld ⟨0xA00040, 0, 13⟩) default).cause }
  omega

theorem State.statShown_spec (s : State) (a b c d : Nat) :
    let t := s.statShown a b c d
    t.host = { s.host with reply := .data a } ∧ t.reg 0xA00044 = a % 2 ^ 32 ∧ t.reg 0xA00048 = b % 2 ^ 32 ∧
      (∀ r, r ≠ 0xA00044 → r ≠ 0xA00048 → r ≠ 0xA0004C → r ≠ 0xA00050 → t.reg r = s.reg r) ∧
      { t with regs := s.regs, host := s.host } = s := by
  have shown (r : Nat) : (s.statShown a b c d).reg r =
      ((((s.setReg 0xA00044 a).setReg 0xA00048 b).setReg 0xA0004C c).setReg 0xA00050 d).reg r := rfl
  refine ⟨rfl, ?_, ?_, fun r h1 h2 h3 h4 => ?_, by unfold State.statShown State.replyWith State.setReg; rfl⟩
  · simp [shown]
  · simp [shown]
  · simp [shown, h1, h2, h3, h4]

/-! Tiled fields (R170, R178). -/

/-- Rows of one width laid end to end: row `i` stands from `i * w` on. -/
theorem flatten_row {α : Type} {w : Nat} {rows : List (List α)} (width : ∀ r ∈ rows, r.length = w) {i : Nat}
    (hi : i < rows.length) : (rows.flatten.drop (i * w)).take w = rows[i] := by
  induction rows generalizing i with
  | nil => simp at hi
  | cons r rows ih =>
    have head : r.length = w := width r List.mem_cons_self
    rw [List.flatten_cons]
    cases i with
    | zero => rw [Nat.zero_mul, List.drop_zero, ← head, List.take_left, List.getElem_cons_zero]
    | succ i =>
      have past : (i + 1) * w = r.length + i * w := by rw [head, Nat.succ_mul, Nat.add_comm]
      rw [past, ← List.drop_drop, List.drop_left, List.getElem_cons_succ]
      exact ih (fun x hx => width x (List.mem_cons_of_mem _ hx)) (Nat.lt_of_succ_lt_succ hi)

/-- Rows of one width span their number of widths. -/
theorem length_flatten_const {α : Type} {w : Nat} {rows : List (List α)} (width : ∀ r ∈ rows, r.length = w) :
    rows.flatten.length = rows.length * w := by
  rw [List.length_flatten, List.map_congr_left (g := fun _ => w) width, List.map_const', List.sum_replicate, smul_eq_mul]

/-- A part of a part. -/
theorem take_drop_within {α : Type} (l : List α) {a w p n : Nat} (h : p + n ≤ w) :
    (l.drop (a + p)).take n = (((l.drop a).take w).drop p).take n := by
  rw [List.drop_take, List.take_take, List.drop_drop, Nat.min_eq_left (by omega)]

theorem lt_ceilDiv_mul {x n w : Nat} (pos : 0 < w) (h : x < n) : x / w < ceilDiv n w := by
  unfold ceilDiv
  rw [Nat.div_lt_iff_lt_mul pos]
  have := Nat.lt_div_mul_add (a := n + w - 1) pos
  omega

/-- The tile of a position is one of the field's. -/
theorem tile_lt {cols rows tw th x y : Nat} (hx : x / tw < ceilDiv cols tw) (hy : y / th < ceilDiv rows th) :
    y / th * ceilDiv cols tw + x / tw < ceilDiv cols tw * ceilDiv rows th := by
  calc _ < (y / th + 1) * ceilDiv cols tw := by rw [Nat.succ_mul]; omega
    _ ≤ ceilDiv rows th * ceilDiv cols tw := Nat.mul_le_mul_right _ hy
    _ = _ := Nat.mul_comm _ _

/-- The place of a position within its tile. -/
theorem place_lt {tw th x y : Nat} (htw : 0 < tw) (hth : 0 < th) : y % th * tw + x % tw < tw * th := by
  have row := Nat.mod_lt y hth
  have col := Nat.mod_lt x htw
  calc _ < (y % th + 1) * tw := by rw [Nat.succ_mul]; omega
    _ ≤ th * tw := Nat.mul_le_mul_right _ row
    _ = _ := Nat.mul_comm _ _

/-- The tile and the place of a position give its column back. -/
theorem tiled_col {cols tw x : Nat} (th y : Nat) (htw : 0 < tw) (hx : x < cols) :
    (y / th * ceilDiv cols tw + x / tw) % ceilDiv cols tw * tw + (y % th * tw + x % tw) % tw = x := by
  rw [Nat.mul_comm (y / th), Nat.mul_add_mod, Nat.mod_eq_of_lt (lt_ceilDiv_mul htw hx), Nat.mul_comm (y % th), Nat.mul_add_mod,
    Nat.mod_mod, Nat.mul_comm, Nat.div_add_mod]

/-- They give its row back. -/
theorem tiled_row {cols tw x : Nat} (th y : Nat) (htw : 0 < tw) (hx : x < cols) :
    (y / th * ceilDiv cols tw + x / tw) / ceilDiv cols tw * th + (y % th * tw + x % tw) / tw = y := by
  have inCols := lt_ceilDiv_mul htw hx
  rw [Nat.mul_comm (y / th), Nat.mul_add_div (Nat.zero_lt_of_lt inCols), Nat.div_eq_of_lt inCols, Nat.add_zero,
    Nat.mul_comm (y % th), Nat.mul_add_div htw, Nat.div_eq_of_lt (Nat.mod_lt x htw), Nat.add_zero, Nat.mul_comm, Nat.div_add_mod]

section
variable {cols rows tw th n : Nat} (htw : 0 < tw) (hth : 0 < th) (tile : tw * th * n = tileBytes)
include htw hth tile

theorem place_fits (x y : Nat) : (y % th * tw + x % tw) * n + n ≤ tileBytes := by
  rw [← tile, ← Nat.succ_mul]
  exact Nat.mul_le_mul_right _ (place_lt htw hth)

/-- A position of the field lies in its tiles. -/
theorem tiledOffset_fits {x y : Nat} (hx : x < cols) (hy : y < rows) :
    tiledOffset cols tw th n x y + n ≤ ceilDiv cols tw * ceilDiv rows th * tileBytes := by
  have last := Nat.mul_le_mul_right tileBytes (tile_lt (lt_ceilDiv_mul htw hx) (lt_ceilDiv_mul hth hy))
  have inTile := place_fits htw hth tile x y
  rw [Nat.succ_mul] at last
  unfold tiledOffset
  omega

/-- Two positions of the field lie apart. -/
theorem tiledOffset_apart {x y x' y' : Nat} (hx : x < cols) (hx' : x' < cols) (other : ¬(x = x' ∧ y = y')) :
    tiledOffset cols tw th n x y + n ≤ tiledOffset cols tw th n x' y' ∨
      tiledOffset cols tw th n x' y' + n ≤ tiledOffset cols tw th n x y := by
  have col := tiled_col th y htw hx
  have row := tiled_row th y htw hx
  have col' := tiled_col th y' htw hx'
  have row' := tiled_row th y' htw hx'
  have fits := place_fits htw hth tile x y
  have fits' := place_fits htw hth tile x' y'
  unfold tiledOffset
  generalize y / th * ceilDiv cols tw + x / tw = a at *
  generalize y' / th * ceilDiv cols tw + x' / tw = b at *
  generalize y % th * tw + x % tw = p at *
  generalize y' % th * tw + x' % tw = q at *
  have before {i j w : Nat} (h : i < j) : i * w + w ≤ j * w := by
    rw [← Nat.succ_mul]
    exact Nat.mul_le_mul_right w h
  rcases Nat.lt_trichotomy a b with lt | rfl | lt
  · exact .inl (by have := before (w := tileBytes) lt; omega)
  · rcases Nat.lt_trichotomy p q with lt | rfl | lt
    · exact .inl (by have := before (w := n) lt; omega)
    · exact absurd ⟨col.symm.trans col', row.symm.trans row'⟩ other
    · exact .inr (by have := before (w := n) lt; omega)
  · exact .inr (by have := before (w := tileBytes) lt; omega)

end

/-- Position `i` of tile `t` of a tiled field: an element, or padding beyond the field. -/
def tileCell (cols rows tw th : Nat) (elem : Nat → Nat → Bytes) (pad : Bytes) (t i : Nat) : Bytes :=
  let x := t % ceilDiv cols tw * tw + i % tw
  let y := t / ceilDiv cols tw * th + i / tw
  if x < cols ∧ y < rows then elem x y else pad

theorem tilesOf_eq (cols rows tw th : Nat) (elem : Nat → Nat → Bytes) (pad : Bytes) :
    tilesOf cols rows tw th elem pad = (List.range (ceilDiv cols tw * ceilDiv rows th)).map
      (fun t => ((List.range (tw * th)).map (tileCell cols rows tw th elem pad t)).flatten) := by
  simp only [tilesOf, List.flatMap_def]
  rfl

theorem length_tileCell {cols rows tw th n : Nat} {elem : Nat → Nat → Bytes} {pad : Bytes} (width : ∀ x y, (elem x y).length = n)
    (padded : pad.length = n) (t i : Nat) : (tileCell cols rows tw th elem pad t i).length = n := by
  unfold tileCell
  dsimp only
  split
  · exact width _ _
  · exact padded

/-- The cell of a position of the field is its element. -/
theorem tileCell_at {cols rows tw th : Nat} (elem : Nat → Nat → Bytes) (pad : Bytes) {x y : Nat} (htw : 0 < tw) (hx : x < cols)
    (hy : y < rows) :
    tileCell cols rows tw th elem pad (y / th * ceilDiv cols tw + x / tw) (y % th * tw + x % tw) = elem x y := by
  unfold tileCell
  dsimp only
  rw [tiled_col th y htw hx, tiled_row th y htw hx, if_pos ⟨hx, hy⟩]

/-- An element of a tiled field stands at its offset. -/
theorem tilesOf_element {cols rows tw th n : Nat} {elem : Nat → Nat → Bytes} {pad : Bytes} (htw : 0 < tw) (hth : 0 < th)
    (width : ∀ x y, (elem x y).length = n) (padded : pad.length = n) (tile : tw * th * n = tileBytes) {x y : Nat} (hx : x < cols)
    (hy : y < rows) :
    tiledOffset cols tw th n x y + n ≤ (tilesOf cols rows tw th elem pad).flatten.length ∧
      ((tilesOf cols rows tw th elem pad).flatten.drop (tiledOffset cols tw th n x y)).take n = elem x y := by
  have cell (t i : Nat) := length_tileCell (cols := cols) (rows := rows) (tw := tw) (th := th) width padded t i
  have inTiles := tile_lt (lt_ceilDiv_mul htw hx) (lt_ceilDiv_mul hth hy)
  have place : y % th * tw + x % tw < tw * th := place_lt htw hth
  have inTile := place_fits htw hth tile x y
  have cells (t : Nat) : ∀ r ∈ (List.range (tw * th)).map (tileCell cols rows tw th elem pad t), r.length = n := by
    intro r mem
    obtain ⟨i, -, rfl⟩ := List.mem_map.mp mem
    exact cell t i
  have tiles : ∀ r ∈ tilesOf cols rows tw th elem pad, r.length = tileBytes := by
    intro r mem
    rw [tilesOf_eq] at mem
    obtain ⟨t, -, rfl⟩ := List.mem_map.mp mem
    rw [length_flatten_const (cells t), List.length_map, List.length_range, tile]
  have count : (tilesOf cols rows tw th elem pad).length = ceilDiv cols tw * ceilDiv rows th := by
    rw [tilesOf_eq, List.length_map, List.length_range]
  refine ⟨?_, ?_⟩
  · rw [length_flatten_const tiles, count]
    exact tiledOffset_fits htw hth tile hx hy
  · rw [tiledOffset, take_drop_within _ inTile, flatten_row tiles (by rw [count]; exact inTiles)]
    simp only [tilesOf_eq, List.getElem_map, List.getElem_range]
    rw [flatten_row (cells _) (by rw [List.length_map, List.length_range]; exact place), List.getElem_map, List.getElem_range,
      tileCell_at elem pad htw hx hy]

/-! FLOW_PREDICTION_FIELD (R231). -/

/-- The ego entry of a sensor with its state. -/
def State.egoEntryOf (s : State) (img : Image) (slot stream : Nat) : Option (EgoEntry × EgoState) :=
  (List.zip img.egos s.fusion.egos).find? (fun p => p.1.slot == slot && p.1.stream == stream)

/-- The field of a tether's frames: (0, 0) for a sensor without an entry, the invalid value for one that is masked. -/
theorem State.predictionField_elements {s : State} {img : Image} (image : s.steps.image = some img) (k slot stream : Nat)
    (backward : Bool) {w : TetherStream} (tether : img.tethers.find? (fun t => t.slot == slot && t.stream == stream) = some w) :
    ∃ elem : Nat → Nat → Bytes,
      s.predictionField k slot stream backward =
        (tilesOf w.width w.height 128 64 elem (leBytes 2 0x8000 ++ leBytes 2 4)).flatten ∧
      (∀ x y, (elem x y).length = 4) ∧
      (s.egoEntryOf img slot stream = none → ∀ x y, elem x y = leBytes 4 0) ∧
      ∀ p, s.egoEntryOf img slot stream = some p → p.2.masked = true → ∀ x y, elem x y = leBytes 2 0x8000 ++ leBytes 2 3 := by
  unfold State.predictionField
  simp only [image, Option.getD_some, tether]
  refine ⟨_, rfl, fun x y => ?_, fun none x y => ?_, fun p entry masked x y => ?_⟩
  · split
    · exact leBytes_length _ _
    · simp
    · simp
  · rw [State.egoEntryOf] at none
    rw [none]
  · rw [State.egoEntryOf] at entry
    rw [entry]
    split
    · next absent => cases absent
    · next q m c same _ _ =>
      obtain rfl : p = q := Option.some.inj same
      rw [flowPred]
      simp [masked]
    · rfl

end Sys2Proof.Machine
end

section
/-! SUPPORT. FLOW_PREDICTION_FIELD (R231) and EGO_ESTIMATE (R225-R228, R230): what each stores and what it does to its entry. -/

namespace Sys2Proof.Machine

theorem effFlowPredictionField_eq {k : Fin 16} {slot stream dst : Nat} {backward : Bool} {o : Occurrence} {s : State}
    (up : s.up = true) (run : s.inRun = true) (occ : s.occOf 0 = some o) :
    effFlowPredictionField k slot stream backward dst s =
      s.fusionWrite ⟨dst, s.predictionField k.val slot stream backward, o.step⟩ := by
  simp [effFlowPredictionField, occ, up, run]

/-- A field that is stored holds its elements at their offsets. -/
theorem State.predictionField_stored {s t : State} {img : Image} {k slot stream dst : Nat} {backward : Bool} {w : TetherStream}
    (image : s.steps.image = some img) (tether : img.tethers.find? (fun t => t.slot == slot && t.stream == stream) = some w)
    (mem : t.mem = Memory.setBytes s.mem dst (s.predictionField k slot stream backward)) {x y : Nat} (hx : x < w.width)
    (hy : y < w.height) :
    let got := t.load (dst + tiledOffset w.width 128 64 4 x y) 4
    (s.egoEntryOf img slot stream = none → got = leBytes 4 0) ∧
      ∀ p, s.egoEntryOf img slot stream = some p → p.2.masked = true → got = leBytes 2 0x8000 ++ leBytes 2 3 := by
  obtain ⟨elem, eq, width, empty, masked⟩ := State.predictionField_elements image k slot stream backward tether
  obtain ⟨fits, at_⟩ := tilesOf_element (tw := 128) (th := 64) (pad := leBytes 2 0x8000 ++ leBytes 2 4) (by decide) (by decide)
    width (by simp) (by decide) hx hy
  have got : t.load (dst + tiledOffset w.width 128 64 4 x y) 4 = elem x y := by
    rw [State.load, mem, eq, Memory.getBytes_setBytes_part _ _ _ _ _ fits, at_]
  dsimp only
  rw [got]
  exact ⟨fun none => empty none x y, fun p entry m => masked p entry m x y⟩

/-! EGO_ESTIMATE: the entry after its attempt (R225-R228). -/

/-- The state of entry `j` after its attempt. -/
def State.egoSettled (s : State) (o : Occurrence) (j : Nat) (e : EgoEntry) (x : EgoState) (inp : EgoInputs) : EgoState :=
  let y := x.settle e (fDiv fp64 (fOfInt fp64 s.baseUs) (fOfInt fp64 1000000)) ((o.frameNow e.slot).map (·.stamp))
    (s.egoAttempt o j e x inp)
  { y with
    masked := s.egoMaskAfter x.masked y, scan := if (o.frameNow e.slot).isSome then inp.scan else x.scan }

/-- The engine once entry `j` has become `y`. -/
def State.egoTaken (s : State) (j : Nat) (y : EgoState) : State :=
  { s with fusion := { s.fusion with egos := s.fusion.egos.set j y, egoDone := j :: s.fusion.egoDone } }

/-- An entry that becomes masked is reported (R228). -/
def State.egoReported (s : State) (x y : EgoState) : State :=
  if !x.masked && y.masked then (s.fusionEvent 3).answer blockFusion shed 0x30 else s

theorem effEgoEstimate_eq {j : Nat} {inp : EgoInputs} {poses : List (Nat × Nat)} {e : EgoEntry} {x : EgoState} {o : Occurrence}
    {s : State} (up : s.up = true) (run : s.inRun = true) (occ : s.occOf 0 = some o)
    (entry : s.steps.image.bind (fun i => i.egos[j]?) = some e) (ego : s.fusion.egos[j]? = some x) :
    effEgoEstimate j inp poses s =
      if s.fusion.egoDone.contains j then s
      else poses.foldl (fun t p => t.writePose o e (s.egoSettled o j e x inp) p)
        ((s.egoTaken j (s.egoSettled o j e x inp)).egoReported x (s.egoSettled o j e x inp)) := by
  unfold effEgoEstimate
  rw [occ, entry, ego]
  simp only [up, run, Bool.not_true, Bool.false_or]
  rfl

theorem EgoState.settle_pose (x : EgoState) (e : EgoEntry) (b : Nat) (stamp : Option Nat) (est : Option (List Nat × List Nat)) :
    let y := x.settle e b stamp est
    match est with
      | some p => y.quat = p.1.drop 3 ∧ y.trans = p.1.take 3 ∧ y.cov = p.2 ∧ y.held = false ∧ y.run = x.run + 1
      | none => y.quat = x.quat ∧ y.trans = x.trans ∧ y.held = true ∧ y.run = 0 := by
  cases est with
  | none => cases stamp <;> exact ⟨rfl, rfl, rfl, rfl⟩
  | some p => cases stamp <;> exact ⟨rfl, rfl, rfl, rfl, rfl⟩

/-- An accepted estimate is taken, and the pose is held without one (R225, R227). -/
theorem State.egoSettled_pose (s : State) (o : Occurrence) (j : Nat) (e : EgoEntry) (x : EgoState) (inp : EgoInputs) :
    let y := s.egoSettled o j e x inp
    match s.egoAttempt o j e x inp with
      | some p => y.quat = p.1.drop 3 ∧ y.trans = p.1.take 3 ∧ y.cov = p.2 ∧ y.held = false ∧ y.run = x.run + 1
      | none => y.quat = x.quat ∧ y.trans = x.trans ∧ y.held = true ∧ y.run = 0 :=
  x.settle_pose e (fDiv fp64 (fOfInt fp64 s.baseUs) (fOfInt fp64 1000000)) ((o.frameNow e.slot).map fun f : FrameRec => f.stamp)
    (s.egoAttempt o j e x inp)

/-- The mask is judged from the entry's covariance and run (R228). -/
theorem State.egoSettled_masked (s : State) (o : Occurrence) (j : Nat) (e : EgoEntry) (x : EgoState) (inp : EgoInputs) :
    (s.egoSettled o j e x inp).masked = s.egoMaskAfter x.masked (s.egoSettled o j e x inp) := by rfl

/-! The pose records (R230). -/

theorem length_poseRecord (p : Pose) : (poseRecord p).length = 48 := by
  rw [poseRecord, length_flatMap_leBytes, List.length_append]
  simp only [fitNats, List.length_append, List.length_take, List.length_replicate]
  omega

/-- The record of a pose that a descriptor reads; not a number where the selector names no frame. -/
def State.poseRecordFor (s : State) (e : EgoEntry) (x : EgoState) (k : Nat) : Bytes :=
  match s.frameSelOf k e.slot false with
  | some f => poseRecord (s.egoPoseAt e x f.stamp)
  | none => poseRecord ⟨List.replicate 9 nan32, List.replicate 3 nan32⟩

theorem State.length_poseRecordFor (s : State) (e : EgoEntry) (x : EgoState) (k : Nat) : (s.poseRecordFor e x k).length = 48 := by
  unfold State.poseRecordFor
  split <;> exact length_poseRecord _

theorem State.writePose_eq (s : State) (o : Occurrence) (e : EgoEntry) (x : EgoState) (p : Nat × Nat) :
    s.writePose o e x p = s.fusionWrite ⟨p.1, s.poseRecordFor e x p.2, o.step⟩ := by
  unfold State.writePose State.poseRecordFor
  cases s.frameSelOf p.2 e.slot false <;> rfl

theorem State.poseRecordFor_congr {s t : State} (steps : t.steps = s.steps) (e : EgoEntry) (x : EgoState) (k : Nat) :
    t.poseRecordFor e x k = s.poseRecordFor e x k := by
  simp only [State.poseRecordFor, State.frameSelOf, State.occOf, State.egoPoseAt, State.egoHorizon, State.streamDecls, steps]

/-- The records of an entry touch their own bytes. -/
theorem State.writePoses_within (o : Occurrence) (e : EgoEntry) (x : EgoState) (poses : List (Nat × Nat)) (s : State) :
    s.FusionWrites (fun b => ∃ p ∈ poses, p.1 ≤ b ∧ b < p.1 + 48) (poses.foldl (fun t p => t.writePose o e x p) s) := by
  refine State.FusionWrites.foldl poses (fun s p here => ?_) s
  rw [State.writePose_eq]
  refine (State.FusionWrites.write s _).mono fun b h => ⟨p, here, ?_⟩
  rwa [State.length_poseRecordFor] at h

theorem State.egoReported_fuses (s : State) (x y : EgoState) : s.Fuses (s.egoReported x y) := by
  unfold State.egoReported
  split
  · exact (State.Fuses.fusionEvent s 3).trans (.answer _ _ _ _)
  · exact .refl s

theorem State.egoReported_frame (s : State) (x y : EgoState) :
    (s.egoReported x y).fusion = s.fusion ∧ (s.egoReported x y).mem = s.mem ∧ (s.egoReported x y).sheets = s.sheets := by
  unfold State.egoReported
  split <;> simp

/-- EGO_ESTIMATE for an entry that the occurrence has not done (R225-R228, R230). -/
theorem egoEstimate_spec {j : Nat} {inp : EgoInputs} {poses : List (Nat × Nat)} {e : EgoEntry} {x : EgoState} {o : Occurrence}
    {s : State} (ego : s.fusion.egos[j]? = some x) :
    let y := s.egoSettled o j e x inp
    let t := poses.foldl (fun t p => t.writePose o e y p) ((s.egoTaken j y).egoReported x y)
    t.fusion.egos[j]? = some y ∧ t.fusion.egoDone = j :: s.fusion.egoDone ∧
      (∀ i, i ≠ j → t.fusion.egos[i]? = s.fusion.egos[i]?) ∧
      (x.masked = false → y.masked = true → t.reports s blockFusion shed 0x30) ∧
      (∀ a k f, poses = [(a, k)] → s.frameSelOf k e.slot false = some f →
        (slotsIn a 48).all (s.waitGranted s.fusionUnit) = true → t.load a 48 = poseRecord (s.egoPoseAt e y f.stamp)) ∧
      (∀ b, (∀ p ∈ poses, b < p.1 ∨ p.1 + 48 ≤ b) → t.byte b = s.byte b) ∧
      State.sameButStores { t with fusion := s.fusion } s := by
  extract_lets y t
  have writes := State.writePoses_within o e y poses ((s.egoTaken j y).egoReported x y)
  have fuses := ((State.Fuses.withFusion s _).trans ((s.egoTaken j y).egoReported_fuses x y)).trans writes.fuses
  obtain ⟨fusion, mem, sheets⟩ := (s.egoTaken j y).egoReported_frame x y
  have steps : ((s.egoTaken j y).egoReported x y).steps = s.steps := ((s.egoTaken j y).egoReported_fuses x y).keeps.1
  obtain ⟨regs, -⟩ := writes.keeps
  have engine := writes.fusion
  have egos : t.fusion.egos = s.fusion.egos.set j y := by
    rw [show t.fusion = _ from engine, fusion]
    rfl
  have done : t.fusion.egoDone = j :: s.fusion.egoDone := by
    rw [show t.fusion = _ from engine, fusion]
    rfl
  obtain ⟨inside, -⟩ := List.getElem?_eq_some_iff.mp ego
  refine ⟨by rw [egos, List.getElem?_set_self inside], done, fun i other => by rw [egos, List.getElem?_set_ne (Ne.symm other)],
    fun was now => ?masked, fun a k f one frame free => ?record, fun b away => ?outside, fuses.sameButStores⟩
  case masked =>
    have reported : (s.egoTaken j y).egoReported x y = ((s.egoTaken j y).fusionEvent 3).answer blockFusion shed 0x30 := by
      rw [State.egoReported, was, now]
      rfl
    exact State.reports_of_answer ((s.egoTaken j y).fusionEvent_alike 3) ((State.reg_congr _ _ regs _).trans (by rw [reported]))
  case record =>
    have record : ((s.egoTaken j y).egoReported x y).poseRecordFor e y k = poseRecord (s.egoPoseAt e y f.stamp) := by
      rw [State.poseRecordFor_congr steps, State.poseRecordFor, frame]
    have unit : ((s.egoTaken j y).egoReported x y).fusionUnit = s.fusionUnit := by rw [State.fusionUnit, steps, State.fusionUnit]
    have granted : (slotsIn a 48).all
        (((s.egoTaken j y).egoReported x y).waitGranted ((s.egoTaken j y).egoReported x y).fusionUnit) = true := by
      rw [unit, ← free]
      exact congrArg _ (funext fun i => State.waitGranted_congr sheets steps _ i)
    have last : t = ((s.egoTaken j y).egoReported x y).fusionWrite ⟨a, poseRecord (s.egoPoseAt e y f.stamp), o.step⟩ := by
      simp only [t, one, List.foldl_cons, List.foldl_nil]
      rw [State.writePose_eq, record]
    have stored := (State.fusionWrite_free (s := (s.egoTaken j y).egoReported x y)
      (w := ⟨a, poseRecord (s.egoPoseAt e y f.stamp), o.step⟩) (by rwa [length_poseRecord])).2
    have whole := Memory.getBytes_setBytes (poseRecord (s.egoPoseAt e y f.stamp)) ((s.egoTaken j y).egoReported x y).mem a
    rw [length_poseRecord] at whole
    rw [State.load, last, stored, whole]
  case outside =>
    rw [show t.byte b = _ from writes.outside (by rintro ⟨p, here, low, high⟩; have := away p here; omega), State.byte, mem]
    rfl

end Sys2Proof.Machine
end

section
/-! SUPPORT. CONSISTENCY_GATE (R238-R241): the streams that the gates judge, what they decide, and the stream state vector that
follows (R234). -/

namespace Sys2Proof.Machine

/-! What the gates judge and decide. -/

/-- A region masks and contests eligible streams only (R239). -/
theorem State.decideRegion_eligible (s : State) (r : Nat) (cr : CheckRegion) (eligible : Nat → Bool)
    (scores : List (Nat × Nat × Nat)) {i : Nat}
    (h : i ∈ (s.decideRegion r cr eligible scores).1 ∨ i ∈ (s.decideRegion r cr eligible scores).2) : eligible i = true := by
  have own {i : Nat} (h : i ∈ cr.streams.filter eligible) : eligible i = true := (List.mem_filter.mp h).2
  have part {p : Nat → Bool} {i : Nat} (h : i ∈ (cr.streams.filter eligible).filter p) : eligible i = true :=
    own (List.mem_filter.mp h).1
  unfold State.decideRegion at h
  dsimp only at h
  split at h
  · simp at h
  · split at h
    · exact own (h.resolve_left List.not_mem_nil)
    · split at h
      · exact part (h.resolve_right List.not_mem_nil)
      · exact part (h.resolve_left List.not_mem_nil)

/-- Whether a stream is eligible at the gates: usable as they begin. -/
def State.eligible (s : State) (i : Nat) : Bool := (s.streamPairs.map (fun p => s.usable p.1 p.2)).getD i false

theorem State.eligible_eq {s : State} {i : Nat} {d : StreamDecl} {f : FStream} (decl : s.streamDecls[i]? = some d)
    (stream : s.fusion.streams[i]? = some f) : s.eligible i = s.usable d f := by
  have pair : s.streamPairs[i]? = some (d, f) := List.getElem?_zip_eq_some.mpr ⟨decl, stream⟩
  rw [State.eligible, List.getD_eq_getElem?_getD, List.getElem?_map, pair]
  rfl

/-- The check regions of the running image. -/
def State.checkRegions (s : State) : List CheckRegion := (s.steps.image.map (·.checks)).getD []

/-- What each region decides (R239). -/
def State.gateVerdicts (s : State) (scores : List (Nat × Nat × Nat)) : List (Nat × List Nat × List Nat) :=
  (List.zip (List.range s.checkRegions.length) s.checkRegions).map
    (fun rc => (rc.1, s.decideRegion rc.1 rc.2 s.eligible scores))

theorem State.gateVerdicts_eligible {s : State} {scores : List (Nat × Nat × Nat)} {v : Nat × List Nat × List Nat}
    (h : v ∈ s.gateVerdicts scores) {i : Nat} (here : i ∈ v.2.1 ∨ i ∈ v.2.2) : s.eligible i = true := by
  obtain ⟨rc, -, rfl⟩ := List.mem_map.mp h
  exact s.decideRegion_eligible _ _ _ _ here

theorem State.gateResult_masked (s : State) (scores : List (Nat × Nat × Nat)) :
    (s.gateResult scores).masked = (s.gateVerdicts scores).flatMap (fun v => v.2.1) := by rfl

theorem State.gateResult_regions (s : State) (scores : List (Nat × Nat × Nat)) :
    (s.gateResult scores).regions = ((s.gateVerdicts scores).filter (fun v => v.2.2 ≠ [])).map (·.1) := by rfl

/-- A stream after the gates: what reinstatement notes, a mask, and whether it is contested (R239-R241). -/
theorem State.gateResult_stream (s : State) (scores : List (Nat × Nat × Nat)) :
    (s.gateResult scores).streams.length = s.fusion.streams.length ∧
      ∀ (i : Nat) (f : FStream), s.fusion.streams[i]? = some f →
        ∃ reinstate next, (s.gateResult scores).streams[i]? = some { f with
          reinstate := reinstate, outlierNext := next, outlier := f.outlier || (s.gateResult scores).masked.contains i
          contested := ((s.gateVerdicts scores).flatMap (fun v => v.2.2)).contains i } := by
  refine ⟨?_, fun i f stream => ?_⟩
  · simp [State.gateResult]
  · rw [State.gateResult_masked]
    unfold State.gateResult
    extract_lets checks indexed usable eligible verdicts masked contested reinst one bad
    have inside := (List.getElem?_eq_some_iff.mp stream).1
    have pair : (List.zip (List.range s.fusion.streams.length) s.fusion.streams)[i]? = some (i, f) :=
      List.getElem?_zip_eq_some.mpr ⟨List.getElem?_range inside, stream⟩
    rw [List.getElem?_map, pair]
    have noted : ∃ a b, reinst i f = { f with reinstate := a, outlierNext := b } := by
      unfold reinst
      split
      · extract_lets js
        split
        · exact ⟨_, _, rfl⟩
        · split <;> exact ⟨_, _, rfl⟩
      · exact ⟨_, _, rfl⟩
    obtain ⟨a, b, eq⟩ := noted
    have same : (s.gateVerdicts scores).flatMap (fun v => v.2.1) = masked := rfl
    have alike : (s.gateVerdicts scores).flatMap (fun v => v.2.2) = contested := rfl
    rw [same, alike]
    simp only [Option.map_some, one, eq]
    cases masked.contains i
    · exact ⟨a, b, by simp⟩
    · exact ⟨0, b, by simp⟩

/-- Without a declared region the gates decide nothing. -/
theorem State.gateResult_none {s : State} (none : s.checkRegions = []) (scores : List (Nat × Nat × Nat)) :
    s.gateVerdicts scores = [] ∧ (s.gateResult scores).nonfinite = false := by
  have verdicts : s.gateVerdicts scores = [] := by rw [State.gateVerdicts, none]; rfl
  refine ⟨verdicts, ?_⟩
  unfold State.checkRegions at none
  unfold State.gateResult
  rw [none]
  rfl

/-! The stream state vector (R234). -/

theorem State.length_stateVector (s : State) : s.stateVector.length = 2 * s.streamPairs.length :=
  length_flatMap_of (fun _ => leBytes_length _ _) _

theorem State.writeStreamState_within (s : State) (o : Occurrence) : s.FusionWrites (fun _ => True) (s.writeStreamState o) := by
  have writes (bs : Bytes) (l : List Nat) (s : State) :
      s.FusionWrites (fun _ => True) (l.foldl (fun s a => s.fusionWrite ⟨a, bs, o.step⟩) s) :=
    .foldl l (fun s a _ => (State.FusionWrites.write s _).mono fun _ _ => trivial) s
  unfold State.writeStreamState
  split
  · exact .refl s
  · extract_lets ts pairs idx recs vec t
    split
    · exact writes _ _ s
    · exact (writes _ _ s).trans (writes _ _ _)

/-- Without privileged streams and with one vector, the vector is what is written. -/
theorem State.writeStreamState_vector {s : State} {img : Image} {a : Nat} (image : s.steps.image = some img)
    (one : img.vectorBase = [a]) (plain : ∀ d ∈ img.streams, d.privileged = false) (o : Occurrence) :
    s.writeStreamState o = s.fusionWrite ⟨a, s.stateVector, o.step⟩ := by
  have none : (List.zip (List.range s.streamPairs.length) s.streamPairs).filter (fun q => q.2.1.privileged) = [] := by
    refine List.filter_eq_nil_iff.mpr fun q here => ?_
    have decl : q.2.1 ∈ s.streamDecls := (List.of_mem_zip (List.of_mem_zip here).2).1
    rw [State.streamDecls, image] at decl
    rw [plain _ decl]
    exact Bool.false_ne_true
  unfold State.writeStreamState
  rw [image]
  dsimp only
  rw [none, if_pos rfl, one]
  rfl

/-! CONSISTENCY_GATE. -/

/-- The grid features that metric 2 reads are kept. -/
def State.gateMapped (s : State) (maps : List (Nat × List (Nat × List Nat))) : State :=
  { s with fusion := { s.fusion with maps := maps.map (fun (m : Nat × List (Nat × List Nat)) => (⟨m.1, m.2⟩ : GridMap)) } }

/-- What the gates decide stands in the engine. -/
def State.gateTaken (s : State) (g : GateResult) : State :=
  { s with fusion := { s.fusion with streams := g.streams, contestedRegions := g.regions, gated := true } }

/-- Masks, contests and distances that are not finite set their events. -/
def State.gateEvents (s : State) (g : GateResult) : State :=
  let s := if g.masked ≠ [] then s.fusionEvent 1 else s
  let s := if g.regions ≠ [] then s.fusionEvent 2 else s
  if g.nonfinite then s.fusionEvent 6 else s

/-- The engine once the gates have judged. -/
def State.gateJudged (s : State) (maps : List (Nat × List (Nat × List Nat))) (scores : List (Nat × Nat × Nat)) : State :=
  ((s.gateMapped maps).gateTaken ((s.gateMapped maps).gateResult scores)).gateEvents ((s.gateMapped maps).gateResult scores)

theorem State.gateEvents_frame (s : State) (g : GateResult) :
    s.Fuses (s.gateEvents g) ∧ (s.gateEvents g).fusion = s.fusion ∧ (s.gateEvents g).mem = s.mem ∧
      (s.gateEvents g).sheets = s.sheets := by
  have flag (c : Prop) [Decidable c] (b : Nat) (s : State) :
      s.Fuses (if c then s.fusionEvent b else s) ∧ (if c then s.fusionEvent b else s).fusion = s.fusion ∧
        (if c then s.fusionEvent b else s).mem = s.mem ∧ (if c then s.fusionEvent b else s).sheets = s.sheets := by
    split
    · exact ⟨.fusionEvent s b, by simp, by simp, by simp⟩
    · exact ⟨.refl s, rfl, rfl, rfl⟩
  unfold State.gateEvents
  extract_lets t u
  obtain ⟨fuses, fusion, mem, sheets⟩ := flag (g.masked ≠ []) 1 s
  obtain ⟨fuses', fusion', mem', sheets'⟩ := flag (g.regions ≠ []) 2 t
  obtain ⟨fuses'', fusion'', mem'', sheets''⟩ := flag (g.nonfinite = true) 6 u
  exact ⟨(fuses.trans fuses').trans fuses'', fusion''.trans (fusion'.trans fusion), mem''.trans (mem'.trans mem),
    sheets''.trans (sheets'.trans sheets)⟩

theorem effConsistencyGate_eq {maps : List (Nat × List (Nat × List Nat))} {scores : List (Nat × Nat × Nat)} {o : Occurrence}
    {s : State} (up : s.up = true) (run : s.inRun = true) (occ : s.occOf 0 = some o) :
    effConsistencyGate maps scores s =
      if s.fusion.gated then s
      else if s.checkRegions = [] then s.gateJudged maps scores
      else (s.gateJudged maps scores).writeStreamState o := by
  unfold effConsistencyGate
  rw [occ]
  simp only [up, run, Bool.not_true, Bool.false_or]
  refine if_congr Iff.rfl rfl ?_
  have steps : (s.gateJudged maps scores).steps = s.steps := (State.gateEvents_frame _ _).1.keeps.1
  have regions : s.checkRegions = (s.gateJudged maps scores).checkRegions := by simp only [State.checkRegions, steps]
  rw [regions]
  rfl

theorem State.gateJudged_frame (s : State) (maps : List (Nat × List (Nat × List Nat))) (scores : List (Nat × Nat × Nat)) :
    s.Fuses (s.gateJudged maps scores) ∧ (s.gateJudged maps scores).mem = s.mem ∧
      (s.gateJudged maps scores).sheets = s.sheets ∧
      (s.gateJudged maps scores).fusion = ((s.gateMapped maps).gateTaken ((s.gateMapped maps).gateResult scores)).fusion := by
  obtain ⟨fuses, fusion, mem, sheets⟩ := State.gateEvents_frame
    ((s.gateMapped maps).gateTaken ((s.gateMapped maps).gateResult scores)) ((s.gateMapped maps).gateResult scores)
  exact ⟨((State.Fuses.withFusion s _).trans (.withFusion _ _)).trans fuses, mem, sheets, fusion⟩

/-- The gates leave each stream its alignment, history and value, and mask and contest usable streams only (R239). -/
theorem State.gateJudged_stream {s : State} {maps : List (Nat × List (Nat × List Nat))} {scores : List (Nat × Nat × Nat)} {i : Nat}
    {d : StreamDecl} {f g : FStream} (decl : s.streamDecls[i]? = some d) (before : s.fusion.streams[i]? = some f)
    (now : (s.gateJudged maps scores).fusion.streams[i]? = some g) :
    g.unaligned = f.unaligned ∧ g.stale = f.stale ∧ g.history = f.history ∧ g.value = f.value ∧
      (f.outlier = true → g.outlier = true) ∧ (s.usable d f = false → g.outlier = f.outlier ∧ g.contested = false) := by
  obtain ⟨-, -, -, fusion⟩ := s.gateJudged_frame maps scores
  obtain ⟨-, streams⟩ := (s.gateMapped maps).gateResult_stream scores
  obtain ⟨reinstate, next, stream⟩ := streams i f before
  rw [fusion] at now
  obtain rfl := Option.some.inj (stream.symm.trans now)
  refine ⟨rfl, rfl, rfl, rfl, fun out => by simp [out], fun unusable => ?_⟩
  have closed : (s.gateMapped maps).eligible i = false :=
    (State.eligible_eq (s := s.gateMapped maps) decl before).trans unusable
  have never {p : Nat × List Nat × List Nat → List Nat} (part : ∀ v, p v = v.2.1 ∨ p v = v.2.2) :
      (((s.gateMapped maps).gateVerdicts scores).flatMap p).contains i = false := by
    refine Bool.eq_false_iff.mpr fun here => ?_
    obtain ⟨v, mem, own⟩ := List.mem_flatMap.mp (List.contains_iff_mem.mp here)
    have open_ : (s.gateMapped maps).eligible i = true := State.gateVerdicts_eligible mem
      ((part v).elim (fun eq => .inl (eq ▸ own)) fun eq => .inr (eq ▸ own))
    exact Bool.false_ne_true (closed.symm.trans open_)
  have masked := never (p := fun v => v.2.1) fun v => .inl rfl
  have contested := never (p := fun v => v.2.2) fun v => .inr rfl
  rw [State.gateResult_masked, masked]
  exact ⟨Bool.or_false _, contested⟩

/-- With no declared region nothing is masked or contested, and no event is set (R238). -/
theorem State.gateJudged_none {s : State} (none : s.checkRegions = []) (maps : List (Nat × List (Nat × List Nat)))
    (scores : List (Nat × Nat × Nat)) :
    (s.gateJudged maps scores).fusion.contestedRegions = [] ∧ (s.gateJudged maps scores).regs = s.regs ∧
      ∀ g ∈ (s.gateJudged maps scores).fusion.streams, g.contested = false := by
  obtain ⟨verdicts, finite⟩ := State.gateResult_none (s := s.gateMapped maps) none scores
  obtain ⟨-, -, -, fusion⟩ := s.gateJudged_frame maps scores
  obtain ⟨length, streams⟩ := (s.gateMapped maps).gateResult_stream scores
  have masked : ((s.gateMapped maps).gateResult scores).masked = [] := by rw [State.gateResult_masked, verdicts]; rfl
  have regions : ((s.gateMapped maps).gateResult scores).regions = [] := by rw [State.gateResult_regions, verdicts]; rfl
  refine ⟨by rw [fusion]; exact regions, ?_, fun g here => ?_⟩
  · unfold State.gateJudged State.gateEvents
    simp only [masked, regions, finite, ne_eq, not_true_eq_false, if_false, Bool.false_eq_true]
    rfl
  · rw [fusion] at here
    obtain ⟨i, inside, rfl⟩ := List.mem_iff_getElem.mp here
    have before : i < s.fusion.streams.length := length ▸ inside
    obtain ⟨a, b, eq⟩ := streams i _ (List.getElem?_eq_getElem before)
    have same := Option.some.inj ((List.getElem?_eq_getElem inside).symm.trans eq)
    rw [same, verdicts]
    rfl

/-- CONSISTENCY_GATE for an occurrence that it has not judged (R234, R238-R241). -/
theorem consistencyGate_spec {maps : List (Nat × List (Nat × List Nat))} {scores : List (Nat × Nat × Nat)} {img : Image}
    {o : Occurrence} {s : State} (up : s.up = true) (run : s.inRun = true) (image : s.steps.image = some img)
    (occ : s.occOf 0 = some o) (first : s.fusion.gated = false) :
    let t := effConsistencyGate maps scores s
    t.fusion = { s.fusion with
      maps := t.fusion.maps, streams := t.fusion.streams, contestedRegions := t.fusion.contestedRegions, gated := true
      due := t.fusion.due } ∧
    t.fusion.streams.length = s.fusion.streams.length ∧
    (∀ (i : Nat) (d : StreamDecl) (f g : FStream), s.streamDecls[i]? = some d → s.fusion.streams[i]? = some f →
      t.fusion.streams[i]? = some g →
      g.unaligned = f.unaligned ∧ g.stale = f.stale ∧ g.history = f.history ∧ g.value = f.value ∧
        (f.outlier = true → g.outlier = true) ∧
        (s.usable d f = false → g.outlier = f.outlier ∧ g.contested = false)) ∧
    (img.checks = [] → t.fusion.contestedRegions = [] ∧ t.regs = s.regs ∧ t.mem = s.mem ∧
      ∀ g ∈ t.fusion.streams, g.contested = false) ∧
    (∀ a, img.checks ≠ [] → img.vectorBase = [a] → (∀ d ∈ img.streams, d.privileged = false) →
      (slotsIn a (2 * s.streamPairs.length)).all (s.waitGranted img.fusionUnit) = true →
      t.load a (2 * s.streamPairs.length) = t.stateVector) ∧
    State.sameButStores { t with fusion := s.fusion } s := by
  intro t
  have regions : s.checkRegions = img.checks := by rw [State.checkRegions, image]; rfl
  have eq : t = if img.checks = [] then s.gateJudged maps scores else (s.gateJudged maps scores).writeStreamState o := by
    rw [← regions, show t = _ from effConsistencyGate_eq up run occ, first, if_neg Bool.false_ne_true]
  obtain ⟨fuses, mem, sheets, fusion⟩ := s.gateJudged_frame maps scores
  have writes : (s.gateJudged maps scores).FusionWrites (fun _ => True) t := by
    rw [eq]
    split
    · exact .refl _
    · exact State.writeStreamState_within _ _
  have engine := writes.fusion
  have streams : t.fusion.streams = (s.gateJudged maps scores).fusion.streams := by rw [engine]
  have length : t.fusion.streams.length = s.fusion.streams.length := by
    rw [streams, fusion]
    exact ((s.gateMapped maps).gateResult_stream scores).1
  refine ⟨?engine, length, fun i d f g decl before now => State.gateJudged_stream decl before (streams ▸ now), fun none => ?none,
    fun a some one plain free => ?vector, (fuses.trans writes.fuses).sameButStores⟩
  case engine =>
    rw [engine, fusion]
    rfl
  case none =>
    obtain ⟨contested, regs, clear⟩ := State.gateJudged_none (regions.trans none) maps scores
    rw [if_pos none] at eq
    rw [eq]
    exact ⟨contested, regs, mem, clear⟩
  case vector =>
    have steps := fuses.keeps.1
    rw [if_neg some, State.writeStreamState_vector (steps ▸ image) one plain] at eq
    have pairs : (s.gateJudged maps scores).streamPairs.length = s.streamPairs.length := by
      rw [State.streamPairs, List.length_zip, ← streams, length, State.streamDecls, steps, State.streamPairs, List.length_zip,
        State.streamDecls]
    have unit : (s.gateJudged maps scores).fusionUnit = img.fusionUnit := by rw [State.fusionUnit, steps, image]; rfl
    have granted : (slotsIn a (s.gateJudged maps scores).stateVector.length).all
        ((s.gateJudged maps scores).waitGranted (s.gateJudged maps scores).fusionUnit) = true := by
      rw [State.length_stateVector, pairs, unit, ← free]
      exact congrArg _ (funext fun i => State.waitGranted_congr sheets steps _ i)
    obtain ⟨stored, bytes⟩ := State.fusionWrite_free (s := s.gateJudged maps scores)
      (w := ⟨a, (s.gateJudged maps scores).stateVector, o.step⟩) granted
    have whole := Memory.getBytes_setBytes (s.gateJudged maps scores).stateVector (s.gateJudged maps scores).mem a
    rw [State.length_stateVector, pairs] at whole
    have vector : t.stateVector = (s.gateJudged maps scores).stateVector := by
      rw [eq]
      obtain ⟨_, _, _, _, _, _, _, same⟩ := stored
      rw [same]
      rfl
    rw [vector, State.load, eq, bytes, whole]

end Sys2Proof.Machine
end

section
/-! SUPPORT. LADDER_UPDATE (R242-R245, R248): one function's step on the ladder, the five functions in their order, and the step's
answers. -/

namespace Sys2Proof.Machine

/-- Between two states the rungs may have moved; the rest of the engine, the steps and what the block answers stand. -/
structure State.Climbs (s t : State) : Prop where
  fusion : t.fusion = { s.fusion with rungs := t.fusion.rungs }
  mem : t.mem = s.mem
  steps : t.steps = s.steps
  active : t.active = s.active
  alike : t.answersAlike s blockFusion

namespace State.Climbs

theorem trans {s t u : State} (h : s.Climbs t) (g : t.Climbs u) : s.Climbs u where
  fusion := by rw [g.fusion, h.fusion]
  mem := g.mem.trans h.mem
  steps := g.steps.trans h.steps
  active := g.active.trans h.active
  alike := h.alike.trans g.alike

theorem withRungs (s : State) (x : List Rung) : s.Climbs { s with fusion := { s.fusion with rungs := x } } :=
  ⟨rfl, rfl, rfl, rfl, rfl, rfl, rfl⟩

theorem fusionEvent (s : State) (bit : Nat) : s.Climbs (s.fusionEvent bit) :=
  ⟨by simp, by simp, by simp, by simp [State.fusionEvent], s.fusionEvent_alike bit⟩

theorem record (s : State) (k o c n : Nat) (b : Bytes) : s.Climbs (s.record k o c n b) :=
  ⟨by simp, by simp, by simp, by simp, State.reg_congr _ _ (by simp) _, by simp, by simp⟩

variable {s t : State} (h : s.Climbs t)
include h

theorem usable (d : StreamDecl) (f : FStream) : t.usable d f = s.usable d f := by
  rw [State.usable, State.egoMasked, h.fusion]
  rfl

theorem streamPairs : t.streamPairs = s.streamPairs := by
  rw [State.streamPairs, State.streamDecls, h.steps, h.fusion]
  rfl

/-- The data target of a function does not depend on the rungs (R242). -/
theorem dataTarget (f p : Nat) : t.dataTarget f p = s.dataTarget f p := by
  have percent (f : Nat) : t.usablePercent f = s.usablePercent f := by
    simp only [State.usablePercent, h.usable, h.streamPairs]
  have limit (f k : Nat) : t.ladderPct f k = s.ladderPct f k := by
    simp only [State.ladderPct, State.activeFld, State.activeReg, h.active]
  have below (f k : Nat) : t.below f k = s.below f k := by simp only [State.below, percent, limit]
  have contested (f : Nat) : t.regionContested f = s.regionContested f := by
    rw [State.regionContested, h.steps, h.fusion]
    rfl
  have egos : t.fusion.egos = s.fusion.egos := by rw [h.fusion]
  have illPosed : t.fusion.illPosed = s.fusion.illPosed := by rw [h.fusion]
  simp only [State.dataTarget, below, contested, egos, illPosed, h.usable, h.streamPairs]

theorem exitSteps : t.exitSteps = s.exitSteps := by
  simp only [State.exitSteps, State.atLeast1, State.activeFld, State.activeReg, h.active]

theorem fusionAnswers : t.fusionAnswers = s.fusionAnswers := by
  have cause (d : StreamDecl) (f : FStream) : t.maskCause d f = s.maskCause d f := by
    rw [State.maskCause, State.egoMasked, h.fusion]
    rfl
  simp only [State.fusionAnswers, h.usable, h.streamPairs, cause]

end State.Climbs

/-! One function (R242-R245). -/

/-- A rung's next position towards the deeper of its data target and its floor, with perception at a level. -/
def State.rungNext (s : State) (f perception : Nat) (r : Rung) : Rung :=
  rungStep s.exitSteps (max (s.dataTarget f perception) r.floor) r

theorem State.Climbs.rungNext {s t : State} (h : s.Climbs t) (f p : Nat) (r : Rung) : t.rungNext f p r = s.rungNext f p r := by
  rw [State.rungNext, h.exitSteps, h.dataTarget, State.rungNext]

theorem State.ladderOne_spec (n : Nat) (s : State) (f : Nat) :
    s.Climbs (State.ladderOne n s f) ∧ (State.ladderOne n s f).fusion.rungs =
      s.fusion.rungs.set f (s.rungNext f (s.fusion.rungs.getD 0 default).level (s.fusion.rungs.getD f default)) := by
  unfold State.ladderOne
  extract_lets perception r data r' _ t u
  have moved : s.Climbs t := .withRungs s _
  have flagged : t.Climbs u ∧ u.fusion.rungs = t.fusion.rungs := by
    unfold u
    split
    · exact ⟨.fusionEvent t 5, by simp⟩
    · exact ⟨⟨rfl, rfl, rfl, rfl, rfl, rfl, rfl⟩, rfl⟩
  have kept (k o c m : Nat) (b : Bytes) : (u.record k o c m b).fusion.rungs = u.fusion.rungs := by simp
  split
  · exact ⟨moved, rfl⟩
  · split
    · exact ⟨moved.trans flagged.1, flagged.2⟩
    · exact ⟨(moved.trans flagged.1).trans (.record u _ _ _ _ _), (kept _ _ _ _ _).trans flagged.2⟩

/-- A rung that has moved is no shallower than its floor (R243). -/
theorem State.floor_le_rungNext (s : State) (f p : Nat) (r : Rung) : r.floor ≤ (s.rungNext f p r).level := by
  have deep := Nat.le_max_right (s.dataTarget f p) r.floor
  have deeper := Nat.le_max_right r.deep (max (s.dataTarget f p) r.floor)
  unfold State.rungNext rungStep
  dsimp only
  split
  · exact deep
  · split
    · next same => exact same ▸ deep
    · split
      · exact deep.trans deeper
      · show r.floor ≤ r.level
        omega

/-! The five functions (R242). -/

/-- Perception is stepped first; fault detection, tracking, mapping and forecasting follow with its new level. -/
theorem State.ladder_rungs (n : Nat) {s : State} {a b c d e : Rung} (rungs : s.fusion.rungs = [a, b, c, d, e]) :
    let p := (s.rungNext 0 a.level a).level
    let t := [0, 4, 1, 2, 3].foldl (State.ladderOne n) s
    s.Climbs t ∧ t.fusion.rungs =
      [s.rungNext 0 a.level a, s.rungNext 1 p b, s.rungNext 2 p c, s.rungNext 3 p d, s.rungNext 4 p e] := by
  dsimp only
  simp only [List.foldl_cons, List.foldl_nil]
  obtain ⟨c0, r0⟩ := State.ladderOne_spec n s 0
  generalize State.ladderOne n s 0 = u0 at *
  obtain ⟨c4, r4⟩ := State.ladderOne_spec n u0 4
  generalize State.ladderOne n u0 4 = u4 at *
  obtain ⟨c1, r1⟩ := State.ladderOne_spec n u4 1
  generalize State.ladderOne n u4 1 = u1 at *
  obtain ⟨c2, r2⟩ := State.ladderOne_spec n u1 2
  generalize State.ladderOne n u1 2 = u2 at *
  obtain ⟨c3, r3⟩ := State.ladderOne_spec n u2 3
  generalize State.ladderOne n u2 3 = u3 at *
  have k4 := c0.trans c4
  have k1 := k4.trans c1
  have k2 := k1.trans c2
  refine ⟨k2.trans c3, ?_⟩
  simp only [rungs, List.getD_cons_zero, List.set_cons_zero] at r0
  simp only [r0, c0.rungNext, List.getD_cons_zero, List.getD_cons_succ, List.set_cons_zero, List.set_cons_succ] at r4
  simp only [r4, k4.rungNext, List.getD_cons_zero, List.getD_cons_succ, List.set_cons_zero, List.set_cons_succ] at r1
  simp only [r1, k1.rungNext, List.getD_cons_zero, List.getD_cons_succ, List.set_cons_zero, List.set_cons_succ] at r2
  simp only [r2, k2.rungNext, List.getD_cons_zero, List.getD_cons_succ, List.set_cons_zero, List.set_cons_succ] at r3
  exact r3

/-- The data target of perception does not depend on its level (R242). -/
theorem State.rungNext_perception (s : State) (p q : Nat) (r : Rung) : s.rungNext 0 p r = s.rungNext 0 q r := by rfl

/-! LADDER_UPDATE. -/

theorem effLadderUpdate_eq {o : Occurrence} {s : State} (up : s.up = true) (run : s.inRun = true) (occ : s.occOf 0 = some o) :
    effLadderUpdate s =
      if s.fusion.laddered then s
      else State.answerFusion { [0, 4, 1, 2, 3].foldl (State.ladderOne o.step) s with
        fusion := { ([0, 4, 1, 2, 3].foldl (State.ladderOne o.step) s).fusion with laddered := true } } := by
  unfold effLadderUpdate
  rw [occ]
  simp only [up, run, Bool.not_true, Bool.false_or]

theorem State.answerFusion_frame (s : State) :
    s.answerFusion.fusion = s.fusion ∧ s.answerFusion.mem = s.mem ∧ s.answerFusion.steps = s.steps := by
  unfold State.answerFusion
  dsimp only
  split <;> simp

/-- LADDER_UPDATE for an occurrence that it has not stepped. -/
theorem ladderUpdate_spec {o : Occurrence} {s : State} (up : s.up = true) (run : s.inRun = true) (occ : s.occOf 0 = some o)
    (five : s.fusion.rungs.length = 5) (first : s.fusion.laddered = false) :
    let t := effLadderUpdate s
    t.fusion = { s.fusion with rungs := t.fusion.rungs, laddered := true } ∧ t.fusion.rungs.length = 5 ∧ t.mem = s.mem ∧
      t.steps.occs = s.steps.occs ∧
      (s.fusionAnswers ≠ [] → t.reports s blockFusion (pickAnswer s.fusionAnswers).1 (pickAnswer s.fusionAnswers).2) ∧
      ∀ f, f < 5 →
        let r := s.fusion.rungs.getD f default
        let r' := t.fusion.rungs.getD f default
        r' = rungStep s.exitSteps (max (s.dataTarget f (t.fusion.rungs.getD 0 default).level) r.floor) r ∧ r.floor ≤ r'.level := by
  dsimp only
  obtain ⟨a, b, c, d, e, rungs⟩ : ∃ a b c d e, s.fusion.rungs = [a, b, c, d, e] := by
    match s.fusion.rungs, five with
    | [a, b, c, d, e], _ => exact ⟨a, b, c, d, e, rfl⟩
  obtain ⟨climbs, moved⟩ := State.ladder_rungs o.step rungs
  have eq := effLadderUpdate_eq up run occ
  rw [first, if_neg Bool.false_ne_true] at eq
  generalize [0, 4, 1, 2, 3].foldl (State.ladderOne o.step) s = u at *
  obtain ⟨fusion, mem, steps⟩ := State.answerFusion_frame { u with fusion := { u.fusion with laddered := true } }
  rw [← eq] at fusion mem steps
  generalize effLadderUpdate s = t at *
  have now : t.fusion.rungs =
      [s.rungNext 0 a.level a, s.rungNext 1 (s.rungNext 0 a.level a).level b, s.rungNext 2 (s.rungNext 0 a.level a).level c,
        s.rungNext 3 (s.rungNext 0 a.level a).level d, s.rungNext 4 (s.rungNext 0 a.level a).level e] :=
    (congrArg Fusion.rungs fusion).trans moved
  refine ⟨?engine, by rw [now]; rfl, mem.trans climbs.mem, ?occs, fun some => ?answers, fun f small => ?rung⟩
  case engine =>
    rw [fusion]
    dsimp only
    rw [climbs.fusion]
  case occs =>
    rw [steps]
    dsimp only
    rw [climbs.steps]
  case answers =>
    have same : State.fusionAnswers { u with fusion := { u.fusion with laddered := true } } = s.fusionAnswers :=
      climbs.fusionAnswers
    refine State.reports_of_answer (u := { u with fusion := { u.fusion with laddered := true } }) climbs.alike ?_
    rw [eq, State.answerFusion, same]
    dsimp only
    rw [if_neg some]
  case rung =>
    rw [now, rungs, List.getD_cons_zero]
    have stepped (f p : Nat) (r : Rung) : s.rungNext f p r = rungStep s.exitSteps (max (s.dataTarget f p) r.floor) r ∧
        r.floor ≤ (s.rungNext f p r).level := ⟨rfl, s.floor_le_rungNext f p r⟩
    match f, small with
    | 0, _ =>
      have alike := s.rungNext_perception a.level (s.rungNext 0 a.level a).level a
      have step := stepped 0 (s.rungNext 0 a.level a).level a
      rw [← alike] at step
      exact step
    | 1, _ => exact stepped 1 _ b
    | 2, _ => exact stepped 2 _ c
    | 3, _ => exact stepped 3 _ d
    | 4, _ => exact stepped 4 _ e

end Sys2Proof.Machine
end

section
/-! SUPPORT. GRID_FUSION (R232, R233): what one cell writes, the cells one after another, and the status of a cell that no stream
covers. -/

namespace Sys2Proof.Machine

/-! Sorted lists hold what was sorted. -/

theorem mem_insertSorted {α : Type} (le : α → α → Bool) (x y : α) (l : List α) : y ∈ insertSorted le x l ↔ y = x ∨ y ∈ l := by
  induction l with
  | nil => simp [insertSorted]
  | cons z l ih =>
    unfold insertSorted
    split
    · rw [List.mem_cons, ih, List.mem_cons]
      exact or_left_comm
    · rw [List.mem_cons]

theorem mem_sortList {α : Type} (le : α → α → Bool) (y : α) (l : List α) : y ∈ sortList le l ↔ y ∈ l := by
  have collected (acc : List α) : y ∈ l.foldl (fun acc x => insertSorted le x acc) acc ↔ y ∈ acc ∨ y ∈ l := by
    induction l generalizing acc with
    | nil => simp
    | cons x l ih =>
      rw [List.foldl_cons, ih, mem_insertSorted, List.mem_cons, or_right_comm, or_comm (a := y = x), or_assoc]
      tauto
  rw [sortList, collected]
  simp

/-! One cell. -/

/-- Bytes of a grid cell. -/
def gridSize (bf : Bool) : Nat := if bf then 64 else 32

/-- Where a cell's values and its status stand. -/
def gridAt (img : Image) (cell : Nat) : Nat :=
  img.gridBase + gridOffset img.gridCols img.gridBf16 (cell % img.gridCols) (cell / img.gridCols)
def statusAt (img : Image) (cell : Nat) : Nat :=
  img.statusBase + rasterOffset img.gridCols (cell % img.gridCols) (cell / img.gridCols)

/-- Bytes of the grid and of its status raster. -/
def gridLen (img : Image) : Nat :=
  ceilDiv img.gridCols 32 * ceilDiv img.gridRows (if img.gridBf16 then 16 else 32) * tileBytes
def statusLen (img : Image) : Nat := ceilDiv img.gridCols 128 * ceilDiv img.gridRows 128 * tileBytes

theorem gridOffset_eq (cols : Nat) (bf : Bool) (col row : Nat) :
    gridOffset cols bf col row = tiledOffset cols 32 (if bf then 16 else 32) (gridSize bf) col row := by
  cases bf <;> rfl

theorem rasterOffset_eq (cols col row : Nat) : rasterOffset cols col row = tiledOffset cols 128 128 2 col row := by rfl

/-- A cell of the grid has its column and row. -/
theorem cell_inside {cols rows cell : Nat} (h : cell < cols * rows) : cell % cols < cols ∧ cell / cols < rows := by
  have pos : 0 < cols := Nat.pos_of_ne_zero fun zero => by simp [zero] at h
  exact ⟨Nat.mod_lt _ pos, Nat.div_lt_of_lt_mul h⟩

theorem gridAt_fits {img : Image} {cell : Nat} (h : cell < img.gridCols * img.gridRows) :
    img.gridBase ≤ gridAt img cell ∧ gridAt img cell + gridSize img.gridBf16 ≤ img.gridBase + gridLen img := by
  obtain ⟨col, row⟩ := cell_inside h
  have fits : gridOffset img.gridCols img.gridBf16 (cell % img.gridCols) (cell / img.gridCols) + gridSize img.gridBf16 ≤
      gridLen img := by
    rw [gridOffset_eq]
    unfold gridLen
    cases img.gridBf16
    · exact tiledOffset_fits (by decide) (by decide) (by decide) col row
    · exact tiledOffset_fits (by decide) (by decide) (by decide) col row
  unfold gridAt
  omega

theorem statusAt_fits {img : Image} {cell : Nat} (h : cell < img.gridCols * img.gridRows) :
    img.statusBase ≤ statusAt img cell ∧ statusAt img cell + 2 ≤ img.statusBase + statusLen img := by
  obtain ⟨col, row⟩ := cell_inside h
  have fits : rasterOffset img.gridCols (cell % img.gridCols) (cell / img.gridCols) + 2 ≤ statusLen img :=
    tiledOffset_fits (tw := 128) (th := 128) (by decide) (by decide) (by decide) col row
  unfold statusAt
  omega

theorem statusAt_apart {img : Image} {cell other : Nat} (h : cell < img.gridCols * img.gridRows)
    (h' : other < img.gridCols * img.gridRows) (ne : cell ≠ other) :
    statusAt img cell + 2 ≤ statusAt img other ∨ statusAt img other + 2 ≤ statusAt img cell := by
  have apart : ¬(cell % img.gridCols = other % img.gridCols ∧ cell / img.gridCols = other / img.gridCols) := fun ⟨col, row⟩ =>
    ne (by rw [← Nat.div_add_mod cell img.gridCols, ← Nat.div_add_mod other img.gridCols, col, row])
  have := tiledOffset_apart (n := 2) (tw := 128) (th := 128) (by decide) (by decide) (by decide) (cell_inside h).1
    (cell_inside h').1 apart
  simp only [statusAt, rasterOffset_eq]
  omega

theorem State.length_gridCell (s : State) (img : Image) (maps : List (Nat × List (Nat × List Nat))) (cell : Nat) :
    (s.gridCell img maps cell).1.length = gridSize img.gridBf16 := by
  unfold State.gridCell gridSize
  dsimp only
  cases img.gridBf16
  · simp only [Bool.false_eq_true, if_false]
    rw [length_flatMap_const (n := 1) _ fun _ _ => leBytes_length _ _]
    simp
  · simp only [if_true]
    rw [length_flatMap_const (n := 2) _ fun _ _ => leBytes_length _ _]
    simp

/-- The status of a cell that no stream covers (R233). -/
theorem State.gridCell_uncovered {s : State} {img : Image} {maps : List (Nat × List (Nat × List Nat))} {cell : Nat}
    (none : ∀ m ∈ maps, lookupKey cell m.2 = none) :
    (s.gridCell img maps cell).2.2.2 =
      64 + 16 * b2n (s.fusion.contestedRegions.any (fun r => (img.checks.getD r default).cells.contains cell)) := by
  have covering : maps.filter (fun m => (lookupKey cell m.2).isSome) = [] :=
    List.filter_eq_nil_iff.mpr fun m here => by simp [none m here]
  unfold State.gridCell
  dsimp only
  rw [covering]
  simp only [List.filter_nil, List.length_nil, List.any_nil, List.isEmpty_nil, b2n, Bool.false_eq_true, if_false, if_true]
  omega

/-- The engine with saturations counted, and an event for a value that is not finite. -/
def State.gridNoted (s : State) (sat : Nat) (bad : Bool) : State :=
  let s := { s with fusion := { s.fusion with gridSat := s.fusion.gridSat + sat } }
  if bad then s.fusionEvent 6 else s

/-- One cell writes its values and its status, and counts its saturations (R232, R233). -/
theorem State.writeCell_spec (s : State) (img : Image) (maps : List (Nat × List (Nat × List Nat))) (cell : Nat) :
    let t := s.writeCell img maps cell
    s.Fuses t ∧ t.fusion = { s.fusion with gridSat := t.fusion.gridSat } ∧
      t.mem = Memory.setBytes (Memory.setBytes s.mem (gridAt img cell) (s.gridCell img maps cell).1) (statusAt img cell)
        (leBytes 2 (s.gridCell img maps cell).2.2.2) := by
  have put (s : State) (a : Nat) (bs : Bytes) :
      s.Stored ((s.fillRange img.fusionUnit a bs.length).cstore 0 img.fusionUnit a bs) ∧
        ((s.fillRange img.fusionUnit a bs.length).cstore 0 img.fusionUnit a bs).mem = Memory.setBytes s.mem a bs := by
    refine ⟨(State.Stored.foldl (fun s _ => .fillLantern s _ _) _ s).trans (.cstore _ _ _ _ _), ?_⟩
    rw [(State.Marks.cstore _ _ _ _ _).keeps.1, (s.fillRange_marks _ _ _).keeps.1]
  have noted (s : State) (sat : Nat) (bad : Bool) :
      s.Fuses (s.gridNoted sat bad) ∧
        (s.gridNoted sat bad).fusion = { s.fusion with gridSat := (s.gridNoted sat bad).fusion.gridSat } ∧
        (s.gridNoted sat bad).mem = s.mem := by
    unfold State.gridNoted
    dsimp only
    split
    · exact ⟨(State.Fuses.withFusion s _).trans (.fusionEvent _ _), by simp, by simp⟩
    · exact ⟨.withFusion s _, rfl, rfl⟩
  obtain ⟨stored, mem⟩ := put s (gridAt img cell) (s.gridCell img maps cell).1
  obtain ⟨stored', mem'⟩ := put ((s.fillRange img.fusionUnit (gridAt img cell) (s.gridCell img maps cell).1.length).cstore 0
    img.fusionUnit (gridAt img cell) (s.gridCell img maps cell).1) (statusAt img cell) (leBytes 2 (s.gridCell img maps cell).2.2.2)
  rw [leBytes_length] at stored' mem'
  have both := stored.trans stored'
  rw [mem] at mem'
  unfold State.writeCell
  generalize hv : ((s.fillRange img.fusionUnit (gridAt img cell) (s.gridCell img maps cell).1.length).cstore 0
    img.fusionUnit (gridAt img cell) (s.gridCell img maps cell).1) = v at *
  generalize hw : ((v.fillRange img.fusionUnit (statusAt img cell) 2).cstore 0 img.fusionUnit (statusAt img cell)
    (leBytes 2 (s.gridCell img maps cell).2.2.2)) = w at *
  obtain ⟨fuses, fusion, same⟩ := noted w (s.gridCell img maps cell).2.1 (s.gridCell img maps cell).2.2.1
  have engine : w.fusion = s.fusion := by
    obtain ⟨_, _, _, _, _, _, _, rfl⟩ := both
    rfl
  rw [engine] at fusion
  subst hw hv
  exact ⟨(State.Fuses.of_stored both).trans fuses, fusion, same.trans mem'⟩

/-! The cells, one after another. -/

/-- A cell changes no byte outside the grid but those of its own status. -/
theorem State.writeCell_outside {s : State} {img : Image} {maps : List (Nat × List (Nat × List Nat))} {cell : Nat}
    (inside : cell < img.gridCols * img.gridRows) {x : Nat} (grid : x < img.gridBase ∨ img.gridBase + gridLen img ≤ x)
    (own : x < statusAt img cell ∨ statusAt img cell + 2 ≤ x) : (s.writeCell img maps cell).byte x = s.byte x := by
  obtain ⟨-, -, mem⟩ := s.writeCell_spec img maps cell
  obtain ⟨low, high⟩ := gridAt_fits inside
  rw [State.byte, mem, Memory.get_setBytes_outside _ _ _ _ (by rw [leBytes_length]; omega),
    Memory.get_setBytes_outside _ _ _ _ (by rw [State.length_gridCell]; omega)]
  rfl

/-- A cell's status stands in memory after it. -/
theorem State.writeCell_status (s : State) (img : Image) (maps : List (Nat × List (Nat × List Nat))) (cell : Nat) :
    (s.writeCell img maps cell).load (statusAt img cell) 2 = leBytes 2 (s.gridCell img maps cell).2.2.2 := by
  obtain ⟨-, -, mem⟩ := s.writeCell_spec img maps cell
  have got := Memory.getBytes_setBytes (leBytes 2 (s.gridCell img maps cell).2.2.2)
    (Memory.setBytes s.mem (gridAt img cell) (s.gridCell img maps cell).1) (statusAt img cell)
  rw [leBytes_length, ← mem] at got
  exact got

/-- Cells change the saturation count of the engine, and no byte outside the grid but those of their own status. -/
theorem State.writeCells_spec (img : Image) (maps : List (Nat × List (Nat × List Nat))) (cells : List Nat)
    (inside : ∀ cell ∈ cells, cell < img.gridCols * img.gridRows) (s : State) :
    let t := cells.foldl (fun s cell => s.writeCell img maps cell) s
    s.Fuses t ∧ t.fusion = { s.fusion with gridSat := t.fusion.gridSat } ∧
      ∀ x, x < img.gridBase ∨ img.gridBase + gridLen img ≤ x →
        (∀ cell ∈ cells, x < statusAt img cell ∨ statusAt img cell + 2 ≤ x) → t.byte x = s.byte x := by
  induction cells generalizing s with
  | nil => exact ⟨.refl s, rfl, fun _ _ _ => rfl⟩
  | cons cell cells ih =>
    obtain ⟨fuses, fusion, bytes⟩ := ih (fun c h => inside c (List.mem_cons_of_mem _ h)) (s.writeCell img maps cell)
    obtain ⟨fuses', fusion', -⟩ := s.writeCell_spec img maps cell
    refine ⟨fuses'.trans fuses, ?_, fun x grid own => ?_⟩
    · refine fusion.trans ?_
      rw [fusion']
      rfl
    · exact (bytes x grid fun c h => own c (List.mem_cons_of_mem _ h)).trans
        (State.writeCell_outside (inside cell List.mem_cons_self) grid (own cell List.mem_cons_self))

/-- After all cells, the status of one that no stream covers is bit 6, and bit 4 in a contested region, alone (R233). -/
theorem State.writeCells_uncovered {img : Image} {maps : List (Nat × List (Nat × List Nat))}
    (apart : img.gridBase + gridLen img ≤ img.statusBase ∨ img.statusBase + statusLen img ≤ img.gridBase) {cell : Nat}
    (none : ∀ m ∈ maps, lookupKey cell m.2 = none) (cells : List Nat)
    (inside : ∀ cell ∈ cells, cell < img.gridCols * img.gridRows) (s : State) (here : cell ∈ cells) :
    (cells.foldl (fun s cell => s.writeCell img maps cell) s).load (statusAt img cell) 2 = leBytes 2 (64 +
      16 * b2n (s.fusion.contestedRegions.any (fun r => (img.checks.getD r default).cells.contains cell))) := by
  induction cells generalizing s with
  | nil => exact absurd here (by simp)
  | cons first cells ih =>
    have later : ∀ cell ∈ cells, cell < img.gridCols * img.gridRows := fun c h => inside c (List.mem_cons_of_mem _ h)
    obtain ⟨-, contested, -⟩ := s.writeCell_spec img maps first
    rw [List.foldl_cons]
    by_cases again : cell ∈ cells
    · rw [ih later _ again, contested]
    · obtain rfl : cell = first := (List.mem_cons.mp here).resolve_right again
      obtain ⟨-, -, bytes⟩ := State.writeCells_spec img maps cells later (s.writeCell img maps cell)
      obtain ⟨low, high⟩ := statusAt_fits (inside cell List.mem_cons_self)
      rw [← State.gridCell_uncovered none, ← State.writeCell_status]
      refine State.load_of_bytes fun x least most => bytes x (by omega) fun other there => ?_
      have := statusAt_apart (inside cell List.mem_cons_self) (later other there) fun same => again (same ▸ there)
      omega

/-! GRID_FUSION (R232). -/

/-- The contributions as the engine keeps them, by stream. -/
def keptMaps (maps : List (Nat × List (Nat × List Nat))) : List GridMap :=
  (sortList (fun a b => decide (a.1 ≤ b.1)) maps).map (fun m => ⟨m.1, m.2⟩)

theorem mem_keptMaps (maps : List (Nat × List (Nat × List Nat))) (m : Nat × List (Nat × List Nat)) :
    m ∈ maps ↔ ∃ g ∈ keptMaps maps, m = (g.stream, g.cells) := by
  constructor
  · exact fun here => ⟨⟨m.1, m.2⟩, List.mem_map_of_mem ((mem_sortList _ _ _).mpr here), rfl⟩
  · rintro ⟨g, here, rfl⟩
    obtain ⟨n, there, rfl⟩ := List.mem_map.mp here
    exact (mem_sortList _ _ _).mp there

theorem effGridFusion_eq {s : State} {img : Image} {o : Occurrence} (up : s.up = true) (run : s.inRun = true)
    (image : s.steps.image = some img) (occ : s.occOf 0 = some o) (maps : List (Nat × List (Nat × List Nat))) :
    effGridFusion maps s = (List.range (img.gridCols * img.gridRows)).foldl
      (fun s cell => s.writeCell img (sortList (fun a b => decide (a.1 ≤ b.1)) maps) cell)
      { s with fusion := { s.fusion with maps := keptMaps maps, gridSat := 0 } } := by
  unfold effGridFusion
  rw [image, occ, up, run]
  rfl

/-- GRID_FUSION keeps the contributions and writes the grid and its status alone (R232, R233). -/
theorem gridFusion_spec {s : State} {img : Image} {o : Occurrence} (up : s.up = true) (run : s.inRun = true)
    (image : s.steps.image = some img) (occ : s.occOf 0 = some o) (maps : List (Nat × List (Nat × List Nat))) :
    let t := effGridFusion maps s
    s.Fuses t ∧ t.fusion = { s.fusion with maps := keptMaps maps, gridSat := t.fusion.gridSat } ∧
      (∀ x, x < img.gridBase ∨ img.gridBase + gridLen img ≤ x → x < img.statusBase ∨ img.statusBase + statusLen img ≤ x →
        t.byte x = s.byte x) ∧
      (img.gridBase + gridLen img ≤ img.statusBase ∨ img.statusBase + statusLen img ≤ img.gridBase →
        ∀ cell < img.gridCols * img.gridRows, (∀ m ∈ maps, lookupKey cell m.2 = none) →
          t.load (statusAt img cell) 2 = leBytes 2 (64 +
            16 * b2n (s.fusion.contestedRegions.any (fun r => (img.checks.getD r default).cells.contains cell)))) := by
  have inside (cell : Nat) (h : cell ∈ List.range (img.gridCols * img.gridRows)) := List.mem_range.mp h
  dsimp only
  rw [effGridFusion_eq up run image occ]
  obtain ⟨fuses, fusion, bytes⟩ := State.writeCells_spec img (sortList (fun a b => decide (a.1 ≤ b.1)) maps) _ inside
    { s with fusion := { s.fusion with maps := keptMaps maps, gridSat := 0 } }
  refine ⟨(State.Fuses.withFusion s _).trans fuses, fusion, fun x grid status => ?_, fun apart cell cellIn none => ?_⟩
  · refine bytes x grid fun cell h => ?_
    obtain ⟨low, high⟩ := statusAt_fits (inside cell h)
    omega
  · exact State.writeCells_uncovered apart (fun m here => none m ((mem_sortList _ _ _).mp here)) _ inside _
      (List.mem_range.mpr cellIn)

end Sys2Proof.Machine
end

section
/-! SUPPORT. The cells of the grid by column and row, and FLOW_PREDICTION_FIELD (R231); and the statement about the fusion engine. -/

namespace Sys2Proof.Machine

/-- The cell of a column and a row is a cell of the grid. -/
theorem cell_of_col_row {cols rows col row : Nat} (c : col < cols) (r : row < rows) :
    row * cols + col < cols * rows ∧ (row * cols + col) % cols = col ∧ (row * cols + col) / cols = row := by
  refine ⟨?_, by rw [Nat.mul_add_mod', Nat.mod_eq_of_lt c], ?_⟩
  · calc row * cols + col < row * cols + cols := Nat.add_lt_add_left c _
      _ = (row + 1) * cols := (Nat.succ_mul row cols).symm
      _ ≤ cols * rows := Nat.mul_comm cols rows ▸ Nat.mul_le_mul_right cols r
  · rw [Nat.mul_comm, Nat.mul_add_div (Nat.zero_lt_of_lt c), Nat.div_eq_of_lt c, Nat.add_zero]

/-- FLOW_PREDICTION_FIELD stores its field, or keeps it due (R231). -/
theorem flowPredictionField_spec {k : Fin 16} {slot stream dst : Nat} {backward : Bool} {img : Image} {o : Occurrence} {s : State}
    (up : s.up = true) (run : s.inRun = true) (image : s.steps.image = some img) (occ : s.occOf 0 = some o) :
    let bs := s.predictionField k.val slot stream backward
    let free := (slotsIn dst bs.length).all (s.waitGranted s.fusionUnit)
    let t := effFlowPredictionField k slot stream backward dst s
    (free = true → t.load dst bs.length = bs ∧ t.fusion = s.fusion) ∧
      (free = false → t.mem = s.mem ∧ t.fusion = { s.fusion with due := s.fusion.due ++ [⟨dst, bs, o.step⟩] }) ∧
      (∀ w, img.tethers.find? (fun t => t.slot == slot && t.stream == stream) = some w → free = true →
        ∀ x y, x < w.width → y < w.height →
          let got := t.load (dst + tiledOffset w.width 128 64 4 x y) 4
          (s.egoEntryOf img slot stream = none → got = leBytes 4 0) ∧
            (∀ p, s.egoEntryOf img slot stream = some p → p.2.masked = true → got = leBytes 2 0x8000 ++ leBytes 2 3)) ∧
      (∀ x, x < dst ∨ dst + bs.length ≤ x → t.byte x = s.byte x) ∧
      State.sameButStores { t with fusion := s.fusion } s := by
  extract_lets bs free t
  have eq : t = s.fusionWrite ⟨dst, bs, o.step⟩ := effFlowPredictionField_eq up run occ
  have writes := State.FusionWrites.write s ⟨dst, bs, o.step⟩
  refine ⟨fun granted => ?_, fun waits => ?_, fun w tether granted x y hx hy => ?_, fun x away => ?_, ?_⟩
  · obtain ⟨stored, mem⟩ := State.fusionWrite_free (w := ⟨dst, bs, o.step⟩) granted
    rw [eq]
    obtain ⟨_, _, _, _, _, _, _, same⟩ := stored
    refine ⟨?_, by rw [same]⟩
    rw [State.load, mem]
    exact Memory.getBytes_setBytes _ _ _
  · obtain ⟨sheets, same⟩ := State.fusionWrite_due (w := ⟨dst, bs, o.step⟩) waits
    rw [eq, same]
    exact ⟨rfl, rfl⟩
  · rw [eq]
    exact State.predictionField_stored image tether (State.fusionWrite_free granted).2 hx hy
  · rw [eq]
    exact writes.outside (by dsimp only; omega)
  · rw [eq]
    exact writes.fuses.sameButStores

end Sys2Proof.Machine

open Sys2Proof Sys2Proof.Machine

/-- Settles O55: each command of the fusion engine by what it leaves of the engine, of memory and of its answers. -/
theorem fusionCommandsTakeEffect : Obligations.FusionCommandsTakeEffect := by
  refine ⟨?grid, ?gate, ?ladder, ?ego, ?flow, ?view⟩
  case grid =>
    intro maps img o s up run image occ gridLen statLen
    obtain ⟨fuses, fusion, bytes, uncovered⟩ := gridFusion_spec up run image occ maps
    refine ⟨effGridFusion maps s, rfl, ?_, fun m => ?_, bytes, fun apart col row c r none => ?_, fuses.sameButStores⟩
    · exact fusion.trans (by rw [fusion])
    · rw [fusion]
      exact mem_keptMaps maps m
    · obtain ⟨inside, modulo, div⟩ := cell_of_col_row c r
      have status := uncovered apart _ inside none
      rw [statusAt, modulo, div] at status
      rw [status, leVal_leBytes]
      refine Nat.mod_eq_of_lt ?_
      unfold b2n
      split <;> decide
  case gate =>
    intro maps scores img o s up run image occ
    refine ⟨fun gated => ?_, fun first => ⟨_, rfl, consistencyGate_spec up run image occ first⟩⟩
    exact congrArg Host.Outcome.next ((effConsistencyGate_eq up run occ).trans (if_pos gated))
  case ladder =>
    intro o s up run occ five
    refine ⟨fun laddered => ?_, fun first => ⟨_, rfl, ladderUpdate_spec up run occ five first⟩⟩
    exact congrArg Host.Outcome.next ((effLadderUpdate_eq up run occ).trans (if_pos laddered))
  case ego =>
    intro j inp poses e x o s up run occ entry ego
    have eq := effEgoEstimate_eq (inp := inp) (poses := poses) up run occ entry ego
    refine ⟨fun done => congrArg Host.Outcome.next (eq.trans (if_pos done)), fun first => ?_⟩
    obtain ⟨taken, done, others, reports, record, bytes, frame⟩ :=
      egoEstimate_spec (inp := inp) (poses := poses) (e := e) (o := o) ego
    exact ⟨_, _, congrArg Host.Outcome.next (eq.trans (if_neg (Bool.eq_false_iff.mp first))), taken, done, others,
      s.egoSettled_pose o j e x inp, s.egoSettled_masked o j e x inp, reports, record, bytes, frame⟩
  case flow =>
    intro k slot stream backward dst img o s up run image occ bs free
    exact ⟨_, rfl, flowPredictionField_spec up run image occ⟩
  case view =>
    intro d f s up decl stream al
    obtain ⟨bits, err, conf, eq, sampled⟩ := effStreamStatSample_shown up decl stream
    obtain ⟨host, first, second, others, frame⟩ := s.statShown_spec (d.slot + d.stream * 2 ^ 16) bits err conf
    refine ⟨_, congrArg Host.Outcome.next eq, host, first, ?_, others, frame⟩
    rw [second, ← sampled]
    exact Nat.mod_mod_of_dvd _ (by decide)

end

section
/-! SUPPORT. What admission leaves of the ports: the checks of inputs, their counts and records, the archive, the frame rings and
the signal chains touch neither sessions nor the block's answers. -/

namespace Sys2Proof.Machine

/-- The ports, device time, and the answers of the ports' block with its STATUS register, whose address is `blockPorts`. -/
structure PortsView where
  ports : Ports
  time : TimeUnit
  answers : List (Nat × Nat)
  status : Nat

@[reducible] def State.portsView (s : State) : PortsView where
  ports := s.ports
  time := s.time
  answers := s.answers
  status := s.reg 0x400000

theorem State.portsView_alike {s t : State} (h : t.portsView = s.portsView) : t.answersAlike s blockPorts :=
  ⟨congrArg PortsView.status h, congrArg PortsView.answers h, congrArg PortsView.time h⟩

theorem State.portsView_ports {s t : State} (h : t.portsView = s.portsView) : t.ports = s.ports := congrArg PortsView.ports h

theorem State.portsView_of_regs {s t : State} (ports : t.ports = s.ports) (time : t.time = s.time)
    (answers : t.answers = s.answers) (regs : t.regs = s.regs) : t.portsView = s.portsView := by
  rw [State.portsView, ports, time, answers, State.reg_congr _ _ regs]

theorem portsView_foldl {α : Type} {f : State → α → State} (hf : ∀ s x, (f s x).portsView = s.portsView) (l : List α) (s : State) :
    (l.foldl f s).portsView = s.portsView := foldl_keeps State.portsView f l (fun x _ s => hf s x) s

theorem portsView_foldl_fst {α β : Type} {f : State × β → α → State × β} (hf : ∀ a x, (f a x).1.portsView = a.1.portsView)
    (l : List α) (a : State × β) : (l.foldl f a).1.portsView = a.1.portsView := by
  induction l generalizing a with
  | nil => rfl
  | cons x l ih => rw [List.foldl_cons, ih, hf]

/-! Registers of other blocks, events, counts, records and stores. -/

@[simp] theorem State.portsView_setReg (s : State) (a v : Nat) (h : 0x400000 ≠ a) : (s.setReg a v).portsView = s.portsView := by
  simp [State.portsView, h]

@[simp] theorem State.portsView_satReg (s : State) (a n : Nat) (h : 0x400000 ≠ a) : (s.satReg a n).portsView = s.portsView :=
  s.portsView_setReg _ _ h

@[simp] theorem State.portsView_addReg64 (s : State) (a n : Nat) (lo : 0x400000 ≠ a) (hi : 0x400000 ≠ a + 4) :
    (s.addReg64 a n).portsView = s.portsView := by
  rw [State.addReg64, State.setReg64, State.portsView_setReg _ _ _ hi, State.portsView_setReg _ _ _ lo]

@[simp] theorem State.portsView_event (s : State) (a bit : Nat) (en : Bool) (vec : Nat) (h : 0x400000 ≠ a) :
    (s.event a bit en vec).portsView = s.portsView := by
  simp [State.portsView, State.reg_event_ne _ _ _ _ _ h]

@[simp] theorem State.portsView_count (s : State) (die ev inst n : Nat) : (s.count die ev inst n).portsView = s.portsView := by
  obtain ⟨x, eq⟩ := s.count_eq die ev inst n
  rw [eq]
  rfl

@[simp] theorem State.portsView_updStats (s : State) (n : Nat) (f : StepStats → StepStats) :
    (s.updStats n f).portsView = s.portsView := by rfl

@[simp] theorem State.portsView_trailWrite (s : State) (d : TrailDraft) : (s.trailWrite d).portsView = s.portsView :=
  State.portsView_of_regs (by simp) (by simp) (by simp) (by simp)

@[simp] theorem State.portsView_logInput (s : State) (i : Input) (m : Nat) (a : Option Nat) :
    (s.logInput i m a).portsView = s.portsView := s.portsView_trailWrite _

@[simp] theorem State.portsView_store (s : State) (a : Nat) (bs : Bytes) : (s.store a bs).portsView = s.portsView := by
  obtain ⟨x, eq⟩ := s.store_eq a bs
  rw [eq]
  rfl

@[simp] theorem State.portsView_tagRange (s : State) (a n t m u : Nat) : (s.tagRange a n t m u).portsView = s.portsView := by
  unfold State.tagRange
  split <;> rfl

/-! Inputs that are excluded, and the archive. -/

@[simp] theorem State.portsView_noteLate (s : State) (k n slot stream : Nat) :
    (s.noteLate k n slot stream).portsView = s.portsView := by
  unfold State.noteLate
  dsimp only
  split <;> rfl

@[simp] theorem State.portsView_countInput (s : State) (i : Input) (c n : Nat) :
    (s.countInput i c n).1.portsView = s.portsView := by
  have counted (a : State) : (a.addReg64 (if c = 0 then 0x10280 else 0x10288) 1).portsView = a.portsView :=
    a.portsView_addReg64 _ _ (by split <;> decide) (by split <;> decide)
  unfold State.countInput
  dsimp only
  split <;> split <;> simp [counted]

@[simp] theorem State.portsView_exclude (s : State) (i : Input) (ks : List Nat) (n c : Nat) (rs : List (Nat × Nat)) :
    (s.exclude i ks n c rs).1.portsView = s.portsView := by
  unfold State.exclude
  dsimp only
  rw [State.portsView_trailWrite]
  split
  · rw [portsView_foldl fun s k => s.portsView_noteLate _ _ _ _, State.portsView_countInput]
  · rw [State.portsView_countInput]

theorem State.portsView_archiveAppend {s t : State} {bs : Bytes} (h : s.archiveAppend bs = some t) :
    t.portsView = s.portsView := by
  unfold State.archiveAppend at h
  dsimp only at h
  split at h
  · cases h
    rw [State.portsView_setReg _ _ _ (by decide)]
    split <;> simp
  · cases h

@[simp] theorem State.portsView_archive (s : State) (bs : Bytes) : (s.archive bs).1.portsView = s.portsView := by
  rcases s.archive_cases bs with ⟨t, ht, now⟩ | waits
  · rw [now, State.portsView_archiveAppend ht]
  · rw [waits]
    exact State.portsView_of_regs (by simp [State.archiveWaits]) (by simp [State.archiveWaits]) (by simp [State.archiveWaits])
      (by simp [State.archiveWaits])

@[simp] theorem State.portsView_excludeFrom (s : State) (i : Input) (ks : List Nat) (n c : Nat) :
    (s.excludeFrom i ks n c).1.portsView = s.portsView := s.portsView_exclude _ _ _ _ _

/-! Inputs that are admitted. -/

@[simp] theorem State.portsView_fusionAdmit (s : State) (n slot stream t r : Nat) (p : Bytes) :
    (s.fusionAdmit n slot stream t r p).portsView = s.portsView := by
  unfold State.fusionAdmit
  refine portsView_foldl (fun s i => ?_) _ _
  split
  · rfl
  · split
    · rfl
    · split
      · rfl
      · exact s.portsView_event _ _ _ _ (by decide)

@[simp] theorem State.portsView_feedInput (s : State) (i : Input) (k n : Nat) : (s.feedInput i k n).portsView = s.portsView := by
  unfold State.feedInput State.addFrame
  split
  · rfl
  · rw [State.portsView_fusionAdmit]
    split <;> rfl

@[simp] theorem State.portsView_archiveInput (s : State) (i : Input) : (s.archiveInput i).1.portsView = s.portsView := by
  unfold State.archiveInput
  split
  · exact s.portsView_archive _
  · rfl

@[simp] theorem State.portsView_admitFor (s : State) (i : Input) (k n : Nat) : (s.admitFor i k n).1.portsView = s.portsView := by
  have seen (t : State) (x : List (Nat × Nat × Nat)) :
      ({ t with steps := { t.steps with seen := x } } : State).portsView = t.portsView := rfl
  unfold State.admitFor
  simp only [apply_ite Prod.fst, apply_ite State.portsView, State.portsView_feedInput, State.portsView_archiveInput, seen,
    State.portsView_countInput, ite_self]

@[simp] theorem State.portsView_checkCadence (r : Run) (a : State × Input) (k : Nat) :
    (State.checkCadence r a k).1.portsView = a.1.portsView := by
  unfold State.checkCadence
  split
  · rfl
  · split
    · rfl
    · split
      · exact a.1.portsView_admitFor _ _ _
      · rfl

/-- A frame stored in its ring (R145). -/
@[simp] theorem State.portsView_storeFrame (s : State) (t : TetherStream) (e stamp : Nat) (bs : Bytes) :
    (s.storeFrame t e stamp bs).portsView = s.portsView := by
  unfold State.storeFrame
  dsimp only
  split
  · exact portsView_foldl (fun s p => by simp) _ _
  · simp

/-! Raw inputs and the signal chains. -/

@[simp] theorem State.portsView_logRaw (s : State) (h : RawHold) : (s.logRaw h).portsView = s.portsView := by
  unfold State.logRaw
  dsimp only
  split
  · split <;> rfl
  · split
    · rfl
    · split
      · rw [State.portsView_logInput, State.portsView_archive]
        rfl
      · rw [State.portsView_logInput]
        rfl

@[simp] theorem State.portsView_flushRaw (s : State) : s.flushRaw.portsView = s.portsView :=
  portsView_foldl State.portsView_logRaw _ _

@[simp] theorem State.portsView_setChan (s : State) (c : Channel) : (s.setChan c).portsView = s.portsView := by rfl

@[simp] theorem State.portsView_signalEvent (s : State) (b : Nat) : (s.signalEvent b).portsView = s.portsView :=
  s.portsView_event _ _ _ _ (by decide)

@[simp] theorem State.portsView_decideGlint (s : State) (c : Nat) (e : Decided) : (s.decideGlint c e).portsView = s.portsView := by
  unfold State.decideGlint
  split
  · rw [State.portsView_count, State.portsView_addReg64 _ _ _ (by decide) (by decide)]
    rfl
  · rfl

@[simp] theorem State.portsView_countSat (s : State) (n : Nat) : (s.countSat n).portsView = s.portsView := by
  unfold State.countSat
  split
  · rfl
  · rw [State.portsView_signalEvent, State.portsView_addReg64 _ _ _ (by decide) (by decide)]

@[simp] theorem State.portsView_lateOutput (s : State) (d : ChannelDecl) (cl : List (Nat × Nat)) (o : ChanOut) :
    (s.lateOutput d cl o).1.portsView = s.portsView := by
  unfold State.lateOutput
  refine portsView_foldl_fst (fun a p => ?_) _ _
  split
  · split
    · exact a.1.portsView_noteLate _ _ _ _
    · rfl
  · rfl

@[simp] theorem State.portsView_absorb (s : State) (d : ChannelDecl) (e : Entered) : (s.absorb d e).portsView = s.portsView := by
  unfold State.absorb
  dsimp only
  rw [State.portsView_setChan, portsView_foldl_fst, portsView_foldl, State.portsView_countSat]
  · exact fun s g => s.portsView_decideGlint _ _
  · exact fun a o => a.1.portsView_lateOutput _ _ _

@[simp] theorem State.portsView_takeSample (s : State) (d : ChannelDecl) (ch : Chain) (c : Channel) (i : Nat) (x : Samp)
    (ev : List Decided) : (s.takeSample d ch c i x ev).portsView = s.portsView := s.portsView_absorb _ _

@[simp] theorem State.portsView_rawSample (s : State) (img : Image) (d : ChannelDecl) (x : RawSet) (v : Int × Bool)
    (arrival : Nat) : (s.rawSample img d x v arrival).1.portsView = s.portsView := by
  unfold State.rawSample
  split
  · rfl
  next c _ =>
  extract_lets ch y late take refuse
  have taken (t : State) (c : Channel) (i : Nat) (ev : List Decided) : (take t c i ev).1.portsView = t.portsView := by
    simp only [take, State.portsView_takeSample, State.portsView_count, State.portsView_countSat]
  have refused (cause : Nat) : (refuse cause).1.portsView = s.portsView := s.portsView_setChan _
  split
  · exact refused 4
  split
  · rfl
  split
  · exact taken _ _ _ _
  extract_lets i
  split
  · exact refused 4
  split
  · exact (taken _ _ _ _).trans ((State.portsView_signalEvent _ _).trans (s.portsView_satReg _ _ (by decide)))
  split
  · exact refused 4
  split
  · exact refused 0x0C
  · exact taken _ _ _ _

@[simp] theorem State.portsView_rawSet (s : State) (img : Image) (ds : List ChannelDecl) (x : RawSet) (arrival : Nat) :
    (s.rawSet img ds x arrival).1.portsView = s.portsView := by
  unfold State.rawSet
  refine portsView_foldl_fst (fun a d => ?_) _ _
  split
  · rfl
  · dsimp only
    split <;> exact a.1.portsView_rawSample _ _ _ _ _

@[simp] theorem State.portsView_excludeSets (s : State) (i : Input) (c : Nat) (rs : List (Nat × SetResult)) :
    (s.excludeSets i c rs).1.portsView = s.portsView := by
  unfold State.excludeSets
  dsimp only
  split
  · rfl
  · exact portsView_foldl_fst (fun a q => a.1.portsView_exclude _ _ _ _ _) _ _

/-- A raw input is taken or excluded without a change to the ports (R364-R370). -/
theorem State.portsView_rawInput (s : State) (i : Input) (sets : List RawSet) :
    (s.rawInput i sets).1.portsView = s.portsView := by
  have kept (t : State) (x : SignalUnit) : ({ t with signal := x } : State).portsView = t.portsView := rfl
  unfold State.rawInput
  split
  · rfl
  next img _ =>
  extract_lets ds limit r _ taken q cause
  have sets : r.1.portsView = s.portsView := by
    refine portsView_foldl_fst (fun a p => ?_) _ _
    split
    · rfl
    · exact a.1.portsView_rawSet _ _ _ _
  have excluded : q.1.portsView = s.portsView :=
    (portsView_foldl_fst (fun a c => a.1.portsView_excludeSets _ _ _) _ _).trans sets
  split
  · dsimp only
    rw [State.portsView_flushRaw, kept, State.portsView_countInput, excluded]
  · exact excluded

/-- A refused frame's trail records (R453). -/
theorem State.portsView_traceRefused (s : State) (slot stream first count stamp : Nat) :
    (s.traceRefused slot stream first count stamp).portsView = s.portsView := s.portsView_trailWrite _

end Sys2Proof.Machine
end

section
/-! SUPPORT. Sessions (R435-R453): a session after a write, what a report makes of it, and what all work on inputs and frames keeps
of every session. -/

namespace Sys2Proof.Machine

/-! Finding a session. -/

theorem State.session_setSession {s : State} {x y : Session} (here : s.session y.id = some x) :
    (s.setSession y).session y.id = some y := by
  have same : ((fun z : Session => z.id == y.id) ∘ fun z => if z.id = y.id then y else z) = fun z => z.id == y.id := by
    funext z
    by_cases own : z.id = y.id <;> simp [own]
  unfold State.session State.setSession at *
  rw [List.find?_map, same, here]
  have id : x.id = y.id := by simpa using List.find?_some here
  simp [id]

theorem State.session_setSession_ne (s : State) (y : Session) {i : Nat} (other : i ≠ y.id) :
    (s.setSession y).session i = s.session i := by
  have same : ((fun z : Session => z.id == i) ∘ fun z => if z.id = y.id then y else z) = fun z => z.id == i := by
    funext z
    by_cases own : z.id = y.id <;> simp [own]
  unfold State.session State.setSession
  rw [List.find?_map, same]
  cases found : s.ports.sessions.find? fun z => z.id == i with
  | none => rfl
  | some z =>
    have id : z.id = i := by simpa using List.find?_some found
    simp [id, other]

theorem State.session_id {s : State} {sid : Nat} {x : Session} (here : s.session sid = some x) : x.id = sid := by
  simpa using List.find?_some here

theorem State.session_congr {s t : State} (same : t.ports.sessions = s.ports.sessions) (sid : Nat) :
    t.session sid = s.session sid := by
  rw [State.session, same]
  rfl

/-- Where no two sessions share an identifier, each is found by its own. -/
theorem State.session_of_mem {s : State} (apart : s.sessionsApart) {x : Session} (here : x ∈ s.ports.sessions) :
    s.session x.id = some x := by
  have only (l : List Session) (apart : (l.map (·.id)).Nodup) (here : x ∈ l) : l.find? (fun z => z.id == x.id) = some x := by
    induction l with
    | nil => exact absurd here (by simp)
    | cons z l ih =>
      rw [List.map_cons, List.nodup_cons] at apart
      obtain ⟨new, apart⟩ := apart
      rcases List.mem_cons.mp here with rfl | later
      · simp
      · have ne : ¬(z.id == x.id) = true := fun same => new (by
          rw [beq_iff_eq.mp same]
          exact List.mem_map_of_mem later)
        exact (List.find?_cons_of_neg (p := fun (z : Session) => z.id == x.id) ne).trans (ih apart later)
  exact only s.ports.sessions apart here

/-! What all work on inputs and frames keeps of a session. -/

/-- Between two states of a session its numbers received, queue, tokens and requests are the same; the counts of outcomes only
rise, and an open frame stays open until it is answered. -/
structure Session.MovesTo (x y : Session) : Prop where
  rxSeen : y.rxSeen = x.rxSeen
  queue : y.queue = x.queue
  tokBytes : y.tokBytes = x.tokBytes
  tokPkts : y.tokPkts = x.tokPkts
  requests : y.requests = x.requests
  answered : x.answered ≤ y.answered
  shed : x.shed ≤ y.shed
  opened : ∀ seq, (∃ g ∈ x.opened, g.seq = seq) → (∃ g ∈ y.opened, g.seq = seq) ∨ x.answered < y.answered

namespace Session.MovesTo

theorem refl (x : Session) : x.MovesTo x := ⟨rfl, rfl, rfl, rfl, rfl, le_rfl, le_rfl, fun _ h => .inl h⟩

theorem trans {x y z : Session} (h : x.MovesTo y) (g : y.MovesTo z) : x.MovesTo z where
  rxSeen := g.rxSeen.trans h.rxSeen
  queue := g.queue.trans h.queue
  tokBytes := g.tokBytes.trans h.tokBytes
  tokPkts := g.tokPkts.trans h.tokPkts
  requests := g.requests.trans h.requests
  answered := h.answered.trans g.answered
  shed := h.shed.trans g.shed
  opened seq here := by
    rcases h.opened seq here with still | done
    · exact (g.opened seq still).imp_right h.answered.trans_lt
    · exact .inr (done.trans_le g.answered)

/-- Frames sent, outcomes reported, fragments taken and bytes held ahead. -/
theorem noted (x : Session) (n : Nat) (acks : List AckEntry) (gs : List Assembly) (ahead : List (Nat × Nat)) :
    x.MovesTo { x with txSeq := n, acks := acks, assembly := gs, ahead := ahead } :=
  ⟨rfl, rfl, rfl, rfl, rfl, le_rfl, le_rfl, fun _ h => .inl h⟩

/-- Open frames that keep their numbers. -/
theorem withOpened (x : Session) (fs : List OpenFrame) (keep : ∀ g ∈ x.opened, ∃ h ∈ fs, h.seq = g.seq) :
    x.MovesTo { x with opened := fs } where
  rxSeen := rfl
  queue := rfl
  tokBytes := rfl
  tokPkts := rfl
  requests := rfl
  answered := le_rfl
  shed := le_rfl
  opened _ here := by
    obtain ⟨g, there, rfl⟩ := here
    exact .inl (keep g there)

end Session.MovesTo

/-- One more outcome. -/
theorem Session.answered_countFrame (x : Session) (o : Nat) : (x.countFrame o).answered = x.answered + 1 := by
  unfold Session.countFrame Session.answered
  split
  · simp only; omega
  · simp only; omega
  · simp only; omega
  · simp only; omega

theorem Session.id_countFrame (x : Session) (o : Nat) : (x.countFrame o).id = x.id := by
  unfold Session.countFrame
  split <;> rfl

theorem Session.shed_le_countFrame (x : Session) (o : Nat) : x.shed ≤ (x.countFrame o).shed := by
  unfold Session.countFrame
  split <;> simp

/-- A session whose frame has its outcome, whatever becomes of its open frames. -/
theorem Session.movesTo_countFrame (x : Session) (fs : List OpenFrame) (o : Nat) :
    x.MovesTo (Session.countFrame { x with opened := fs } o) := by
  have answered := Session.answered_countFrame { x with opened := fs } o
  have before : Session.answered { x with opened := fs } = x.answered := rfl
  refine ⟨?_, ?_, ?_, ?_, ?_, by omega, Session.shed_le_countFrame { x with opened := fs } o, fun _ _ => .inr (by omega)⟩
  all_goals
    unfold Session.countFrame
    split <;> rfl

/-- Between two states the ingress buffer and the sampled-value tethers are the same, and every session has only moved on. -/
structure State.Serves (s t : State) : Prop where
  ingress : t.ports.ingress = s.ports.ingress
  sv : t.ports.sv = s.ports.sv
  sessions : ∀ sid x, s.session sid = some x → ∃ y, t.session sid = some y ∧ x.MovesTo y

namespace State.Serves

theorem of_sessions {s t : State} (ingress : t.ports.ingress = s.ports.ingress) (sv : t.ports.sv = s.ports.sv)
    (sessions : t.ports.sessions = s.ports.sessions) : s.Serves t :=
  ⟨ingress, sv, fun _ x here => ⟨x, (State.session_congr sessions _).trans here, .refl x⟩⟩

theorem of_ports {s t : State} (ports : t.ports = s.ports) : s.Serves t :=
  of_sessions (congrArg Ports.ingress ports) (congrArg Ports.sv ports) (congrArg Ports.sessions ports)

theorem of_portsView {s t : State} (same : t.portsView = s.portsView) : s.Serves t := of_ports (State.portsView_ports same)

theorem refl (s : State) : s.Serves s := of_ports rfl

theorem trans {s t u : State} (h : s.Serves t) (g : t.Serves u) : s.Serves u where
  ingress := g.ingress.trans h.ingress
  sv := g.sv.trans h.sv
  sessions sid x here := by
    obtain ⟨y, there, moves⟩ := h.sessions sid x here
    obtain ⟨z, now, moves'⟩ := g.sessions sid y there
    exact ⟨z, now, moves.trans moves'⟩

theorem foldl {α : Type} {f : State → α → State} (one : ∀ (s : State) (x : α), s.Serves (f s x)) (l : List α) (s : State) :
    s.Serves (l.foldl f s) := by
  induction l generalizing s with
  | nil => exact refl s
  | cons x l ih => exact (one s x).trans (ih (f s x))

theorem foldl_fst {α β : Type} {f : State × β → α → State × β} (one : ∀ (a : State × β) (x : α), a.1.Serves (f a x).1) (l : List α)
    (a : State × β) : a.1.Serves (l.foldl f a).1 := by
  induction l generalizing a with
  | nil => exact refl a.1
  | cons x l ih => exact (one a x).trans (ih (f a x))

/-- A session that moves on. -/
theorem setSession {s : State} {x y : Session} (here : s.session y.id = some x) (moves : x.MovesTo y) :
    s.Serves (s.setSession y) := by
  refine ⟨rfl, rfl, fun sid z found => ?_⟩
  by_cases own : sid = y.id
  · subst own
    obtain rfl := Option.some.inj (here.symm.trans found)
    exact ⟨y, State.session_setSession here, moves⟩
  · exact ⟨z, (s.session_setSession_ne y own).trans found, .refl z⟩

end State.Serves

/-! Frames sent: only the ports change. -/

/-- Only frames sent and sessions differ. -/
def State.Talks (s t : State) : Prop :=
  ∃ sent sessions, t = { s with ports := { s.ports with sent := sent, sessions := sessions } }

namespace State.Talks

theorem refl (s : State) : s.Talks s := ⟨_, _, rfl⟩

theorem trans {s t u : State} (h : s.Talks t) (g : t.Talks u) : s.Talks u := by
  obtain ⟨_, _, rfl⟩ := h
  obtain ⟨_, _, rfl⟩ := g
  exact ⟨_, _, rfl⟩

theorem setSession (s : State) (x : Session) : s.Talks (s.setSession x) := ⟨_, _, rfl⟩

theorem sendOn (s : State) (port : Nat) (vlan : Option Nat) (slot kind : Nat) (b : Bytes) :
    s.Talks (s.sendOn port vlan slot kind b) := by
  unfold State.sendOn
  split <;> exact ⟨_, _, rfl⟩

theorem sendTether (s : State) (sid ty : Nat) (b : Bytes) : s.Talks (s.sendTether sid ty b) := by
  unfold State.sendTether
  split
  · exact refl s
  · exact (sendOn s _ _ _ _ _).trans (setSession _ _)

theorem sendRanges (fuel : Nat) (s : State) (sid : Nat) (rs : List (Nat × Nat × AckEntry)) :
    s.Talks (State.sendRanges fuel s sid rs) := by
  induction fuel generalizing s rs with
  | zero => exact refl s
  | succ fuel ih =>
    unfold State.sendRanges
    split
    · exact refl s
    · exact (sendTether s _ _ _).trans (ih _ _)

theorem flushAcks (s : State) (sid : Nat) : s.Talks (s.flushAcks sid) := by
  unfold State.flushAcks
  split
  · exact refl s
  · exact (setSession s _).trans (sendRanges _ _ _ _)

theorem frame {s t : State} (h : s.Talks t) : { t with ports := s.ports } = s := by
  obtain ⟨_, _, rfl⟩ := h
  rfl

theorem keeps {s t : State} (h : s.Talks t) :
    t.regs = s.regs ∧ t.steps = s.steps ∧ t.ports.ingress = s.ports.ingress ∧ t.ports.sv = s.ports.sv := by
  obtain ⟨_, _, rfl⟩ := h
  exact ⟨rfl, rfl, rfl, rfl⟩

end State.Talks

theorem State.sessions_sendOn (s : State) (port : Nat) (vlan : Option Nat) (slot kind : Nat) (b : Bytes) :
    (s.sendOn port vlan slot kind b).ports.sessions = s.ports.sessions := by
  unfold State.sendOn
  split <;> rfl

theorem State.session_sendOn (s : State) (port : Nat) (vlan : Option Nat) (slot kind : Nat) (b : Bytes) (sid : Nat) :
    (s.sendOn port vlan slot kind b).session sid = s.session sid := State.session_congr (s.sessions_sendOn _ _ _ _ _) sid

theorem State.sendTether_eq {s : State} {sid : Nat} {x : Session} (here : s.session sid = some x) (ty : Nat) (b : Bytes) :
    s.sendTether sid ty b =
      (s.sendOn x.port x.vlan x.slot txTether (tetherFrame x.key ty x.slot x.id x.txSeq b)).setSession
        { x with txSeq := x.txSeq + 1 } := by
  unfold State.sendTether
  rw [here]

theorem State.session_sendTether {s : State} {sid : Nat} {x : Session} (here : s.session sid = some x) (ty : Nat) (b : Bytes) :
    (s.sendTether sid ty b).session sid = some { x with txSeq := x.txSeq + 1 } := by
  obtain rfl := State.session_id here
  rw [State.sendTether_eq here]
  exact State.session_setSession (y := { x with txSeq := x.txSeq + 1 }) ((s.session_sendOn _ _ _ _ _ _).trans here)

theorem State.Serves.sendTether (s : State) (sid ty : Nat) (b : Bytes) : s.Serves (s.sendTether sid ty b) := by
  cases here : s.session sid with
  | none =>
    unfold State.sendTether
    rw [here]
    exact .refl s
  | some x =>
    obtain rfl := State.session_id here
    rw [State.sendTether_eq here]
    have sent : s.Serves (s.sendOn x.port x.vlan x.slot txTether (tetherFrame x.key ty x.slot x.id x.txSeq b)) :=
      .of_sessions (State.Talks.sendOn s _ _ _ _ _).keeps.2.2.1 (State.Talks.sendOn s _ _ _ _ _).keeps.2.2.2
        (s.sessions_sendOn _ _ _ _ _)
    exact sent.trans (.setSession (y := { x with txSeq := x.txSeq + 1 }) ((s.session_sendOn _ _ _ _ _ _).trans here)
      (Session.MovesTo.noted x _ x.acks x.assembly x.ahead))

theorem State.Serves.sendRanges (fuel : Nat) (s : State) (sid : Nat) (rs : List (Nat × Nat × AckEntry)) :
    s.Serves (State.sendRanges fuel s sid rs) := by
  induction fuel generalizing s rs with
  | zero => exact .refl s
  | succ fuel ih =>
    unfold State.sendRanges
    split
    · exact .refl s
    · exact (State.Serves.sendTether s _ _ _).trans (ih _ _)

theorem State.session_sendRanges (fuel : Nat) {s : State} {sid : Nat} {x : Session} (here : s.session sid = some x)
    (rs : List (Nat × Nat × AckEntry)) : ∃ n, (State.sendRanges fuel s sid rs).session sid = some { x with txSeq := n } := by
  induction fuel generalizing s x rs with
  | zero => exact ⟨x.txSeq, here⟩
  | succ fuel ih =>
    unfold State.sendRanges
    split
    · exact ⟨x.txSeq, here⟩
    · exact ih (State.session_sendTether here _ _) _

/-- The ranges that a session's outcomes make (R443). -/
def Session.ranges (x : Session) : List (Nat × Nat × AckEntry) := ackRanges (sortList (fun a b => decide (a.seq ≤ b.seq)) x.acks)

theorem State.flushAcks_eq {s : State} {sid : Nat} {x : Session} (here : s.session sid = some x) :
    s.flushAcks sid = (s.setSession { x with acks := [] }).sendRanges (x.ranges.length + 1) sid x.ranges := by
  unfold State.flushAcks
  rw [here]
  rfl

theorem State.session_flushAcks {s : State} {sid : Nat} {x : Session} (here : s.session sid = some x) :
    ∃ n, (s.flushAcks sid).session sid = some { x with acks := [], txSeq := n } := by
  obtain rfl := State.session_id here
  rw [State.flushAcks_eq here]
  exact State.session_sendRanges _ (State.session_setSession (y := { x with acks := [] }) here) _

theorem State.Serves.flushAcks (s : State) (sid : Nat) : s.Serves (s.flushAcks sid) := by
  cases here : s.session sid with
  | none =>
    unfold State.flushAcks
    rw [here]
    exact .refl s
  | some x =>
    obtain rfl := State.session_id here
    rw [State.flushAcks_eq here]
    exact (State.Serves.setSession (y := { x with acks := [] }) here (Session.MovesTo.noted x x.txSeq [] x.assembly x.ahead)).trans
      (.sendRanges _ _ _ _)

/-! Reports (R443, R453). -/

/-- The state once an outcome is answered, counted and put up for acknowledgement. -/
def State.outcomeNoted (s : State) (x : Session) (a : AckEntry) : State :=
  let s := s.answer blockPorts a.outcome a.cause
  let s := if a.outcome = delayed then s.count 0 0x53 x.port 1 else if a.outcome = shed then s.count 0 0x54 x.port 1 else s
  s.setSession { x.countFrame a.outcome with acks := x.acks ++ [a] }

theorem State.reportFrame_eq {s : State} {sid : Nat} {x : Session} (here : s.session sid = some x) (a : AckEntry) (urgent : Bool) :
    s.reportFrame sid a urgent =
      if x.ackMs = 0 ∨ urgent then (s.outcomeNoted x a).flushAcks sid else s.outcomeNoted x a := by
  have found : (s.answer blockPorts a.outcome a.cause).session sid = some x := here
  unfold State.reportFrame
  dsimp only
  rw [found]
  rfl

/-- Of an outcome noted: its registers are the answer's, the steps stay, and its session is counted. -/
theorem State.outcomeNoted_frame (s : State) (x : Session) (a : AckEntry) :
    (s.outcomeNoted x a).regs = (s.answer blockPorts a.outcome a.cause).regs ∧ (s.outcomeNoted x a).steps = s.steps ∧
      (s.outcomeNoted x a).ports = (s.setSession { x.countFrame a.outcome with acks := x.acks ++ [a] }).ports := by
  have counted (t : State) : ∃ c, (if a.outcome = delayed then t.count 0 0x53 x.port 1
      else if a.outcome = shed then t.count 0 0x54 x.port 1 else t) = { t with counters := c } := by
    split
    · exact t.count_eq _ _ _ _
    · split
      · exact t.count_eq _ _ _ _
      · exact ⟨_, rfl⟩
  obtain ⟨c, eq⟩ := counted (s.answer blockPorts a.outcome a.cause)
  unfold State.outcomeNoted
  dsimp only
  rw [eq]
  exact ⟨rfl, rfl, rfl⟩

theorem State.session_outcomeNoted {s : State} {x : Session} (here : s.session x.id = some x) (a : AckEntry) :
    (s.outcomeNoted x a).session x.id = some { x.countFrame a.outcome with acks := x.acks ++ [a] } := by
  have id : ({ x.countFrame a.outcome with acks := x.acks ++ [a] } : Session).id = x.id := x.id_countFrame _
  obtain ⟨-, -, ports⟩ := s.outcomeNoted_frame x a
  rw [State.session_congr (congrArg Ports.sessions ports), ← id]
  exact State.session_setSession (x := x) (id.symm ▸ here)

/-- An outcome noted for a session that had been `x`, in a state in which no other session has changed. -/
theorem State.Serves.outcomeNoted {s t : State} {x y : Session} {a : AckEntry} (ingress : t.ports.ingress = s.ports.ingress)
    (sv : t.ports.sv = s.ports.sv) (others : ∀ i, i ≠ y.id → t.session i = s.session i) (before : s.session y.id = some x)
    (here : t.session y.id = some y) (moves : x.MovesTo (y.countFrame a.outcome)) : s.Serves (t.outcomeNoted y a) := by
  have id : ({ y.countFrame a.outcome with acks := y.acks ++ [a] } : Session).id = y.id := y.id_countFrame _
  obtain ⟨-, -, ports⟩ := t.outcomeNoted_frame y a
  refine ⟨(congrArg Ports.ingress ports).trans ingress, (congrArg Ports.sv ports).trans sv, fun sid z found => ?_⟩
  by_cases own : sid = y.id
  · subst own
    obtain rfl := Option.some.inj (before.symm.trans found)
    exact ⟨_, State.session_outcomeNoted here a, moves.trans (Session.MovesTo.noted (y.countFrame a.outcome) _ _ _ _)⟩
  · refine ⟨z, ?_, .refl z⟩
    rw [State.session_congr (congrArg Ports.sessions ports), State.session_setSession_ne _ _ (by rwa [id]), others sid own]
    exact found

/-- A report after which the session's outcomes may be acknowledged at once. -/
theorem State.reportFrame_session {s : State} {sid : Nat} {x : Session} (here : s.session sid = some x) (a : AckEntry)
    (urgent : Bool) : ∃ acks n, (s.reportFrame sid a urgent).session sid =
      some { x.countFrame a.outcome with acks := acks, txSeq := n } := by
  obtain rfl := State.session_id here
  have noted := State.session_outcomeNoted here a
  rw [State.reportFrame_eq here]
  split
  · obtain ⟨n, flushed⟩ := State.session_flushAcks noted
    exact ⟨_, n, flushed⟩
  · exact ⟨_, _, noted⟩

/-- A report is the block's answer, and leaves the steps (R39, R443). -/
theorem State.reportFrame_regs (s : State) (sid : Nat) (a : AckEntry) (urgent : Bool) :
    (s.reportFrame sid a urgent).regs = (s.answer blockPorts a.outcome a.cause).regs ∧
      (s.reportFrame sid a urgent).steps = s.steps := by
  cases here : s.session sid with
  | none =>
    have gone : (s.answer blockPorts a.outcome a.cause).session sid = none := here
    unfold State.reportFrame
    dsimp only
    rw [gone]
    exact ⟨rfl, rfl⟩
  | some x =>
    obtain ⟨regs, steps, -⟩ := s.outcomeNoted_frame x a
    rw [State.reportFrame_eq here]
    split
    · obtain ⟨regs', steps', -⟩ := (State.Talks.flushAcks (s.outcomeNoted x a) sid).keeps
      exact ⟨regs'.trans regs, steps'.trans steps⟩
    · exact ⟨regs, steps⟩

theorem State.reportFrame_reports {s t : State} (alike : t.answersAlike s blockPorts) (sid : Nat) (a : AckEntry) (urgent : Bool) :
    (t.reportFrame sid a urgent).reports s blockPorts a.outcome a.cause :=
  State.reports_of_answer alike (State.reg_congr _ _ (t.reportFrame_regs sid a urgent).1 _)

/-- A report about a session that had been `x`. -/
theorem State.Serves.reported {s t : State} {x y : Session} {a : AckEntry} (ingress : t.ports.ingress = s.ports.ingress)
    (sv : t.ports.sv = s.ports.sv) (others : ∀ i, i ≠ y.id → t.session i = s.session i) (before : s.session y.id = some x)
    (here : t.session y.id = some y) (moves : x.MovesTo (y.countFrame a.outcome)) (urgent : Bool) :
    s.Serves (t.reportFrame y.id a urgent) := by
  have noted := State.Serves.outcomeNoted ingress sv others before here moves
  rw [State.reportFrame_eq here]
  split
  · exact noted.trans (.flushAcks _ _)
  · exact noted

theorem State.Serves.reportFrame (s : State) (sid : Nat) (a : AckEntry) (urgent : Bool) :
    s.Serves (s.reportFrame sid a urgent) := by
  cases here : s.session sid with
  | none =>
    have gone : (s.answer blockPorts a.outcome a.cause).session sid = none := here
    unfold State.reportFrame
    dsimp only
    rw [gone]
    exact .of_ports rfl
  | some x =>
    obtain rfl := State.session_id here
    exact .reported rfl rfl (fun _ _ => rfl) here here (x.movesTo_countFrame x.opened a.outcome) urgent

/-! The parts of a frame (R58, R443, R451). -/

/-- A frame with one part less to decide. -/
def OpenFrame.settled (f : OpenFrame) (got : Bool) (cause : Nat) : OpenFrame :=
  { f with parts := f.parts - 1, served := f.served || got, causes := if cause = 0 then f.causes else f.causes ++ [cause] }

theorem State.settlePart_eq {s : State} {sid : Nat} {x : Session} (here : s.session sid = some x) {seq : Nat} {f : OpenFrame}
    (open_ : x.opened.find? (fun f => f.seq == seq) = some f) (got : Bool) (cause : Nat) :
    s.settlePart sid seq got cause =
      let rest := x.opened.filter (fun g => g.seq != seq)
      if (f.settled got cause).parts = 0 then
        (s.setSession { x with opened := rest }).reportFrame sid (f.settled got cause).entry (f.settled got cause).urgent
      else s.setSession { x with opened := rest ++ [f.settled got cause] } := by
  unfold State.settlePart
  rw [here]
  dsimp only
  rw [open_]
  rfl

theorem State.Serves.settlePart (s : State) (sid seq : Nat) (got : Bool) (cause : Nat) :
    s.Serves (s.settlePart sid seq got cause) := by
  cases here : s.session sid with
  | none =>
    unfold State.settlePart
    rw [here]
    exact .refl s
  | some x =>
    cases open_ : x.opened.find? (fun f => f.seq == seq) with
    | none =>
      unfold State.settlePart
      rw [here]
      dsimp only
      rw [open_]
      exact .refl s
    | some f =>
      have number : f.seq = seq := by simpa using List.find?_some open_
      obtain rfl := State.session_id here
      rw [State.settlePart_eq here open_]
      extract_lets rest
      split
      · have now : (s.setSession { x with opened := rest }).session x.id = some { x with opened := rest } :=
          State.session_setSession (y := { x with opened := rest }) here
        have others (i : Nat) (other : i ≠ x.id) : (s.setSession { x with opened := rest }).session i = s.session i :=
          s.session_setSession_ne { x with opened := rest } other
        exact .reported (s := s) (t := s.setSession { x with opened := rest }) (y := { x with opened := rest }) rfl rfl
          others here now (x.movesTo_countFrame rest _) _
      · refine .setSession (y := { x with opened := _ }) here (Session.MovesTo.withOpened x _ fun g there => ?_)
        by_cases own : g.seq = seq
        · exact ⟨f.settled got cause, List.mem_append_right _ (List.mem_singleton.mpr rfl), number.trans own.symm⟩
        · exact ⟨g, List.mem_append_left _ (List.mem_filter.mpr ⟨there, by simpa using own⟩), rfl⟩

theorem State.Serves.openPart (s : State) (sid seq : Nat) : s.Serves (s.openPart sid seq) := by
  unfold State.openPart
  split
  · exact .refl s
  next x here =>
  obtain rfl := State.session_id here
  refine .setSession (y := { x with opened := _ }) here (Session.MovesTo.withOpened x _ fun g there => ?_)
  refine ⟨_, List.mem_map_of_mem there, ?_⟩
  split <;> rfl

end Sys2Proof.Machine
end

section
/-! SUPPORT. Work on inputs, fragments and frames keeps every session going (R55-R60, R441, R442, R450-R452). -/

namespace Sys2Proof.Machine

namespace State.Serves

theorem portsEvent (s : State) (bit : Nat) : s.Serves (s.portsEvent bit) := .of_ports (by simp [State.portsEvent])

/-! Inputs. -/

theorem settleInput (s : State) (i : Input) : s.Serves (s.settleInput i) :=
  .foldl (fun s q => .settlePart s i.session q _ _) _ _

theorem finishInput (s : State) (i : Input) : s.Serves (s.finishInput i) := by
  unfold State.finishInput
  extract_lets mask _ t
  refine State.Serves.trans ?_ (.settleInput t i)
  unfold t
  split
  · exact .refl s
  · split
    · exact .of_ports rfl
    · exact .of_portsView (s.portsView_logInput _ _ _)

theorem keepInput (s : State) (i : Input) : s.Serves (s.keepInput i) := by
  unfold State.keepInput
  split
  · exact .finishInput s i
  · exact .of_ports rfl

theorem excludeFrom (s : State) (i : Input) (ks : List Nat) (n c : Nat) : s.Serves (s.excludeFrom i ks n c).1 :=
  .of_portsView (s.portsView_excludeFrom i ks n c)

theorem excludeWhole (s : State) (i : Input) (n c : Nat) : s.Serves (s.excludeWhole i n c) := by
  unfold State.excludeWhole
  exact (State.Serves.excludeFrom s i i.cadences n c).trans (.finishInput _ _)

theorem excludeRest (s : State) (i : Input) (n c : Nat) : s.Serves (s.excludeRest i n c) := by
  unfold State.excludeRest
  extract_lets r
  exact (State.Serves.excludeFrom s i _ n c).trans (.finishInput r.1 _)

theorem offer (s : State) (i : Input) : s.Serves (s.offer i) := by
  unfold State.offer
  split
  · exact .refl s
  next r _ =>
  extract_lets n twin t late p q
  split
  · exact .excludeWhole s i n 0x0C
  split
  · exact .excludeWhole s i n 0x0C
  have taken : s.Serves t := by
    unfold t
    cases twin with
    | some x => exact (State.Serves.of_ports (s := s) (t := s.dropInput x) rfl).trans (.excludeRest _ _ _ _)
    | none => exact .refl s
  refine taken.trans ?_
  split
  · exact .excludeWhole t i _ 5
  have first : t.Serves p.1 := by
    unfold p
    split
    · exact .refl t
    · exact .excludeFrom t _ _ _ _
  have checked : p.1.Serves q.1 := .foldl_fst (fun a k => .of_portsView (State.portsView_checkCadence r a k)) _ p
  exact (first.trans checked).trans (.keepInput _ _)

/-! Fragments. -/

theorem endAssembly (s : State) (sid : Nat) (t : TetherStream) (g : Assembly) (cause : Nat) :
    s.Serves (s.endAssembly sid t g cause) := by
  unfold State.endAssembly
  split
  · exact .refl s
  next x here =>
  obtain rfl := State.session_id here
  extract_lets u bs stamp
  have left : s.Serves u := .setSession (y := { x with assembly := x.assembly.erase g }) here
    (Session.MovesTo.noted x x.txSeq x.acks _ x.ahead)
  refine left.trans ?_
  split
  · exact .excludeWhole _ _ _ _
  split
  · exact (State.Serves.excludeWhole u _ _ 1).trans (.portsEvent _ 2)
  · exact (State.Serves.of_portsView (u.portsView_storeFrame _ _ _ _)).trans (.offer _ _)

theorem shedIncomplete (s : State) : s.Serves s.shedIncomplete := by
  unfold State.shedIncomplete
  split
  · exact .refl s
  · refine .foldl (fun s x => .foldl (fun s g => ?_) _ _) _ _
    split
    · exact .refl s
    · extract_lets passed
      split
      · exact .endAssembly s _ _ _ _
      · exact .refl s

theorem addFragment (s : State) (x : Session) (fr : DataFrame) (b : Block) (cause : Nat) :
    s.Serves (s.addFragment x fr b cause) := by
  unfold State.addFragment
  split
  · next y t here _ =>
    have id := State.session_id here
    extract_lets _ _ rest _ g u
    have joined : s.Serves u := .setSession (y := { y with assembly := rest ++ [g] }) (x := y) (id ▸ here)
      (Session.MovesTo.noted y y.txSeq y.acks _ y.ahead)
    refine joined.trans ?_
    split
    · exact .endAssembly u _ _ _ _
    · exact .refl u
  · exact .refl s

theorem holdAhead (s : State) (sid : Nat) (i : Input) (last size : Nat) : s.Serves (s.holdAhead sid i last size) := by
  unfold State.holdAhead
  split
  · next r x _ here =>
    obtain rfl := State.session_id here
    extract_lets until_
    split
    · exact .setSession (y := { x with ahead := x.ahead ++ [(until_, size)] }) here
        (Session.MovesTo.noted x x.txSeq x.acks x.assembly _)
    · exact .refl s
  · exact .refl s

/-! Blocks and frames. -/

theorem submitBlock (s : State) (x : Session) (fr : DataFrame) (b : Block) : s.Serves (s.submitBlock x fr b) := by
  unfold State.submitBlock
  have part (s : State) : s.Serves (s.openPart x.id fr.seq) := .openPart s _ _
  split
  · exact (part s).trans (.addFragment _ _ _ _ _)
  split
  · exact .refl s
  split
  · exact .foldl (fun s j => (part s).trans (.offer _ _)) _ _
  extract_lets t i sets r last u
  refine (part s).trans ?_
  split
  · exact .offer t i
  · have raw : t.Serves r.1 := .of_portsView (t.portsView_rawInput i sets)
    refine State.Serves.trans ?_ (.settlePart u _ _ _ _)
    unfold u
    split
    · exact raw.trans (.holdAhead _ _ _ _ _)
    · exact raw

theorem shedBlock (s : State) (x : Session) (fr : DataFrame) (b : Block) : s.Serves (s.shedBlock x fr b) := by
  unfold State.shedBlock
  split
  · exact .addFragment s x fr b 1
  · exact .of_portsView (s.portsView_exclude _ _ _ _ _)

/-- A frame's blocks in turn, and then its own part and what is incomplete. -/
theorem admitted (s : State) (x : Session) (fr : DataFrame) (bs : List Block) (sid seq : Nat) :
    s.Serves ((bs.foldl (fun s b => s.submitBlock x fr b) s).settleGuard sid seq).shedIncomplete :=
  ((State.Serves.foldl (fun s b => .submitBlock s x fr b) bs s).trans (.settlePart _ sid seq false 0)).trans (.shedIncomplete _)

end State.Serves

/-- A frame that is admitted is open, or has its outcome. -/
theorem State.admitFrame_session {s : State} {x : Session} (here : s.session x.id = some x) (fr : DataFrame) (bs : List Block) :
    (s.admitFrame x fr bs).ports.ingress = s.ports.ingress ∧
      ∃ y, (s.admitFrame x fr bs).session x.id = some y ∧ y.rxSeen = x.rxSeen ∧ y.queue = x.queue ∧ y.tokBytes = x.tokBytes ∧
        y.tokPkts = x.tokPkts ∧ ((∃ g ∈ y.opened, g.seq = fr.seq) ∨ x.answered < y.answered) := by
  unfold State.admitFrame
  rw [here]
  extract_lets f t
  have open_ : t.session x.id = some { x with opened := x.opened ++ [f] } :=
    State.session_setSession (y := { x with opened := x.opened ++ [f] }) here
  have serves := State.Serves.admitted t x fr bs x.id fr.seq
  obtain ⟨y, there, moves⟩ := serves.sessions _ _ open_
  exact ⟨serves.ingress, y, there, moves.rxSeen, moves.queue, moves.tokBytes, moves.tokPkts,
    moves.opened fr.seq ⟨f, List.mem_append_right _ (List.mem_singleton.mpr rfl), rfl⟩⟩

end Sys2Proof.Machine
end

section
/-! SUPPORT. The oldest frame of the ingress buffer, authentic and new, reaches its service (R436-R438); DATA frames and the delay
queue (R450-R452). -/

namespace Sys2Proof.Machine

/-! An authentic, new frame. -/

/-- What such a frame is. -/
theorem State.newFrame_parts {s : State} {k : Nat} {f : BufFrame} {p : Bytes} {x : Session} (new : s.newFrame k f p x = true) :
    (∃ rest, s.ports.ingress = f :: rest) ∧ (∃ src, f.body = .tether src p) ∧ frHead p = true ∧ s.sessionOf p = some x ∧
      frTagOk x.key p = true ∧ (x.rxHigh.map (fun hi => decide (frSeq p + 4096 < hi))).getD false = false ∧
      x.rxSeen.contains (frSeq p) = false ∧ frLengthOk p = true ∧ frType p = k := by
  simp only [State.newFrame, Bool.and_eq_true, Bool.not_eq_true', beq_iff_eq] at new
  obtain ⟨⟨⟨⟨⟨⟨⟨⟨oldest, tether⟩, head⟩, named⟩, tag⟩, window⟩, unseen⟩, length⟩, type⟩ := new
  refine ⟨?_, ?_, head, named, tag, ?_, unseen, length, type⟩
  · cases queue : s.ports.ingress with
    | nil => simp [queue] at oldest
    | cons g rest =>
      rw [queue] at oldest
      exact ⟨rest, by rw [beq_iff_eq.mp oldest]⟩
  · cases body : f.body with
    | tether src q =>
      rw [body] at tether
      exact ⟨src, by rw [beq_iff_eq.mp tether]⟩
    | _ => simp [body] at tether
  · cases high : x.rxHigh with
    | none => rfl
    | some hi =>
      rw [high] at window
      simpa using window

theorem State.sessionOf_spec {s : State} {p : Bytes} {x : Session} (named : s.sessionOf p = some x) :
    x ∈ s.ports.sessions ∧ x.state = 1 := by
  refine ⟨List.mem_of_find?_eq_some named, ?_⟩
  have := List.find?_some named
  simp only [Bool.and_eq_true, beq_iff_eq] at this
  exact this.1.1

/-- The state in which the service of a session's oldest frame begins: the frame has left the buffer, and its number is taken. -/
def State.frameTaken (s : State) (f : BufFrame) (p : Bytes) (x : Session) : State :=
  ({ s with ports := { s.ports with ingress := s.ports.ingress.drop 1 } } : State).setSession (x.accept (frSeq p) f.arrival)

/-- A frame that is authentic and new is served in its session (R436-R438). -/
theorem State.tetherCommand_newFrame {s : State} {k : Nat} {f : BufFrame} {p : Bytes} {x : Session} (up : s.up = true)
    (kind : k = tData ∨ k = tStatusReq ∨ k = tTimeResp) (new : s.newFrame k f p x = true)
    (serve : BufFrame → Bytes → State → Session → State) :
    s.tetherCommand k serve = serve f p (s.frameTaken f p x) (x.accept (frSeq p) f.arrival) := by
  obtain ⟨⟨rest, queue⟩, ⟨src, body⟩, head, named, tag, window, unseen, length, type⟩ := State.newFrame_parts new
  have long : ¬p.length < 40 := by
    simp only [frHead, Bool.and_eq_true, decide_eq_true_eq] at head
    omega
  have kindOf : frKind p = k := by
    unfold frKind
    dsimp only
    rw [if_neg long, type]
    rcases kind with rfl | rfl | rfl <;> rfl
  have ours : s.headFrame (tetherKind k) = some (f, { s with ports := { s.ports with ingress := rest } }) := by
    unfold State.headFrame
    rw [queue]
    simp [body, tetherKind, kindOf]
  have session : ({ s with ports := { s.ports with ingress := rest } } : State).sessionOf p = some x := named
  have known : ¬((!frLengthOk p) = true ∨ (k ≠ tData ∧ k ≠ tStatusReq ∧ k ≠ tTimeResp ∧ k ≠ tClose)) := by
    rw [length]
    rcases kind with rfl | rfl | rfl <;> decide
  unfold State.tetherCommand
  simp only [up, ours, body, Bool.not_true, Bool.false_eq_true, if_false]
  unfold State.receive
  simp only [head, session, tag, window, unseen, type, Bool.not_true, Bool.false_eq_true, if_false]
  rw [if_neg known]
  unfold State.frameTaken
  rw [queue]
  rfl

/-- A frame taken leaves its session accepted, and everything but the ports. -/
theorem State.frameTaken_spec {s : State} {f : BufFrame} {p : Bytes} {x : Session} (apart : s.sessionsApart)
    (named : s.sessionOf p = some x) :
    s.session x.id = some x ∧
      (s.frameTaken f p x).session x.id = some (x.accept (frSeq p) f.arrival) ∧
      (s.frameTaken f p x).ports.ingress = s.ports.ingress.drop 1 := by
  have here := State.session_of_mem apart (State.sessionOf_spec named).1
  exact ⟨here, State.session_setSession (s := { s with ports := { s.ports with ingress := s.ports.ingress.drop 1 } })
    (y := x.accept (frSeq p) f.arrival) (x := x) here, rfl⟩

theorem State.frameTaken_alike (s : State) (f : BufFrame) (p : Bytes) (x : Session) :
    (s.frameTaken f p x).answersAlike s blockPorts := ⟨rfl, rfl, rfl⟩

/-! The delay queue's quota (R448, R451). -/

theorem State.mem_setSession {s : State} {y z : Session} (there : z ∈ (s.setSession y).ports.sessions) :
    z = y ∨ (z ∈ s.ports.sessions ∧ z.id ≠ y.id) := by
  obtain ⟨w, here, rfl⟩ := List.mem_map.mp there
  by_cases own : w.id = y.id
  · exact .inl (if_pos own)
  · rw [if_neg own]
    exact .inr ⟨here, own⟩

/-- Closing sessions hold what they held when one that is not closing changes. -/
theorem State.closingUsed_setSession {s : State} {y : Session} (mine : ∀ z ∈ s.ports.sessions, z.id = y.id → z.state ≠ 2)
    (live : y.state ≠ 2) (slot : Nat) : (s.setSession y).closingUsed slot = s.closingUsed slot := by
  have kept : (s.setSession y).ports.sessions.filter (fun z => z.slot == slot && z.state == 2) =
      s.ports.sessions.filter (fun z => z.slot == slot && z.state == 2) := by
    unfold State.setSession
    rw [List.filter_map]
    have pred : ∀ z ∈ s.ports.sessions, ((fun z : Session => z.slot == slot && z.state == 2) ∘
        fun z => if z.id = y.id then y else z) z = (z.slot == slot && z.state == 2) := by
      intro z here
      by_cases own : z.id = y.id
      · have off : (z.state == 2) = false := beq_eq_false_iff_ne.mpr (mine z here own)
        simp [own, off, beq_eq_false_iff_ne.mpr live]
      · simp [own]
    rw [List.filter_congr pred]
    refine (List.map_congr_left fun z there => ?_).trans (List.map_id _)
    obtain ⟨here, closing⟩ := List.mem_filter.mp there
    have state : z.state = 2 := by
      simp only [Bool.and_eq_true, beq_iff_eq] at closing
      exact closing.2
    exact if_neg fun own => mine z here own state
  unfold State.closingUsed
  rw [kept]

/-- A frame taken leaves what closing sessions hold, and so does a change of its session after it. -/
theorem State.frameTaken_quota {s : State} {f : BufFrame} {p : Bytes} {x : Session} (apart : s.sessionsApart)
    (named : s.sessionOf p = some x) (slot : Nat) : (s.frameTaken f p x).closingUsed slot = s.closingUsed slot := by
  obtain ⟨here, live⟩ := State.sessionOf_spec named
  refine State.closingUsed_setSession (s := { s with ports := { s.ports with ingress := s.ports.ingress.drop 1 } })
    (y := x.accept (frSeq p) f.arrival) (fun z there same => ?_) (by rw [Session.accept, live]; decide) slot
  have found : s.session z.id = some x := (congrArg s.session same).trans (State.session_of_mem apart here)
  rw [Option.some.inj ((State.session_of_mem apart there).symm.trans found), live]
  decide

theorem State.frameTaken_closing {s : State} {f : BufFrame} {p : Bytes} {x : Session}
    (named : s.sessionOf p = some x) (y : Session) (id : y.id = (x.accept (frSeq p) f.arrival).id)
    (state : y.state = (x.accept (frSeq p) f.arrival).state) (slot : Nat) :
    ((s.frameTaken f p x).setSession y).closingUsed slot = (s.frameTaken f p x).closingUsed slot := by
  have live : (x.accept (frSeq p) f.arrival).state = 1 := (State.sessionOf_spec named).2
  refine State.closingUsed_setSession (fun z there same => ?_) (by rw [state, live]; decide) slot
  rcases State.mem_setSession there with rfl | ⟨-, other⟩
  · rw [live]
    decide
  · exact absurd (same.trans id) other

end Sys2Proof.Machine
end

section
/-! SUPPORT. What DATA and the release of a queued frame leave (R450-R452). -/

namespace Sys2Proof.Machine

/-- A session whose frame has been refused, when its acknowledgements are not looked at. -/
def Session.refusedAs (x y : Session) : Prop := ∃ acks n, y = { x with refused := x.refused + 1, acks := acks, txSeq := n }

/-- A refusal from a state that agrees with `s` on the ports' answers: it is reported, and its session counts it (R452, R453). -/
theorem State.reportRefused {s t : State} {x : Session} (alike : t.answersAlike s blockPorts) (here : t.session x.id = some x)
    (seq cause : Nat) (urgent : Bool) :
    let u := t.reportFrame x.id ⟨seq, refused, cause, false, 0⟩ urgent
    u.reports s blockPorts refused cause ∧ u.ports.ingress = t.ports.ingress ∧ u.steps = t.steps ∧
      ∃ y, u.session x.id = some y ∧ x.refusedAs y := by
  obtain ⟨acks, n, there⟩ := State.reportFrame_session here ⟨seq, refused, cause, false, 0⟩ urgent
  exact ⟨State.reportFrame_reports alike _ _ _, (State.Serves.reportFrame t _ _ _).ingress, (t.reportFrame_regs _ _ _).2, _, there,
    acks, n, rfl⟩

/-- The trail's records of a refused frame. -/
theorem State.traced_frame (slot : Nat) (stamp : State → Block → Nat) (bs : List Block) (s : State) :
    let t := bs.foldl (fun s b => s.traceRefused slot b.stream b.first b.count (stamp s b)) s
    t.portsView = s.portsView ∧ t.steps = s.steps := by
  induction bs generalizing s with
  | nil => exact ⟨rfl, rfl⟩
  | cons b bs ih =>
    obtain ⟨view, steps⟩ := ih (s.traceRefused slot b.stream b.first b.count (stamp s b))
    exact ⟨view.trans (s.portsView_traceRefused _ _ _ _ _), steps.trans (by simp [State.traceRefused])⟩

/-! DATA. -/

/-- What admission needs of a frame that is taken at its arrival. -/
def dataFrame (f : BufFrame) (p : Bytes) (x : Session) : DataFrame :=
  ⟨x.id, frSeq p, f.arrival, f.arrival, none, bitAt (frFlags p) 0, p.length⟩

section
variable {f : BufFrame} {p : Bytes} {s : State} {x : Session}

/-- A frame with a cause is refused, after its trail's records. -/
theorem State.serveData_refused (bad : (s.dataCause x (frBody p)).1 ≠ 0) :
    ∃ u : State, State.serveData f p s x = u.refuseFrame x.id p (s.dataCause x (frBody p)).1 ∧ u.portsView = s.portsView ∧
      u.steps = s.steps := by
  refine ⟨_, ?_, State.traced_frame x.slot (fun t b => t.blockStamp x (dataFrame f p x) b 0) (s.dataCause x (frBody p)).2 s⟩
  unfold State.serveData
  exact if_pos bad

theorem State.serveData_admitted (fine : (s.dataCause x (frBody p)).1 = 0) (tokens : (x.fill f.arrival).holds p.length 1 = true) :
    State.serveData f p s x =
      (s.setSession ((x.fill f.arrival).drawTokens p.length)).admitFrame ((x.fill f.arrival).drawTokens p.length) (dataFrame f p x)
        (s.dataCause x (frBody p)).2 := by
  unfold State.serveData
  exact (if_neg (not_not.mpr fine)).trans (if_pos tokens)

/-- A frame without tokens, of a session whose buckets are filled to `w`: it waits while the quota has room, or is shed. -/
def State.overContract (s : State) (f : BufFrame) (p : Bytes) (fr : DataFrame) (bs : List Block) (w : Session) : State :=
  let t := s.setSession w
  if w.used + t.closingUsed w.slot + p.length ≤ w.quota then
    t.setSession { w with queue := w.queue ++ [⟨frSeq p, f.arrival, bitAt (frFlags p) 0, frBody p⟩] }
  else
    ((bs.foldl (fun t b => t.shedBlock w fr b) t).portsEvent 2).reportFrame w.id ⟨frSeq p, shed, 0x01, false, 0⟩
      (bitAt (frFlags p) 0)

theorem State.serveData_overContract (fine : (s.dataCause x (frBody p)).1 = 0)
    (tokens : (x.fill f.arrival).holds p.length 1 = false) :
    State.serveData f p s x = s.overContract f p (dataFrame f p x) (s.dataCause x (frBody p)).2 (x.fill f.arrival) := by
  unfold State.serveData
  exact (if_neg (not_not.mpr fine)).trans (if_neg (Bool.eq_false_iff.mp tokens))

end

/-- The event of a frame shed at ingress stands after its report (R452, R455). -/
theorem State.portsEvent_stands (s : State) (sid : Nat) (a : AckEntry) (urgent : Bool) :
    bitAt (((s.portsEvent 2).reportFrame sid a urgent).reg portsEvents) 2 = true := by
  have events : ((s.portsEvent 2).answer blockPorts a.outcome a.cause).reg portsEvents = (s.portsEvent 2).reg portsEvents :=
    State.reg_answerAt_ne _ _ _ _ _ _ (by decide)
  rw [State.reg_congr _ _ (State.reportFrame_regs _ sid a urgent).1, events]
  exact s.bitAt_event _ _ _ _ (by decide)

/-- Two states of a session differ in its tokens alone, as far as its service goes. -/
structure Session.SameButTokens (x w : Session) : Prop where
  id : w.id = x.id
  slot : w.slot = x.slot
  cls : w.cls = x.cls
  state : w.state = x.state
  quota : w.quota = x.quota
  used : w.used = x.used
  rxSeen : w.rxSeen = x.rxSeen
  queue : w.queue = x.queue
  opened : w.opened = x.opened
  answered : w.answered = x.answered
  shed : w.shed = x.shed
  refused : w.refused = x.refused

theorem Session.sameButTokens (x : Session) (a b c : Nat) : x.SameButTokens { x with tokBytes := a, tokPkts := b, tokAt := c } :=
  ⟨rfl, rfl, rfl, rfl, rfl, rfl, rfl, rfl, rfl, rfl, rfl, rfl⟩

/-- Filling a bucket and drawing from it (R450) changes its tokens alone. -/
theorem Session.fill_sameButTokens (x : Session) (t : Nat) : x.SameButTokens (x.fill t) := by
  unfold Session.fill
  exact x.sameButTokens _ _ _

theorem Session.SameButTokens.trans {x y z : Session} (h : x.SameButTokens y) (g : y.SameButTokens z) : x.SameButTokens z where
  id := g.id.trans h.id
  slot := g.slot.trans h.slot
  cls := g.cls.trans h.cls
  state := g.state.trans h.state
  quota := g.quota.trans h.quota
  used := g.used.trans h.used
  rxSeen := g.rxSeen.trans h.rxSeen
  queue := g.queue.trans h.queue
  opened := g.opened.trans h.opened
  answered := g.answered.trans h.answered
  shed := g.shed.trans h.shed
  refused := g.refused.trans h.refused

theorem Session.drawTokens_sameButTokens (x : Session) (n : Nat) : x.SameButTokens (x.drawTokens n) := by
  unfold Session.drawTokens
  exact x.sameButTokens _ _ x.tokAt

/-- A number accepted leaves the tokens. -/
theorem Session.tokens_fill_accept (x : Session) (seq a t n : Nat) :
    ((x.accept seq a).fill t).tokBytes = (x.fill t).tokBytes ∧ ((x.accept seq a).fill t).tokPkts = (x.fill t).tokPkts ∧
      ((x.accept seq a).fill t).holds n 1 = (x.fill t).holds n 1 := ⟨rfl, rfl, rfl⟩

theorem Session.tokens_drawTokens (x : Session) (n : Nat) :
    (x.drawTokens n).tokBytes = x.tokBytes - tokens n ∧ (x.drawTokens n).tokPkts = x.tokPkts - tokens 1 := ⟨rfl, rfl⟩

/-- A frame under its contract is open, or has its outcome, in a session that has given its tokens. -/
theorem State.underContract_spec {s : State} {x w : Session} (same : x.SameButTokens w) (here : s.session x.id = some x)
    (fr : DataFrame) (bs : List Block) :
    let t := (s.setSession w).admitFrame w fr bs
    ∃ y, t.ports.ingress = s.ports.ingress ∧ t.session x.id = some y ∧ y.rxSeen = x.rxSeen ∧ y.tokBytes = w.tokBytes ∧
      y.tokPkts = w.tokPkts ∧ ((∃ g ∈ y.opened, g.seq = fr.seq) ∨ x.answered < y.answered) := by
  have found : s.session w.id = some x := same.id.symm ▸ here
  obtain ⟨ingress, y, there, rxSeen, -, bytes, pkts, answered⟩ := State.admitFrame_session (State.session_setSession found) fr bs
  exact ⟨y, ingress, same.id ▸ there, rxSeen.trans same.rxSeen, bytes, pkts, same.answered ▸ answered⟩

/-- A frame over its contract leaves its session filled, and waits or is shed (R451). -/
theorem State.overContract_spec {f : BufFrame} {p : Bytes} {s : State} {x w : Session} (same : x.SameButTokens w)
    (here : s.session x.id = some x)
    (closing : ∀ y : Session, y.id = x.id → y.state = x.state → ∀ slot, (s.setSession y).closingUsed slot = s.closingUsed slot)
    (fr : DataFrame) (bs : List Block) :
    let room := x.used + s.closingUsed x.slot + p.length ≤ x.quota
    let t := s.overContract f p fr bs w
    ∃ y, t.ports.ingress = s.ports.ingress ∧ t.session x.id = some y ∧ y.rxSeen = x.rxSeen ∧
      (room → y.queue = x.queue ++ [⟨frSeq p, f.arrival, bitAt (frFlags p) 0, frBody p⟩] ∧ y.answered = x.answered) ∧
      (¬room → x.shed < y.shed ∧ y.queue = x.queue ∧ bitAt (t.reg portsEvents) 2 = true) := by
  intro room t
  have fit : w.used + (s.setSession w).closingUsed w.slot + p.length ≤ w.quota ↔ room := by
    rw [closing w same.id same.state, same.used, same.slot, same.quota]
  have found : s.session w.id = some x := same.id.symm ▸ here
  have filled : (s.setSession w).session w.id = some w := State.session_setSession found
  rw [← same.id]
  by_cases fits : room
  · have eq : t = _ := if_pos (fit.mpr fits)
    rw [eq]
    exact ⟨_, rfl, State.session_setSession (y := { w with queue := w.queue ++ _ }) filled, same.rxSeen,
      fun _ => ⟨congrArg (· ++ _) same.queue, same.answered⟩, fun no => absurd fits no⟩
  · have eq : t = _ := if_neg (mt fit.mp fits)
    have blocks := State.Serves.foldl (fun t b => .shedBlock t w fr b) bs (s.setSession w)
    have noted := blocks.trans (.portsEvent _ 2)
    obtain ⟨y, found, moves⟩ := noted.sessions _ _ filled
    obtain ⟨acks, n, there⟩ := State.reportFrame_session found ⟨frSeq p, shed, 0x01, false, 0⟩ (bitAt (frFlags p) 0)
    rw [eq]
    refine ⟨_, (State.Serves.reportFrame _ _ _ _).ingress.trans noted.ingress, there, moves.rxSeen.trans same.rxSeen,
      fun yes => absurd yes fits, fun _ => ⟨?_, moves.queue.trans same.queue, State.portsEvent_stands _ _ _ _⟩⟩
    exact Nat.lt_succ_of_le (same.shed ▸ moves.shed)

/-- DATA, by the cause of its refusal, its tokens, and the room that its quota leaves (R450-R452). -/
theorem effData_spec {f : BufFrame} {p : Bytes} {x : Session} {s : State} (up : s.up = true) (apart : s.sessionsApart)
    (new : s.newFrame tData f p x = true) :
    let q := s.dataCause x (frBody p)
    let room := x.used + s.closingUsed x.slot + p.length ≤ x.quota
    let t := effData s
    ∃ y, t.ports.ingress = s.ports.ingress.drop 1 ∧ t.session x.id = some y ∧ y.rxSeen.contains (frSeq p) = true ∧
      (q.1 ≠ 0 → t.reports s blockPorts refused q.1 ∧ y.refused = x.refused + 1 ∧ y.queue = x.queue ∧ y.opened = x.opened ∧
        t.steps.inputs = s.steps.inputs) ∧
      (q.1 = 0 → (x.fill f.arrival).holds p.length 1 = true →
        y.tokBytes = (x.fill f.arrival).tokBytes - tokens p.length ∧ y.tokPkts = (x.fill f.arrival).tokPkts - tokens 1 ∧
          ((∃ g ∈ y.opened, g.seq = frSeq p) ∨ x.answered < y.answered)) ∧
      (q.1 = 0 → (x.fill f.arrival).holds p.length 1 = false → room →
        y.queue = x.queue ++ [⟨frSeq p, f.arrival, bitAt (frFlags p) 0, frBody p⟩] ∧ y.answered = x.answered) ∧
      (q.1 = 0 → (x.fill f.arrival).holds p.length 1 = false → ¬room →
        x.shed < y.shed ∧ y.queue = x.queue ∧ bitAt (t.reg portsEvents) 2 = true) := by
  extract_lets q room t
  obtain ⟨-, -, -, named, -⟩ := State.newFrame_parts new
  obtain ⟨mine, taken, left⟩ := State.frameTaken_spec (f := f) apart named
  have served : t = State.serveData f p (s.frameTaken f p x) (x.accept (frSeq p) f.arrival) :=
    State.tetherCommand_newFrame up (.inl rfl) new _
  have seen : (x.accept (frSeq p) f.arrival).rxSeen.contains (frSeq p) = true := by simp [Session.accept]
  have cause : (s.frameTaken f p x).dataCause (x.accept (frSeq p) f.arrival) (frBody p) = q := rfl
  have alike := s.frameTaken_alike f p x
  by_cases bad : q.1 ≠ 0
  · obtain ⟨u, eq, view, steps⟩ := State.serveData_refused (f := f) (cause.symm ▸ bad)
    have here : u.session x.id = _ := (State.session_congr (congrArg Ports.sessions (State.portsView_ports view)) _).trans taken
    obtain ⟨reports, ingress, kept, y, there, acks, n, rfl⟩ := State.reportRefused (x := x.accept (frSeq p) f.arrival)
      (State.answersAlike.trans alike (State.portsView_alike view)) here (frSeq p) q.1 (bitAt (frFlags p) 0)
    rw [served, eq, cause]
    exact ⟨_, ingress.trans ((congrArg Ports.ingress (State.portsView_ports view)).trans left), there, seen,
      fun _ => ⟨reports, rfl, rfl, rfl, congrArg Steps.inputs (kept.trans steps)⟩, fun fine => absurd fine bad,
      fun fine => absurd fine bad, fun fine => absurd fine bad⟩
  · have fine : q.1 = 0 := not_not.mp bad
    obtain ⟨tokBytes, tokPkts, holds⟩ := x.tokens_fill_accept (frSeq p) f.arrival f.arrival p.length
    have filled := (x.accept (frSeq p) f.arrival).fill_sameButTokens f.arrival
    cases tokens : (x.fill f.arrival).holds p.length 1 with
    | true =>
      have drawn := filled.trans (Session.drawTokens_sameButTokens _ p.length)
      have eq := served.trans (State.serveData_admitted (cause.symm ▸ fine) (holds.trans tokens))
      obtain ⟨y, ingress, there, rxSeen, bytes, pkts, answered⟩ := State.underContract_spec drawn taken
        (dataFrame f p (x.accept (frSeq p) f.arrival)) q.2
      obtain ⟨lessBytes, lessPkts⟩ := Session.tokens_drawTokens ((x.accept (frSeq p) f.arrival).fill f.arrival) p.length
      rw [lessBytes, tokBytes] at bytes
      rw [lessPkts, tokPkts] at pkts
      rw [eq]
      exact ⟨y, ingress.trans left, there, rxSeen.symm ▸ seen, fun no => absurd fine no, fun _ _ => ⟨bytes, pkts, answered⟩,
        fun _ no => absurd no (by decide), fun _ no => absurd no (by decide)⟩
    | false =>
      have eq := served.trans (State.serveData_overContract (cause.symm ▸ fine) (holds.trans tokens))
      obtain ⟨y, ingress, there, rxSeen, waits, sheds⟩ := State.overContract_spec (f := f) (p := p) filled taken
        (State.frameTaken_closing named) (dataFrame f p (x.accept (frSeq p) f.arrival)) q.2
      rw [State.frameTaken_quota apart named] at waits sheds
      rw [eq]
      exact ⟨y, ingress.trans left, there, rxSeen.symm ▸ seen, fun no => absurd fine no,
        fun _ no => absurd no (by decide), fun _ _ => waits, fun _ _ => sheds⟩

end Sys2Proof.Machine
end

section
/-! SUPPORT. The release of a queued frame (R451). -/

namespace Sys2Proof.Machine

/-- The cause of a frame rests on the slot and class of its session, the run and the image. -/
theorem State.dataCause_congr {s t : State} {x y : Session} (steps : t.steps = s.steps) (slot : y.slot = x.slot)
    (cls : y.cls = x.cls) (body : Bytes) : t.dataCause y body = s.dataCause x body := by
  have channels : t.channelsOf = s.channelsOf := by
    funext a b
    rw [State.channelsOf, State.channelDecls, steps]
    rfl
  have tethers : t.tetherStream = s.tetherStream := by
    funext a b
    rw [State.tetherStream, State.tetherStreams, steps]
    rfl
  have ok : t.blockOk y = s.blockOk x := by
    funext b
    unfold State.blockOk
    rw [channels, tethers, slot, cls]
  rw [State.dataCause, State.dataCause, State.inRun, steps, ok, cls]
  rfl

/-- A frame released in a session that has become `w`. -/
def State.releasedIn (s : State) (w : Session) (q : QueuedFrame) (t : Nat) : State :=
  let u := s.setSession w
  let d := u.dataCause w q.body
  if d.1 ≠ 0 then u.reportFrame w.id ⟨q.seq, refused, d.1, false, 0⟩ q.urgent
  else u.admitFrame w ⟨w.id, q.seq, q.arrival, t, some ((t - q.arrival) / 65536), q.urgent, q.body.length + 40⟩ d.2

/-- A session without the first frame of its queue. -/
def Session.dequeued (w x : Session) : Session := { w with queue := x.queue.drop 1 }

theorem State.release_eq (s : State) (x : Session) (q : QueuedFrame) (t : Nat) :
    s.release x q t = s.releasedIn (((x.fill t).drawTokens (q.body.length + 40)).dequeued x) q t := by rfl

/-- What a session that gives a frame keeps: all but its queue and its tokens. -/
theorem Session.dequeued_keeps {x w : Session} (same : x.SameButTokens w) :
    (w.dequeued x).id = x.id ∧ (w.dequeued x).slot = x.slot ∧ (w.dequeued x).cls = x.cls ∧ (w.dequeued x).refused = x.refused ∧
      (w.dequeued x).answered = x.answered ∧ (w.dequeued x).tokBytes = w.tokBytes ∧ (w.dequeued x).tokPkts = w.tokPkts :=
  ⟨same.id, same.slot, same.cls, same.refused, same.answered, rfl, rfl⟩

theorem State.releasedIn_spec {s : State} {x w : Session} (here : s.session x.id = some x) (id : w.id = x.id)
    (slot : w.slot = x.slot) (cls : w.cls = x.cls) (q : QueuedFrame) (t : Nat) :
    let u := s.releasedIn w q t
    ∃ y, u.session x.id = some y ∧ y.queue = w.queue ∧ y.tokBytes = w.tokBytes ∧ y.tokPkts = w.tokPkts ∧
      ((s.dataCause x q.body).1 ≠ 0 → u.reports s blockPorts refused (s.dataCause x q.body).1 ∧ y.refused = w.refused + 1) ∧
      ((s.dataCause x q.body).1 = 0 → (∃ g ∈ y.opened, g.seq = q.seq) ∨ w.answered < y.answered) := by
  have cause : (s.setSession w).dataCause w q.body = s.dataCause x q.body := State.dataCause_congr rfl slot cls q.body
  have now : (s.setSession w).session w.id = some w := State.session_setSession (id.symm ▸ here)
  intro u
  rw [← id]
  by_cases bad : (s.dataCause x q.body).1 ≠ 0
  · have eq : u = _ := if_pos (cause.symm ▸ bad)
    obtain ⟨reports, -, -, y, there, acks, n, rfl⟩ := State.reportRefused (s := s) (t := s.setSession w) ⟨rfl, rfl, rfl⟩ now q.seq
      (s.dataCause x q.body).1 q.urgent
    rw [eq, cause]
    exact ⟨_, there, rfl, rfl, rfl, fun _ => ⟨reports, rfl⟩, fun fine => absurd fine bad⟩
  · have eq : u = _ := if_neg (cause.symm ▸ bad)
    obtain ⟨-, y, there, -, queue, bytes, pkts, answered⟩ := State.admitFrame_session now
      ⟨w.id, q.seq, q.arrival, t, some ((t - q.arrival) / 65536), q.urgent, q.body.length + 40⟩ (s.dataCause x q.body).2
    rw [eq, cause]
    exact ⟨y, there, queue, bytes, pkts, fun no => absurd no bad, fun _ => answered⟩

theorem State.releasable_spec {s : State} {slot : Nat} {x : Session} {q : QueuedFrame} (ready : s.releasable slot = some (x, q)) :
    x ∈ s.ports.sessions := by
  obtain ⟨y, here, found⟩ := List.exists_of_findSome?_eq_some ready
  split at found
  · split at found
    · obtain ⟨rfl, -⟩ := Prod.mk.inj (Option.some.inj found)
      exact here
    · cases found
  · cases found

/-- DELAY_QUEUE_RELEASE: the frame leaves the queue, draws its tokens, and is served (R451). -/
theorem effDelayQueueRelease_spec {slot : Fin 4096} {x : Session} {q : QueuedFrame} {s : State} (up : s.up = true)
    (apart : s.sessionsApart) (ready : s.releasable slot.val = some (x, q)) :
    let t := effDelayQueueRelease slot s
    ∃ y, t.session x.id = some y ∧ y.queue = x.queue.drop 1 ∧
      y.tokBytes = (x.fill s.now).tokBytes - tokens (q.body.length + 40) ∧ y.tokPkts = (x.fill s.now).tokPkts - tokens 1 ∧
      ((s.dataCause x q.body).1 ≠ 0 → t.reports s blockPorts refused (s.dataCause x q.body).1 ∧ y.refused = x.refused + 1) ∧
      ((s.dataCause x q.body).1 = 0 → (∃ g ∈ y.opened, g.seq = q.seq) ∨ x.answered < y.answered) := by
  intro t
  have eq : t = s.release x q s.now := by
    unfold t effDelayQueueRelease
    rw [up, ready]
    rfl
  have here := State.session_of_mem apart (State.releasable_spec ready)
  have drawn := (x.fill_sameButTokens s.now).trans (Session.drawTokens_sameButTokens (x.fill s.now) (q.body.length + 40))
  obtain ⟨id, sameSlot, cls, sameRefused, sameAnswered, sameBytes, samePkts⟩ := Session.dequeued_keeps drawn
  obtain ⟨y, there, queue, bytes, pkts, refuses, serves⟩ := State.releasedIn_spec here id sameSlot cls q s.now
  obtain ⟨lessBytes, lessPkts⟩ := (x.fill s.now).tokens_drawTokens (q.body.length + 40)
  rw [sameBytes, lessBytes] at bytes
  rw [samePkts, lessPkts] at pkts
  rw [sameRefused] at refuses
  rw [sameAnswered] at serves
  rw [eq, State.release_eq]
  exact ⟨y, there, queue, bytes, pkts, refuses, serves⟩

end Sys2Proof.Machine
end

section
/-! SUPPORT. Frames that sessions send: acknowledgements, status and time requests (R430, R435, R443-R445). -/

namespace Sys2Proof.Machine

/-! One frame on its port. -/

theorem State.length_sent_sendOn (s : State) (port : Nat) (vlan : Option Nat) (slot kind : Nat) (b : Bytes) :
    (s.sendOn port vlan slot kind b).ports.sent.length = s.ports.sent.length + s.copies port := by
  unfold State.sendOn State.copies
  split <;> rfl

/-- What leaves on a port rests on the registers and on what has left before. -/
theorem State.sent_sendOn_congr {s t : State} (regs : t.regs = s.regs) (sent : t.ports.sent = s.ports.sent) (port : Nat)
    (vlan : Option Nat) (slot kind : Nat) (b : Bytes) :
    (t.sendOn port vlan slot kind b).ports.sent = (s.sendOn port vlan slot kind b).ports.sent := by
  have prp (p : Nat) : t.prpOn p = s.prpOn p := by rw [State.prpOn, State.fld_congr _ _ regs, State.prpOn]
  simp only [State.sendOn, prp]
  split <;> simp [State.send, sent]

/-- A frame of a session leaves under its key and next number, from any state with the same registers and frames sent. -/
theorem State.sendTether_sends {s t : State} {sid : Nat} {x y : Session} (regs : t.regs = s.regs)
    (sent : t.ports.sent = s.ports.sent) (here : t.session sid = some y) (port : y.port = x.port) (vlan : y.vlan = x.vlan)
    (slot : y.slot = x.slot) (key : y.key = x.key) (id : y.id = x.id) (next : y.txSeq = x.txSeq) (k : Nat) (body : Bytes) :
    (t.sendTether sid k body).sends s x k body := by
  rw [State.sends, State.sendTether_eq here, port, vlan, slot, key, id, next]
  exact State.sent_sendOn_congr regs sent _ _ _ _ _

/-! Acknowledgements (R443). -/

/-- Between two states each session has its place, and those with an identifier of `ids`, or without an outcome to report, have
none. -/
def State.Acknowledges (s : State) (ids : List Nat) (t : State) : Prop :=
  ∀ z ∈ t.ports.sessions, ∃ y ∈ s.ports.sessions, z.id = y.id ∧ z.slot = y.slot ∧ (y.id ∈ ids ∨ y.acks = [] → z.acks = [])

namespace State.Acknowledges

theorem of_sessions {s t : State} (same : t.ports.sessions = s.ports.sessions) : s.Acknowledges [] t := fun z here =>
  ⟨z, same ▸ here, rfl, rfl, fun none => none.resolve_left (by simp)⟩

theorem trans {s t u : State} {ids ids' : List Nat} (h : s.Acknowledges ids t) (g : t.Acknowledges ids' u) :
    s.Acknowledges (ids ++ ids') u := by
  intro z here
  obtain ⟨y, there, id, slot, none⟩ := g z here
  obtain ⟨x, first, id', slot', none'⟩ := h y there
  refine ⟨x, first, id.trans id', slot.trans slot', fun or => ?_⟩
  rcases or with listed | clear
  · rcases List.mem_append.mp listed with early | late
    · exact none (.inr (none' (.inl early)))
    · exact none (.inl (id'.symm ▸ late))
  · exact none (.inr (none' (.inr clear)))

/-- A session that keeps its place, and where it is listed has nothing to report. -/
theorem setSession {s : State} {x y : Session} (here : s.session y.id = some x) (slot : y.slot = x.slot) {ids : List Nat}
    (only : ∀ i ∈ ids, i = y.id) (acks : y.id ∈ ids ∨ x.acks = [] → y.acks = []) : s.Acknowledges ids (s.setSession y) := by
  intro z there
  rcases State.mem_setSession there with rfl | ⟨before, other⟩
  · have id := State.session_id here
    exact ⟨x, List.mem_of_find?_eq_some here, id.symm, slot, fun or => acks (or.imp_left (id ▸ ·))⟩
  · exact ⟨z, before, rfl, rfl, fun or => or.resolve_left fun listed => other (only _ listed)⟩

theorem sendTether (s : State) (sid ty : Nat) (b : Bytes) : s.Acknowledges [] (s.sendTether sid ty b) := by
  cases here : s.session sid with
  | none =>
    unfold State.sendTether
    rw [here]
    exact of_sessions rfl
  | some x =>
    obtain rfl := State.session_id here
    rw [State.sendTether_eq here]
    exact (of_sessions (s.sessions_sendOn _ _ _ _ _)).trans
      (setSession (y := { x with txSeq := x.txSeq + 1 }) (ids := []) ((s.session_sendOn _ _ _ _ _ _).trans here) rfl (by simp)
        fun or => or.resolve_left (by simp))

theorem sendRanges (fuel : Nat) (s : State) (sid : Nat) (rs : List (Nat × Nat × AckEntry)) :
    s.Acknowledges [] (State.sendRanges fuel s sid rs) := by
  induction fuel generalizing s rs with
  | zero => exact of_sessions rfl
  | succ fuel ih =>
    unfold State.sendRanges
    split
    · exact of_sessions rfl
    · exact (sendTether s _ _ _).trans (ih _ _)

theorem flushAcks (s : State) (sid : Nat) : s.Acknowledges [sid] (s.flushAcks sid) := by
  cases here : s.session sid with
  | none =>
    have absent : ∀ z ∈ s.ports.sessions, z.id ≠ sid := by simpa using List.find?_eq_none.mp here
    unfold State.flushAcks
    rw [here]
    exact fun z there => ⟨z, there, rfl, rfl, fun or => or.resolve_left (by simpa using absent z there)⟩
  | some x =>
    obtain rfl := State.session_id here
    rw [State.flushAcks_eq here]
    exact (setSession (y := { x with acks := [] }) (ids := [x.id]) here rfl (by simp) fun _ => rfl).trans (sendRanges _ _ _ _)

theorem flushAll (l : List Session) (s : State) :
    s.Acknowledges (l.map (·.id)) (l.foldl (fun s x => s.flushAcks x.id) s) := by
  induction l generalizing s with
  | nil => exact of_sessions rfl
  | cons x l ih => exact (flushAcks s x.id).trans (ih _)

end State.Acknowledges

theorem State.Talks.foldl {α : Type} {f : State → α → State} (one : ∀ (s : State) (x : α), s.Talks (f s x)) (l : List α)
    (s : State) : s.Talks (l.foldl f s) := by
  induction l generalizing s with
  | nil => exact .refl s
  | cons x l ih => exact (one s x).trans (ih (f s x))

theorem State.Talks.copies {s t : State} (h : s.Talks t) (port : Nat) : t.copies port = s.copies port := by
  obtain ⟨_, _, rfl⟩ := h
  rfl

/-- The frames that ranges take: 64 of them each. -/
theorem State.length_sent_sendRanges (fuel : Nat) {s : State} {sid : Nat} {x : Session} (here : s.session sid = some x)
    {rs : List (Nat × Nat × AckEntry)} (enough : rs.length ≤ 64 * fuel) :
    (State.sendRanges fuel s sid rs).ports.sent.length = s.ports.sent.length + s.copies x.port * ceilDiv rs.length 64 := by
  induction fuel generalizing s x rs with
  | zero =>
    obtain rfl : rs = [] := List.eq_nil_of_length_eq_zero (Nat.le_zero.mp enough)
    rfl
  | succ fuel ih =>
    unfold State.sendRanges
    cases none : rs.isEmpty with
    | true =>
      obtain rfl := List.isEmpty_iff.mp none
      rfl
    | false =>
      have some_ : 0 < rs.length := List.length_pos_iff.mpr fun nil => by simp [nil] at none
      have talks : s.Talks (s.sendTether sid tAck (ackBody (rs.take 64))) := .sendTether _ _ _ _
      have sent : (s.sendTether sid tAck (ackBody (rs.take 64))).ports.sent.length = s.ports.sent.length + s.copies x.port := by
        rw [State.sendTether_eq here]
        exact s.length_sent_sendOn _ _ _ _ _
      rw [if_neg Bool.false_ne_true, ih (State.session_sendTether here _ _) (by rw [List.length_drop]; omega), sent, talks.copies,
        List.length_drop]
      have count : ceilDiv rs.length 64 = ceilDiv (rs.length - 64) 64 + 1 := by
        unfold ceilDiv
        omega
      rw [count, Nat.mul_succ]
      show s.ports.sent.length + s.copies x.port + s.copies x.port * _ = _
      omega

theorem ackRanges_ne_nil (a : AckEntry) (as : List AckEntry) : ackRanges (a :: as) ≠ [] := by
  unfold ackRanges
  split
  · split <;> simp
  · simp

theorem Session.ranges_eq_nil (x : Session) (none : x.ranges = []) : x.acks = [] := by
  have kept (a : AckEntry) := mem_sortList (fun a b => decide (a.seq ≤ b.seq)) a x.acks
  unfold Session.ranges at none
  cases sorted : sortList (fun (a b : AckEntry) => decide (a.seq ≤ b.seq)) x.acks with
  | nil =>
    rw [sorted] at kept
    exact List.eq_nil_iff_forall_not_mem.mpr fun a here => List.not_mem_nil ((kept a).mpr here)
  | cons a as => exact absurd (sorted ▸ none) (ackRanges_ne_nil a as)

/-- ACK (R443). -/
theorem effAck_spec {slot : Fin 4096} {s : State} (up : s.up = true) (apart : s.sessionsApart) :
    let t := effAck slot s
    (∀ y ∈ t.ports.sessions, y.slot = slot.val → y.acks = []) ∧
      (∀ x, s.ports.sessions.filter (fun x => x.slot == slot.val) = [x] →
        t.ports.sent.length = s.ports.sent.length + s.copies x.port * ceilDiv x.ranges.length 64 ∧
          (x.acks ≠ [] → x.ranges.length ≤ 64 → t.sends s x tAck (ackBody x.ranges))) ∧
      { t with ports := s.ports } = s := by
  intro t
  have eq : t = (s.ports.sessions.filter (fun x => x.slot == slot.val)).foldl (fun s x => s.flushAcks x.id) s := by
    unfold t effAck
    rw [up]
    rfl
  refine ⟨fun y here own => ?_, fun x only => ?_, ?_⟩
  · rw [eq] at here
    obtain ⟨x, there, id, same, none⟩ := State.Acknowledges.flushAll _ s y here
    exact none (.inl (List.mem_map_of_mem (List.mem_filter.mpr ⟨there, by simp [← same, own]⟩)))
  · have member : x ∈ s.ports.sessions := (List.mem_filter.mp (only ▸ List.mem_singleton.mpr rfl)).1
    have here := State.session_of_mem apart member
    have now : (s.setSession { x with acks := [] }).session x.id = some { x with acks := [] } :=
      State.session_setSession (y := { x with acks := [] }) here
    rw [only, List.foldl_cons, List.foldl_nil, State.flushAcks_eq here] at eq
    refine ⟨?_, fun some few => ?_⟩
    · rw [eq]
      exact State.length_sent_sendRanges _ now (by omega)
    · have ranged : x.ranges.isEmpty = false := Bool.eq_false_iff.mpr fun none =>
        some (x.ranges_eq_nil (List.isEmpty_iff.mp none))
      have one : t = (s.setSession { x with acks := [] }).sendTether x.id tAck (ackBody x.ranges) := by
        rw [eq, State.sendRanges, ranged, if_neg Bool.false_ne_true, List.take_of_length_le few, List.drop_of_length_le few]
        cases x.ranges.length <;> rfl
      rw [one]
      exact State.sendTether_sends (s := s) (t := s.setSession { x with acks := [] }) rfl rfl now rfl rfl rfl rfl rfl rfl _ _
  · rw [eq]
    exact (State.Talks.foldl (fun s x => .flushAcks s _) _ s).frame

/-! Status (R444). -/

theorem State.sendStatus_sends {s t : State} {x y : Session} (regs : t.regs = s.regs) (sent : t.ports.sent = s.ports.sent)
    (here : t.session x.id = some y) (same : y.port = x.port ∧ y.vlan = x.vlan ∧ y.slot = x.slot ∧ y.key = x.key ∧ y.id = x.id ∧
      y.txSeq = x.txSeq) : (t.sendStatus x.id).sends s x tStatus (t.statusBody y) := by
  obtain ⟨port, vlan, slot, key, id, next⟩ := same
  unfold State.sendStatus
  rw [here]
  exact State.sendTether_sends regs sent here port vlan slot key id next _ _

theorem State.Talks.sendStatus (s : State) (sid : Nat) : s.Talks (s.sendStatus sid) := by
  unfold State.sendStatus
  split
  · exact .refl s
  · exact .sendTether _ _ _ _

/-- STATUS_REQ (R444). -/
theorem effStatusReq_spec {f : BufFrame} {p : Bytes} {x : Session} {s : State} (up : s.up = true) (apart : s.sessionsApart)
    (new : s.newFrame tStatusReq f p x = true) :
    let t := effStatusReq s
    t.ports.ingress = s.ports.ingress.drop 1 ∧ t.sends s x tStatus (s.statusBody x) ∧ { t with ports := s.ports } = s := by
  intro t
  obtain ⟨-, -, -, named, -⟩ := State.newFrame_parts new
  obtain ⟨-, taken, left⟩ := State.frameTaken_spec (f := f) apart named
  have eq : t = (s.frameTaken f p x).sendStatus x.id := State.tetherCommand_newFrame up (.inr (.inl rfl)) new _
  have talks := State.Talks.sendStatus (s.frameTaken f p x) x.id
  have body : (s.frameTaken f p x).statusBody (x.accept (frSeq p) f.arrival) = s.statusBody x := by rfl
  rw [eq, ← body]
  refine ⟨talks.keeps.2.2.1.trans left, State.sendStatus_sends rfl rfl taken ⟨rfl, rfl, rfl, rfl, rfl, rfl⟩, ?_⟩
  obtain ⟨_, _, sent⟩ := talks
  rw [sent]
  rfl

theorem State.liveSession_mem {s : State} {slot : Nat} {x : Session} (live : s.liveSession slot = some x) : x ∈ s.ports.sessions :=
  List.mem_of_find?_eq_some live

/-- STATUS (R444). -/
theorem effStatus_spec {slot : Fin 4096} {x : Session} {s : State} (up : s.up = true) (apart : s.sessionsApart)
    (live : s.liveSession slot.val = some x) :
    let t := effStatus slot s
    t.sends s x tStatus (s.statusBody x) ∧ { t with ports := s.ports } = s := by
  intro t
  have eq : t = s.sendStatus x.id := by
    unfold t effStatus
    rw [up, live]
    rfl
  have here := State.session_of_mem apart (State.liveSession_mem live)
  rw [eq]
  exact ⟨State.sendStatus_sends rfl rfl here ⟨rfl, rfl, rfl, rfl, rfl, rfl⟩, (State.Talks.sendStatus s x.id).frame⟩

/-! Time requests (R445). -/

/-- A session with its next exchange and its open requests. -/
def Session.exchange (x : Session) (next : Nat) (requests : List (Nat × Nat)) : Session :=
  { x with nextExch := next, requests := requests }

/-- A session that has changed its exchanges sends a frame as it would have before. -/
theorem State.exchange_sends {s u : State} {x : Session} (regs : u.regs = s.regs) (ports : u.ports = s.ports)
    (here : s.session x.id = some x) (n : Nat) (rs : List (Nat × Nat)) (k : Nat) (body : Bytes) :
    let t := (u.setSession (x.exchange n rs)).sendTether (x.exchange n rs).id k body
    t.sends s x k body ∧ ∃ y, t.session x.id = some y ∧ y.nextExch = n ∧ y.requests = rs := by
  have before : u.session (x.exchange n rs).id = some x := (State.session_congr (congrArg Ports.sessions ports) _).trans here
  have now := State.session_setSession before
  have sent : u.ports.sent = s.ports.sent := congrArg Ports.sent ports
  exact ⟨State.sendTether_sends (t := u.setSession (x.exchange n rs)) regs sent now rfl rfl rfl rfl rfl rfl _ _, _,
    State.session_sendTether now _ _, rfl, rfl⟩

/-- TIME_REQ with room for its egress stamp (R445). -/
theorem effTimeReq_spec {slot : Fin 4096} {x : Session} {q : Fin 8} {s : State} (up : s.up = true) (apart : s.sessionsApart)
    (live : s.liveSession slot.val = some x) (asks : x.timeMs ≠ 0) (room : (s.time.txts.getD x.port []).length < 64) :
    let t := effTimeReq slot q s
    t.sends s x tTimeReq (beBytes 4 x.nextExch ++ List.replicate 12 0) ∧
      ∃ y, t.session x.id = some y ∧ y.nextExch = (x.nextExch + 1) % 2 ^ 32 ∧
        (x.nextExch, s.txStamp x.port 0 q.val) ∈ y.requests := by
  intro t
  have here := State.session_of_mem apart (State.liveSession_mem live)
  have queued : ∃ τ : TimeUnit, s.queueStamp x.port (x.nextExch % 65536) 0 q.val = ({ s with time := τ }, true) := by
    unfold State.queueStamp
    exact ⟨_, if_pos room⟩
  obtain ⟨τ, stamp⟩ := queued
  have eq : ∃ rs, t = (({ s with time := τ } : State).setSession
      (x.exchange ((x.nextExch + 1) % 2 ^ 32) (rs ++ [(x.nextExch, s.txStamp x.port 0 q.val)]))).sendTether
        (x.exchange ((x.nextExch + 1) % 2 ^ 32) (rs ++ [(x.nextExch, s.txStamp x.port 0 q.val)])).id tTimeReq
        (beBytes 4 x.nextExch ++ List.replicate 12 0) := by
    unfold t effTimeReq
    simp only [up, live, asks, stamp, Bool.not_true, Bool.false_eq_true, if_false, if_true]
    exact ⟨_, rfl⟩
  obtain ⟨rs, eq⟩ := eq
  obtain ⟨sends, y, there, next, requests⟩ := State.exchange_sends (s := s) (u := { s with time := τ }) rfl rfl here
    ((x.nextExch + 1) % 2 ^ 32) (rs ++ [(x.nextExch, s.txStamp x.port 0 q.val)]) tTimeReq
    (beBytes 4 x.nextExch ++ List.replicate 12 0)
  rw [eq]
  exact ⟨sends, y, there, next, requests ▸ List.mem_append_right _ (List.mem_singleton.mpr rfl)⟩

end Sys2Proof.Machine
end

section
/-! SUPPORT. A time exchange ends, and its clock input waits for its occurrence (R214, R215, R445). -/

namespace Sys2Proof.Machine

/-- A clock input in time, the first of its stamp, waits for the close of its occurrence (R56, R215). -/
theorem State.offer_clock {s : State} {i : Input} {run : Run} {c : CadenceDecl} {n : Nat} (running : s.steps.run = some run)
    (cadence : s.cadences[0]? = some c) (stream : i.stream = clockStream) (only : i.cadences = [0]) (new : i.waits = [])
    (occurrence : run.occurrenceOf c i.stamp = some n) (open_ : run.hasClosed 0 n = false) (limit : i.stamp ≤ s.admitLimit)
    (unseen : s.steps.seen.contains i.key = false) (single : ∀ j ∈ s.steps.inputs, j.key ≠ i.key) :
    s.offer i = s.addInput { i with waits := [(0, n)] } := by
  have twin : s.steps.inputs.find? (fun j => j.key == i.key) = none :=
    List.find?_eq_none.mpr fun j here => by simpa using single j here
  have intime : s.lateFor run i 0 = false := by
    unfold State.lateFor
    rw [cadence]
    simp [stream]
  have waits : State.checkCadence run (s, i) 0 = (s, { i with waits := [(0, n)] }) := by
    unfold State.checkCadence
    simp [cadence, occurrence, open_, new]
  have late : i.cadences.filter (s.lateFor run i) = [] := by simp [only, intime]
  unfold State.offer
  simp only [running, twin, unseen, late, Option.any_none, Bool.false_eq_true, if_false, if_neg (Nat.not_lt.mpr limit)]
  simp [only, waits, State.keepInput]

/-! The payload of a clock input (R215). -/

/-- A value as a clock input carries it. -/
def clockBytes (v : Int) : Bytes := leBytes 8 (ofSigned 64 v)

theorem length_clockBytes (v : Int) : (clockBytes v).length = 8 := leBytes_length _ _

theorem leVal_clockBytes (v : Int) : leVal (clockBytes v) = ofSigned 64 v := by
  rw [clockBytes, leVal_leBytes]
  exact Nat.mod_eq_of_lt (ofSigned_lt 64 v)

/-- Its three values are read back. -/
theorem leAt_clockPayload (a b c : Int) :
    leAt (clockBytes a ++ clockBytes b ++ clockBytes c) 0 8 = ofSigned 64 a ∧
      leAt (clockBytes a ++ clockBytes b ++ clockBytes c) 8 8 = ofSigned 64 b ∧
      leAt (clockBytes a ++ clockBytes b ++ clockBytes c) 16 8 = ofSigned 64 c := by
  have part (l m r : Bytes) (n : Nat) (left : l.length = n) (middle : m.length = 8) : sliceBytes n 8 (l ++ m ++ r) = m := by
    rw [sliceBytes, List.append_assoc, List.drop_left' left, List.take_left' middle]
  refine ⟨?_, ?_, ?_⟩
  · rw [leAt, ← List.nil_append (clockBytes a), List.append_assoc, part [] _ _ 0 rfl (length_clockBytes a), leVal_clockBytes]
  · rw [leAt, part _ _ _ 8 (length_clockBytes a) (length_clockBytes b), leVal_clockBytes]
  · rw [leAt, ← List.append_nil (_ ++ clockBytes c), part _ _ _ 16 (by simp [length_clockBytes]) (length_clockBytes c),
      leVal_clockBytes]

/-- The clock input of an exchange with the values θ, δ and E. -/
def clockInput (f : BufFrame) (p : Bytes) (x : Session) (θ δ e : Int) : Input :=
  { (default : Input) with
    slot := x.slot, stream := clockStream, stamp := f.arrival, arrival := f.arrival, seq := frSeq p, count := 1
    payload := clockBytes θ ++ clockBytes δ ++ clockBytes e, session := x.id, cadences := [0] }

theorem clockInputs_clockInput (f : BufFrame) (p : Bytes) (x : Session) (θ δ e : Int) (ws : List (Nat × Nat)) :
    clockInputs [{ clockInput f p x θ δ e with waits := ws }] = [(x.slot, f.arrival, signedOf 64 (ofSigned 64 θ),
      signedOf 64 (ofSigned 64 δ), signedOf 64 (ofSigned 64 e))] := by
  obtain ⟨first, second, third⟩ := leAt_clockPayload θ δ e
  unfold clockInputs
  rw [List.filter_cons_of_pos (by rfl), List.filter_nil, List.map_cons, List.map_nil]
  dsimp only [clockInput]
  rw [first, second, third]

/-! The exchange. -/

/-- A response of an open exchange, with its round trip δ and offset θ. -/
def State.exchangeEnds (s : State) (f : BufFrame) (p : Bytes) (x w : Session) (θ δ e : Int) : State :=
  let u := s.setSession w
  if δ < 0 then u.answer blockPorts refused 0x0C else u.offer (clockInput f p x θ δ e)

theorem State.exchangeEnds_spec {s : State} {x y w : Session} (here : s.session w.id = some y) (f : BufFrame) (p : Bytes)
    (θ δ e : Int) :
    let t := s.exchangeEnds f p x w θ δ e
    t.ports.ingress = s.ports.ingress ∧ (∃ z, t.session w.id = some z ∧ z.requests = w.requests) ∧
      (δ < 0 → t.reports s blockPorts refused 0x0C ∧ t.steps = s.steps) ∧
      (0 ≤ δ → ∀ run c n, s.steps.run = some run → s.cadences[0]? = some c → run.occurrenceOf c f.arrival = some n →
        run.hasClosed 0 n = false → f.arrival ≤ s.admitLimit → s.steps.seen.contains (x.slot, clockStream, f.arrival) = false →
        (∀ i ∈ s.steps.inputs, i.key ≠ (x.slot, clockStream, f.arrival)) →
        t.steps.inputs = s.steps.inputs ++ [{ clockInput f p x θ δ e with waits := [(0, n)] }]) := by
  intro t
  have now : (s.setSession w).session w.id = some w := State.session_setSession here
  by_cases negative : δ < 0
  · have eq : t = _ := if_pos negative
    rw [eq]
    exact ⟨rfl, ⟨w, now, rfl⟩, fun _ => ⟨State.reports_of_answer (u := s.setSession w) ⟨rfl, rfl, rfl⟩ rfl, rfl⟩,
      fun no => absurd negative (Int.not_lt.mpr no)⟩
  · have eq : t = _ := if_neg negative
    have serves := State.Serves.offer (s.setSession w) (clockInput f p x θ δ e)
    obtain ⟨z, there, moves⟩ := serves.sessions _ _ now
    rw [eq]
    refine ⟨serves.ingress, ⟨z, there, moves.requests⟩, fun no => absurd no negative, ?_⟩
    intro _ run c n running cadence occurrence open_ limit unseen single
    have eq := State.offer_clock (s := s.setSession w) (i := clockInput f p x θ δ e) running cadence rfl rfl rfl occurrence
      open_ limit unseen single
    exact congrArg (fun t : State => t.steps.inputs) eq

/-- TIME_RESP of an open exchange (R445). -/
theorem effTimeResp_eq {f : BufFrame} {p : Bytes} {x : Session} {r : Nat × Nat} {s : State} (up : s.up = true)
    (new : s.newFrame tTimeResp f p x = true) (length : (frBody p).length = 32)
    (open_ : x.requests.find? (fun r => r.1 == beAt (frBody p) 0 4 && decide (f.arrival ≤ r.2 + 4 * secUnits)) = some r) :
    let t2 : Int := compact (timeAtBE (frBody p) 8)
    let t3 : Int := compact (timeAtBE (frBody p) 20)
    let δ : Int := ((compact f.arrival : Nat) : Int) - (compact r.2 : Nat) - (t3 - t2)
    let θ : Int := ((t2 - (compact r.2 : Nat)) + (t3 - (compact f.arrival : Nat))) / 2
    effTimeResp s = (s.frameTaken f p x).exchangeEnds f p x
      ((x.accept (frSeq p) f.arrival).exchange x.nextExch (x.requests.erase r)) θ δ
      (if x.timeSource = 0 then f.offsets.1 else if x.timeSource = 1 then f.offsets.2 else 0) := by
  intro t2 t3 δ θ
  have taken := State.tetherCommand_newFrame up (.inr (.inr rfl)) new State.serveTimeResp
  have requests : (x.accept (frSeq p) f.arrival).requests = x.requests := rfl
  refine Eq.trans taken ?_
  unfold State.serveTimeResp
  simp only [length, requests, open_, ne_eq, not_true_eq_false, if_false]
  rfl

end Sys2Proof.Machine
end

section
/-! SUPPORT. Sampled-value frames of a tether (R365, R366, R452). -/

namespace Sys2Proof.Machine

/-! The tethers. -/

theorem State.mem_setSv {s : State} {y z : SvTether} (there : z ∈ (s.setSv y).ports.sv) :
    z = y ∨ (z ∈ s.ports.sv ∧ z.entry ≠ y.entry) := by
  obtain ⟨w, here, rfl⟩ := List.mem_map.mp there
  by_cases own : w.entry = y.entry
  · exact .inl (if_pos own)
  · rw [if_neg own]
    exact .inr ⟨here, own⟩

theorem State.setSv_own {s : State} {y z : SvTether} (here : z ∈ s.ports.sv) (own : z.entry = y.entry) :
    y ∈ (s.setSv y).ports.sv := List.mem_map.mpr ⟨z, here, if_pos own⟩

theorem State.setSv_other {s : State} {y z : SvTether} (here : z ∈ s.ports.sv) (other : z.entry ≠ y.entry) :
    z ∈ (s.setSv y).ports.sv := List.mem_map.mpr ⟨z, here, if_neg other⟩

/-- A tether that changes leaves the ingress buffer and the block's answers; so does what keeps the ports after it. -/
theorem State.afterSetSv {s t : State} {v : SvTether} (view : t.portsView = (s.setSv v).portsView) :
    t.ports.ingress = s.ports.ingress ∧ t.ports.sv = (s.setSv v).ports.sv ∧ t.answersAlike s blockPorts := by
  have ports := State.portsView_ports view
  have same : (s.setSv v).answersAlike s blockPorts := ⟨rfl, rfl, rfl⟩
  refine ⟨?_, by rw [ports], same.trans (State.portsView_alike view)⟩
  rw [ports]
  rfl

/-- A tether that has seen one more frame. -/
def SvTether.seeing (v : SvTether) (key : Nat × Nat) : SvTether := { v with seen := key :: v.seen }

/-- A tether that keeps a mark of a frame still has seen what it had. -/
theorem State.setSv_marks {s t : State} {v w z : SvTether} (here : z ∈ s.ports.sv) (own : z.entry = v.entry)
    (sv : t.ports.sv = (s.setSv v).ports.sv) (there : w ∈ t.ports.sv) (marks : List (Nat × Bool)) :
    ∃ z ∈ (t.setSv { w with marks := marks }).ports.sv, z.entry = v.entry ∧ z.seen = v.seen := by
  rcases State.mem_setSv (sv ▸ there) with rfl | ⟨-, other⟩
  · exact ⟨_, State.setSv_own (y := { w with marks := marks }) there rfl, rfl, rfl⟩
  · exact ⟨v, State.setSv_other (y := { w with marks := marks }) (sv ▸ State.setSv_own here own) (Ne.symm other), rfl, rfl⟩

/-! One frame. -/

/-- The samples of a frame that no channel takes are too few for every channel of the slot. -/
def State.svShort (s : State) (slot : Nat) (mine : List Asdu) : Bool :=
  (s.channelsOf slot 0).all (fun d => mine.all (fun b => decide (b.samples.length ≤ d.element)))

/-- The answer to a frame whose samples have reached the chains, and its mark where they were taken. -/
def State.svAnswered (r : State × Bool × Nat) (slot : Nat) (mark : Nat × Bool) : State :=
  let s := if r.2.1 then r.1.answer blockPorts served 0 else r.1.answer blockPorts shed r.2.2
  match s.liveSv slot with
  | some w => if r.2.1 then s.setSv { w with marks := w.marks ++ [mark] } else s
  | none => s

theorem State.serveSv_refused {s : State} {f : BufFrame} {v : SvTether} {a : Asdu} {more : List Asdu}
    (new : v.seen.contains (s.svSecond v.entry f.arrival a.smpCnt, a.smpCnt) = false)
    (short : s.svShort v.entry.slot (a :: more) = true) :
    ∃ u : State, s.serveSv f v (a :: more) = u.answer blockPorts refused 0x0C ∧
      u.portsView = (s.setSv (v.seeing (s.svSecond v.entry f.arrival a.smpCnt, a.smpCnt))).portsView :=
  ⟨_, (if_neg (Bool.eq_false_iff.mp new)).trans (if_pos short), State.portsView_traceRefused _ _ _ _ _ _⟩

theorem State.serveSv_taken {s : State} {f : BufFrame} {v : SvTether} {a : Asdu} {more : List Asdu}
    (new : v.seen.contains (s.svSecond v.entry f.arrival a.smpCnt, a.smpCnt) = false)
    (long : s.svShort v.entry.slot (a :: more) = false) :
    ∃ r slot mark, s.serveSv f v (a :: more) = State.svAnswered r slot mark ∧
      r.1.portsView = (s.setSv (v.seeing (s.svSecond v.entry f.arrival a.smpCnt, a.smpCnt))).portsView :=
  ⟨_, _, _, (if_neg (Bool.eq_false_iff.mp new)).trans (if_neg (Bool.eq_false_iff.mp long)), State.portsView_rawInput _ _ _⟩

/-- An answered frame of a tether in a state whose ports are those of `s` with the tether `v` marked. -/
theorem State.svAnswered_spec {s : State} {v : SvTether} (here : ∃ z ∈ s.ports.sv, z.entry = v.entry) {r : State × Bool × Nat}
    (view : r.1.portsView = (s.setSv v).portsView) (slot : Nat) (mark : Nat × Bool) :
    let t := State.svAnswered r slot mark
    t.ports.ingress = s.ports.ingress ∧ (∃ z ∈ t.ports.sv, z.entry = v.entry ∧ z.seen = v.seen) ∧
      (t.reports s blockPorts served 0 ∨ ∃ c, t.reports s blockPorts shed c) := by
  intro t
  obtain ⟨z, there, own⟩ := here
  obtain ⟨ingress, sv, alike⟩ := State.afterSetSv view
  have answered (u : State) (o c : Nat) (eq : u = r.1.answer blockPorts o c) :
      u.ports.ingress = s.ports.ingress ∧ u.ports.sv = (s.setSv v).ports.sv ∧ u.reports s blockPorts o c := by
    subst eq
    exact ⟨ingress, sv, State.reports_of_answer alike rfl⟩
  have unmarked (u : State) (sv : u.ports.sv = (s.setSv v).ports.sv) : ∃ z ∈ u.ports.sv, z.entry = v.entry ∧ z.seen = v.seen :=
    ⟨v, sv ▸ State.setSv_own there own, rfl, rfl⟩
  unfold t State.svAnswered
  cases taken : r.2.1 with
  | true =>
    obtain ⟨ingress, sv, reports⟩ := answered _ served 0 rfl
    simp only [if_true]
    split
    · next w live =>
      refine ⟨ingress, State.setSv_marks there own sv (List.mem_of_find?_eq_some live) _, .inl ?_⟩
      exact reports
    · exact ⟨ingress, unmarked _ sv, .inl reports⟩
  | false =>
    obtain ⟨ingress, sv, reports⟩ := answered _ shed r.2.2 rfl
    simp only [Bool.false_eq_true, if_false]
    split
    · exact ⟨ingress, unmarked _ sv, .inr ⟨_, reports⟩⟩
    · exact ⟨ingress, unmarked _ sv, .inr ⟨_, reports⟩⟩

/-- The ASDUs of a tether: a second frame of one second and count is dropped; another is marked as seen and answered. -/
theorem State.serveSv_spec {s : State} {f : BufFrame} {v : SvTether} {a : Asdu} {more : List Asdu} (here : v ∈ s.ports.sv) :
    let key := (s.svSecond v.entry f.arrival a.smpCnt, a.smpCnt)
    let t := s.serveSv f v (a :: more)
    t.ports.ingress = s.ports.ingress ∧
      (v.seen.contains key = true → t.ports.sv = s.ports.sv ∧ t.steps = s.steps) ∧
      (v.seen.contains key = false →
        (∃ w ∈ t.ports.sv, w.entry = v.entry ∧ w.seen = key :: v.seen) ∧
        (s.svShort v.entry.slot (a :: more) = true → t.reports s blockPorts refused 0x0C) ∧
        (s.svShort v.entry.slot (a :: more) = false → t.reports s blockPorts served 0 ∨ ∃ c, t.reports s blockPorts shed c)) := by
  intro key t
  cases seen : v.seen.contains key with
  | true =>
    have eq : t = s.dropQuiet f.port := if_pos seen
    rw [eq]
    exact ⟨rfl, fun _ => ⟨rfl, rfl⟩, fun no => absurd no (by decide)⟩
  | false =>
    have marked : ∃ z ∈ s.ports.sv, z.entry = (v.seeing key).entry := ⟨v, here, rfl⟩
    cases short : s.svShort v.entry.slot (a :: more) with
    | true =>
      obtain ⟨u, eq, view⟩ := State.serveSv_refused seen short
      obtain ⟨ingress, sv, alike⟩ := State.afterSetSv view
      have own : v.seeing key ∈ u.ports.sv := sv ▸ State.setSv_own here rfl
      rw [show t = _ from eq]
      exact ⟨ingress, fun no => absurd no (by decide), fun _ => ⟨⟨v.seeing key, own, rfl, rfl⟩,
        fun _ => State.reports_of_answer alike rfl, fun no => absurd no (by decide)⟩⟩
    | false =>
      obtain ⟨r, slot, mark, eq, view⟩ := State.serveSv_taken seen short
      obtain ⟨ingress, tether, reports⟩ := State.svAnswered_spec marked view slot mark
      rw [show t = _ from eq]
      exact ⟨ingress, fun no => absurd no (by decide), fun _ => ⟨tether, fun no => absurd no (by decide), fun _ => reports⟩⟩

end Sys2Proof.Machine
end

section
/-! SUPPORT. The commands of a sampled-value frame and of a time response. -/

namespace Sys2Proof.Machine

theorem State.svOf_spec {s : State} {mac appid : Nat} {asdus : List Asdu} {v : SvTether}
    (found : s.svOf mac appid asdus = some v) : v ∈ s.ports.sv := List.mem_of_find?_eq_some found

theorem effSampledValueFrame_eq {f : BufFrame} {rest : List BufFrame} {mac appid : Nat} {asdus : List Asdu} {s : State}
    (up : s.up = true) (queue : s.ports.ingress = f :: rest) (body : f.body = .sv mac appid asdus) :
    effSampledValueFrame s =
      let u : State := { s with ports := { s.ports with ingress := rest } }
      match s.svOf mac appid asdus with
      | none => u.satReg (portReg f.port 0x10) (max 1 asdus.length)
      | some v =>
        if !s.inRun then u.dropQuiet f.port
        else
          let mine := asdus.filter (fun a => a.svid == v.entry.svid)
          (u.satReg (portReg f.port 0x10) (asdus.length - mine.length)).serveSv f v mine := by
  have ours : s.headFrame isSv = some (f, { s with ports := { s.ports with ingress := rest } }) := by
    unfold State.headFrame
    rw [queue]
    simp [body, isSv]
  unfold effSampledValueFrame
  simp only [up, ours, body, Bool.not_true, Bool.false_eq_true, if_false]
  rfl

/-- The frames a port has dropped are no register of the block's answers. -/
theorem State.portDrops_alike (s : State) (port n : Nat) : (s.satReg (portReg port 0x10) n).answersAlike s blockPorts :=
  ⟨State.reg_satReg_ne _ _ _ _ (by unfold blockPorts portReg; omega), by simp [State.satReg], by simp [State.satReg]⟩

/-- Dropped frames counted before a tether's ASDUs are served change nothing of what is said of them. -/
theorem State.countedSv_spec {s : State} {f : BufFrame} {v : SvTether} {a : Asdu} {more : List Asdu} (here : v ∈ s.ports.sv) (n : Nat) :
    let key := (s.svSecond v.entry f.arrival a.smpCnt, a.smpCnt)
    let t := (s.satReg (portReg f.port 0x10) n).serveSv f v (a :: more)
    t.ports.ingress = s.ports.ingress ∧
      (v.seen.contains key = true → t.ports.sv = s.ports.sv ∧ t.steps = s.steps) ∧
      (v.seen.contains key = false →
        (∃ w ∈ t.ports.sv, w.entry = v.entry ∧ w.seen = key :: v.seen) ∧
        (s.svShort v.entry.slot (a :: more) = true → t.reports s blockPorts refused 0x0C) ∧
        (s.svShort v.entry.slot (a :: more) = false →
          t.reports s blockPorts served 0 ∨ ∃ c, t.reports s blockPorts shed c)) := by
  obtain ⟨ingress, again, new⟩ := State.serveSv_spec (s := s.satReg (portReg f.port 0x10) n) (f := f) (a := a) (more := more) here
  have alike := s.portDrops_alike f.port n
  refine ⟨ingress, again, fun unseen => ?_⟩
  obtain ⟨seen, short, long⟩ := new unseen
  exact ⟨seen, fun few => (short few).congr rfl alike, fun enough =>
    (long enough).imp (·.congr rfl alike) fun ⟨c, reports⟩ => ⟨c, reports.congr rfl alike⟩⟩

/-- SAMPLED_VALUE_FRAME (R365, R366, R452). -/
theorem effSampledValueFrame_spec {f : BufFrame} {rest : List BufFrame} {mac appid : Nat} {asdus : List Asdu} {s : State}
    (up : s.up = true) (queue : s.ports.ingress = f :: rest) (body : f.body = .sv mac appid asdus) :
    let t := effSampledValueFrame s
    t.ports.ingress = rest ∧
      (s.svOf mac appid asdus = none → t.ports.sv = s.ports.sv ∧
        t.reg (portReg f.port 0x10) = min (s.reg (portReg f.port 0x10) + max 1 asdus.length) (2 ^ 32 - 1)) ∧
      ∀ v a more, s.svOf mac appid asdus = some v → s.inRun = true →
        asdus.filter (fun a => a.svid == v.entry.svid) = a :: more →
        let key := (s.svSecond v.entry f.arrival a.smpCnt, a.smpCnt)
        (v.seen.contains key = true → t.ports.sv = s.ports.sv ∧ t.steps = s.steps) ∧
        (v.seen.contains key = false →
          (∃ w ∈ t.ports.sv, w.entry = v.entry ∧ w.seen = key :: v.seen) ∧
          (s.svShort v.entry.slot (a :: more) = true → t.reports s blockPorts refused 0x0C) ∧
          (s.svShort v.entry.slot (a :: more) = false →
            t.reports s blockPorts served 0 ∨ ∃ c, t.reports s blockPorts shed c)) := by
  intro t
  have eq : t = _ := effSampledValueFrame_eq up queue body
  cases tether : s.svOf mac appid asdus with
  | none =>
    rw [tether] at eq
    rw [eq]
    exact ⟨rfl, fun _ => ⟨rfl, State.reg_satReg _ _ _⟩, fun v a more no => absurd no (by simp)⟩
  | some v =>
    rw [tether] at eq
    cases run : s.inRun with
    | false =>
      rw [run] at eq
      rw [eq]
      exact ⟨rfl, fun no => absurd no (by simp), fun _ _ _ _ no => absurd no (by decide)⟩
    | true =>
      rw [run] at eq
      cases mine : asdus.filter (fun a => a.svid == v.entry.svid) with
      | nil =>
        rw [eq]
        dsimp only
        rw [mine]
        refine ⟨rfl, fun no => absurd no (by simp), fun w a more same _ theirs => ?_⟩
        obtain rfl := Option.some.inj same
        exact absurd (mine.symm.trans theirs) (by simp)
      | cons a more =>
        obtain ⟨ingress, spec⟩ := State.countedSv_spec (s := { s with ports := { s.ports with ingress := rest } }) (f := f) (a := a)
          (more := more) (State.svOf_spec tether) (asdus.length - (a :: more).length)
        rw [eq]
        dsimp only
        rw [mine]
        refine ⟨ingress, fun no => absurd no (by simp), fun w b others same _ theirs => ?_⟩
        obtain rfl := Option.some.inj same
        obtain ⟨rfl, rfl⟩ := List.cons.inj (mine.symm.trans theirs)
        exact spec

end Sys2Proof.Machine

open Sys2Proof Sys2Proof.Machine

/-- Settles O54: frames of a session by what all work keeps of sessions, acknowledgements and status by the frames that leave, time
exchanges and sampled values by their input and their answer. -/
theorem sessionsServeFrames : Obligations.SessionsServeFrames := by
  refine ⟨⟨?data, ?release, ?ack, ?statusReq, fun slot x s up apart live => ⟨?status, ?timeReq⟩⟩, ?timeResp, ?samples⟩
  case data =>
    intro f p x s up apart new q room
    obtain ⟨y, served⟩ := effData_spec up apart new
    exact ⟨_, y, rfl, served⟩
  case release =>
    intro slot x q s up apart ready
    obtain ⟨y, released⟩ := effDelayQueueRelease_spec up apart ready
    exact ⟨_, y, rfl, released⟩
  case ack => exact fun slot s up apart => ⟨_, rfl, effAck_spec up apart⟩
  case statusReq => exact fun f p x s up apart new => ⟨_, rfl, effStatusReq_spec up apart new⟩
  case status => exact ⟨_, rfl, effStatus_spec up apart live⟩
  case timeReq => exact fun asks _ room q => ⟨_, rfl, effTimeReq_spec up apart live asks room⟩
  case timeResp =>
    intro f p x r s up apart new length open_ t2 t3 δ θ
    obtain ⟨-, -, -, named, -⟩ := State.newFrame_parts new
    obtain ⟨-, taken, left⟩ := State.frameTaken_spec (f := f) apart named
    obtain ⟨ingress, ended, refuses, waits⟩ := State.exchangeEnds_spec (x := x)
      (w := (x.accept (frSeq p) f.arrival).exchange x.nextExch (x.requests.erase r)) taken f p θ δ
      (if x.timeSource = 0 then f.offsets.1 else if x.timeSource = 1 then f.offsets.2 else 0)
    refine ⟨_, congrArg Host.Outcome.next (effTimeResp_eq up new length open_), ingress.trans left, ended, fun negative => ?_,
      fun forward run c n running cadence occurrence open_ limit unseen single => ?_⟩
    · obtain ⟨reports, steps⟩ := refuses negative
      exact ⟨reports.congr rfl (s.frameTaken_alike f p x), steps⟩
    · exact ⟨_, waits forward run c n running cadence occurrence open_ limit unseen single, rfl, rfl, rfl, rfl,
        clockInputs_clockInput f p x θ δ _ _⟩
  case samples => exact fun f rest mac appid asdus s up queue body => ⟨_, rfl, effSampledValueFrame_spec up queue body⟩

end
